-- ==== Sys2Proof/Word.lean ====
section
/-!
DEFINITION. Sys2Proof/Word.lean: the words of the Corwa 12 (R8), the type of a sparse table, and exact numbers.
-/

namespace Sys2Proof

abbrev W8 := BitVec 8
abbrev W16 := BitVec 16
abbrev W32 := BitVec 32
abbrev W64 := BitVec 64

/-- Sparse data by number: pairs of a key and what it holds; an unlisted key holds the table's default. -/
abbrev Tab (α : Type) := List (Nat × α)

/-- A decoded operand (R113 to R124): a NaN with its sign bit, an infinity with its sign, or exactly (-1)^neg * m * 2^e. -/
inductive FVal where
  | nan (neg : Bool)
  | inf (neg : Bool)
  | fin (neg : Bool) (m : Nat) (e : Int)
  deriving DecidableEq, Repr

end Sys2Proof
end

