-- ==== Sys2Proof/Syntax.lean ====
section
/-!
DEFINITION. Sys2Proof/Syntax.lean: the commands of the Corwa 12, one constructor for each row of the table of
operations and events, with the row's operands. What the outside alone can know (an arrival time, a sensor's
reading, a packet, the outcome of a test) is an operand of the command that brings it.
-/

namespace Sys2Proof

/-- A logical tile (R26): its sector and its number in the sector. -/
structure TileRef where
  sector : Fin 12
  tile : Fin 16
  deriving DecidableEq, Repr

/-- Who accesses a CSR (R10): a management stream, a tile's control core, or the custody firmware. -/
inductive Requester where
  | mgmt (stream : Nat)
  | core (t : TileRef)
  | custody
  deriving DecidableEq, Repr

/-- Bits 31:7 of an OP instruction (R79): `hi` is bits 31:18, IMM14 when `i` is 1, else nine RSV bits and RS2. -/
structure OpArgs where
  hi : BitVec 14
  i : Bool
  rs1 : BitVec 5
  rd : BitVec 5
  deriving DecidableEq, Repr

/-- Bits 31:7 of a MEM instruction other than an atomic or FENCE.M (R79). -/
structure MemArgs where
  imm : BitVec 14
  v : Bool
  rs1 : BitVec 5
  rd : BitVec 5
  deriving DecidableEq, Repr

/-- Bits 31:7 of an atomic (R82). -/
structure AmoArgs where
  rsv : BitVec 3
  w : Bool
  rs3 : BitVec 5
  rs2 : BitVec 5
  bit17 : Bool
  rs1 : BitVec 5
  rd : BitVec 5
  deriving DecidableEq, Repr

/-- Bits 127:14 of a tensor instruction (R89). -/
structure TensorArgs where
  wait : W64
  greg : BitVec 5
  mod : BitVec 19
  dc : BitVec 5
  db : BitVec 5
  da : BitVec 5
  sreg : BitVec 3
  se : Bool
  token : BitVec 6
  te : Bool
  deriving DecidableEq, Repr

/-- What the power controller reads in a tick (R459): the watts (f32) of the unthrottled dies, of each sector's
dynamic power, the hottest sensor (f32, °C), the averages in whole watts, the hottest die sensor in whole °C with
its sector, and whether every stack and sensor lets a trip end (R463). -/
structure Telemetry where
  pu : W32
  pd : List W32
  thot : W32
  totalW : Nat
  computeW : Nat
  hottestC : Nat
  hotSector : Fin 12
  deriving DecidableEq, Repr

/-- One unit's progress counter as Gander samples it (R435). -/
structure UnitSample where
  unit : BitVec 16
  pending : Bool
  counter : W32
  deriving DecidableEq, Repr

/-- A tick message as it arrives (R424), without its KIND, which the command names. -/
structure TickMsg where
  hops : W8
  root : W16
  value : W32
  tick : W64
  step : W64
  time : W64
  deriving DecidableEq, Repr

/-- One residue mismatch of a running instruction (R163, R167) and the row, beat or line it fell on (R162). -/
structure ResidueHit where
  unit : BitVec 4
  column : W8
  row : W8
  at_ : Nat
  deriving DecidableEq, Repr

/-- What the hardware adds to an engine's completion: residue mismatches in order (R162), the Press stall
cycles of coded blocks whose header could not be read (R188), and cycles of waiting that a register counts (R228, R230). -/
structure EngineReport where
  hits : List ResidueHit
  stall : Nat
  waits : Nat
  deriving DecidableEq, Repr

/-- The key of a bracket vote (R333). -/
structure VoteKey where
  ctx : Nat
  step : Nat
  layer : Nat
  occurrence : Nat
  level : Nat
  deriving DecidableEq, Repr

/-- Who makes a request to a hub slice: the tile or engine of a sector, an Ox unit, a peer or the host. -/
inductive Source where
  | sector (n : Fin 12)
  | ox (n : Fin 12)
  | peer (dev : W16)
  | host
  deriving DecidableEq, Repr

/-- A request to a hub slice: who asks, with the context and logical tile it carries (R32), a number that names the answer, the physical
address and the bytes; and what the cache array has come to differ in on the line's 72 bytes (R271): place 0 to 7 is a check byte, 8 to 71 a
data byte, the value what was added. -/
structure SliceReq where
  from_ : Source
  ctx : Fin 16
  tile : Option (Fin 16)
  tag : Nat
  addr : Nat
  len : Nat
  upset : List (Fin 72 × W8)
  deriving DecidableEq, Repr

/-- The atomics of R82. -/
inductive AmoOp where
  | add | fadd | min | max | and | or | xor | swap | cas
  deriving DecidableEq, Repr

/-- One beat of a burst on its lines (R251): 16 data bits, 2 check bits and the parity bit. -/
structure Beat where
  data : BitVec 16
  check : BitVec 2
  parity : Bool
  deriving DecidableEq, Repr

/-- One transfer of a line: whether the command arrived with a wrong parity, and the lines on which each beat arrived changed. -/
structure Transfer where
  commandBad : Bool
  noise : List Beat
  deriving DecidableEq, Repr

/-- How a burst arrived (R251, R257): its transfers, the first and its retries. One that is not listed arrives as sent. -/
structure Burst where
  transfers : List Transfer
  deriving DecidableEq, Repr

/-- A stream's line: the stream's number and the cycles that the line has waited for its port (R300, R323). -/
structure LineReport where
  id : Nat
  waits : Nat
  deriving DecidableEq, Repr

/-- One line written to the reduction aperture (R276) with the step it carries (R370). -/
structure RedLine where
  window : W8
  slot : BitVec 6
  offset : Nat
  step : W64
  remote : Bool
  data : List W8
  deriving DecidableEq, Repr

/-- The result of least squares on a characterisation (R467), as the power controller's firmware finds it. -/
structure CharFit where
  thetaF : W32
  tauF : W32
  thetaS : W32
  tauS : W32
  loc : List W16
  rms : W32
  coolant : W8
  sustain : BitVec 12
  deriving DecidableEq, Repr

/-- One sector's fit at a refit of the ageing model (R474, R475): k, S (f32), the worst in-situ tile when the
worst sensors lie in one tile, and the SRAM model's projection and measurement (R477). -/
structure AgeFit where
  k : W32
  sens : W32
  worstTile : Option (Fin 16)
  sramProjected : W16
  sramMeasured : W16
  sramTile : Fin 16
  deriving DecidableEq, Repr

/-- What bring-up finds after RESET_N is released (R494, R514, R519, R521): the power-up or reset that led here,
TEST_MODE, which checks of the units fail, and whether the side path and die-to-die ports train. -/
structure BootReport where
  powerUp : Bool
  testMode : Bool
  failedUnits : List (BitVec 16)
  sidePathOk : Bool
  fit : CharFit
  deriving DecidableEq, Repr

/-- The outcome of a port's training (R392, R415, R428). -/
structure TrainReport where
  up : Bool
  lanes : Nat
  badLanes : List (Fin 8)
  /-- the equalisation that full training found; none where the stored one held -/
  eq : Option W64
  latencyNs : W16
  peer : W16
  peerPort : BitVec 4
  deriving DecidableEq, Repr

/-- The headers of a RoCEv2 packet that matter to R395 to R400: destination queue pair, PSN, address, R_Key, length, the
place of the packet in its message, and, where it is marked CE (R409), when it came,
in ns. -/
structure RoceHdr where
  qp : BitVec 24
  psn : W32
  addr : W64
  rkey : W32
  len : Nat
  first : Bool
  last : Bool
  ce : Option Nat
  deriving DecidableEq, Repr

/-- A Nimser header (R402), without OP, which the command names; `ce` is when the packet came, in ns, where it is marked CE (R409). -/
structure NimHdr where
  epoch : BitVec 4
  retx : Bool
  host : Bool
  hops : W8
  src : W16
  dst : W16
  stream : W16
  vc : BitVec 2
  ctx : W8
  psn : W32
  ackPsn : W32
  length : W16
  status : W8
  queue : W8
  addr : W64
  aux : W64
  ce : Option Nat
  deriving DecidableEq, Repr

/-- One end's name of a Nimser stream (R404): the other device and virtual channel, or a host connection. -/
inductive StreamRef where
  | peer (dev : W16) (vc : BitVec 2)
  | conn (i : W8)
  deriving DecidableEq, Repr

/-- The way by which a CSR or MGMT request comes in (R403, R528): its port, and, on the host port, whether it came to MGMT_PORT with the
VLAN and priority of HOST.MGMT. -/
structure Via where
  port : Fin 17
  onMgmt : Bool
  deriving DecidableEq, Repr

/-- A CSR or MGMT request as it arrives: its way and its header. -/
structure MgmtReq extends Via where
  hdr : NimHdr
  deriving DecidableEq, Repr

/-- A request by its stream and its PSN. -/
structure Asker where
  ref : StreamRef
  psn : W32
  deriving DecidableEq, Repr

/-- A flit (R410, R411): its link header's fields but for KIND, which the command gives, its payload and its CRC. -/
structure Flit where
  seq : BitVec 12
  ack : BitVec 12
  ackValid : Bool
  nak : Bool
  vc : BitVec 2
  sop : Bool
  eop : Bool
  used : W8
  crvc : BitVec 2
  credits : BitVec 6
  payload : List W8
  crc : W32
  deriving DecidableEq, Repr

/-- A token (R488), field by field. -/
structure Token where
  magic : W32
  kind : W8
  level : W8
  slot : W8
  rsv007 : W8
  uid : BitVec 128
  nonce : BitVec 256
  validTicks : W32
  rsv03c : W32
  keyHash : BitVec 512
  newSlot : W8
  revoke : W8
  policy : W8
  rsv083 : BitVec 104
  signerPub : BitVec 1088
  signature : BitVec 1056
  deriving DecidableEq, Repr

/-- The level of the reset ladder that a timeout abandons (R439). -/
inductive LevelRef where
  | engine (t : TileRef) (e : Fin 9)
  | tile (t : TileRef)
  | partition (n : Fin 12)
  | warm
  deriving DecidableEq, Repr

/-- The commands, in the order of the table of operations and events. -/
inductive Instr where
  | tickEdge (tel : Telemetry) (now : Nat)
  | guardStart (tel : Telemetry) (samples : List UnitSample)
  | plan
  | cancel
  | batch
  | step
  | reservedWorkListType
  | announceLead (now : Nat)
  | marker (port : Fin 16) (m : TickMsg) (arrival : Nat)
  | announce (port : Fin 17) (m : TickMsg)
  | stretchReq (port : Fin 17) (m : TickMsg)
  | period (port : Fin 17) (m : TickMsg)
  | tickNextAtHiWrite (r : Requester) (v : W32)
  | tickRunSet (now : Nat)
  | ppsInRise (now : Nat)
  | maintenanceReserveEnd
  | seqEdgeDutyTimeout
  | failedCoreSelftestDone (pass : Bool)
  | add (t : TileRef) (a : OpArgs)
  | sub (t : TileRef) (a : OpArgs)
  | and (t : TileRef) (a : OpArgs)
  | or (t : TileRef) (a : OpArgs)
  | xor (t : TileRef) (a : OpArgs)
  | sll (t : TileRef) (a : OpArgs)
  | srl (t : TileRef) (a : OpArgs)
  | sra (t : TileRef) (a : OpArgs)
  | mul (t : TileRef) (a : OpArgs)
  | mulh (t : TileRef) (a : OpArgs)
  | mulhu (t : TileRef) (a : OpArgs)
  | div (t : TileRef) (a : OpArgs)
  | divu (t : TileRef) (a : OpArgs)
  | rem (t : TileRef) (a : OpArgs)
  | remu (t : TileRef) (a : OpArgs)
  | min (t : TileRef) (a : OpArgs)
  | max (t : TileRef) (a : OpArgs)
  | minu (t : TileRef) (a : OpArgs)
  | maxu (t : TileRef) (a : OpArgs)
  | cmpeq (t : TileRef) (a : OpArgs)
  | cmplt (t : TileRef) (a : OpArgs)
  | cmpltu (t : TileRef) (a : OpArgs)
  | ldb (t : TileRef) (a : MemArgs)
  | ldh (t : TileRef) (a : MemArgs)
  | ldw (t : TileRef) (a : MemArgs)
  | ldd (t : TileRef) (a : MemArgs)
  | ldbu (t : TileRef) (a : MemArgs)
  | ldhu (t : TileRef) (a : MemArgs)
  | ldwu (t : TileRef) (a : MemArgs)
  | stb (t : TileRef) (a : MemArgs)
  | sth (t : TileRef) (a : MemArgs)
  | stw (t : TileRef) (a : MemArgs)
  | std (t : TileRef) (a : MemArgs)
  | dld (t : TileRef) (a : MemArgs)
  | dst (t : TileRef) (a : MemArgs)
  | csrr (t : TileRef) (a : MemArgs)
  | csrw (t : TileRef) (a : MemArgs)
  | fenceM (t : TileRef) (rsv : BitVec 25)
  | amoAdd (t : TileRef) (a : AmoArgs)
  | amoFadd (t : TileRef) (a : AmoArgs)
  | amoMin (t : TileRef) (a : AmoArgs)
  | amoMax (t : TileRef) (a : AmoArgs)
  | amoAnd (t : TileRef) (a : AmoArgs)
  | amoOr (t : TileRef) (a : AmoArgs)
  | amoXor (t : TileRef) (a : AmoArgs)
  | amoSwap (t : TileRef) (a : AmoArgs)
  | amoCas (t : TileRef) (a : AmoArgs)
  | scalarMemComplete (t : TileRef)
  | jal (t : TileRef) (off : BitVec 20) (rd : BitVec 5)
  | jalr (t : TileRef) (imm : BitVec 14) (rsv : Bool) (rs1 : BitVec 5) (rd : BitVec 5)
  | br (t : TileRef) (off : BitVec 20) (rsv : Bool) (n : Bool) (p : BitVec 3)
  | brs (t : TileRef) (off : BitVec 20) (cond : BitVec 2) (s : BitVec 3)
  | lsh (t : TileRef) (imm : BitVec 20) (rd : BitVec 5)
  | pset (t : TileRef) (rsvHi : BitVec 10) (tt : BitVec 4) (pb : BitVec 3) (pa : BitVec 3) (rsvLo : BitVec 2) (pd : BitVec 3)
  | smov (t : TileRef) (rsv : BitVec 17) (s : BitVec 3) (rd : BitVec 5)
  | tstat (t : TileRef) (rsv : BitVec 14) (tok : BitVec 6) (rd : BitVec 5)
  | twait (t : TileRef) (mask : W16) (rsv : BitVec 7) (group : BitVec 2)
  | tclr (t : TileRef) (mask : W16) (rsv : BitVec 7) (group : BitVec 2)
  | dbase (t : TileRef) (rsv : BitVec 14) (a : Bool) (rs1 : BitVec 5) (rd : BitVec 5)
  | eret (t : TileRef) (rsv : BitVec 25)
  | brk (t : TileRef) (code : BitVec 25)
  | engineHeadBegin (t : TileRef) (e : Fin 9)
  | tensorComplete (t : TileRef) (e : Fin 9) (r : EngineReport)
  | mload (t : TileRef) (a : TensorArgs)
  | mzero (t : TileRef) (a : TensorArgs)
  | mmaE4 (t : TileRef) (a : TensorArgs)
  | mmaE5 (t : TileRef) (a : TensorArgs)
  | mmaC4 (t : TileRef) (a : TensorArgs)
  | mmaBf (t : TileRef) (a : TensorArgs)
  | mmaHf (t : TileRef) (a : TensorArgs)
  | mmaF32 (t : TileRef) (a : TensorArgs)
  | vadd (t : TileRef) (a : TensorArgs)
  | vsub (t : TileRef) (a : TensorArgs)
  | vmul (t : TileRef) (a : TensorArgs)
  | vfma (t : TileRef) (a : TensorArgs)
  | vmax (t : TileRef) (a : TensorArgs)
  | vmin (t : TileRef) (a : TensorArgs)
  | vabs (t : TileRef) (a : TensorArgs)
  | vneg (t : TileRef) (a : TensorArgs)
  | vcmp (t : TileRef) (a : TensorArgs)
  | vsel (t : TileRef) (a : TensorArgs)
  | vmov (t : TileRef) (a : TensorArgs)
  | vand (t : TileRef) (a : TensorArgs)
  | vor (t : TileRef) (a : TensorArgs)
  | vxor (t : TileRef) (a : TensorArgs)
  | vexp (t : TileRef) (a : TensorArgs)
  | vlog (t : TileRef) (a : TensorArgs)
  | vrcp (t : TileRef) (a : TensorArgs)
  | vrsq (t : TileRef) (a : TensorArgs)
  | vsin (t : TileRef) (a : TensorArgs)
  | vcos (t : TileRef) (a : TensorArgs)
  | vcvt (t : TileRef) (a : TensorArgs)
  | vquant (t : TileRef) (a : TensorArgs)
  | vimport (t : TileRef) (a : TensorArgs)
  | vexport (t : TileRef) (a : TensorArgs)
  | vperm (t : TileRef) (a : TensorArgs)
  | vgather (t : TileRef) (a : TensorArgs)
  | vrsum (t : TileRef) (a : TensorArgs)
  | vrmax (t : TileRef) (a : TensorArgs)
  | vrmin (t : TileRef) (a : TensorArgs)
  | vrssq (t : TileRef) (a : TensorArgs)
  | vramax (t : TileRef) (a : TensorArgs)
  | vacc (t : TileRef) (a : TensorArgs)
  | drvGo (t : TileRef) (a : TensorArgs)
  | drvCancel (t : TileRef) (a : TensorArgs)
  | drvPut (t : TileRef) (a : TensorArgs)
  | attn (t : TileRef) (a : TensorArgs)
  | merge (t : TileRef) (a : TensorArgs)
  | kvappend (t : TileRef) (a : TensorArgs)
  | kvprefix (t : TileRef) (a : TensorArgs)
  | conv2 (t : TileRef) (a : TensorArgs)
  | conv3 (t : TileRef) (a : TensorArgs)
  | stip (t : TileRef) (a : TensorArgs)
  | trgPush (t : TileRef) (a : TensorArgs)
  | trgPop (t : TileRef) (a : TensorArgs)
  | trgDrop (t : TileRef) (a : TensorArgs)
  | trgFlush (t : TileRef) (a : TensorArgs)
  | syncTick (t : TileRef) (a : TensorArgs)
  | sliceEnd (t : TileRef)
  | layerOpen (t : TileRef) (a : TensorArgs)
  | layerClose (t : TileRef) (a : TensorArgs)
  | syncJoin (t : TileRef) (a : TensorArgs)
  | bracketVoteClose (k : VoteKey)
  | oxRule (t : TileRef) (a : TensorArgs)
  | oxProg (t : TileRef) (a : TensorArgs)
  | oxCommandEnqueue (t : TileRef)
  | oxPass1 (n : Fin 12)
  | oxPass2 (n : Fin 12)
  | oxPass2WindowsReady (n : Fin 12)
  | oxPass2WaitTimeout (n : Fin 12)
  | oxPassComplete (n : Fin 12)
  | scaleFetch (t : TileRef) (e : Fin 9) (operand : Fin 3)
  | scaleNote
  | sliceRead (n : Fin 12) (q : SliceReq)
  | sliceWrite (n : Fin 12) (q : SliceReq) (data : List W8)
  | sliceAtomic (n : Fin 12) (q : SliceReq) (op : AmoOp) (w : Bool) (v : W64) (c : W64)
  | cacheFillComplete (n : Fin 12) (line : Nat)
  | quireBurstComplete (n : Fin 12) (line : Nat) (b : Burst)
  | scrubRead (n : Fin 12) (line : Nat) (b : Burst)
  | poisonFillGroup (n : Fin 12) (group : Nat)
  | stackTempReading (n : Fin 12) (c : W8) (now : Nat)
  | marginStart (n : Fin 12)
  | marginSweepDone (n : Fin 12) (margins : List (W16 × W16))
  | xlInvalHiWrite (r : Requester) (v : W32)
  | xlInvalDone
  | redLineWrite (n : Fin 12) (l : RedLine)
  | windowGraceExpiry (n : Fin 12) (w : W8)
  | windowWaitExpiry (n : Fin 12) (w : W8)
  | streamBegin (t : TileRef)
  | streamLineResponse (n : Fin 12) (line : LineReport)
  | streamComplete (n : Fin 12) (id : Nat)
  | drvCancelComplete (t : TileRef)
  | troughAutoSwap (n : Fin 12) (k : Fin 32)
  | troughStaleTimeout (n : Fin 12) (k : Fin 32)
  | hostMessageDrain (q : Fin 64)
  | hang (unit : BitVec 16)
  | fenceEnd (n : Fin 12)
  | sidePathReadTimeout (n : Fin 12) (unit : BitVec 16)
  | snapshotTimeout (n : Fin 12)
  | snapshotComplete (n : Fin 12)
  | partitionResetDone (n : Fin 12) (badWays : List (Fin 18)) (viaChannels : List (Fin 128))
  | resetLevelTimeout (l : LevelRef)
  | controlStateParityError (unit : BitVec 16)
  | ganderLost
  | custodyWatchdogExpiry
  | ownerResetRequest
  | unitDisableRequest
  | unitEnableRequest
  | dumpSlotFree (mask : BitVec 4)
  | dumpDataRead (r : Requester)
  | resInject (r : Requester) (t : TileRef)
  | clockForecast (tel : Telemetry)
  | timingEmergency (n : Fin 12)
  | timingEmergencyEnd
  | thermalTrip (source : Fin 3) (index : W8) (c : W8)
  | thermTripN
  | charStart
  | charPhaseEnd (fit : CharFit)
  | ageingRefit (fits : List AgeFit) (lanes : List (Fin 17 × Fin 8))
  | refclkLost
  | pwrOkAssert
  | pwrOkFall
  | resetNAssert (ns : Nat)
  | resetNRelease (b : BootReport)
  | settingsWrite
  | settingsWriteDone
  | retainWriteNow
  | retainFactory
  | portRetrain (p : Fin 16)
  | hostRetrain
  | linkDown (p : Fin 17)
  | portTrainingDone (p : Fin 17) (r : TrainReport)
  | unsupportedFrame (p : Fin 17)
  | arpRequest (ip : W32) (mac : BitVec 48) (senderIp : W32)
  | neighborSolicitation (ip : BitVec 128) (mac : BitVec 48) (senderIp : BitVec 128)
  | pfcFrame (p : Fin 17) (priority : Fin 8) (stop : Bool)
  | ptpSync (p : Fin 17) (twoStep : Bool) (origin : Nat) (arrival : Nat)
  | ptpFollowUp (p : Fin 17) (origin : Nat)
  | ptpDelayResp (p : Fin 17) (sent : Nat) (received : Nat)
  | ptpAnnounce (p : Fin 17) (clock : W64) (rank : Nat)
  | connOpen (i : W8)
  | connClose (i : W8)
  | roceSend (h : RoceHdr) (data : List W8)
  | roceRdmaWrite (h : RoceHdr) (data : List W8)
  | roceRdmaRead (h : RoceHdr)
  | roceAck (h : RoceHdr)
  | roceNak (h : RoceHdr) (syndrome : W8)
  | roceReadResponse (h : RoceHdr) (data : List W8)
  | cnp (i : W8) (now : Nat)
  | roceRetryTimeout (i : W8)
  | write (p : Fin 17) (h : NimHdr) (data : List W8)
  | readReq (p : Fin 17) (h : NimHdr)
  | atomic (p : Fin 17) (h : NimHdr) (op : W8) (w : Bool) (v : W64) (c : W64)
  | redWrite (p : Fin 17) (h : NimHdr) (data : List W8)
  | push (p : Fin 17) (h : NimHdr) (data : List W8)
  | nimserAck (p : Fin 17) (h : NimHdr)
  | nimserNak (p : Fin 17) (h : NimHdr)
  | readResp (p : Fin 17) (h : NimHdr) (data : List W8)
  | atomicResp (p : Fin 17) (h : NimHdr) (old : W64)
  | errorResp (p : Fin 17) (h : NimHdr)
  | congestion (p : Fin 17) (h : NimHdr) (now : Nat)
  | resync (p : Fin 17) (h : NimHdr)
  | nimserRtoExpiry (request : Asker)
  | nimserAckTimer (s : StreamRef)
  | rateIncreaseTimer (s : StreamRef)
  | flitData (p : Fin 16) (f : Flit)
  | flitIdle (p : Fin 16) (f : Flit)
  | flitReplayTimeout (p : Fin 16)
  | flitAckTimer (p : Fin 16)
  | routeLoad
  | routeLoadCopied
  | csrReadRequest (via : Via) (hdr : NimHdr) (rest : BitVec 63)
  | csrWriteRequest (via : Via) (hdr : NimHdr) (rest : BitVec 31) (v : W32)
  | imageWrite (via : Via) (hdr : NimHdr) (bank : W32) (data : List W8)
  | memRead (via : Via) (hdr : NimHdr) (arg0 : W32) (len : W64)
  | memWrite (via : Via) (hdr : NimHdr) (data : List W8)
  | ledgerRead (q : MgmtReq) (first : W32) (count : W64)
  | dumpRead (via : Via) (hdr : NimHdr) (slot : W32) (len : W64)
  | eventLog (q : MgmtReq) (first : W64)
  | debug (q : MgmtReq) (tok : Token)
  | vendorDebug (q : MgmtReq) (tok : Token)
  | ownership (q : MgmtReq) (tok : Token)
  | ownerKey (q : MgmtReq) (tok : Token)
  | returnAuth (q : MgmtReq) (tok : Token)
  | returnVendor (q : MgmtReq) (tok : Token)
  | scrap (q : MgmtReq) (tok : Token)
  | blankToVendor (uid : BitVec 128) (vendorHashes : List (BitVec 512))
  | debugLevelExpiry
  | debugClose
  | returnArmedExpiry
  | fwVerify
  | fwActivate
  | fwCommit
  | getVersion (q : MgmtReq)
  | getCapabilities (q : MgmtReq)
  | negotiateAlgorithms (q : MgmtReq) (asym : W32) (hash : W32)
  | getDigests (q : MgmtReq)
  | getCertificate (q : MgmtReq) (slot : W8) (offset : W16) (length : W16)
  | challenge (q : MgmtReq) (slot : W8) (nonce : BitVec 256)
  | getMeasurements (q : MgmtReq) (index : W8) (nonce : BitVec 256)
  | spdmUnsupportedRequest (q : MgmtReq) (code : W8)
  | jtagBypass (tdi : Bool)
  | jtagIdcode
  | jtagSamplePreload (bits : List Bool)
  | jtagExtest
  | jtagScanDump
  | setdasa (addr : BitVec 7)
  | entdaa (addr : BitVec 7)
  | i3cPrivateWrite (pointer : W8)
  | i3cPrivateRead (count : Nat)
  | ledgerAck (unit : BitVec 16)
  | ledgerSweep (reads : List (BitVec 16 × BitVec 4))
  | ledgerAckTimeout (unit : BitVec 16)
  | eventRecordWrite
  | workListReconfigure (r : Requester) (entries : Bool) (v : W32)
  | replayStart
  | csrLoRead (r : Requester) (addr : W32)
  | rcRead (r : Requester) (addr : W32)
  | generalCsrWrite (r : Requester) (addr : W32) (v : W32)
  | sequencerCoreFault
  | thermAlertN (c : W8)
  | securityCommandDone
  | avsbusVoltageConfirm (rail : Bool) (mv : Nat)
  | frameFcsError (p : Fin 17)
  deriving DecidableEq, Repr

end Sys2Proof
end

