-- ==== Sys2Proof/Decode.lean ====
section
/-!
DEFINITION. Sys2Proof/Decode.lean: the command that a word of the table of operations and events spells.
-/

namespace Sys2Proof

/-- No row of the table has bits: its rows are commands, and no word spells one. -/
def decodeTableWord (_nbits _w : Nat) : Option Instr := none

end Sys2Proof
end

