-- ==== Sys2Proof/Config.lean ====
section
/-!
DEFINITION. Sys2Proof/Config.lean: what the manual leaves to the device. Each constant has no body, so nothing can be
proved about its value; the log entry named with each says what it stands for.
-/

namespace Sys2Proof

/-- A value that the manual calls not defined, or does not state: the n-th one drawn (log 1). -/
opaque Config.freeWord : Nat → W64

/-- R155, R200: where within 1 ulp of the exact result an elementary function's result lies, by function and operand: 0 the
nearest FP32 value, 1 the next larger magnitude, 2 the next smaller, taken modulo 3 (log 2). -/
opaque Config.ulpStep : Nat → Nat → Nat

/-- R419: the hash of a stream (SRC_DEV, DST_DEV, VC) that picks its way (log 8). -/
opaque Config.wayHash : Nat → Nat → Nat → Nat

/-- ECDSA P-521 over a message by a public key (R485, R488, R493): whether the signature verifies (log 3). -/
opaque Config.verifies : (pub : BitVec 1088) → (message : List W8) → (signature : BitVec 1056) → Bool

/-- ECDSA P-521 signature by the alias key that a seed gives (R498 to R500) (log 3). -/
opaque Config.signs : (seed message : List W8) → List W8

/-- SHA-512 (R485, R493, R501) (log 3). -/
opaque Config.sha512 : List W8 → BitVec 512

/-- SipHash-2-4 or whatever keyed digest a rule names, by key and message (log 3). -/
opaque Config.keyedHash : List W8 → List W8 → W64

/-- The boot ROM of a stepping (R501) (log 3). -/
opaque Config.bootRom : W8 → List W8

/-- The certificate chain of a slot (R497, R499) as the device holds it (log 3). -/
opaque Config.certificate : Nat → List W8

/-- The factory voltage table in fuses (R458): mV of a sector at a clock in MHz (log 18). -/
opaque Config.vFuse : (sector mhz : Nat) → Nat

/-- The fused leakage table (R459): W, as f32, of the compute die at a temperature in °C, as f32 (log 18). -/
opaque Config.leakage : W32 → W32

/-- The root's TICK.MAINT in a tick, by its device ID, on a device that is not the root (R65): no message of R424 carries it
(log 39). -/
opaque Config.rootMaint : (root : W16) → (tick : W64) → W32

/-- The root's LIMIT_US in a tick, by its device ID, on a device that is not the root (R62): no message of R424 carries it
(log 39). -/
opaque Config.rootLimit : (root : W16) → (tick : W64) → Nat

/-- The UDP source port of a peer stream (SRC_DEV, DST_DEV, VC), which R416 fixes for it (log 48). -/
opaque Config.udpSource : W16 → W16 → BitVec 2 → W16

/-- The transport headers and payload of a RoCEv2 packet as its standard lays them out (R393, R395), from its fields (destination queue
pair, opcode, PSN, address, key, length, syndrome) and its payload (log 48). -/
opaque Config.roceWire : (fields : List Nat) → (data : List W8) → List W8

/-- The ICRC of a RoCEv2 packet (R393), over what its standard names of the packet (log 48). -/
opaque Config.icrc : List W8 → W32

/-- The stress weight of R473 at a voltage in mV and a temperature in °C (f32), in units of 2^-32 (log 18). -/
opaque Config.stress : (mv : Nat) → W32 → Nat

/-- m0 of R474: a sector's slack at manufacture, in ps, as f32 (log 18). -/
opaque Config.slack0 : (sector : Nat) → W32

end Sys2Proof
end

