-- ==== Sys2Proof/Machine/State.lean ====
section
/-!
DEFINITION. Sys2Proof/Machine/State.lean: everything the manual gives the device to hold, as plain data, and the
state after reset. Registers of the field maps whose bits no other field holds live in the CSR file `csr`, by
offset; an unlisted register holds its reset value (Machine/CsrTable.lean).
-/

namespace Sys2Proof.Machine

open Sys2Proof

/-- Byte memory: (address, byte) pairs; an unlisted byte reads 0. -/
abbrev Mem := List Host.Cell

/-- A set of 64-byte lines: all of them or none, but for the exceptions listed. -/
structure LineSet where
  all : Bool := false
  except : List Nat := []
  deriving DecidableEq, Repr

/-! ## Control cores (R70 to R111) -/

/-- Kind tag of a summary register (R72). -/
inductive SKind where
  | int | f32
  deriving DecidableEq, Repr

structure Summary where
  kind : SKind := .int
  val : W64 := 0
  deriving DecidableEq, Repr

inductive TokState where
  | clear | pending | set
  deriving DecidableEq, Repr

/-- A token (R70, R88); `detail` and `src` are what TRAP_INFO reports of it (R108). -/
structure TokenReg where
  state : TokState := .clear
  status : W8 := 0
  suppressed : Bool := false
  origin : BitVec 6 := 0
  detail : W32 := 0
  src : W8 := 0
  deriving DecidableEq, Repr

/-- The register files of a control core, what a layer bracket saves and restores (R103, R104). -/
structure CoreRegs where
  g : Vector W64 32 := Vector.replicate 32 0
  p : Vector Bool 8 := Vector.replicate 8 false
  s : Vector Summary 8 := Vector.replicate 8 {}
  d : Vector (BitVec 256) 32 := Vector.replicate 32 0
  t : Vector TokenReg 64 := Vector.replicate 64 {}
  deriving DecidableEq, Repr

/-- CORE_STATE.RUN (R111), with the end of a slice (R101) told apart from running. -/
inductive Run where
  | idle | running | ending | halted
  deriving DecidableEq, Repr

/-- One entry of a promotion table (R332). -/
structure Promo where
  dreg : BitVec 5
  level1 : BitVec 256
  level2 : BitVec 256
  deriving DecidableEq, Repr

/-- An open layer bracket (R103, R332 to R334). -/
structure Bracket where
  layer : Nat
  occurrence : Nat
  step : Nat
  level : Nat
  sreg : BitVec 3
  saved : CoreRegs
  resume : Nat
  group : BitVec 192
  promo : List Promo
  table : Bool
  voted : Bool
  close : Option TensorArgs
  deriving DecidableEq, Repr

/-- Bytes that an instruction reads or writes: `len` of them from byte `addr` of SPACE `space`; of accumulator bank `bank` where that
is 3. -/
structure Span where
  space : Nat
  bank : Nat
  addr : Nat
  len : Nat
  deriving DecidableEq, Repr

/-- A tensor instruction in an engine queue (R90): its words' fields, the descriptors and g register captured at
issue, the step it latched, and how far it has come. -/
structure Queued where
  engine : Nat
  opcode : Nat
  args : TensorArgs
  da : BitVec 256
  db : BitVec 256
  dc : BitVec 256
  gval : W64
  ctx : Nat
  step : W64
  running : Bool := false
  /-- scales fetched, by operand; none where LOST (R327) -/
  sigma : List (Nat × Option Int) := []
  /-- what the instruction read when it began (R204, R211) -/
  begun : List W8 := []
  moved : Nat := 0
  waited : Bool := false
  order : Nat := 0
  /-- its place among those of the sector's Drover queues in the order in which they reached their queue heads (R290) -/
  reached : Option Nat := none
  /-- bytes that instructions of the other engine wrote while this one ran (R140) -/
  veils : List Span := []
  /-- an unordered instruction makes the results undefined (R229, R347) -/
  open_ : Bool := false
  deriving DecidableEq, Repr

/-- An outstanding scalar access to virtual space (R82, R83). -/
structure ScalarReq where
  /-- the MEM opcode of R82 -/
  op : Nat
  /-- the virtual address, and the physical one it translates to -/
  addr : W64
  phys : Nat
  rd : BitVec 5
  data : List W8
  w : Bool
  operand : W64
  compare : W64
  /-- the value loaded is not defined (R85) -/
  open_ : Bool := false
  /-- names the answer of a window request; 0 where the request is local -/
  tag : Nat
  deriving DecidableEq, Repr

/-- A loaded stationary buffer (R136): format, extents and the exact decoded elements, column by column. -/
structure Buffer where
  fmt : Nat
  k : Nat
  n : Nat
  vals : List FVal
  deriving DecidableEq, Repr

/-- What issue knows of a stationary buffer (R145): the format, K and N of the last MLOAD, and whether an FP32
operand whose high part it holds is still whole. -/
structure BufRec where
  fmt : Nat
  k : Nat
  n : Nat
  whole : Bool
  deriving DecidableEq, Repr

/-- A slice of a plan on one tile (R49): the plan by its serial number, its context and PLAN_ID, the tick, the slice entry
and whether its lateness has been counted (R61). -/
structure Slice where
  serial : Nat
  ctx : Nat
  planId : W64
  tick : W64
  entry : W64
  late : Bool := false
  /-- the guard start at which it became late, in ns -/
  lateAt : Nat := 0
  /-- the accumulator swap it asks for has been made (R53 step 8) -/
  swapped : Bool := false
  deriving DecidableEq, Repr

/-- A logical tile. -/
structure Tile where
  regs : CoreRegs := {}
  pc : W16 := 0
  past : Bool := false
  run : Run := .idle
  late : Bool := false
  repeating : Bool := false
  inTrap : Bool := false
  ctx : BitVec 4 := 0
  trapEn : W8 := 0xA2
  vecOffset : BitVec 14 := 0
  vecValid : Bool := false
  trapPc : W16 := 0
  cause : W8 := 0
  info : W64 := 0
  sticky : BitVec 4 := 0
  bracket : Option Bracket := none
  queues : Tab (List Queued) := []
  outstanding : Option ScalarReq := none
  sb0 : Option Buffer := none
  sb1 : Option Buffer := none
  rec0 : Option BufRec := none
  rec1 : Option BufRec := none
  /-- LAYER.OPENs so far by context, layer and step (R333) -/
  opens : List ((Nat × Nat × Nat) × Nat) := []
  /-- the slice that runs or ran last -/
  cur : Option Slice := none
  /-- plans, by serial number, whose remaining slices are skipped (R109) -/
  skip : List Nat := []
  /-- tensor instructions issued in the slice that the program has not waited on (R85) -/
  unwaited : List Queued := []
  /-- plans, by serial number, whose first slice the tile has started (R70, R74) -/
  begun : List Nat := []
  /-- slices that wait to start: for the reserve (R65), a late slice (R61) or due entries (R296) -/
  waiting : List Slice := []
  /-- Press stall cycles of the tick (R188) -/
  stall : Nat := 0
  /-- CORE_CYCLES as read last (R110), and whether a slice has run since -/
  cycles : W64 := 0
  ran : Bool := false
  /-- array spare rows and columns used (R165) -/
  rowsUsed : Nat := 0
  colsUsed : Nat := 0
  /-- the spare tile stands in for this logical tile (R26) -/
  spared : Bool := false
  deriving DecidableEq, Repr

/-! ## Sectors: Drover, troughs, convolution engines, tallies -/

/-- A stream (R290 to R306). -/
structure Stream where
  id : Nat
  tile : Fin 16
  put : Bool
  ctx : Nat
  list : BitVec 256
  args : TensorArgs
  entries : Nat
  buffer : Nat
  rate : Nat
  priority : Nat
  tag : W16
  starts : W64
  place : Nat
  startTick : W64
  step : W64
  entry : Nat := 0
  /-- the bytes of the entry in progress -/
  cur : List W8 := []
  row : Nat := 0
  off : Nat := 0
  packed : Nat := 0
  packAt : W64 := 0
  status : W8 := 0
  detail : W32 := 0
  stopped : Bool := false
  done : Bool := false
  cancelled : Bool := false
  /-- a DRV.CANCEL that runs named this stream (R304) -/
  target : Bool := false
  waited : Bool := false
  moved : Nat := 0
  /-- an operand has written into its buffer (R302) -/
  spoiled : Bool := false
  deriving DecidableEq, Repr

/-- A trough word (R308): 64 bytes, its end mark and its poison mark (R303). -/
structure TWord where
  data : BitVec 512
  endMark : Bool
  bad : Bool
  deriving DecidableEq, Repr

/-- A trough (R308, R309). -/
structure Trough where
  producer : W8 := 0xFF
  consumer : W8 := 0x10
  ticked : Bool := false
  force : Bool := false
  stale : Nat := 0
  hostq : Nat := 0
  fill : List TWord := []
  drain : List TWord := []
  last : BitVec 512 := 0
  dropPending : Bool := false
  staleRaised : Bool := false
  swapPlanned : Nat := 0
  deriving DecidableEq, Repr

/-- A convolution engine of a sector (R229, R244, R246). -/
structure ConvEngine where
  busy : Option (Fin 16) := none
  last : Fin 16 := 0
  repair : Bool := false
  deriving DecidableEq, Repr

/-- A sector. -/
structure Sector where
  streams : List Stream := []
  nextStream : Nat := 0
  pool : Nat := 8
  troughs : Tab Trough := []
  xh : ConvEngine := {}
  st : ConvEngine := {}
  /-- tally slots (R341): counter 6 s + c -/
  tallies : Tab W64 := []
  headOrder : Nat := 0
  bad : LineSet := {}
  deriving DecidableEq, Repr

/-! ## Hub slices -/

/-- A line in the shared cache (R268 to R271). -/
structure CacheLine where
  data : List W8
  dirty : Bool
  /-- what the array's 72 bytes have come to differ in from the codeword written (R271), as `SliceReq.upset` gives it -/
  upset : List (Fin 72 × W8) := []
  stamp : Nat
  deriving DecidableEq, Repr

/-- What a request asks of a slice. -/
inductive SliceOp where
  | read
  | write (data : List W8)
  | atomic (op : AmoOp) (w : Bool) (v : W64) (c : W64)
  deriving DecidableEq, Repr

/-- A request that waits at a slice or at its sector port. -/
structure SliceJob where
  req : SliceReq
  op : SliceOp
  deriving DecidableEq, Repr

/-- A Quire fill in progress and the requests that wait on it (R270). -/
structure Fill where
  line : Nat
  waiters : List SliceJob
  tries : Nat := 0
  outcome : Option (W8 × List W8) := none
  deriving DecidableEq, Repr

/-- A line contributed to a reduction window: its slot, its number in the slot, the step it carried and its bytes (R276, R370). -/
structure RedHeld where
  slot : Nat
  line : Nat
  step : W64
  data : List W8
  deriving DecidableEq, Repr

/-- A window entry of an accepted plan (R368), with what its deferred area holds (R371); `serial` tells apart plans of one
PLAN_ID. -/
structure WinEntry where
  serial : Nat
  planId : W64
  ctx : Nat
  index : Nat
  openTick : W64
  closeTick : W64
  slice : Nat
  window : Nat
  slots : Nat
  mode : W8
  n : Nat
  grace : Nat
  wait : Nat
  next : Nat
  nextWindow : Option Nat
  slotBuf : W64
  result : W64
  fwd : W64
  watch : W64
  capture : W64
  opened : Bool := false
  closed : Bool := false
  deferred : List RedHeld := []
  deriving DecidableEq, Repr

/-- A reduction window by its number (R275 to R279, R369 to R373): the instance that opened last, with the lines it stored;
`blocked` is an entry that could not be opened (R275), `expect` what a replay forces: BITMAP, DEFERRED, HASH and the number of
the WINDOW entry (R382). -/
structure Window where
  entry : Option WinEntry := none
  blocked : Option WinEntry := none
  isOpen : Bool := false
  abandoned : Bool := false
  step : Option W64 := none
  failed : Option W64 := none
  fresh : List RedHeld := []
  remote : List Nat := []
  dropped : W64 := 0
  waiting : Bool := false
  expect : Option (W64 × W64 × W64 × Nat) := none
  deriving DecidableEq, Repr

/-- A command in an Ox unit (R345 to R348): its tile, its words, its record's 128 bytes and the step captured. -/
structure OxCmd where
  tile : TileRef
  prog : Bool
  pass2 : Bool
  args : TensorArgs
  ctx : Nat
  step : W64
  record : List W8
  recStatus : W8
  /-- it reached the Ox unit of an evaluation partition (R386) -/
  barred : Bool := false
  /-- another command for its shard was in flight with it (R347) -/
  open_ : Bool := false
  deriving DecidableEq, Repr

/-- The pass an Ox unit runs: its command, whether it waits for windows (R355) and for how many edges yet, and the
outcome found so far. -/
structure OxPass where
  cmd : OxCmd
  waiting : Bool := false
  left : Nat := 0
  applied : Bool := false
  usum : W64 := 0
  status : W8 := 0
  detail : W32 := 0
  finished : Bool := false
  /-- the state step the command met (R351) -/
  prior : W64 := 0
  deriving DecidableEq, Repr

/-- A hub slice with its Quire controller and stack. -/
structure Hub where
  fenced : Bool := false
  failed : List Nat := []
  lostChannels : List Nat := []
  chanMap : Tab Nat := []
  faulted : Bool := false
  /-- channels newly mapped and the 4 KiB groups of each already filled with poison (R259) -/
  unfilled : List (Nat × List Nat) := []
  cache : Tab CacheLine := []
  clock : Nat := 0
  fills : List Fill := []
  waysBad : Nat := 0
  scratchWays : Nat := 0
  scratchBad : LineSet := { all := true }
  temp : W8 := 0
  refresh : Nat := 0
  parts : List (Nat × Nat) := []
  refreshSince : Nat := 0
  /-- budgets in force that a write has replaced from the next edge on (R289), by class -/
  budgets : Tab (Option W32) := []
  marginArmed : Bool := false
  marginOn : Bool := false
  marginDone : Bool := false
  marginFail : Bool := false
  margins : Tab (W16 × W16) := []
  /-- equivalent time, as `Power.aged`, at the last margining (R477, R518) -/
  marginAt : Nat := 0
  balance : Tab Int := []
  waiting : List (Nat × SliceJob) := []
  windows : Tab Window := []
  oxQueue : List OxCmd := []
  oxPass : Option OxPass := none
  oxLast : W8 := 0
  selfRefresh : Bool := false
  deriving DecidableEq, Repr

/-! ## Tick, sequencer, journal and replay -/

/-- The TICK block's own state (R36 to R65). `prevStep` is TICK.STEP at the last edge (R341). -/
structure Tick where
  number : W64 := 0
  step : W64 := 0
  prevStep : W64 := 0
  periodUs : Nat := 500
  pending : Bool := false
  nextAt : W64 := 0
  armedUs : Nat := 0
  lastUs : Nat := 0
  aligned : Bool := false
  maint : Bool := false
  stretched : Bool := false
  floorWarn : Bool := false
  begun : Bool := false
  reserve : Bool := false
  lastEdge : Nat := 0
  nextEdge : Option Nat := none
  requests : Tab Nat := []
  granted : Tab Nat := []
  announced : Option W64 := none
  /-- the roots heard, each with the number of the tick in which it was heard last (R57) -/
  roots : List (W16 × W64) := []
  upstream : Option (Nat × Nat) := none
  takeNumber : Bool := false
  /-- what a warm reset saved: the last tick begun and the time of its edge (R60) -/
  saved : Option (W64 × Nat) := none
  ppsWait : Bool := false
  /-- the tick and step that a MARKER gives to an edge the device has not taken yet (R56, R59) -/
  coming : Option (W64 × W64) := none
  /-- the last edge by the root's time (R58) -/
  rootEdge : Nat := 0
  /-- the last guard came without the announcement of its edge (R58) -/
  missed : Bool := false
  /-- the latest time that a command has told (R62) -/
  clock : Nat := 0
  deriving DecidableEq, Repr

/-- A work-list entry as collected (R48). -/
structure WlEntry where
  type : W8
  address : W64
  planId : W64
  deriving DecidableEq, Repr

/-- An accepted plan: its number among accepted plans, its header's fields (R49) and, once cancelled, the tick from which it is
removed (R50). -/
structure Plan where
  serial : Nat
  id : W64
  first : W64
  count : Nat
  ctx : Nat
  slices : W64
  budgets : W64
  programs : W64
  drover : W64
  troughs : W64
  windows : W64
  cancelAt : Option W64 := none
  deriving DecidableEq, Repr

/-- A vote of R333 that has not closed. -/
structure Vote where
  key : VoteKey
  group : BitVec 192
  cast : List (Nat × Bool)
  deriving DecidableEq, Repr

/-- A replay in progress (R380 to R382). -/
structure Replay where
  step : W64
  ctx : Nat
  parts : BitVec 12
  /-- number of the journal's STEP_OPEN entry (R381) -/
  base : Nat
  lastTick : W64
  opened : Bool
  /-- the life cycle was BLANK when it began, where every debug level is open (R486) -/
  blank : Bool := false
  deriving DecidableEq, Repr

/-- What a core hands to the standby at an edge (R17, R67): its place in the work list and the journal, the plans, steps, windows
and votes it holds. -/
structure Checkpoint where
  tick : W64
  wlBase : Nat
  wlLog2 : Nat
  consumed : W64
  stopped : Bool
  collected : List WlEntry
  plans : List Plan
  steps : List (W64 × W64)
  stepTop : W64
  windows : List WinEntry
  votes : List Vote
  lateTiles : BitVec 192
  jrnOff : Nat
  jrnHead : W64
  jrnStep : Option W64
  jrnEntries : Nat
  jrnLost : Nat
  jrnIndex : List (Nat × Nat)
  captured : List (Nat × Nat × W64 × W64)
  replayArmed : Bool
  replay : Option Replay
  diverged : Bool
  evalPart : BitVec 12
  evalCtx : W16
  charHold : Bool
  deriving DecidableEq, Repr

/-- The sequencer cores (R17, R46 to R52, R67, R68, R333, R376 to R385). -/
structure Seq where
  active : Bool := false
  standbyReady : Bool := false
  failedCore : Bool := false
  /-- what the standby core holds -/
  ckpt : Option Checkpoint := none
  wlBase : Nat := 0
  wlLog2 : Nat := 8
  consumed : W64 := 0
  reconf : Bool := false
  stopped : Bool := false
  collected : List WlEntry := []
  plans : List Plan := []
  /-- STEP entries accepted and not yet in force (tick, number), and the greatest number accepted (R51) -/
  steps : List (W64 × W64) := []
  stepTop : W64 := 0
  windows : List WinEntry := []
  votes : List Vote := []
  lateTiles : BitVec 192 := 0
  jrnOff : Nat := 0
  jrnHead : W64 := 0
  jrnStep : Option W64 := none
  jrnEntries : Nat := 0
  jrnLost : Nat := 0
  /-- where each entry still in the ring lies: number and offset (R376) -/
  jrnIndex : List (Nat × Nat) := []
  /-- fresh slots that a capture buffer holds: slice, window, step and slots (R375) -/
  captured : List (Nat × Nat × W64 × W64) := []
  /-- steps in which a window took slots of other devices, or deferred ones, with no capture buffer (R380) -/
  uncaptured : List W64 := []
  nextSerial : Nat := 0
  replayArmed : Bool := false
  replay : Option Replay := none
  diverged : Bool := false
  evalPart : BitVec 12 := 0
  evalCtx : W16 := 0
  charHold : Bool := false
  deriving DecidableEq, Repr

/-! ## Links and the host port -/

/-- A port (R390 to R392, R409 to R417): 0 to 15 peer, 16 host. `mode` is the mode in use: 1 DIRECT, 2 ETHERNET. -/
structure Port where
  up : Bool := false
  lanes : Nat := 0
  mode : BitVec 2 := 0
  spared : BitVec 8 := 0
  peer : W16 := 0
  peerPort : BitVec 4 := 0
  latency : W16 := 0
  /-- the equalisation stored for it (R392) -/
  eq : Option W64 := none
  /-- the lanes in use, by their numbers in the port (R392) -/
  used : BitVec 8 := 0
  /-- lanes whose eye margin is projected too narrow (R477) -/
  due : BitVec 8 := 0
  /-- priorities that a PFC frame has stopped (R417) -/
  paused : W8 := 0
  /-- the SEQ expected, whether a NAK for it has been sent, and how many flits await an acknowledgement (R414) -/
  rxSeq : BitVec 12 := 0
  rxNak : Bool := false
  rxUnacked : Nat := 0
  txSeq : BitVec 12 := 0
  /-- credits spent, by virtual channel (R412) -/
  spent : Tab Nat := []
  /-- flits that wait for a credit, by virtual channel -/
  txQueue : Tab (List Flit) := []
  replayBuf : List Flit := []
  replays : Nat := 0
  /-- the packet being received and its flits so far, by virtual channel -/
  assembling : Tab (List W8 × Nat) := []
  deriving DecidableEq, Repr

/-- A request the device has sent and waits for: what it was for and its data. -/
structure Outstanding where
  psn : W32
  op : W8
  addr : W64
  aux : W64 := 0
  data : List W8
  tag : Nat
  sent : Bool := false
  acked : Bool := false
  tries : Nat := 0
  deriving DecidableEq, Repr

/-- A Nimser stream, as target and as requester (R404 to R409). -/
structure NimStream where
  epoch : BitVec 4 := 0
  expected : W32 := 0
  unacked : Nat := 0
  /-- the last 64 atomic results by PSN: status and old value (R405) -/
  atomics : List (W32 × W8 × W64) := []
  pushed : List W8 := []
  /-- the message being pushed is too long and is refused to its end (R399) -/
  pushBad : Bool := false
  /-- it has served management requests of the host (R528) -/
  mgmt : Bool := false
  reqEpoch : BitVec 4 := 0
  nextPsn : W32 := 0
  outstanding : List Outstanding := []
  resyncing : Bool := false
  /-- the send rate in units of 1/65,536 of the port's (R409) -/
  rate : Nat := 65536
  lastSlow : Option Nat := none
  slowed : Bool := false
  lastNotify : Option Nat := none
  way : Option (Nat × Nat) := none
  deriving DecidableEq, Repr

/-- A host connection (R395, R396, R400). -/
structure Conn where
  state : BitVec 2 := 0
  kind : W8 := 0
  prio : W8 := 0
  vlan : W16 := 0
  queue : W16 := 0
  pmtu : W8 := 0
  udpSrc : W16 := 0
  dmac : BitVec 48 := 0
  ipv : W8 := 6
  dip : BitVec 128 := 0
  rqpn : W32 := 0
  rkey : W32 := 0
  nextPsn : W32 := 0
  expected : W32 := 0
  /-- the SEND being received, and where an RDMA WRITE in progress goes on: address and key -/
  message : List W8 := []
  writeAt : W64 := 0
  writeKey : W32 := 0
  outstanding : List Outstanding := []
  tries : Nat := 0
  rate : Nat := 65536
  lastSlow : Option Nat := none
  slowed : Bool := false
  lastNotify : Option Nat := none
  deriving DecidableEq, Repr

/-- The PTP time receiver (R393). -/
structure Ptp where
  locked : Bool := false
  master : Option (W64 × Nat) := none
  syncAt : Option (Nat × Nat) := none
  awaiting : Option Nat := none
  delay : Nat := 0
  offset : Int := 0
  deriving DecidableEq, Repr

/-- A packet of the device's transports: one of Nimser with its operation, header and payload (R402); one of RoCEv2 on a connection, with
its opcode and extended headers; a tick message (R424). -/
inductive Packet where
  | nimser (op : W8) (h : NimHdr) (data : List W8)
  | roce (conn : Nat) (op : W8) (psn : W32) (addr : W64) (key : W32) (len : Nat) (status : W8) (data : List W8)
  | tick (kind : W8) (m : TickMsg)
  deriving DecidableEq, Repr

/-- What an Ethernet frame carries a packet in (R401, R409, R416, R417, R426): MAC addresses, VLAN and priority, IP addresses, the
ECN field, the UDP ports and checksum, and the code that follows the packet: the ECRC of Nimser, the ICRC of RoCEv2. -/
structure Envelope where
  dmac : BitVec 48
  smac : BitVec 48
  vid : BitVec 12
  pcp : BitVec 3
  v4 : Bool
  sip : BitVec 128
  dip : BitVec 128
  ecn : BitVec 2
  sport : W16
  dport : W16
  sum : W16
  code : W32
  deriving DecidableEq, Repr

/-- What the device sends. -/
inductive OutMsg where
  | frame (port : Nat) (e : Envelope) (m : Packet)
  | tick (port : Nat) (kind : W8) (m : TickMsg)
  | sliceResp (tag : Nat) (status : W8) (data : List W8)
  | csr (r : Requester) (status : W8) (v : W32)
  | arp (mac : BitVec 48) (ip : W32) (dest : W32)
  | nd (mac : BitVec 48) (ip : BitVec 128) (dest : BitVec 128) (ecn : BitVec 2)
  | mld (port : Nat) (group : BitVec 128) (ecn : BitVec 2)
  | flit (port : Nat) (idle : Bool) (f : Flit)
  | ptpDelayReq (port : Nat) (ecn : BitVec 2)
  | i3c (data : List W8)
  | jtag (bits : List Bool)
  deriving DecidableEq, Repr

/-- Links, host port, routing and lending (R390 to R431). -/
structure Links where
  ports : Tab Port := []
  streams : Tab NimStream := []
  conns : Tab Conn := []
  hostBuf : List (Nat × List TWord) := []
  ptp : Ptp := {}
  routes : Tab W32 := []
  routeImage : Tab W32 := []
  routeLoading : Bool := false
  routeWaiting : Bool := false
  /-- LINK.FLEET, LINK.PTP and HOST.MAC as they took effect at a retrain (R431) -/
  devId : W16 := 0
  fleetMac : W16 := 0
  ptpPort : Nat := 31
  hostMac : BitVec 48 := 0
  /-- messages of stopped priorities (R417) -/
  heldOut : List (Nat × Packet) := []
  nextTag : Nat := 0
  /-- answers to requests that something waits for, by tag: status and data (R284, R400, R406) -/
  answers : Tab (Option (W8 × List W8)) := []
  deriving DecidableEq, Repr

/-! ## Gander, power, custody die -/

/-- The step a recovery has reached (R441). -/
inductive RecStep where
  | fence | snapshot | reset | restored
  deriving DecidableEq, Repr

/-- A recovery in progress (R437 to R446): the partitions it covers, its cause, trigger unit and dump slot. -/
structure Recovery where
  step : RecStep := .fence
  parts : BitVec 12 := 0
  cause : W8 := 0
  warm : Bool := false
  unit : BitVec 16 := 0
  slot : Option Nat := none
  escalated : Bool := false
  truncated : Bool := false
  wholeStack : Bool := false
  unreadable : List (BitVec 16) := []
  dirty : List Nat := []
  tick : W64 := 0
  fstep : W64 := 0
  suspects : W16 := 0
  /-- partitions whose restore is done -/
  restored : BitVec 12 := 0
  deriving DecidableEq, Repr

/-- A unit disable or enable in progress (R453): phase 0 requested, 1 draining, 2 to be enabled, 3 in
bring-up. -/
structure Disabling where
  unit : BitVec 16
  phase : Nat
  deriving DecidableEq, Repr

/-- Gander (R435 to R456). -/
structure Gander where
  samples : Tab (W32 × Nat) := []
  suspectCtx : W16 := 0
  /-- 1 + the tick in which a context (key 16 × resource + context; resource n a slice, 12 + n an Ox unit) last used a resource -/
  active : Tab Nat := []
  /-- the engine or tile reset that ran last, and its cause -/
  lastReset : Option (LevelRef × W8) := none
  recoveries : Tab Recovery := []
  held : Tab (BitVec 16) := []
  resetArmed : Bool := false
  resetParts : BitVec 12 := 0
  dumps : Tab (List W8) := []
  dumpValid : BitVec 4 := 0
  dumpOrder : List Nat := []
  disabling : Option Disabling := none
  /-- units whose fault arose in a recovery of their partition after its snapshot (R444) -/
  later : List (BitVec 16) := []
  result : BitVec 2 := 0
  deriving DecidableEq, Repr

/-- The power controller (R457 to R479); f32 fields are bit patterns. -/
structure Power where
  clock : Nat := 950
  next : Nat := 950
  limit : Nat := 0
  nextLimit : Nat := 0
  /-- the policy of R457 in force since the last clock decision -/
  capW : Nat := 1200
  targetC : Nat := 95
  floorMhz : Nat := 950
  trip : Bool := false
  tripHold : Bool := false
  alert : Bool := false
  emergency : Bool := false
  /-- timing emergencies of the tick in progress -/
  emergencies : Nat := 0
  /-- rail voltages read back and written, in mV (R505) -/
  vCore : Nat := 750
  vSram : Nat := 800
  vCoreWritten : Nat := 750
  vSramWritten : Nat := 800
  confirmedCore : Bool := true
  confirmedSram : Bool := true
  xf : W32 := 0
  xs : W32 := 0
  tc : W32 := 0
  thetaF : W32 := 0x3CA3D70A
  tauF : W32 := 0x3CA3D70A
  thetaS : W32 := 0x3E19999A
  tauS : W32 := 0x42700000
  thetaLoc : Vector W32 12 := Vector.replicate 12 0
  /-- the thermal parameters last written to the settings record, and when, in ns (R469) -/
  modelWritten : List W32 := []
  modelAt : Nat := 0
  charArmed : Bool := false
  /-- the step of R467 in progress, 0 for none -/
  charPhase : Nat := 0
  charIdle : Nat := 0
  charResult : Nat := 0
  sustain : Nat := 0
  /-- guardbands G of R458, in mV -/
  guard : Vector Nat 12 := Vector.replicate 12 0
  fAge : Nat := 1900
  /-- equivalent time of R473, in units of 2^-32 ns -/
  aged : Nat := 0
  maintCount : Nat := 0
  /-- the measurements of a maintenance tick still to be made, in order: 0 the SRAM test of the sector whose turn it is, 1 + n the
  replica readings of sector n, 13 the eye widths (R65, R472) -/
  measures : List Nat := []
  sramTurn : Nat := 0
  /-- PWR.MARGIN and PWR.SRAM of each sector (R474, R477) -/
  margins : Vector W32 12 := Vector.replicate 12 0
  srams : Vector W32 12 := Vector.replicate 12 0
  thermTrip : Bool := false
  clocksOn : Bool := true
  deriving DecidableEq, Repr

/-- A key slot in fuses (R485). -/
structure KeySlot where
  hash : Option (BitVec 512) := none
  revoked : Bool := false
  deriving DecidableEq, Repr

/-- Variants (R3). -/
inductive Variant where
  | f | s | e
  deriving DecidableEq, Repr

/-- The one-time-programmable fuses (R480 to R485, R496, R541). -/
structure Fuses where
  variant : Variant := .f
  stepping : W8 := 1
  /-- one fuse of each pair LC3 to LC0, and the other -/
  lcFuses : BitVec 4 := 0b0011
  lcTwins : BitVec 4 := 0b0011
  uid : BitVec 128 := 1
  vendor : Vector KeySlot 4 := Vector.replicate 4 {}
  owner : Vector KeySlot 4 := Vector.replicate 4 {}
  ownerSigReq : Bool := false
  counter : Nat := 0
  deriving DecidableEq, Repr

/-- LC3 to LC0: a bit is blown when either fuse of its pair is (R480). -/
def Fuses.lc (f : Fuses) : BitVec 4 := f.lcFuses ||| f.lcTwins

/-- A security command in progress (R484): a token, what a write to SEC.FW_CTRL sets, or manufacturing's transition. -/
inductive SecCmd where
  | token (tok : Token)
  | firmware (bank verify activate commit : Bool)
  | toVendor (uid : BitVec 128) (hashes : List (BitVec 512))
  deriving DecidableEq, Repr

/-- Security state of the custody die (R480 to R503). -/
structure Sec where
  busy : Option (SecCmd × Option Asker) := none
  debugLevel : BitVec 2 := 0
  ticksLeft : Nat := 0
  armed : Bool := false
  armedLeft : Nat := 0
  nonce : BitVec 256 := 0
  tokenKind : W8 := 0
  tokenResult : BitVec 4 := 0
  fwResult : BitVec 3 := 0
  running : Bool := false
  preferred : Bool := false
  bankA : Mem := []
  bankB : Mem := []
  svnRun : Nat := 0
  erased : Bool := false
  identity : Bool := true
  ownerSlot : Option (Fin 4) := none
  bootStep : BitVec 4 := 8
  bootReason : BitVec 4 := 0
  recovery : Bool := false
  fellBack : Bool := false
  deriving DecidableEq, Repr

/-- One copy of the settings record (R516 to R519): its header's fields and its sections as the model holds them. -/
structure Record where
  valid : Bool := false
  reason : BitVec 4 := 1
  seq : W64 := 0
  factory : Bool := false
  stepping : W8 := 0
  lc : BitVec 4 := 0
  uid : BitVec 128 := 0
  variant : Variant := .f
  /-- RETAINED: CSR offset and value (R518, kind 6) -/
  retained : Tab W32 := []
  /-- REPAIR: unit, kind, from, to (kind 3) -/
  repairs : List (BitVec 16 × Nat × Nat × Nat) := []
  routes : Tab W32 := []
  /-- THERMAL and AGEING as the power controller holds them (kinds 4 and 5) -/
  power : Option Power := none
  /-- QUIRE: each stack's margins and when they were taken (kind 2) -/
  margins : List (Nat × Tab (W16 × W16) × Nat) := []
  /-- LINK_EQ: the equalisation stored, by port (kind 1) -/
  eq : Tab W64 := []
  /-- SHA-512 of the copy's header (R501) -/
  digest : BitVec 512 := 0
  deriving DecidableEq, Repr

/-- The copy that step 9 of R514 writes after a first boot, on an SWK-CW12-F. -/
def Record.first : Record :=
  { valid := true, reason := 0, seq := 1, stepping := 1, lc := 0b0011, uid := 1 }

/-- The retention store's settings records (R516 to R524). -/
structure Retain where
  copy0 : Record := Record.first
  copy1 : Record := {}
  writing : Option (Bool × Record) := none
  changed : Bool := false
  fallback : Bool := true
  restored : Bool := false
  reason : BitVec 4 := 1
  otherReason : BitVec 4 := 1
  reasonRun : BitVec 4 := 0
  skipped : W16 := 0
  factoryReq : Bool := false
  /-- RETAIN.CTRL.WRITE_NOW until its write starts -/
  writeAsked : Bool := false
  repairs : List (BitVec 16 × Nat × Nat × Nat) := []
  /-- repairs that the cold reset in progress takes (R165) -/
  due : List (BitVec 16 × Nat × Nat × Nat) := []
  lastRun : W8 := 0
  /-- how the run in progress has ended, 0 while it goes on -/
  ending : W8 := 0
  bootId : W16 := 1
  /-- measurement 6 and 7 of R501: the header restored or written at a fallback, and the one written last -/
  bootDigest : BitVec 512 := 0
  lastDigest : BitVec 512 := 0
  deriving DecidableEq, Repr

/-- A ledger entry with its unit's latch (R535 to R540). -/
structure LedgerEntry where
  state : BitVec 4
  seen : BitVec 4
  previous : BitVec 4
  pending : Bool
  transitions : W16
  changed : W64
  latch : BitVec 4
  deriving DecidableEq, Repr

/-- An event record (R550), without SEQ's second write. -/
structure EventRec where
  seq : W64
  code : W8
  status : W8
  replay : Bool
  ctx : W8
  partition : W8
  tile : W8
  engine : W8
  unit : W32
  tick : W64
  step : W64
  device : W16
  boot : W16
  arg : List W8
  deriving DecidableEq, Repr

/-- Event records (R546 to R549). -/
structure Events where
  nextSeq : W64 := 1
  held : List EventRec := []
  recent : List EventRec := []
  consumed : W64 := 0
  stalled : Bool := false
  lostFirst : Option W64 := none
  lostCount : Nat := 0
  deriving DecidableEq, Repr

/-- Pins (R512) and the sideband targets (R486, R533). -/
structure Pins where
  pwrOk : Bool := true
  resetN : Bool := true
  faultN : Bool := true
  testMode : Bool := false
  avsFrames : Bool := true
  refclk : Bool := true
  i3cAddr : Option (BitVec 7) := none
  i3cPtr : W8 := 0
  jtagInstr : W8 := 2
  boundary : List Bool := []
  deriving DecidableEq, Repr

/-- Device state that the DEV block shows (R541). -/
structure DevSt where
  ready : Bool := true
  cold : W8 := 1
  warm : W8 := 0
  warmCount : W8 := 0
  inReset : Bool := false
  /-- RESET_N was released while PWR_OK was low (R509): what bring-up will find -/
  bootHeld : Option BootReport := none
  inWarm : Bool := false
  deriving DecidableEq, Repr

/-- The held halves of 64-bit accesses of one requester (R10): by offset of the _LO register. -/
structure Halves where
  requester : Requester
  readHi : Tab W32 := []
  writeLo : Tab W32 := []
  deriving DecidableEq, Repr

/-- A note waiting for its record (R328). -/
structure Note where
  tile : TileRef
  ctx : Nat
  rec_ : Nat
  step : W64
  value : W32
  deriving DecidableEq, Repr

/-- Who asks for a translation (R282, R286): a tile, the Drover, the table walkers and the engines of a sector, each of which keeps
translations in a cache of its own; an Ox unit, or any unit outside the sectors. -/
inductive XlUnit where
  | tile (n : Nat)
  | drover (n : Nat)
  | walker (n : Nat)
  | engine (n : Nat)
  | ox (n : Nat)
  | outside
  deriving DecidableEq, Repr

/-- Everything but the command queue and the fuses. -/
structure Dev where
  tick : Tick := {}
  seq : Seq := {}
  tiles : Tab Tile := []
  tileMem : Mem := []
  tileBad : Tab LineSet := []
  imem : Mem := []
  imemBad : List Nat := []
  acc : Mem := []
  accBad : List Nat := []
  sectors : Tab Sector := []
  sectBuf : Mem := []
  hubs : Tab Hub := []
  quire : Mem := []
  check : Mem := []
  scratch : Mem := []
  xlCache : List (XlUnit × Nat × Nat × W64) := []
  xlDropping : Option (W32 × W32) := none
  notes : List Note := []
  links : Links := {}
  gander : Gander := {}
  power : Power := {}
  sec : Sec := {}
  retain : Retain := {}
  ledger : Tab LedgerEntry := []
  ledgerMismatches : W8 := 0
  events : Events := {}
  pins : Pins := {}
  dev : DevSt := {}
  csr : Tab W32 := []
  halves : List Halves := []
  outbox : List OutMsg := []
  /-- the model's own: how many free values have been drawn -/
  free : Nat := 0
  deriving DecidableEq, Repr

/-- The state of the block. -/
structure State where
  pending : List Instr := []
  fuse : Fuses := {}
  dev : Dev := {}
  deriving DecidableEq, Repr

/-- Ways a step can stop in a fault. None of the manual's behaviours needs one: the type is empty of causes the
model raises, and its one constructor is raised by no meaning (safe: it never replaces an effect). -/
inductive Fault where
  /-- raised by nobody; kept so that the type is inhabited; safe -/
  | none_
  deriving DecidableEq, Repr

/-- Ways a step can be refused. -/
inductive Refusal where
  /-- raised by Machine/Dispatch.lean alone, for a command that has no meaning yet; safe: nothing is claimed of it -/
  | notModelled (mnemonic : String)
  deriving DecidableEq, Repr

/-- The state READY after a first cold reset of an SWK-CW12-F: every register at its reset value, nothing pending. -/
def State.reset : State := {}

end Sys2Proof.Machine
end

