-- ==== Sys2Proof/Machine/Tab.lean ====
section
/-!
DEFINITION. Sys2Proof/Machine/Tab.lean: sparse tables and byte memories in one canonical form (keys strictly rising,
no entry at the default), little-endian words over them (R8), and sets of lines.
-/

namespace Sys2Proof

/-- What key `k` holds; `d` where nothing is listed. -/
def Tab.look {α : Type} (d : α) : Tab α → Nat → α
  | [], _ => d
  | (k', v) :: r, k => if k' = k then v else Tab.look d r k

/-- Adds an entry for a key that no entry has, in its place. -/
def Tab.ins {α : Type} (k : Nat) (v : α) : Tab α → Tab α
  | [] => [(k, v)]
  | (k', v') :: r => if k < k' then (k, v) :: (k', v') :: r else (k', v') :: Tab.ins k v r

/-- Drops every entry of a key. -/
def Tab.drop {α : Type} (k : Nat) (t : Tab α) : Tab α := t.filter (fun e => e.1 != k)

/-- Writes `v` at `k`; the default is not listed. -/
def Tab.put {α : Type} [DecidableEq α] (d : α) (t : Tab α) (k : Nat) (v : α) : Tab α :=
  if v = d then Tab.drop k t else Tab.ins k v (Tab.drop k t)

/-- Changes what `k` holds by `f`. -/
def Tab.alter {α : Type} [DecidableEq α] (d : α) (t : Tab α) (k : Nat) (f : α → α) : Tab α :=
  t.put d k (f (t.look d k))

/-- The canonical form: keys strictly rising and no entry at the default. -/
def Tab.wf {α : Type} [DecidableEq α] (d : α) (t : Tab α) : Bool :=
  decide ((t.map (·.1)).Pairwise (· < ·)) && t.all (fun e => decide (e.2 ≠ d))

/-- The little-endian value of bytes (R8). -/
def leNat : List W8 → Nat
  | [] => 0
  | b :: bs => b.toNat + 256 * leNat bs

/-- The `n` little-endian bytes of a value (R8). -/
def toLE (n : Nat) (v : Nat) : List W8 :=
  match n with
  | 0 => []
  | n + 1 => BitVec.ofNat 8 v :: toLE n (v / 256)

namespace Machine

/-- One byte of a memory; an unlisted byte reads 0. -/
def Mem.byte (m : Mem) (a : Nat) : W8 := Tab.look 0 m a

/-- `n` bytes from address `a`. -/
def Mem.read (m : Mem) (a n : Nat) : List W8 := (List.range n).map (fun i => m.byte (a + i))

/-- `n` bytes from address `a` as a little-endian number. -/
def Mem.nat (m : Mem) (a n : Nat) : Nat := leNat (m.read a n)

/-- Stores bytes from address `a` on. -/
def Mem.store (m : Mem) (a : Nat) : List W8 → Mem
  | [] => m
  | b :: bs => Mem.store (Tab.put 0 m a b) (a + 1) bs

/-- Clears every byte of an address range. -/
def Mem.clear (m : Mem) (a n : Nat) : Mem := m.filter (fun e => !(decide (a ≤ e.1) && decide (e.1 < a + n)))

/-- A memory in its canonical form: addresses strictly rising, no byte listed that reads as an unlisted one. -/
def Mem.wf (m : Mem) : Bool := Tab.wf (0 : W8) m

/-- Whether a line is in the set. -/
def LineSet.has (s : LineSet) (k : Nat) : Bool := xor s.all (s.except.contains k)

/-- Puts a line into the set. -/
def LineSet.add (s : LineSet) (k : Nat) : LineSet :=
  if s.all then { s with except := s.except.filter (· != k) }
  else if s.except.contains k then s else { s with except := k :: s.except }

/-- Takes a line out of the set. -/
def LineSet.del (s : LineSet) (k : Nat) : LineSet :=
  if s.all then (if s.except.contains k then s else { s with except := k :: s.except })
  else { s with except := s.except.filter (· != k) }

end Machine

end Sys2Proof
end

