-- ==== Sys2Proof/Machine/Num.lean ====
section
/-!
DEFINITION. Sys2Proof/Machine/Num.lean: number formats and exact arithmetic (R113 to R133): decoding, rounding to nearest
even, exact sums and products, block formats, import and export, and the accumulation contract.
-/

namespace Sys2Proof

/-- A floating-point element layout (R113): exponent and fraction bits, bias, and whether an exponent of all ones means
infinity or NaN. -/
structure FFmt where
  ebits : Nat
  mbits : Nat
  bias : Int
  special : Bool
  deriving DecidableEq, Repr

def fFP32 : FFmt := ⟨8, 23, 127, true⟩
def fFP16 : FFmt := ⟨5, 10, 15, true⟩
def fBF16 : FFmt := ⟨8, 7, 127, true⟩
def fE4 : FFmt := ⟨4, 3, 7, true⟩
def fE5 : FFmt := ⟨5, 2, 15, true⟩
def fCF4 : FFmt := ⟨2, 1, 1, false⟩

/-- Bits of a code. -/
def FFmt.width (f : FFmt) : Nat := 1 + f.ebits + f.mbits

/-- The value of a code (R113, R115). -/
def FFmt.decode (f : FFmt) (c : Nat) : FVal :=
  let fr := c % 2 ^ f.mbits
  let ex := c / 2 ^ f.mbits % 2 ^ f.ebits
  let neg := decide (c / 2 ^ (f.mbits + f.ebits) % 2 = 1)
  if f.special ∧ ex = 2 ^ f.ebits - 1 then (if fr = 0 then .inf neg else .nan neg)
  else if ex = 0 then .fin neg fr (1 - f.bias - f.mbits)
  else .fin neg (2 ^ f.mbits + fr) ((ex : Int) - f.bias - f.mbits)

/-- m × 2^(-d) rounded to an integer, ties to even. -/
def rneShift (m d : Nat) : Nat :=
  let n := m / 2 ^ d
  let r := m % 2 ^ d
  if 2 * r < 2 ^ d then n else if 2 ^ d < 2 * r then n + 1 else n + n % 2

/-- m × 2^e as an integer multiple of 2^q, rounded to nearest even. -/
def rneAt (m : Nat) (e q : Int) : Nat := if q ≤ e then m * 2 ^ (e - q).toNat else rneShift m (q - e).toNat

/-- The largest code without the sign: of a finite number, for a format with no specials; the infinity, else. -/
def FFmt.top (f : FFmt) : Nat := if f.special then (2 ^ f.ebits - 1) * 2 ^ f.mbits else 2 ^ (f.ebits + f.mbits) - 1

/-- The code without the sign of m × 2^e, rounded with the exponent unbounded above (R116, R117). -/
def FFmt.magnitude (f : FFmt) (m : Nat) (e : Int) : Nat :=
  if m = 0 then 0
  else
    let q := max ((Nat.log2 m : Int) + e) (1 - f.bias) - f.mbits
    (q + f.mbits + f.bias - 1).toNat * 2 ^ f.mbits + rneAt m e q

/-- A code with its sign bit. -/
def FFmt.signed (f : FFmt) (neg : Bool) (c : Nat) : Nat := (if neg then 2 ^ (f.ebits + f.mbits) else 0) + c

/-- The canonical quiet NaN (R115). -/
def FFmt.qnan (f : FFmt) : Nat := f.top + 2 ^ (f.mbits - 1)

/-- The code of a value (R116 to R120), and whether OVERFLOW is set (R119). -/
def FFmt.encode (f : FFmt) (v : FVal) : Nat × Bool :=
  match v with
  | .nan _ => if f.special then (f.qnan, false) else (f.top, false)
  | .inf neg => (f.signed neg f.top, !f.special)
  | .fin neg m e =>
    let c := f.magnitude m e
    if f.special then (if f.top ≤ c then (f.signed neg f.top, true) else (f.signed neg c, false))
    else (if f.top < c then (f.signed neg f.top, true) else (f.signed neg c, false))

/-! ## Exact values -/

def FVal.zero : FVal := .fin false 0 0

/-- The canonical quiet NaN (R115, R118). -/
def FVal.qnan : FVal := .nan false

def FVal.isNan : FVal → Bool
  | .nan _ => true
  | _ => false

def FVal.isInf : FVal → Bool
  | .inf _ => true
  | _ => false

def FVal.isZero : FVal → Bool
  | .fin _ m _ => m == 0
  | _ => false

def FVal.neg : FVal → Bool
  | .nan s => s
  | .inf s => s
  | .fin s _ _ => s

def FVal.negate : FVal → FVal
  | .nan _ => .qnan
  | .inf s => .inf !s
  | .fin s m e => .fin (!s) m e

def FVal.abs : FVal → FVal
  | .nan _ => .qnan
  | .inf _ => .inf false
  | .fin _ m e => .fin false m e

/-- x × 2^k. -/
def FVal.scale (v : FVal) (k : Int) : FVal :=
  match v with
  | .fin s m e => .fin s m (e + k)
  | x => x

/-- The signed integer of a finite value in units of 2^q, for q not above its exponent. -/
def intAt (neg : Bool) (m : Nat) (e q : Int) : Int :=
  let n : Int := (m * 2 ^ (e - q).toNat : Nat)
  if neg then -n else n

/-- The exact sum and whether the operation is invalid (R118): ∞ − ∞ is NaN; a zero sum of unlike signs is +0. -/
def FVal.add (a b : FVal) : FVal × Bool :=
  match a, b with
  | .nan _, _ => (.qnan, false)
  | _, .nan _ => (.qnan, false)
  | .inf s, .inf t => if s = t then (.inf s, false) else (.qnan, true)
  | .inf s, .fin _ _ _ => (.inf s, false)
  | .fin _ _ _, .inf t => (.inf t, false)
  | .fin s m e, .fin t n f =>
    let q := min e f
    let z := intAt s m e q + intAt t n f q
    if z = 0 then (.fin (s && t) 0 0, false) else (.fin (decide (z < 0)) z.natAbs q, false)

def FVal.sub (a b : FVal) : FVal × Bool := a.add b.negate

/-- The exact product and whether the operation is invalid: 0 × ∞ is NaN (R118). -/
def FVal.mul (a b : FVal) : FVal × Bool :=
  match a, b with
  | .nan _, _ => (.qnan, false)
  | _, .nan _ => (.qnan, false)
  | .inf s, .inf t => (.inf (xor s t), false)
  | .inf s, .fin t n _ => if n = 0 then (.qnan, true) else (.inf (xor s t), false)
  | .fin s m _, .inf t => if m = 0 then (.qnan, true) else (.inf (xor s t), false)
  | .fin s m e, .fin t n f => (.fin (xor s t) (m * n) (e + f), false)

/-- a × b + c exactly, and whether an operation is invalid; with a NaN among the operands none is (R330). -/
def FVal.fma (a b c : FVal) : FVal × Bool :=
  let p := a.mul b
  let r := p.1.add c
  (r.1, (p.2 && !c.isNan) || r.2)

/-- The quotient to 64 bits beyond the divisor's, its last bit set where the remainder is not zero: rounding it to a format
of up to 60 bits gives the rounded quotient. -/
def FVal.div (a b : FVal) : FVal × Bool :=
  match a, b with
  | .nan _, _ => (.qnan, false)
  | _, .nan _ => (.qnan, false)
  | .inf _, .inf _ => (.qnan, true)
  | .inf s, .fin t _ _ => (.inf (xor s t), false)
  | .fin s _ _, .inf t => (.fin (xor s t) 0 0, false)
  | .fin s m e, .fin t n f =>
    if n = 0 then (if m = 0 then (.qnan, true) else (.inf (xor s t), false))
    else
      let k := 64 + Nat.log2 n
      let x := m * 2 ^ k
      (.fin (xor s t) (2 * (x / n) + (if x % n = 0 then 0 else 1)) (e - f - k - 1), false)

/-- The square root, its last bit set where it is not exact; a negative operand is invalid. -/
def FVal.sqrt (a : FVal) : FVal × Bool :=
  match a with
  | .nan _ => (.qnan, false)
  | .inf s => if s then (.qnan, true) else (.inf false, false)
  | .fin s m e =>
    if m = 0 then (.fin s 0 0, false)
    else if s then (.qnan, true)
    else
      let k : Nat := 128 + (if e % 2 = 0 then 0 else 1)
      let x := m * 2 ^ k
      let r := Nat.sqrt x
      (.fin false (2 * r + (if r * r = x then 0 else 1)) ((e - k) / 2 - 1), false)

/-- a < b for values that are not NaN; zeros are equal. -/
def FVal.lt (a b : FVal) : Bool :=
  match a, b with
  | .nan _, _ => false
  | _, .nan _ => false
  | .inf s, .inf t => s && !t
  | .inf s, .fin _ _ _ => s
  | .fin _ _ _, .inf t => !t
  | .fin s m e, .fin t n f => let q := min e f; decide (intAt s m e q < intAt t n f q)

/-- a = b as numbers. -/
def FVal.eqv (a b : FVal) : Bool := !a.isNan && !b.isNan && !a.lt b && !b.lt a

/-! ## Rounded operations on codes -/

/-- The value of an FP32 code. -/
def f32 (w : W32) : FVal := fFP32.decode w.toNat

/-- An FP32 code of a value, and whether OVERFLOW is set. -/
def toF32 (v : FVal) : W32 × Bool := let r := fFP32.encode v; (BitVec.ofNat 32 r.1, r.2)

def qnan32 : W32 := 0x7FC00000

/-- FP32 addition (R117, R118). -/
def f32Add (a b : W32) : W32 := (toF32 ((f32 a).add (f32 b)).1).1
def f32Sub (a b : W32) : W32 := (toF32 ((f32 a).sub (f32 b)).1).1
def f32Mul (a b : W32) : W32 := (toF32 ((f32 a).mul (f32 b)).1).1
def f32Div (a b : W32) : W32 := (toF32 ((f32 a).div (f32 b)).1).1
def f32Fma (a b c : W32) : W32 := (toF32 ((f32 a).fma (f32 b) (f32 c)).1).1
def f32Sqrt (a : W32) : W32 := (toF32 ((f32 a).sqrt).1).1
def f32OfNat (n : Nat) : W32 := (toF32 (.fin false n 0)).1
def f32OfInt (n : Int) : W32 := (toF32 (.fin (decide (n < 0)) n.natAbs 0)).1

/-- The BF16 code nearest a value. -/
def bf16Of (v : FVal) : W16 := BitVec.ofNat 16 (fBF16.encode v).1

/-- The value of a BF16 code. -/
def bf16 (w : W16) : FVal := fBF16.decode w.toNat

/-! ## Formats by number (R93) -/

def nFP32 : Nat := 0x00
def nFP16 : Nat := 0x01
def nBF16 : Nat := 0x02
def nE4 : Nat := 0x03
def nE5 : Nat := 0x04
def nCF4 : Nat := 0x05
def nCB8E4 : Nat := 0x06
def nCB8E5 : Nat := 0x07
def nCB4 : Nat := 0x08
def nINT8 : Nat := 0x09
def nUINT8 : Nat := 0x0A
def nOcpE4M3 : Nat := 0x0B
def nMx8E4 : Nat := 0x0C
def nMx8E5 : Nat := 0x0D
def nMx4 : Nat := 0x0E
def nI32 : Nat := 0x0F

/-- The element layout of the codes of a format: that of the elements of a block for a block format. -/
def elemFmt (n : Nat) : FFmt :=
  match n with
  | 0x00 => fFP32
  | 0x01 => fFP16
  | 0x02 => fBF16
  | 0x03 => fE4
  | 0x04 => fE5
  | 0x05 => fCF4
  | 0x06 => fE4
  | 0x07 => fE5
  | 0x08 => fCF4
  | 0x0C => fE4
  | 0x0D => fE5
  | 0x0E => fCF4
  | _ => fFP32

def isBlockFmt (n : Nat) : Bool := n == 0x06 || n == 0x07 || n == 0x08

def isMxFmt (n : Nat) : Bool := n == 0x0C || n == 0x0D || n == 0x0E

/-- Whether a tensor of the format has an integer scale exponent (R121). -/
def isScaledFmt (n : Nat) : Bool := n == 0x03 || n == 0x04 || n == 0x05

/-- Bits of an element of a format that has no blocks. -/
def fmtBits (n : Nat) : Nat :=
  match n with
  | 0x00 => 32
  | 0x01 => 16
  | 0x02 => 16
  | 0x03 => 8
  | 0x04 => 8
  | 0x05 => 4
  | 0x09 => 8
  | 0x0A => 8
  | 0x0B => 8
  | 0x0F => 32
  | _ => 8

/-- Bytes of a block or record of 32 elements (R122, R127). -/
def blockBytes (n : Nat) : Nat :=
  match n with
  | 0x06 => 36
  | 0x07 => 36
  | 0x08 => 20
  | 0x0C => 33
  | 0x0D => 33
  | 0x0E => 17
  | _ => 0

/-- Bytes of a row of `k` elements (R114, R122, R127). -/
def rowBytes (n k : Nat) : Nat :=
  if isBlockFmt n || isMxFmt n then (k / 32) * blockBytes n else (k * fmtBits n + 7) / 8

/-- A signed integer as an exact value. -/
def FVal.ofInt (z : Int) : FVal := .fin (decide (z < 0)) z.natAbs 0

/-- The code of packed element `i`: nibbles for CF4 (R114), whole bytes otherwise. -/
def packedCode (n : Nat) (row : List W8) (i : Nat) : Nat :=
  if fmtBits n = 4 then (row.getD (i / 2) 0).toNat / (if i % 2 = 0 then 1 else 16) % 16
  else leNat ((row.drop (i * (fmtBits n / 8))).take (fmtBits n / 8))

/-- Codes packed into bytes (R114). -/
def packCodes (n : Nat) (codes : List Nat) : List W8 :=
  if fmtBits n = 4 then
    (List.range ((codes.length + 1) / 2)).map (fun i =>
      BitVec.ofNat 8 (codes.getD (2 * i) 0 % 16 + 16 * (codes.getD (2 * i + 1) 0 % 16)))
  else codes.flatMap (fun c => toLE (fmtBits n / 8) c)

/-! ## Block formats (R122 to R125) -/

/-- The value of an element code in a block: an exponent of all ones decodes as NaN (R124). -/
def blockElem (n c : Nat) : FVal :=
  match (elemFmt n).decode c with
  | .inf _ => .qnan
  | .nan _ => .qnan
  | v => v

/-- A block apart: the 32 element codes, SCALE, FLAGS and OUTLIER. -/
structure Block32 where
  codes : List Nat
  scale : W8
  flags : W8
  outlier : W16
  deriving DecidableEq, Repr

/-- A block's decoded elements, by the first row of R124 that applies. -/
def Block32.decode (n : Nat) (b : Block32) : List FVal :=
  let w := (elemFmt n).width
  if b.scale = 0xFF then b.codes.map (fun c => .inf (decide (c / 2 ^ (w - 1) % 2 = 1)))
  else if b.flags.getLsbD 6 then List.replicate 32 .zero
  else
    b.codes.mapIdx (fun i c =>
      if b.flags.getLsbD 7 ∧ i = b.flags.toNat % 32 then bf16 b.outlier
      else (blockElem n c).scale ((b.scale.toNat : Int) - 127))

/-- The largest finite element value of a block format: 240, 57,344 or 6 (R125). -/
def blockMax (n : Nat) : Nat :=
  match n with
  | 0x06 => 240
  | 0x07 => 57344
  | _ => 6

/-- The largest magnitude of values, and the lowest place that holds it. -/
def maxMag (xs : List FVal) : FVal × Nat :=
  (xs.mapIdx (fun i x => (x.abs, i))).foldl (fun b x => if b.1.lt x.1 then x else b) (xs.headD .zero |>.abs, 0)

/-- The smallest integer e with v ≤ M × 2^e, for v finite and positive. -/
def blockExp (v : FVal) (M : Nat) : Int :=
  match v with
  | .fin _ m e =>
    let k := (Nat.log2 m : Int) + e - Nat.log2 M
    if FVal.lt (.fin false M (k - 1)) v then (if FVal.lt (.fin false M k) v then k + 1 else k) else k - 1
  | _ => 0

/-- A block of 32 values encoded (R125), and whether OVERFLOW is set; `x` holds the inputs rounded to BF16. -/
def encodeBlock (n : Nat) (xs : List FVal) : Block32 × Bool :=
  let f := elemFmt n
  let signBit := 2 ^ (f.width - 1)
  let mx := maxMag xs
  if xs.any (fun x => x.isNan || x.isInf) then
    (⟨xs.map (fun x => if x.neg then signBit else 0), 0xFF, 0x00, 0⟩, true)
  else if xs.all (·.isZero) then (⟨List.replicate 32 0, 0x00, 0x40, 0⟩, false)
  else
    let m2 := (maxMag (xs.mapIdx (fun i x => if i = mx.2 then .zero else x))).1
    let e := if m2.isZero then 0 else max (-127) (min 127 (blockExp m2 (blockMax n)))
    (⟨xs.mapIdx (fun i x => if i = mx.2 then 0 else (f.encode (x.scale (-e))).1),
      BitVec.ofInt 8 (e + 127), BitVec.ofNat 8 (0x80 + mx.2), bf16Of (xs.getD mx.2 .zero)⟩, false)

/-- Reads a block (R122). -/
def readBlock (n : Nat) (bytes : List W8) : Block32 :=
  let k := if n = 0x08 then 16 else 32
  let codes := (List.range 32).map (fun i => if n = 0x08 then (bytes.getD (i / 2) 0).toNat / (if i % 2 = 0 then 1 else 16) % 16
    else (bytes.getD i 0).toNat)
  ⟨codes, bytes.getD k 0, bytes.getD (k + 1) 0, bytes.getD (k + 3) 0 ++ bytes.getD (k + 2) 0⟩

/-- Writes a block (R122). -/
def writeBlock (n : Nat) (b : Block32) : List W8 :=
  packCodes (if n = 0x08 then 0x05 else 0x03) b.codes ++ [b.scale, b.flags] ++ toLE 2 b.outlier.toNat

/-! ## Import and export (R126 to R128) -/

/-- The value of an OCP E4M3 code (R126). -/
def ocpDecode (c : Nat) : FVal :=
  let m := c % 128
  if m = 127 then .qnan
  else if 0x78 ≤ m then .fin (decide (128 ≤ c)) (8 + m % 8) 5
  else fE4.decode c

/-- The OCP E4M3 code nearest a value, and whether it saturates (R126). -/
def ocpEncode (v : FVal) : Nat × Bool :=
  match v with
  | .nan _ => (0x7F, false)
  | .inf s => ((if s then 0xFE else 0x7E), true)
  | .fin s m e =>
    let c := fE4.magnitude m e
    if 0x7E < c then ((if s then 0xFE else 0x7E), true) else ((if s then 128 else 0) + c, false)

/-- The elements of an MX record (R128). -/
def mxDecode (n : Nat) (bytes : List W8) : List FVal :=
  let s := (bytes.getD 0 0).toNat
  (List.range 32).map (fun i =>
    if s = 255 then .qnan
    else
      let b := bytes.drop 1
      let v := if n = 0x0E then fCF4.decode (packedCode 0x05 b i)
               else if n = 0x0D then fE5.decode (packedCode 0x03 b i) else ocpDecode (packedCode 0x03 b i)
      (match v with
        | .inf _ => if n = 0x0D then v else .qnan
        | _ => v).scale ((s : Int) - 127))

/-- Rounds to an element of an MX record, saturated (R128). -/
def mxElem (n : Nat) (v : FVal) : Nat × Bool :=
  if n = 0x0E then fCF4.encode v
  else if n = 0x0D then
    let r := fE5.encode v
    if r.2 then ((if v.neg then 0xFB else 0x7B), true) else r
  else ocpEncode v

/-- An MX record of 32 values, and whether it is flagged (R128). -/
def mxEncode (n : Nat) (xs : List FVal) : List W8 × Bool :=
  let elems := fun (cs : List Nat) => packCodes (if n = 0x0E then 0x05 else 0x03) cs
  if xs.any (fun x => x.isNan || x.isInf) then (0xFF :: elems (List.replicate 32 0), true)
  else if xs.all (·.isZero) then
    (BitVec.ofNat 8 0x7F :: elems (xs.map (fun x => (mxElem n x).1)), false)
  else
    let k : Int := if n = 0x0E then 2 else if n = 0x0D then 15 else 8
    let top : Int := match (maxMag xs).1 with
      | .fin _ m e => (Nat.log2 m : Int) + e
      | _ => 0
    let x := max (-127) (min 127 (top - k))
    let rs := xs.map (fun y => mxElem n (y.scale (-x)))
    (BitVec.ofInt 8 (x + 127) :: elems (rs.map (·.1)), rs.any (·.2))

/-! ## The accumulation contract (R129 to R133) -/

/-- A finite non-zero operand as sign, 24-bit integer and exponent: (-1)^s × m × 2^(e − 23) (R129). -/
def normOp (v : FVal) : Option (Bool × Nat × Int) :=
  match v with
  | .fin s m e =>
    if m = 0 then none
    else
      let l := Nat.log2 m
      some (s, if l ≤ 23 then m * 2 ^ (23 - l) else m / 2 ^ (l - 23), e + l)
  | _ => none

/-- The products of a group that take part in E (R129): sign, product of the integers, sum of the exponents. -/
def groupTerms (ps : List (FVal × FVal)) : List (Bool × Nat × Int) :=
  ps.filterMap (fun p => match normOp p.1, normOp p.2 with
    | some a, some b => some (xor a.1 b.1, a.2.1 * b.2.1, a.2.2 + b.2.2)
    | _, _ => none)

/-- The earlier of two causes of R330. -/
def orCause (a b : Option Nat) : Option Nat := match a with
  | some c => some c
  | none => b

/-- Cause 1 of R330 where an overflow happened. -/
def cause1 (b : Bool) : Option Nat := if b then some 1 else none

/-- Cause 2 of R330 where an operation was invalid. -/
def cause2 (b : Bool) : Option Nat := if b then some 2 else none

/-- One group of up to 32 products, summed in a 27-bit window and rounded once to FP32 (R129), with the cause of R330 where it
overflows or makes a NaN. -/
def groupSum (ps : List (FVal × FVal)) : FVal × Option Nat :=
  let nanIn := ps.any (fun p => p.1.isNan || p.2.isNan)
  let infs := ps.filter (fun p => !(p.1.isNan || p.2.isNan) && (p.1.isInf || p.2.isInf))
  let bad := infs.any (fun p => p.1.isZero || p.2.isZero)
  let ninf := infs.any (fun p => !(p.1.isZero || p.2.isZero) && xor p.1.neg p.2.neg)
  let pinf := infs.any (fun p => !(p.1.isZero || p.2.isZero) && !xor p.1.neg p.2.neg)
  if nanIn || bad || (pinf && ninf) then (.qnan, cause2 !nanIn)
  else if pinf then (.inf false, none)
  else if ninf then (.inf true, none)
  else
    match groupTerms ps with
    | [] => (.zero, none)
    | t :: ts =>
      let E := ts.foldl (fun e x => max e x.2.2) t.2.2
      let S := (t :: ts).foldl (fun (s : Int) x =>
        let q : Int := (x.2.1 / 2 ^ (E - x.2.2 + 19).toNat : Nat)
        if x.1 then s - q else s + q) 0
      if S = 0 then (.zero, none)
      else
        let r := fFP32.encode (.fin (decide (S < 0)) S.natAbs (E - 27))
        (fFP32.decode r.1, cause1 r.2)

/-- Products of a pass cut into groups of 32 consecutive K indices (R129, R131). -/
def groupsOf {α : Type} (ps : List α) : List (List α) :=
  (List.range ((ps.length + 31) / 32)).map (fun g => (ps.drop (32 * g)).take 32)

/-- acc ← rne_f32(acc + group_sum), with the first cause met (R130). -/
def accGroup (r : W32 × Option Nat) (g : List (FVal × FVal)) : W32 × Option Nat :=
  let s := groupSum g
  let x := (f32 r.1).add s.1
  let y := toF32 x.1
  (y.1, orCause r.2 (orCause s.2 (orCause (cause2 x.2) (cause1 y.2))))

/-- One pass over the groups of an element, in K order (R130). -/
def accPass (acc : W32) (ps : List (FVal × FVal)) : W32 × Option Nat := (groupsOf ps).foldl accGroup (acc, none)

/-- The two BF16 parts of an operand (R132). -/
def splitHiLo (wide : Bool) (v : FVal) : FVal × FVal :=
  if !wide then (v, .zero)
  else match v with
    | .fin s m e =>
      let r := fBF16.encode (.fin s m e)
      let hi := if r.2 then fBF16.decode (fBF16.signed s (fBF16.top - 1)) else fBF16.decode r.1
      (hi, bf16 (bf16Of (FVal.sub (.fin s m e) hi).1))
    | x => (x, .zero)

/-- The passes of a pass mode, in order: which part of a and of b each multiplies (true for hi) (R133). -/
def passes (mode : Nat) : List (Bool × Bool) :=
  match mode with
  | 0 => [(true, true)]
  | 1 => [(false, true), (true, true)]
  | _ => [(false, true), (true, false), (true, true)]

/-- An accumulator element after all passes of an instruction (R130 to R133), from the parts of a and of b. -/
def accElement (acc : W32) (mode : Nat) (ps : List ((FVal × FVal) × (FVal × FVal))) : W32 × Option Nat :=
  (passes mode).foldl (fun r p =>
    let x := accPass r.1 (ps.map (fun q => (if p.1 then q.1.1 else q.1.2, if p.2 then q.2.1 else q.2.2)))
    (x.1, orCause r.2 x.2)) (acc, none)

end Sys2Proof
end

