-- ==== Sys2Proof/Machine/Elem.lean ====
section
/-!
DEFINITION. Sys2Proof/Machine/Elem.lean: the elementary functions of the vector engine (R155) and the rotary phases (R200):
the nearest FP32 value of the exact result, found in fixed point of 512 fraction bits, and the step within 1 ulp of it that
the device takes.
-/

namespace Sys2Proof

/-- Fraction bits of the fixed point. -/
def fixBits : Nat := 512

def fixOne : Nat := 2 ^ fixBits

/-- Σ of c(i) over i below n, the terms given by a recurrence on the power held. -/
def seriesSum (n : Nat) (p0 : Int) (next : Nat → Int → Int) (term : Nat → Int → Int) : Int :=
  ((List.range n).foldl (fun (s : Int × Int) i => (next i s.1, s.2 + term i s.1)) (p0, 0)).2

/-- atanh(1/k) × 2^512. -/
def fixAtanhInv (k : Nat) : Int :=
  seriesSum 180 ((fixOne / k : Nat) : Int) (fun _ p => p / ((k * k : Nat) : Int)) (fun i p => p / ((2 * i + 1 : Nat) : Int))

/-- atan(1/k) × 2^512. -/
def fixAtanInv (k : Nat) : Int :=
  seriesSum 120 ((fixOne / k : Nat) : Int) (fun _ p => -(p / ((k * k : Nat) : Int))) (fun i p => p / ((2 * i + 1 : Nat) : Int))

/-- ln 2 × 2^512. -/
def fixLn2 : Int := 2 * fixAtanhInv 3

/-- π × 2^512. -/
def fixPi : Int := 16 * fixAtanInv 5 - 4 * fixAtanInv 239

/-- A value m × 2^e in fixed point, rounded down where it needs more bits. -/
def toFix (neg : Bool) (m : Nat) (e : Int) : Int :=
  let n : Int := if 0 ≤ e + fixBits then ((m * 2 ^ (e + fixBits).toNat : Nat) : Int) else ((m / 2 ^ (-(e + fixBits)).toNat : Nat) : Int)
  if neg then -n else n

/-- The value of a fixed-point number × 2^k, its last bit set since the number is not exact. -/
def ofFix (z k : Int) : FVal := .fin (decide (z < 0)) (2 * z.natAbs + 1) (k - fixBits - 1)

/-- e^r for 0 ≤ r < 1, in fixed point. -/
def fixExp (r : Int) : Int :=
  ((List.range 140).foldl (fun (s : Int × Int) i => (s.1 * r / (fixOne : Int) / ((i + 1 : Nat) : Int), s.2 + s.1))
    ((fixOne : Int), 0)).2

/-- sin r for 0 ≤ r < 8, in fixed point. -/
def fixSin (r : Int) : Int :=
  let q := r * r / (fixOne : Int)
  ((List.range 80).foldl (fun (s : Int × Int) i =>
    (-(s.1 * q / (fixOne : Int) / (((2 * i + 2) * (2 * i + 3) : Nat) : Int)), s.2 + s.1)) (r, 0)).2

/-- cos r for 0 ≤ r < 8, in fixed point. -/
def fixCos (r : Int) : Int :=
  let q := r * r / (fixOne : Int)
  ((List.range 80).foldl (fun (s : Int × Int) i =>
    (-(s.1 * q / (fixOne : Int) / (((2 * i + 1) * (2 * i + 2) : Nat) : Int)), s.2 + s.1)) ((fixOne : Int), 0)).2

/-- e^x of a finite value, clear of what overflows or vanishes. -/
def expVal (neg : Bool) (m : Nat) (e : Int) : FVal :=
  let x := FVal.fin neg m e
  if (FVal.ofInt 90).lt x then .inf false
  else if x.lt (FVal.ofInt (-110)) then .fin false 1 (-200)
  else
    let z := toFix neg m e
    ofFix (fixExp (z % fixLn2)) (z / fixLn2)

/-- ln x of a finite positive value. -/
def logVal (m : Nat) (e : Int) : FVal :=
  let l := Nat.log2 m
  let y : Int := ((m * 2 ^ (fixBits - l) : Nat) : Int)
  let z := (y - fixOne) * (fixOne : Int) / (y + fixOne)
  let q := z * z / (fixOne : Int)
  let s := seriesSum 180 z (fun _ p => p * q / (fixOne : Int)) (fun i p => p / ((2 * i + 1 : Nat) : Int))
  let r := (e + l) * fixLn2 + 2 * s
  if m = 2 ^ l ∧ e + l = 0 then .zero else ofFix r 0

/-- sin x or cos x of a finite value, its argument reduced exactly. -/
def trigVal (cos : Bool) (neg : Bool) (m : Nat) (e : Int) : FVal :=
  let z := toFix neg m e % (2 * fixPi)
  if m = 0 then (if cos then .ofInt 1 else .fin neg 0 0)
  else ofFix (if cos then fixCos z else fixSin z) 0

/-- A code moved within 1 ulp by a step (0 none, 1 away from zero, 2 towards it); `crosses` lets the step from zero change
sign. The largest finite magnitude is not left. -/
def ulpMove (crosses : Bool) (step : Nat) (w : W32) : W32 :=
  let mag := w.toNat % 2 ^ 31
  let sign := w.toNat / 2 ^ 31
  if 0x7F800000 ≤ mag then w
  else
    match step % 3 with
    | 0 => w
    | 1 => if mag = 0x7F7FFFFF then w else BitVec.ofNat 32 (sign * 2 ^ 31 + mag + 1)
    | _ => if mag = 0 then (if crosses then BitVec.ofNat 32 ((1 - sign) * 2 ^ 31 + 1) else w)
           else BitVec.ofNat 32 (sign * 2 ^ 31 + mag - 1)

/-- The device's result near a value (R155), for function `fn` at operand `x`. -/
def nearResult (fn x : Nat) (crosses : Bool) (v : FVal) : W32 × Bool :=
  let r := toF32 v
  (ulpMove crosses (Config.ulpStep fn x) r.1, r.2)

/-- VEXP, 0x20: its result, and the cause of R330 where it is one. -/
def elemExp (w : W32) : W32 × Option Nat :=
  match f32 w with
  | .nan _ => (qnan32, none)
  | .inf s => (if s then 0 else 0x7F800000, none)
  | .fin s m e =>
    if m = 0 then (0x3F800000, none)
    else
      let v := expVal s m e
      if v.isInf ∨ (toF32 v).2 then (0x7F800000, some 1) else ((nearResult 0x20 w.toNat false v).1, none)

/-- VLOG, 0x21. -/
def elemLog (w : W32) : W32 × Option Nat :=
  match f32 w with
  | .nan _ => (qnan32, none)
  | .inf s => if s then (qnan32, some 2) else (0x7F800000, none)
  | .fin s m e =>
    if m = 0 then (0xFF800000, none)
    else if s then (qnan32, some 2)
    else ((nearResult 0x21 w.toNat true (logVal m e)).1, none)

/-- VRCP, 0x22. -/
def elemRcp (w : W32) : W32 × Option Nat :=
  match f32 w with
  | .nan _ => (qnan32, none)
  | .inf s => (if s then 0x80000000 else 0, none)
  | .fin s m e =>
    if m = 0 then (if s then 0xFF800000 else 0x7F800000, none)
    else
      let v := (FVal.div (.ofInt 1) (.fin s m e)).1
      if (toF32 v).2 then ((toF32 v).1, some 1) else ((nearResult 0x22 w.toNat false v).1, none)

/-- VRSQ, 0x23. -/
def elemRsq (w : W32) : W32 × Option Nat :=
  match f32 w with
  | .nan _ => (qnan32, none)
  | .inf s => if s then (qnan32, some 2) else (0, none)
  | .fin s m e =>
    if m = 0 then (if s then 0xFF800000 else 0x7F800000, none)
    else if s then (qnan32, some 2)
    else ((nearResult 0x23 w.toNat false (FVal.div (.ofInt 1) (.fin false m e)).1.sqrt.1).1, none)

/-- VSIN, 0x24, or VCOS, 0x25. -/
def elemTrig (cos : Bool) (w : W32) : W32 × Option Nat :=
  match f32 w with
  | .nan _ => (qnan32, none)
  | .inf _ => (qnan32, some 2)
  | .fin s m e => ((nearResult (if cos then 0x25 else 0x24) w.toNat true (trigVal cos s m e)).1, none)

/-- sin or cos of 2π × phi × 2^−64 (R200). -/
def turns (cos : Bool) (phi : W64) : W32 :=
  let z := 2 * fixPi * (phi.toNat : Int) / (2 ^ 64 : Nat)
  let v := if phi = 0 then (if cos then FVal.ofInt 1 else .zero) else ofFix (if cos then fixCos z else fixSin z) 0
  (nearResult (if cos then 0x101 else 0x100) phi.toNat true v).1

end Sys2Proof
end

