-- ==== Sys2Proof/Machine/CsrTable.lean ====
section
/-!
DEFINITION. Sys2Proof/Machine/CsrTable.lean: the CSR map (R542), the registers of every block with their field maps
(R11, R13), and the one home of each register that several offsets show (R245, R288, R322, R343, R429).
-/

namespace Sys2Proof.Machine

open Sys2Proof

/-- Access codes (R11). -/
inductive Access where
  | rw | ro | wo | w1c | w1s | rc
  deriving DecidableEq, Repr

/-- A field of a register: low bit, width, access, value at reset (the factory value of a retained field), and for a
field with reserved encodings the legal ones: least, greatest and step (R13). -/
structure FieldDesc where
  lo : Nat
  width : Nat
  acc : Access
  reset : Nat
  legal : Option (Nat × Nat × Nat)
  deriving DecidableEq, Repr

def field (lo width : Nat) (acc : Access) (reset : Nat) : FieldDesc := ⟨lo, width, acc, reset, none⟩

def fieldIn (lo width : Nat) (acc : Access) (reset a b step : Nat) : FieldDesc :=
  ⟨lo, width, acc, reset, some (a, b, step)⟩

/-- A register, or `count` registers `stride` bytes apart: offset in its block (in its tile window for SECT); whether it is
a `_LO` (1) or `_HI` (2) half (R10); and its scope: 0 its own, 1 one of the sector, 2 one of the device. -/
structure RegDesc where
  off : Nat
  count : Nat
  stride : Nat
  half : Nat
  scope : Nat
  fields : List FieldDesc
  deriving DecidableEq, Repr

/-- The registers of DEV. -/
def regsDev : List RegDesc := [
  -- DEV.ID
  ⟨0x000, 1, 0x4, 0, 0, [field 16 16 .ro 49170, field 8 8 .ro 0, field 0 8 .ro 0]⟩,
  -- DEV.CAP_SECT
  ⟨0x004, 1, 0x4, 0, 0, [field 16 12 .ro 0, field 0 12 .ro 0]⟩,
  -- DEV.CAP_MEM
  ⟨0x008, 1, 0x4, 0, 0, [field 16 12 .ro 0, field 8 8 .ro 0]⟩,
  -- DEV.CAP_UNITS
  ⟨0x00C, 1, 0x4, 0, 0, [field 20 12 .ro 0, field 16 2 .ro 0, field 0 16 .ro 0]⟩,
  -- DEV.CAP_LIMITS
  ⟨0x010, 1, 0x4, 0, 0, [field 24 8 .ro 16, field 16 8 .ro 16, field 8 8 .ro 1, field 0 8 .ro 24]⟩,
  -- DEV.VARIANT_LO
  ⟨0x014, 1, 0x4, 1, 0, [field 0 32 .ro 0]⟩,
  -- DEV.VARIANT_HI
  ⟨0x018, 1, 0x4, 2, 0, [field 0 32 .ro 0]⟩,
  -- DEV.STATE
  ⟨0x01C, 1, 0x4, 0, 0, [field 31 1 .ro 0, field 30 1 .ro 0, field 29 1 .ro 1, field 0 16 .ro 0]⟩,
  -- DEV.RESET_CAUSE
  ⟨0x020, 1, 0x4, 0, 0, [field 24 8 .ro 0, field 16 8 .ro 0, field 8 8 .ro 0, field 0 8 .ro 0]⟩,
  -- DEV.EVT_BASE_LO
  ⟨0x100, 1, 0x4, 1, 0, [field 6 26 .rw 0]⟩,
  -- DEV.EVT_BASE_HI
  ⟨0x104, 1, 0x4, 2, 0, [field 0 32 .rw 0]⟩,
  -- DEV.EVT_ENTRIES
  ⟨0x108, 1, 0x4, 0, 0, [fieldIn 0 5 .rw 10 6 16 1]⟩,
  -- DEV.EVT_CONS_LO
  ⟨0x110, 1, 0x4, 1, 0, [field 3 29 .rw 0]⟩,
  -- DEV.EVT_CONS_HI
  ⟨0x114, 1, 0x4, 2, 0, [field 0 16 .rw 0]⟩,
  -- DEV.EVT_SEQ_LO
  ⟨0x118, 1, 0x4, 1, 0, [field 0 32 .ro 0]⟩,
  -- DEV.EVT_SEQ_HI
  ⟨0x11C, 1, 0x4, 2, 0, [field 0 32 .ro 0]⟩,
  -- DEV.EVT_STATUS
  ⟨0x120, 1, 0x4, 0, 0, [field 31 1 .ro 0, field 16 13 .ro 0, field 0 16 .rc 0]⟩,
  -- DEV.EVT_MASK
  ⟨0x124, 1, 0x4, 0, 0, [field 27 5 .rw 0, field 1 23 .rw 0]⟩]

/-- The registers of TICK. -/
def regsTick : List RegDesc := [
  -- TICK.CTRL
  ⟨0x000, 1, 0x4, 0, 0, [fieldIn 6 2 .rw 0 0 2 1, field 5 1 .rw 1, field 4 1 .rw 1, field 3 1 .rw 0, field 0 1 .rw 0]⟩,
  -- TICK.PERIOD
  ⟨0x004, 1, 0x4, 0, 0, [field 0 12 .ro 500]⟩,
  -- TICK.NEXT_PERIOD
  ⟨0x008, 1, 0x4, 0, 0, [field 31 1 .ro 0, field 0 12 .rw 500]⟩,
  -- TICK.STRETCH
  ⟨0x00C, 1, 0x4, 0, 0, [fieldIn 24 8 .rw 40 8 255 1, fieldIn 12 12 .rw 0 0 4000 1, field 0 12 .ro 0]⟩,
  -- TICK.MAINT
  ⟨0x010, 1, 0x4, 0, 0, [fieldIn 12 4 .rw 11 8 15 1, fieldIn 0 8 .rw 50 8 255 1]⟩,
  -- TICK.STATUS
  ⟨0x014, 1, 0x4, 0, 0, [field 8 8 .rc 0, field 7 1 .ro 0, field 6 1 .ro 0, field 5 1 .ro 0, field 4 1 .ro 0, field 3 1 .ro 0, field 2 1 .ro 0]⟩,
  -- TICK.NEXT_AT_LO
  ⟨0x018, 1, 0x4, 1, 0, [field 0 32 .rw 0]⟩,
  -- TICK.NEXT_AT_HI
  ⟨0x01C, 1, 0x4, 2, 0, [field 0 32 .rw 0]⟩,
  -- TICK.NUMBER_LO
  ⟨0x020, 1, 0x4, 1, 0, [field 0 32 .rw 0]⟩,
  -- TICK.NUMBER_HI
  ⟨0x024, 1, 0x4, 2, 0, [field 0 32 .rw 0]⟩,
  -- TICK.STEP_LO
  ⟨0x028, 1, 0x4, 1, 0, [field 0 32 .rw 0]⟩,
  -- TICK.STEP_HI
  ⟨0x02C, 1, 0x4, 2, 0, [field 0 32 .rw 0]⟩,
  -- TICK.LATE_COUNT
  ⟨0x030, 1, 0x4, 0, 0, [field 0 32 .rc 0]⟩]

/-- The registers of SEQ. -/
def regsSeq : List RegDesc := [
  -- SEQ.JRN_BASE_LO
  ⟨0x400, 1, 0x4, 1, 0, [field 16 16 .rw 0]⟩,
  -- SEQ.JRN_BASE_HI
  ⟨0x404, 1, 0x4, 2, 0, [field 0 16 .rw 0]⟩,
  -- SEQ.JRN_SIZE
  ⟨0x408, 1, 0x4, 0, 0, [field 0 16 .rw 0]⟩,
  -- SEQ.JRN_CTRL
  ⟨0x40C, 1, 0x4, 0, 0, [field 31 1 .rw 0, field 16 12 .rw 0, field 0 16 .rw 0]⟩,
  -- SEQ.JRN_HEAD_LO
  ⟨0x410, 1, 0x4, 1, 0, [field 0 32 .ro 0]⟩,
  -- SEQ.JRN_HEAD_HI
  ⟨0x414, 1, 0x4, 2, 0, [field 0 32 .ro 0]⟩,
  -- SEQ.JRN_LOST
  ⟨0x418, 1, 0x4, 0, 0, [field 0 32 .rc 0]⟩,
  -- SEQ.REPLAY_AT_LO
  ⟨0x420, 1, 0x4, 1, 0, [field 0 32 .rw 0]⟩,
  -- SEQ.REPLAY_AT_HI
  ⟨0x424, 1, 0x4, 2, 0, [field 0 32 .rw 0]⟩,
  -- SEQ.REPLAY_CTRL
  ⟨0x428, 1, 0x4, 0, 0, [field 31 1 .ro 0, field 30 1 .ro 0, field 29 1 .rw 0, field 28 1 .w1s 0, field 24 4 .rw 0, field 0 12 .rw 0]⟩,
  -- SEQ.REPLAY_DIV
  ⟨0x42C, 1, 0x4, 0, 0, [field 0 32 .rc 0]⟩,
  -- SEQ.EVAL
  ⟨0x430, 1, 0x4, 0, 0, [field 16 16 .rw 0, field 0 12 .rw 0]⟩,
  -- SEQ.WL_BASE_LO
  ⟨0x000, 1, 0x4, 1, 0, [field 6 26 .rw 0]⟩,
  -- SEQ.WL_BASE_HI
  ⟨0x004, 1, 0x4, 2, 0, [field 0 16 .rw 0]⟩,
  -- SEQ.WL_ENTRIES
  ⟨0x008, 1, 0x4, 0, 0, [fieldIn 0 5 .rw 8 4 16 1]⟩,
  -- SEQ.WL_CONSUMED_LO
  ⟨0x010, 1, 0x4, 1, 0, [field 0 32 .ro 0]⟩,
  -- SEQ.WL_CONSUMED_HI
  ⟨0x014, 1, 0x4, 2, 0, [field 0 32 .ro 0]⟩]

/-- The registers of SECT, part 1. -/
def regsSect1 : List RegDesc := [
  -- SECT.CORE_STATE
  ⟨0x000, 1, 0x4, 0, 0, [field 20 4 .ro 0, field 4 16 .ro 0, field 3 1 .ro 0, field 2 1 .ro 0, field 0 2 .ro 0]⟩,
  -- SECT.CORE_TRAP_EN
  ⟨0x004, 1, 0x4, 0, 0, [field 4 4 .rw 10, field 0 3 .rw 2]⟩,
  -- SECT.CORE_TRAP_VEC
  ⟨0x008, 1, 0x4, 0, 0, [field 2 14 .rw 0, field 0 1 .rw 0]⟩,
  -- SECT.CORE_TRAP_PC
  ⟨0x00C, 1, 0x4, 0, 0, [field 0 16 .rw 0]⟩,
  -- SECT.CORE_TRAP_CAUSE
  ⟨0x010, 1, 0x4, 0, 0, [field 0 8 .ro 0]⟩,
  -- SECT.CORE_TRAP_INFO_LO
  ⟨0x014, 1, 0x4, 1, 0, [field 0 32 .ro 0]⟩,
  -- SECT.CORE_TRAP_INFO_HI
  ⟨0x018, 1, 0x4, 2, 0, [field 0 32 .ro 0]⟩,
  -- SECT.CORE_STICKY
  ⟨0x01C, 1, 0x4, 0, 0, [field 3 1 .w1c 0, field 2 1 .w1c 0, field 1 1 .w1c 0, field 0 1 .w1c 0]⟩,
  -- SECT.CORE_CYCLES_LO
  ⟨0x020, 1, 0x4, 1, 0, [field 0 32 .ro 0]⟩,
  -- SECT.CORE_CYCLES_HI
  ⟨0x024, 1, 0x4, 2, 0, [field 0 32 .ro 0]⟩,
  -- SECT.RES_COUNT
  ⟨0x100, 1, 0x4, 0, 0, [field 16 16 .rc 0, field 0 16 .rc 0]⟩,
  -- SECT.RES_LAST
  ⟨0x104, 1, 0x4, 0, 0, [field 28 4 .ro 0, field 24 4 .ro 0, field 16 8 .ro 0, field 8 8 .ro 0, field 0 8 .ro 0]⟩,
  -- SECT.RES_CTRL
  ⟨0x108, 1, 0x4, 0, 0, [field 1 2 .ro 0, field 0 1 .w1s 0]⟩,
  -- SECT.CODEC_CTRL
  ⟨0x200, 1, 0x4, 0, 0, [field 0 1 .rw 1]⟩,
  -- SECT.PRESS_STALL
  ⟨0x204, 1, 0x4, 0, 0, [field 0 32 .rc 0]⟩,
  -- SECT.PRESS_ERR
  ⟨0x208, 1, 0x4, 0, 0, [field 24 8 .ro 0, field 0 24 .rc 0]⟩,
  -- SECT.GRV_RAW
  ⟨0x20C, 1, 0x4, 0, 0, [field 0 32 .rc 0]⟩,
  -- SECT.ATTN_OUTCOME
  ⟨0x300, 1, 0x4, 0, 0, [field 16 16 .rc 0, field 0 16 .rc 0]⟩,
  -- SECT.ATTN_PAGES
  ⟨0x304, 1, 0x4, 0, 0, [field 0 32 .rc 0]⟩,
  -- SECT.ATTN_WAIT
  ⟨0x308, 1, 0x4, 0, 0, [field 0 32 .rc 0]⟩]

/-- The registers of SECT, part 2. -/
def regsSect2 : List RegDesc := [
  -- SECT.PREFIX_STAT
  ⟨0x30C, 1, 0x4, 0, 0, [field 16 16 .rc 0, field 8 8 .rc 0, field 0 8 .rc 0]⟩,
  -- SECT.XH_CTRL
  ⟨0x400, 1, 0x4, 0, 1, [field 8 1 .ro 0, field 4 4 .ro 0, field 0 1 .ro 0]⟩,
  -- SECT.XH_LINES
  ⟨0x404, 1, 0x4, 0, 1, [field 0 32 .rc 0]⟩,
  -- SECT.XH_WAIT
  ⟨0x408, 1, 0x4, 0, 1, [field 0 32 .rc 0]⟩,
  -- SECT.ST_CTRL
  ⟨0x410, 1, 0x4, 0, 1, [field 8 1 .ro 0, field 4 4 .ro 0, field 0 1 .ro 0]⟩,
  -- SECT.ST_LINES
  ⟨0x414, 1, 0x4, 0, 1, [field 0 32 .rc 0]⟩,
  -- SECT.ST_WAIT
  ⟨0x418, 1, 0x4, 0, 1, [field 0 32 .rc 0]⟩,
  -- SECT.DRV_POOL
  ⟨0x500, 1, 0x4, 0, 1, [fieldIn 0 5 .rw 8 1 24 1]⟩,
  -- SECT.DRV_STATE
  ⟨0x504, 1, 0x4, 0, 1, [field 16 11 .ro 0, field 0 7 .ro 0]⟩,
  -- SECT.DRV_LATE
  ⟨0x508, 1, 0x4, 0, 1, [field 0 32 .rc 0]⟩,
  -- SECT.DRV_DEADLOCK
  ⟨0x50C, 1, 0x4, 0, 1, [field 0 16 .rc 0]⟩,
  -- SECT.TRG_STALE
  ⟨0x510, 1, 0x4, 0, 1, [field 0 32 .rc 0]⟩,
  -- SECT.TRG_DISCARD
  ⟨0x514, 1, 0x4, 0, 1, [field 0 32 .rc 0]⟩,
  -- SECT.DRV_PORT_WAIT
  ⟨0x520, 1, 0x4, 0, 0, [field 0 32 .rc 0]⟩,
  -- SECT.DRV_LAST
  ⟨0x524, 1, 0x4, 0, 0, [field 24 8 .ro 0, field 8 16 .ro 0, field 0 8 .ro 0]⟩,
  -- SECT.TRG_STATUS
  ⟨0x600, 32, 0x4, 0, 1, [field 31 1 .ro 1, field 30 1 .ro 0, field 29 1 .ro 0, field 28 1 .ro 0, field 21 7 .ro 0, field 14 7 .ro 0, field 7 7 .ro 0]⟩,
  -- SECT.NUM_SRT_LO
  ⟨0x700, 16, 0x8, 1, 2, [field 6 26 .rw 0]⟩,
  -- SECT.NUM_SRT_HI
  ⟨0x704, 16, 0x8, 2, 2, [field 0 16 .rw 0]⟩,
  -- SECT.NUM_OVF
  ⟨0x780, 1, 0x4, 0, 0, [field 31 1 .ro 0, field 28 3 .ro 0, field 24 4 .ro 0, field 16 8 .ro 0, field 0 12 .ro 0]⟩,
  -- SECT.NUM_OVF_MAX
  ⟨0x784, 1, 0x4, 0, 0, [field 0 32 .ro 0]⟩]

/-- The registers of SECT, part 3. -/
def regsSect3 : List RegDesc := [
  -- SECT.NUM_REPEATS
  ⟨0x788, 1, 0x4, 0, 0, [field 16 16 .rc 0, field 0 16 .rc 0]⟩,
  -- SECT.WATCH_LOG_LO
  ⟨0x790, 1, 0x4, 1, 1, [field 11 21 .rw 0]⟩,
  -- SECT.WATCH_LOG_HI
  ⟨0x794, 1, 0x4, 2, 1, [field 0 16 .rw 0]⟩,
  -- SECT.WATCH_T0_LO
  ⟨0x800, 32, 0x40, 1, 1, [field 0 32 .ro 0]⟩,
  -- SECT.WATCH_T0_HI
  ⟨0x804, 32, 0x40, 2, 1, [field 0 32 .ro 0]⟩,
  -- SECT.WATCH_T1_LO
  ⟨0x808, 32, 0x40, 1, 1, [field 0 32 .ro 0]⟩,
  -- SECT.WATCH_T1_HI
  ⟨0x80C, 32, 0x40, 2, 1, [field 0 32 .ro 0]⟩,
  -- SECT.WATCH_T2_LO
  ⟨0x810, 32, 0x40, 1, 1, [field 0 32 .ro 0]⟩,
  -- SECT.WATCH_T2_HI
  ⟨0x814, 32, 0x40, 2, 1, [field 0 32 .ro 0]⟩,
  -- SECT.WATCH_T3_LO
  ⟨0x818, 32, 0x40, 1, 1, [field 0 32 .ro 0]⟩,
  -- SECT.WATCH_T3_HI
  ⟨0x81C, 32, 0x40, 2, 1, [field 0 32 .ro 0]⟩,
  -- SECT.WATCH_T4_LO
  ⟨0x820, 32, 0x40, 1, 1, [field 0 32 .ro 0]⟩,
  -- SECT.WATCH_T4_HI
  ⟨0x824, 32, 0x40, 2, 1, [field 0 32 .ro 0]⟩,
  -- SECT.WATCH_T5_LO
  ⟨0x828, 32, 0x40, 1, 1, [field 0 32 .ro 0]⟩,
  -- SECT.WATCH_T5_HI
  ⟨0x82C, 32, 0x40, 2, 1, [field 0 32 .ro 0]⟩]

/-- The registers of SECT. -/
def regsSect : List RegDesc := regsSect1 ++ regsSect2 ++ regsSect3

/-- The registers of HUB, part 1. -/
def regsHub1 : List RegDesc := [
  -- HUB.STACK_STATUS
  ⟨0x000, 1, 0x4, 0, 0, [field 24 8 .ro 0, field 22 2 .ro 0, field 12 4 .ro 0, field 8 4 .ro 0, field 0 1 .ro 0]⟩,
  -- HUB.ECC_CORR
  ⟨0x004, 1, 0x4, 0, 0, [field 0 32 .rc 0]⟩,
  -- HUB.ECC_UNCORR
  ⟨0x008, 1, 0x4, 0, 0, [field 0 32 .rc 0]⟩,
  -- HUB.POISON_READS
  ⟨0x00C, 1, 0x4, 0, 0, [field 0 32 .rc 0]⟩,
  -- HUB.ECC_LAST_LO
  ⟨0x010, 1, 0x4, 1, 0, [field 0 32 .ro 0]⟩,
  -- HUB.ECC_LAST_HI
  ⟨0x014, 1, 0x4, 2, 0, [field 0 32 .ro 0]⟩,
  -- HUB.RETRY
  ⟨0x018, 1, 0x4, 0, 0, [field 16 16 .rc 0, field 0 16 .rc 0]⟩,
  -- HUB.REFRESH_COST
  ⟨0x01C, 1, 0x4, 0, 0, [field 0 32 .ro 0]⟩,
  -- HUB.MARGIN
  ⟨0x020, 1, 0x4, 0, 0, [field 31 1 .ro 0, field 30 1 .ro 0, field 8 1 .w1s 0, fieldIn 0 8 .rw 0 0 135 1]⟩,
  -- HUB.MARGIN_RESULT
  ⟨0x024, 1, 0x4, 0, 0, [field 16 16 .ro 0, field 0 16 .ro 0]⟩,
  -- HUB.SCRATCH
  ⟨0x028, 1, 0x4, 0, 0, [field 4 4 .ro 0, fieldIn 0 4 .rw 0 0 8 1]⟩,
  -- HUB.RED_STATUS
  ⟨0x02C, 1, 0x4, 0, 0, [field 16 8 .rc 0, field 0 7 .ro 0]⟩,
  -- HUB.REG_BUDGET
  ⟨0x030, 4, 0x4, 0, 0, [field 0 32 .rw 4294967295]⟩,
  -- HUB.REG_BALANCE
  ⟨0x040, 4, 0x4, 0, 0, [field 0 32 .ro 0]⟩,
  -- HUB.CTX_TABLE_LO
  ⟨0x100, 1, 0x4, 1, 2, [field 8 24 .rw 0]⟩,
  -- HUB.CTX_TABLE_HI
  ⟨0x104, 1, 0x4, 2, 2, [field 0 16 .rw 0]⟩,
  -- HUB.WIN_TABLE_LO
  ⟨0x108, 1, 0x4, 1, 2, [field 10 22 .rw 0]⟩,
  -- HUB.WIN_TABLE_HI
  ⟨0x10C, 1, 0x4, 2, 2, [field 0 16 .rw 0]⟩,
  -- HUB.XL_INVAL_LO
  ⟨0x110, 1, 0x4, 1, 2, [field 21 11 .rw 0, field 17 4 .rw 0, field 16 1 .rw 0, field 15 1 .rw 0, field 0 1 .ro 0]⟩,
  -- HUB.XL_INVAL_HI
  ⟨0x114, 1, 0x4, 2, 2, [field 0 16 .rw 0]⟩]

/-- The registers of HUB, part 2. -/
def regsHub2 : List RegDesc := [
  -- HUB.OX_STATUS
  ⟨0x200, 1, 0x4, 0, 0, [field 31 1 .ro 0, field 24 7 .ro 0, field 16 8 .ro 0]⟩,
  -- HUB.OX_OUTCOME
  ⟨0x204, 1, 0x4, 0, 0, [field 16 16 .rc 0, field 0 16 .rc 0]⟩,
  -- HUB.OX_REFUSED
  ⟨0x208, 1, 0x4, 0, 0, [field 16 16 .rc 0, field 0 16 .rc 0]⟩,
  -- HUB.RED_LATE
  ⟨0x20C, 1, 0x4, 0, 0, [field 16 16 .rc 0, field 0 16 .rc 0]⟩,
  -- HUB.RED_FAILED
  ⟨0x210, 1, 0x4, 0, 0, [field 0 16 .rc 0]⟩]

/-- The registers of HUB. -/
def regsHub : List RegDesc := regsHub1 ++ regsHub2

/-- The registers of LINK. -/
def regsLink : List RegDesc := [
  -- LINK.PORT_CTRL
  ⟨0x000, 8, 0x20, 0, 0, [field 16 12 .rw 0, fieldIn 10 6 .rw 2 1 63 1, field 8 1 .w1s 0, field 7 1 .rw 0, field 6 1 .rw 0, fieldIn 2 2 .rw 0 0 2 1, fieldIn 0 2 .rw 0 0 2 1]⟩,
  -- LINK.PORT_STATUS
  ⟨0x004, 8, 0x20, 0, 0, [field 31 1 .ro 0, field 28 3 .ro 0, field 24 4 .ro 0, field 8 16 .ro 0, field 4 4 .ro 0]⟩,
  -- LINK.PORT_ERR
  ⟨0x008, 8, 0x20, 0, 0, [field 16 16 .rc 0, field 0 16 .rc 0]⟩,
  -- LINK.PORT_LAT
  ⟨0x00C, 8, 0x20, 0, 0, [field 0 16 .ro 0]⟩,
  -- LINK.PORT_NHMAC_LO
  ⟨0x010, 8, 0x20, 1, 0, [field 0 32 .rw 0]⟩,
  -- LINK.PORT_NHMAC_HI
  ⟨0x014, 8, 0x20, 2, 0, [field 0 16 .rw 0]⟩,
  -- LINK.SPARE
  ⟨0x100, 1, 0x4, 0, 0, [field 31 1 .ro 0, field 24 6 .ro 0, field 23 1 .ro 0, field 16 6 .ro 0, field 15 1 .ro 0, field 8 6 .ro 0, field 7 1 .ro 0, field 0 6 .ro 0]⟩,
  -- LINK.FLEET
  ⟨0x200, 1, 0x4, 0, 2, [field 16 16 .rw 0, field 0 16 .rw 0]⟩,
  -- LINK.PFX0
  ⟨0x204, 1, 0x4, 0, 2, [field 24 8 .rw 0]⟩,
  -- LINK.PFX
  ⟨0x208, 3, 0x4, 0, 2, [field 0 32 .rw 0]⟩,
  -- LINK.ROUTE_BASE_LO
  ⟨0x220, 1, 0x4, 1, 2, [field 18 14 .rw 0]⟩,
  -- LINK.ROUTE_BASE_HI
  ⟨0x224, 1, 0x4, 2, 2, [field 0 16 .rw 0]⟩,
  -- LINK.ROUTE_CTRL
  ⟨0x228, 1, 0x4, 0, 2, [field 31 1 .ro 0, field 0 1 .w1s 0]⟩,
  -- LINK.LEND_BASE_LO
  ⟨0x230, 1, 0x4, 1, 2, [field 11 21 .rw 0]⟩,
  -- LINK.LEND_BASE_HI
  ⟨0x234, 1, 0x4, 2, 2, [field 0 16 .rw 0]⟩,
  -- LINK.PTP
  ⟨0x238, 1, 0x4, 0, 2, [field 5 1 .ro 0, field 0 5 .rw 31]⟩,
  -- LINK.DROPS
  ⟨0x23C, 1, 0x4, 0, 0, [field 16 16 .rc 0, field 0 16 .rc 0]⟩]

/-- The registers of HOST. -/
def regsHost : List RegDesc := [
  -- HOST.CTRL
  ⟨0x000, 1, 0x4, 0, 0, [field 24 1 .rw 0, field 16 8 .rw 0, field 9 1 .rw 0, field 8 1 .rw 1, field 2 2 .rw 0, field 1 1 .w1s 0, field 0 1 .rw 1]⟩,
  -- HOST.STATUS
  ⟨0x004, 1, 0x4, 0, 0, [field 31 1 .ro 0, field 27 4 .ro 0]⟩,
  -- HOST.MAC_LO
  ⟨0x008, 1, 0x4, 1, 0, [field 0 32 .rw 0]⟩,
  -- HOST.MAC_HI
  ⟨0x00C, 1, 0x4, 2, 0, [field 0 16 .rw 0]⟩,
  -- HOST.IP4
  ⟨0x010, 1, 0x4, 0, 0, [field 0 32 .rw 0]⟩,
  -- HOST.IP6
  ⟨0x014, 4, 0x4, 0, 0, [field 0 32 .rw 0]⟩,
  -- HOST.UDP
  ⟨0x024, 1, 0x4, 0, 0, [field 16 16 .rw 47361, field 0 16 .rw 47360]⟩,
  -- HOST.MGMT
  ⟨0x028, 1, 0x4, 0, 0, [field 12 3 .rw 7, field 0 12 .rw 0]⟩,
  -- HOST.CONN_BASE_LO
  ⟨0x030, 1, 0x4, 1, 0, [field 14 18 .rw 0]⟩,
  -- HOST.CONN_BASE_HI
  ⟨0x034, 1, 0x4, 2, 0, [field 0 16 .rw 0]⟩,
  -- HOST.GRANT_BASE_LO
  ⟨0x038, 1, 0x4, 1, 0, [field 13 19 .rw 0]⟩,
  -- HOST.GRANT_BASE_HI
  ⟨0x03C, 1, 0x4, 2, 0, [field 0 16 .rw 0]⟩,
  -- HOST.CONN_OPEN
  ⟨0x040, 1, 0x4, 0, 0, [field 16 2 .ro 0, field 9 1 .w1s 0, field 8 1 .w1s 0, field 0 8 .rw 0]⟩,
  -- HOST.ERR
  ⟨0x044, 1, 0x4, 0, 0, [field 16 16 .rc 0, field 0 16 .rc 0]⟩]

/-- The registers of GANDER. -/
def regsGander : List RegDesc := [
  -- GANDER.CTRL
  ⟨0x000, 1, 0x4, 0, 0, [field 4 1 .rw 1, fieldIn 0 4 .rw 4 1 15 1]⟩,
  -- GANDER.STATUS
  ⟨0x004, 1, 0x4, 0, 0, [field 16 12 .ro 0, field 0 12 .ro 0]⟩,
  -- GANDER.RECOVERIES
  ⟨0x008, 1, 0x4, 0, 0, [field 16 16 .rc 0, field 8 8 .rc 0, field 0 8 .rc 0]⟩,
  -- GANDER.LAST
  ⟨0x00C, 1, 0x4, 0, 0, [field 24 8 .ro 0, field 20 4 .ro 0, field 18 2 .ro 0, field 16 2 .ro 0, field 0 16 .ro 0]⟩,
  -- GANDER.SUSPECTS
  ⟨0x010, 1, 0x4, 0, 0, [field 0 16 .ro 0]⟩,
  -- GANDER.RESET_REQ
  ⟨0x014, 1, 0x4, 0, 0, [field 31 1 .w1s 0, field 30 1 .ro 0, field 0 12 .rw 0]⟩,
  -- GANDER.RESET_AT_LO
  ⟨0x018, 1, 0x4, 1, 0, [field 0 32 .rw 0]⟩,
  -- GANDER.RESET_AT_HI
  ⟨0x01C, 1, 0x4, 2, 0, [field 0 32 .rw 0]⟩,
  -- GANDER.DUMP_STATUS
  ⟨0x020, 1, 0x4, 0, 0, [field 8 4 .rc 0, field 0 4 .w1c 0]⟩,
  -- GANDER.DUMP_SEL
  ⟨0x024, 1, 0x4, 0, 0, [field 20 2 .rw 0, field 2 18 .rw 0]⟩,
  -- GANDER.DUMP_DATA
  ⟨0x028, 1, 0x4, 0, 0, [field 0 32 .ro 0]⟩,
  -- GANDER.DISABLE
  ⟨0x02C, 1, 0x4, 0, 0, [field 31 1 .w1s 0, field 30 1 .ro 0, field 28 2 .ro 0, field 27 1 .rw 0, field 0 16 .rw 0]⟩]

/-- The registers of PWR. -/
def regsPwr : List RegDesc := [
  -- PWR.CAP
  ⟨0x000, 1, 0x4, 0, 0, [fieldIn 0 11 .rw 1200 400 1200 1]⟩,
  -- PWR.TARGET
  ⟨0x004, 1, 0x4, 0, 0, [fieldIn 0 8 .rw 95 60 100 1]⟩,
  -- PWR.FLOOR
  ⟨0x008, 1, 0x4, 0, 0, [fieldIn 0 12 .rw 950 950 1900 50]⟩,
  -- PWR.STATUS
  ⟨0x00C, 1, 0x4, 0, 0, [field 16 12 .ro 0, field 12 4 .ro 0, field 2 1 .ro 0, field 1 1 .ro 0, field 0 1 .ro 0]⟩,
  -- PWR.POWER
  ⟨0x010, 1, 0x4, 0, 0, [field 16 11 .ro 0, field 0 11 .ro 0]⟩,
  -- PWR.TEMP
  ⟨0x014, 1, 0x4, 0, 0, [field 24 8 .ro 0, field 16 8 .ro 0, field 12 4 .ro 0]⟩,
  -- PWR.EVENTS
  ⟨0x018, 1, 0x4, 0, 0, [field 16 16 .rc 0, field 0 16 .rc 0]⟩,
  -- PWR.CHAR
  ⟨0x020, 1, 0x4, 0, 0, [field 31 1 .w1s 0, field 30 1 .ro 0, field 28 2 .ro 0, field 0 12 .ro 0]⟩,
  -- PWR.THERM_FAST
  ⟨0x024, 1, 0x4, 0, 0, [field 16 16 .ro 0, field 0 16 .ro 0]⟩,
  -- PWR.THERM_SLOW
  ⟨0x028, 1, 0x4, 0, 0, [field 16 16 .ro 0, field 0 16 .ro 0]⟩,
  -- PWR.THERM_LOC
  ⟨0x030, 12, 0x4, 0, 0, [field 0 16 .ro 0]⟩,
  -- PWR.AGE_STATUS
  ⟨0x060, 1, 0x4, 0, 0, [field 16 12 .ro 1900, field 0 12 .ro 0]⟩,
  -- PWR.AGE_DAYS
  ⟨0x064, 1, 0x4, 0, 0, [field 0 32 .ro 0]⟩,
  -- PWR.MARGIN
  ⟨0x080, 12, 0x4, 0, 0, [field 24 8 .ro 0, field 16 8 .ro 0, field 0 16 .ro 0]⟩,
  -- PWR.SRAM
  ⟨0x0C0, 12, 0x4, 0, 0, [field 16 16 .ro 0, field 0 16 .ro 0]⟩]

/-- The registers of SEC. -/
def regsSec : List RegDesc := [
  -- SEC.LIFECYCLE
  ⟨0x000, 1, 0x4, 0, 0, [field 9 1 .ro 0, field 8 1 .ro 0, field 0 3 .ro 0]⟩,
  -- SEC.KEYS
  ⟨0x004, 1, 0x4, 0, 0, [field 28 4 .ro 0, field 24 4 .ro 0, field 20 4 .ro 0, field 16 1 .ro 0]⟩,
  -- SEC.FW
  ⟨0x008, 1, 0x4, 0, 0, [field 24 8 .ro 0, field 16 8 .ro 0, field 8 8 .ro 0, field 1 1 .ro 0, field 0 1 .ro 0]⟩,
  -- SEC.FW_CTRL
  ⟨0x00C, 1, 0x4, 0, 0, [field 31 1 .ro 0, field 28 3 .ro 0, field 3 1 .rw 0, field 2 1 .w1s 0, field 1 1 .w1s 0, field 0 1 .w1s 0]⟩,
  -- SEC.DEBUG
  ⟨0x010, 1, 0x4, 0, 0, [field 30 2 .ro 0, field 29 1 .w1s 0, field 0 28 .ro 0]⟩,
  -- SEC.TOKEN
  ⟨0x014, 1, 0x4, 0, 0, [field 24 8 .ro 0, field 20 4 .ro 0, field 0 16 .rc 0]⟩,
  -- SEC.BOOT
  ⟨0x018, 1, 0x4, 0, 0, [field 28 4 .ro 0, field 24 4 .ro 0, field 1 1 .ro 0, field 0 1 .ro 0]⟩,
  -- SEC.NONCE
  ⟨0x020, 8, 0x4, 0, 0, [field 0 32 .ro 0]⟩,
  -- SEC.UID
  ⟨0x040, 4, 0x4, 0, 0, [field 0 32 .ro 0]⟩]

/-- The registers of LEDGER. -/
def regsLedger : List RegDesc := [
  -- LEDGER.SEL
  ⟨0x000, 1, 0x4, 0, 0, [field 0 16 .rw 0]⟩,
  -- LEDGER.ENTRY
  ⟨0x004, 1, 0x4, 0, 0, [field 28 4 .ro 0, field 24 4 .ro 0, field 20 4 .ro 0, field 19 1 .ro 0, field 0 16 .ro 0]⟩,
  -- LEDGER.CHANGED_LO
  ⟨0x008, 1, 0x4, 1, 0, [field 0 32 .ro 0]⟩,
  -- LEDGER.CHANGED_HI
  ⟨0x00C, 1, 0x4, 2, 0, [field 0 32 .ro 0]⟩,
  -- LEDGER.SUMMARY
  ⟨0x010, 1, 0x4, 0, 0, [field 24 8 .ro 0, field 16 8 .ro 0, field 8 8 .ro 0, field 0 8 .rc 0]⟩,
  -- LEDGER.MISMATCH
  ⟨0x014, 1, 0x4, 0, 0, [field 28 4 .ro 0, field 24 4 .ro 0, field 0 16 .ro 0]⟩]

/-- The registers of RETAIN. -/
def regsRetain : List RegDesc := [
  -- RETAIN.STATUS
  ⟨0x000, 1, 0x4, 0, 0, [field 31 1 .ro 0, field 30 1 .ro 0, field 29 1 .ro 0, field 28 1 .ro 0, field 24 4 .ro 0, field 20 4 .ro 0, field 16 4 .ro 0, field 0 16 .ro 0]⟩,
  -- RETAIN.CTRL
  ⟨0x004, 1, 0x4, 0, 0, [field 1 1 .w1s 0, field 0 1 .w1s 0]⟩,
  -- RETAIN.SEQ_LO
  ⟨0x008, 1, 0x4, 1, 0, [field 0 32 .ro 0]⟩,
  -- RETAIN.SEQ_HI
  ⟨0x00C, 1, 0x4, 2, 0, [field 0 32 .ro 0]⟩,
  -- RETAIN.WRITES
  ⟨0x010, 1, 0x4, 0, 0, [field 0 32 .rc 0]⟩]

/-- CSR blocks (R542). -/
inductive Block where
  | dev | tick | seq | sect | hub | link | host | gander | pwr | sec | ledger | retain
  deriving DecidableEq, Repr

/-- The registers of a block. -/
def Block.regs : Block → List RegDesc
  | .dev => regsDev
  | .tick => regsTick
  | .seq => regsSeq
  | .sect => regsSect
  | .hub => regsHub
  | .link => regsLink
  | .host => regsHost
  | .gander => regsGander
  | .pwr => regsPwr
  | .sec => regsSec
  | .ledger => regsLedger
  | .retain => regsRetain

/-- The offset of a block from the start of CSR space, by its number (R542). -/
def Block.base : Block → Nat → Nat
  | .dev, _ => 0x0000000
  | .tick, _ => 0x0100000
  | .seq, _ => 0x0200000
  | .sect, n => 0x1000000 + n * 0x100000
  | .hub, n => 0x2000000 + n * 0x100000
  | .link, n => 0x3000000 + n * 0x100000
  | .host, _ => 0x3200000
  | .gander, _ => 0x4000000
  | .pwr, _ => 0x4100000
  | .sec, _ => 0x5000000
  | .ledger, _ => 0x5100000
  | .retain, _ => 0x5200000

/-- A place in CSR space: block, its number, the tile window (SECT), and the offset in the block or window. -/
structure CsrLoc where
  block : Block
  n : Nat
  tile : Nat
  off : Nat
  deriving DecidableEq, Repr

/-- The block number of an offset (R542): the block and its number, none outside every block. -/
def blockOf (i : Nat) : Option (Block × Nat) :=
  if i = 0 then some (.dev, 0)
  else if i = 1 then some (.tick, 0)
  else if i = 2 then some (.seq, 0)
  else if 0x10 ≤ i ∧ i < 0x1C then some (.sect, i - 0x10)
  else if 0x20 ≤ i ∧ i < 0x2C then some (.hub, i - 0x20)
  else if i = 0x30 then some (.link, 0)
  else if i = 0x31 then some (.link, 1)
  else if i = 0x32 then some (.host, 0)
  else if i = 0x40 then some (.gander, 0)
  else if i = 0x41 then some (.pwr, 0)
  else if i = 0x50 then some (.sec, 0)
  else if i = 0x51 then some (.ledger, 0)
  else if i = 0x52 then some (.retain, 0)
  else none

/-- Where an offset from the start of CSR space lies. -/
def locate (a : Nat) : Option CsrLoc :=
  match blockOf (a / 0x100000) with
  | none => none
  | some (.sect, n) => some ⟨.sect, n, a % 0x100000 / 0x10000, a % 0x10000⟩
  | some (b, n) => some ⟨b, n, 0, a % 0x100000⟩

/-- Whether a register description covers an offset. -/
def RegDesc.covers (r : RegDesc) (off : Nat) : Bool :=
  decide (r.off ≤ off) && decide ((off - r.off) % r.stride = 0) && decide ((off - r.off) / r.stride < r.count)

/-- The register at a place, none where no chapter defines one. -/
def CsrLoc.desc (l : CsrLoc) : Option RegDesc := l.block.regs.find? (fun r => r.covers l.off)

/-- The one key under which a register is stored. -/
def CsrLoc.home (l : CsrLoc) (scope : Nat) : Nat :=
  match l.block, scope with
  | .sect, 0 => Block.base .sect l.n + l.tile * 0x10000 + l.off
  | .sect, 1 => Block.base .sect l.n + l.off
  | .sect, _ => Block.base .sect 0 + l.off
  | b, 0 => b.base l.n + l.off
  | b, _ => b.base 0 + l.off

/-- The mask of a field. -/
def FieldDesc.mask (f : FieldDesc) : W32 := BitVec.ofNat 32 ((2 ^ f.width - 1) * 2 ^ f.lo)

/-- The mask of every field with one of the accesses. -/
def RegDesc.mask (r : RegDesc) (p : Access → Bool) : W32 :=
  r.fields.foldl (fun m f => if p f.acc then m ||| f.mask else m) 0

/-- The value of a register at reset. -/
def RegDesc.resetValue (r : RegDesc) : W32 :=
  r.fields.foldl (fun m f => m ||| BitVec.ofNat 32 (f.reset * 2 ^ f.lo)) 0

/-- The field's value in a word. -/
def FieldDesc.of (f : FieldDesc) (w : W32) : Nat := w.toNat / 2 ^ f.lo % 2 ^ f.width

/-- Whether a value is a legal encoding of the field (R13). -/
def FieldDesc.ok (f : FieldDesc) (v : Nat) : Bool :=
  match f.legal with
  | none => true
  | some (a, b, st) => decide (a ≤ v) && decide (v ≤ b) && decide ((v - a) % st = 0)

/-- What a write of `v` leaves in a field of the old word (R11, R13). -/
def FieldDesc.write (f : FieldDesc) (old v : W32) : W32 :=
  match f.acc with
  | .rw => if f.ok (f.of v) then v &&& f.mask else old &&& f.mask
  | .w1c => (old &&& ~~~v) &&& f.mask
  | .w1s => (old ||| v) &&& f.mask
  | .ro => old &&& f.mask
  | .rc => old &&& f.mask
  | .wo => old &&& f.mask

/-- What a write of `v` leaves in a register (R11, R13): every field by its access, RSV bits zero. -/
def RegDesc.write (r : RegDesc) (old v : W32) : W32 :=
  r.fields.foldl (fun m f => m ||| f.write old v) 0

end Sys2Proof.Machine
end

