-- ==== Sys2Proof/Machine/Ops.lean ====
section
/-!
DEFINITION. Sys2Proof/Machine/Ops.lean: the named operations over the state: the parts of the device by number, the
CSR file, event records, the unit ledger, free values, and the taking of a trap and the return from one.
-/

namespace Sys2Proof

/-- 16 × sector + logical tile. -/
def TileRef.ix (t : TileRef) : Nat := 16 * t.sector.val + t.tile.val

/-- The logical tile of an index. -/
def tileOf (i : Nat) : TileRef := ⟨Fin.ofNat 12 (i / 16), Fin.ofNat 16 i⟩

namespace Machine

/-! ## Variants (R3, R4) -/

/-- How many sectors, hub slices and stacks are present (R4). -/
def Variant.sectors : Variant → Nat
  | .f => 12
  | .s => 12
  | .e => 8

/-- GiB of each stack (R3). -/
def Variant.stackGiB : Variant → Nat
  | .f => 48
  | .s => 32
  | .e => 32

/-- How many peer ports are present (R3). -/
def Variant.ports : Variant → Nat
  | .f => 16
  | .s => 8
  | .e => 8

def Variant.crosshatch : Variant → Bool
  | .f => true
  | .s => false
  | .e => false

def Variant.stipple : Variant → Bool
  | .f => true
  | .s => true
  | .e => false

/-! ## The outcome of a command -/

/-- The command's effect on everything but the queue and the fuses. -/
def State.onDev (s : State) (f : Dev → Dev) : Host.Outcome State Fault Refusal := .next { s with dev := f s.dev }

/-- The command's effect on everything but the queue. -/
def State.onAll (s : State) (f : Fuses → Dev → Fuses × Dev) : Host.Outcome State Fault Refusal :=
  let r := f s.fuse s.dev
  .next { s with fuse := r.1, dev := r.2 }

/-! ## Parts by number -/

def Dev.tile (d : Dev) (t : TileRef) : Tile := Tab.look {} d.tiles t.ix

def Dev.setTile (d : Dev) (t : TileRef) (x : Tile) : Dev := { d with tiles := Tab.put {} d.tiles t.ix x }

def Dev.onTile (d : Dev) (t : TileRef) (f : Tile → Tile) : Dev := d.setTile t (f (d.tile t))

def Dev.sector (d : Dev) (n : Nat) : Sector := Tab.look {} d.sectors n

def Dev.onSector (d : Dev) (n : Nat) (f : Sector → Sector) : Dev := { d with sectors := Tab.alter {} d.sectors n f }

def Dev.hub (d : Dev) (n : Nat) : Hub := Tab.look {} d.hubs n

def Dev.onHub (d : Dev) (n : Nat) (f : Hub → Hub) : Dev := { d with hubs := Tab.alter {} d.hubs n f }

def Dev.port (d : Dev) (p : Nat) : Port := Tab.look {} d.links.ports p

def Dev.onLinks (d : Dev) (f : Links → Links) : Dev := { d with links := f d.links }

def Dev.onPort (d : Dev) (p : Nat) (f : Port → Port) : Dev :=
  d.onLinks fun l => { l with ports := Tab.alter {} l.ports p f }

def Dev.conn (d : Dev) (i : Nat) : Conn := Tab.look {} d.links.conns i

def Dev.onConn (d : Dev) (i : Nat) (f : Conn → Conn) : Dev :=
  d.onLinks fun l => { l with conns := Tab.alter {} l.conns i f }

def Dev.onTick (d : Dev) (f : Tick → Tick) : Dev := { d with tick := f d.tick }

def Dev.onSeq (d : Dev) (f : Seq → Seq) : Dev := { d with seq := f d.seq }

def Dev.onGander (d : Dev) (f : Gander → Gander) : Dev := { d with gander := f d.gander }

def Dev.onPower (d : Dev) (f : Power → Power) : Dev := { d with power := f d.power }

def Dev.onSec (d : Dev) (f : Sec → Sec) : Dev := { d with sec := f d.sec }

def Dev.onRetain (d : Dev) (f : Retain → Retain) : Dev := { d with retain := f d.retain }

/-- Adds a message to what the device sends. -/
def Dev.send (d : Dev) (m : OutMsg) : Dev := { d with outbox := d.outbox ++ [m] }

/-- A value the manual leaves open (log 1): the next one that `Config.freeWord` gives. -/
def Dev.draw (d : Dev) : W64 × Dev := (Config.freeWord d.free, { d with free := d.free + 1 })

/-- `n` bytes that the manual leaves open (log 1). -/
def Dev.drawBytes (d : Dev) (n : Nat) : List W8 × Dev :=
  ((List.range n).map (fun i => (Config.freeWord (d.free + i)).setWidth 8), { d with free := d.free + n })

/-- `n` bytes of a memory from address `a` become values that the manual leaves open, the free values from number `f` on (log 1). -/
def Mem.freed (m : Mem) (a n f : Nat) : Mem :=
  m.filter (fun e => decide (e.1 < a)) ++
    (List.range n).filterMap (fun i =>
      let b := (Config.freeWord (f + i)).setWidth 8
      if b = 0 then none else some (a + i, b)) ++
    m.filter (fun e => decide (a + n ≤ e.1))

/-! ## The CSR file (R9 to R13, R542, R543) -/

namespace At

def dev (off : Nat) : CsrLoc := ⟨.dev, 0, 0, off⟩
def tick (off : Nat) : CsrLoc := ⟨.tick, 0, 0, off⟩
def seq (off : Nat) : CsrLoc := ⟨.seq, 0, 0, off⟩
def tile (t : TileRef) (off : Nat) : CsrLoc := ⟨.sect, t.sector.val, t.tile.val, off⟩
def sector (n off : Nat) : CsrLoc := ⟨.sect, n, 0, off⟩
def hub (n off : Nat) : CsrLoc := ⟨.hub, n, 0, off⟩
def link (n off : Nat) : CsrLoc := ⟨.link, n, 0, off⟩
def port (p off : Nat) : CsrLoc := ⟨.link, p / 8, 0, 0x20 * (p % 8) + off⟩
def host (off : Nat) : CsrLoc := ⟨.host, 0, 0, off⟩
def gander (off : Nat) : CsrLoc := ⟨.gander, 0, 0, off⟩
def pwr (off : Nat) : CsrLoc := ⟨.pwr, 0, 0, off⟩
def sec (off : Nat) : CsrLoc := ⟨.sec, 0, 0, off⟩
def ledger (off : Nat) : CsrLoc := ⟨.ledger, 0, 0, off⟩
def retain (off : Nat) : CsrLoc := ⟨.retain, 0, 0, off⟩

end At

/-- What the CSR file holds of a register; zero where no chapter defines one (R543). -/
def Dev.reg (d : Dev) (l : CsrLoc) : W32 :=
  match l.desc with
  | none => 0
  | some r => Tab.look r.resetValue d.csr (l.home r.scope)

/-- Sets what the CSR file holds of a register. -/
def Dev.setReg (d : Dev) (l : CsrLoc) (v : W32) : Dev :=
  match l.desc with
  | none => d
  | some r => { d with csr := Tab.put r.resetValue d.csr (l.home r.scope) v }

/-- A field of a register, as a number. -/
def Dev.fld (d : Dev) (l : CsrLoc) (lo width : Nat) : Nat := (d.reg l).toNat / 2 ^ lo % 2 ^ width

def Dev.bit (d : Dev) (l : CsrLoc) (lo : Nat) : Bool := (d.reg l).getLsbD lo

/-- A word with one field replaced. -/
def setField (w : W32) (lo width v : Nat) : W32 :=
  let m : W32 := BitVec.ofNat 32 ((2 ^ width - 1) * 2 ^ lo)
  (w &&& ~~~m) ||| (BitVec.ofNat 32 (v * 2 ^ lo) &&& m)

def Dev.setFld (d : Dev) (l : CsrLoc) (lo width v : Nat) : Dev := d.setReg l (setField (d.reg l) lo width v)

/-- Adds to a counter field, which saturates. -/
def Dev.count (d : Dev) (l : CsrLoc) (lo width n : Nat) : Dev :=
  d.setFld l lo width (min (d.fld l lo width + n) (2 ^ width - 1))

/-- A 64-bit quantity of the file: its `_LO` and the `_HI` 4 bytes above (R10). -/
def Dev.reg64 (d : Dev) (l : CsrLoc) : W64 := d.reg { l with off := l.off + 4 } ++ d.reg l

def Dev.setReg64 (d : Dev) (l : CsrLoc) (v : W64) : Dev :=
  (d.setReg l (v.setWidth 32)).setReg { l with off := l.off + 4 } ((v >>> 32).setWidth 32)

/-- The held halves of a requester (R10). -/
def Dev.held (d : Dev) (r : Requester) : Halves :=
  match d.halves.find? (fun h => decide (h.requester = r)) with
  | some h => h
  | none => { requester := r }

def Dev.setHeld (d : Dev) (h : Halves) : Dev :=
  let rest := d.halves.filter (fun x => !decide (x.requester = h.requester))
  { d with halves := if h.readHi.isEmpty && h.writeLo.isEmpty then rest else h :: rest }

/-! ## Times and numbers of the tick -/

/-- The guard: 2 µs before each edge (R37). -/
def guardUs : Nat := 2

/-- Whether the device is the fleet's tick root (R40, R57). -/
def Dev.isRoot (d : Dev) : Bool := d.bit (At.tick 0x000) 5

/-- The device ID (R431), as LINK.FLEET gives it. -/
def Dev.deviceId (d : Dev) : W16 := d.links.devId

/-- A tick's cycle budget (R38): (period − 2 µs − reserve) × floor clock. -/
def cycleBudget (periodUs reserveUs floorMhz : Nat) : Nat := (periodUs - guardUs - reserveUs) * floorMhz

/-- The maintenance reserve in force (R65). -/
def reserveInForce (reserveUs periodUs : Nat) : Nat := min reserveUs ((periodUs - guardUs) / 2)

/-- Whether tick `n` is a maintenance tick (R65). -/
def isMaintenance (n log2 : Nat) : Bool := decide (n % 2 ^ log2 = 0)

/-- The announcement lead in force (R44), in µs. -/
def leadInForce (leadUs periodUs : Nat) : Nat := min leadUs ((periodUs - guardUs) / 2)

/-- The root whose ticks the device follows: itself, or the lowest device ID it hears (R57). -/
def Dev.rootId (d : Dev) : W16 :=
  if d.isRoot then d.deviceId
  else match d.tick.roots with
    | [] => 0
    | e :: r => r.foldl (fun m x => if x.1 < m then x.1 else m) e.1

/-- The root's TICK.MAINT as it stands in tick `n` (R65); on a device that is not the root a free value (log 39). -/
def Dev.maintWord (d : Dev) (n : Nat) : W32 :=
  if d.isRoot then d.reg (At.tick 0x010) else Config.rootMaint d.rootId (BitVec.ofNat 64 n)

/-- The root's LIMIT_US (R44, R62); on a device that is not the root a free value (log 39). -/
def Dev.limitUs (d : Dev) : Nat := if d.isRoot then d.fld (At.tick 0x00C) 12 12 else Config.rootLimit d.rootId d.tick.number

/-- Whether tick `n` is a maintenance tick of the fleet (R65). -/
def Dev.maintains (d : Dev) (n : Nat) : Bool := isMaintenance n ((d.maintWord n).toNat / 2 ^ 12 % 16)

/-- The reserve that the root asks for in tick `n`, in µs (R65). -/
def Dev.reserveAsked (d : Dev) (n : Nat) : Nat := (d.maintWord n).toNat % 256

/-! ## Event records (R546 to R551) -/

/-- What an event says beyond its code; what does not apply reads 0xFF, or 0xFFFF_FFFF for UNIT (R550). -/
structure EventInfo where
  status : Nat := 0
  ctx : Nat := 0xFF
  partition : Nat := 0xFF
  tile : Nat := 0xFF
  engine : Nat := 0xFF
  unit : Nat := 0xFFFFFFFF
  arg : List W8 := []
  deriving DecidableEq, Repr

/-- The record of an event with the next sequence number (R550). -/
def Dev.record (d : Dev) (code : Nat) (i : EventInfo) : EventRec :=
  { seq := d.events.nextSeq
    code := BitVec.ofNat 8 code
    status := BitVec.ofNat 8 i.status
    replay := d.seq.replay.isSome && (i.partition == 0xFF ||
      (match d.seq.replay with | none => false | some r => r.parts.getLsbD i.partition))
    ctx := BitVec.ofNat 8 i.ctx
    partition := BitVec.ofNat 8 i.partition
    tile := BitVec.ofNat 8 i.tile
    engine := BitVec.ofNat 8 i.engine
    unit := BitVec.ofNat 32 i.unit
    tick := d.tick.number
    step := d.tick.step
    device := d.deviceId
    boot := d.retain.bootId
    arg := (i.arg ++ List.replicate 24 0).take 24 }

/-- Adds a record: held while fewer than 4,096 are, else dropped and counted (R548); the 1,024 most recent are kept. -/
def Events.add (e : Events) (r : EventRec) : Events × Bool :=
  let recent := (e.recent ++ [r]).drop ((e.recent.length + 1) - 1024)
  if e.held.length < 4096 then
    ({ e with nextSeq := e.nextSeq + 1, held := e.held ++ [r], recent := recent }, false)
  else
    ({ e with nextSeq := e.nextSeq + 1, recent := recent,
              lostFirst := some (e.lostFirst.getD r.seq), lostCount := e.lostCount + 1 }, true)

/-- Raises an event (R549: a masked code generates no record and takes no sequence number). -/
def Dev.raise (d : Dev) (code : Nat) (i : EventInfo) : Dev :=
  if d.bit (At.dev 0x124) code then d
  else
    let r := d.events.add (d.record code i)
    let d' := { d with events := r.1 }
    if r.2 then d'.count (At.dev 0x120) 0 16 1 else d'

/-! ## The unit ledger (R535 to R539) -/

/-- A unit number: KIND × 2,048 + INDEX (R535). -/
def unitNo (kind index : Nat) : BitVec 16 := BitVec.ofNat 16 (kind * 2048 + index)

/-- The ledger states (R536). -/
def stAbsent : BitVec 4 := 0
def stOff : BitVec 4 := 1
def stBringup : BitVec 4 := 2
def stReady : BitVec 4 := 3
def stFenced : BitVec 4 := 4
def stDraining : BitVec 4 := 5
def stResetting : BitVec 4 := 6
def stFaulted : BitVec 4 := 7
def stSpared : BitVec 4 := 8
def stDisabled : BitVec 4 := 9

/-- READY where `p`, else ABSENT. -/
def readyIf (p : Bool) : BitVec 4 := if p then stReady else stAbsent

/-- READY where in service, OFF for a spare, ABSENT where the variant lacks it. -/
def readyOrSpare (there spare : Bool) : BitVec 4 := if there then (if spare then stOff else stReady) else stAbsent

/-- The state of a unit once the device is READY after a first cold reset: ABSENT by variant, spares OFF, the others
READY (R4, R15, R535 to R537). DESIGN CHOICE (log 58): all four hub dies and their die-to-die ports are READY on every variant, also hub
die 3 of an SWK-CW08-E, none of whose sectors and slices is present. -/
def ledgerStart (v : Variant) (u : BitVec 16) : BitVec 4 :=
  let kind := u.toNat / 2048
  let i := u.toNat % 2048
  let n := v.sectors
  match kind with
  | 0x00 => readyIf (decide (i = 0))
  | 0x01 => readyOrSpare (decide (i < 17 * n)) (decide (i % 17 = 16))
  | 0x02 => readyOrSpare (decide (i < 85 * n)) (decide (i / 5 % 17 = 16))
  | 0x03 => readyIf (decide (i < n))
  | 0x04 => readyIf (decide (i < n) && v.crosshatch)
  | 0x05 => readyIf (decide (i < n) && v.stipple)
  | 0x06 => readyIf (decide (i < n))
  | 0x07 => readyIf (decide (i < n))
  | 0x08 => readyIf (decide (i < n))
  | 0x09 => readyIf (decide (i < n))
  | 0x0A => readyIf (decide (i < n))
  | 0x0B => readyIf (decide (i < n))
  | 0x0C => readyIf (decide (i < n))
  | 0x0D => readyOrSpare (decide (i < 136 * n)) (decide (128 ≤ i % 136))
  | 0x0E => readyOrSpare (decide (i < 18 * n)) (decide (16 ≤ i % 18))
  | 0x0F => readyIf (decide (i < 4))
  | 0x10 => readyIf (decide (8 * i < v.ports))
  | 0x11 => readyIf (decide (i < v.ports))
  | 0x12 => readyOrSpare (decide (8 * (i / 64) < v.ports) && decide (i % 64 < 44) &&
      (decide (i / 64 = 0) || decide (i % 64 < 32) || decide (40 ≤ i % 64))) (decide (40 ≤ i % 64))
  | 0x13 => readyIf (decide (i = 0))
  | 0x14 => readyIf (decide (i < 2))
  | 0x15 => readyIf (decide (i = 0))
  | 0x16 => readyIf (decide (i = 0))
  | 0x17 => readyIf (decide (i = 0))
  | 0x18 => readyIf (decide (i < 4))
  | _ => stAbsent

/-- The entry of a unit no transition has touched since it came up. -/
def ledgerInit (v : Variant) (u : BitVec 16) : LedgerEntry :=
  let s := ledgerStart v u
  { state := s, seen := s, previous := if s = stReady then stBringup else s, pending := false,
    transitions := if s = stReady then 2 else 0, changed := 0, latch := s }

def Dev.entry (v : Variant) (d : Dev) (u : BitVec 16) : LedgerEntry :=
  Tab.look (ledgerInit v u) d.ledger u.toNat

def Dev.setEntry (v : Variant) (d : Dev) (u : BitVec 16) (e : LedgerEntry) : Dev :=
  { d with ledger := Tab.put (ledgerInit v u) d.ledger u.toNat e }

/-- The transitions of R537. -/
def ledgerMoves (a b : BitVec 4) : Bool :=
  (a = stOff && b = stBringup) ||
  (a = stBringup && (b = stReady || b = stFaulted || b = stSpared)) ||
  (a = stReady && (b = stFenced || b = stDraining || b = stSpared || b = stFaulted)) ||
  (a = stFenced && (b = stResetting || b = stReady)) ||
  (a = stResetting && (b = stReady || b = stBringup || b = stSpared || b = stDisabled || b = stFaulted)) ||
  (a = stDraining && b = stDisabled) ||
  (a = stDisabled && b = stBringup)

/-- A transition: written to the ledger first, and pending until the unit acknowledges it (R538); one that R537 does
not list is never made. A transition to FAULTED or DISABLED raises UNIT_STATE (R551). -/
def Dev.moveUnit (v : Variant) (d : Dev) (u : BitVec 16) (st : BitVec 4) : Dev :=
  let e := d.entry v u
  if ledgerMoves e.state st then
    let e' := { e with state := st, previous := e.state, pending := true,
                       transitions := if e.transitions = 0xFFFF then e.transitions else e.transitions + 1,
                       changed := d.tick.number }
    let d' := d.setEntry v u e'
    if st = stFaulted ∨ st = stDisabled then
      d'.raise 0x14 { status := if st = stDisabled then 0x41 else 0, unit := u.toNat,
                      arg := [e.state.setWidth 8, st.setWidth 8] }
    else d'
  else d

/-! ## Partitions in recovery -/

/-- The recovery that covers a partition, with its key. -/
def Gander.recovery (g : Gander) (n : Nat) : Option (Nat × Recovery) := g.recoveries.find? (fun e => e.2.parts.getLsbD n)

/-- Whether a partition is held fenced for the owner (R437). -/
def Gander.holds (g : Gander) (n : Nat) : Bool := g.held.any (fun e => e.1 == n)

/-- Whether a partition is fenced for a recovery or for the owner. -/
def Dev.cutOff (d : Dev) (n : Nat) : Bool := (d.gander.recovery n).isSome || d.gander.holds n

/-! ## Traps (R106 to R109) -/

/-- Causes of R106. -/
def cFetchEcc : Nat := 0x01
def cFetchBound : Nat := 0x02
def cIllegal : Nat := 0x03
def cCsrAccess : Nat := 0x04
def cDescInvalid : Nat := 0x05
def cBracket : Nat := 0x06
def cTokenBusy : Nat := 0x07
def cTokenIdle : Nat := 0x08
def cMisaligned : Nat := 0x09
def cTileRange : Nat := 0x0A
def cTranslation : Nat := 0x0B
def cDataEcc : Nat := 0x0C
def cBreak : Nat := 0x0D
def cTensorStatus : Nat := 0x10
def cDouble : Nat := 0x1F

/-- A halted tile (R109): it fetches nothing more, the remaining slices of the plan are skipped, and the sequencer
writes TILE_HALTED with the cause, the pc and the detail. DESIGN CHOICE (log 59): CORE_TRAP_CAUSE, _PC and _INFO stay as they were, no
trap having been entered, and CORE_STATE.LATE stays at 1 until the next slice starts or a reset. -/
def Dev.haltTile (d : Dev) (t : TileRef) (cause : Nat) (info : W64) : Dev :=
  let x := d.tile t
  (d.setTile t { x with run := .halted, skip := (x.cur.map (·.serial)).toList ++ x.skip }).raise 0x03
    { status := 0x7F, ctx := x.ctx.toNat, partition := t.sector.val, tile := t.tile.val,
      arg := [BitVec.ofNat 8 cause, 0] ++ toLE 2 x.pc.toNat ++ [0, 0, 0, 0] ++ toLE 8 info.toNat }

/-- The core's registers after trap entry (R108): pc, cause and detail saved, IN_TRAP set, on at the handler. -/
def Tile.enterTrap (x : Tile) (cause : Nat) (info : W64) : Tile :=
  { x with trapPc := x.pc &&& 0xFFFC, cause := BitVec.ofNat 8 cause, info := info, inTrap := true,
           pc := x.vecOffset ++ 0#2, past := false }

/-- A cause raised by the core of a tile: trap entry (R108), or a halt within a handler or with no valid vector (R109). -/
def Dev.trap (d : Dev) (t : TileRef) (cause : Nat) (info : W64) : Dev :=
  let x := d.tile t
  if x.inTrap then d.haltTile t cDouble info
  else if x.vecValid then d.setTile t (x.enterTrap cause info)
  else d.haltTile t cause info

/-- Return from a trap (R108): IN_TRAP clear, on at CORE_TRAP_PC. -/
def Tile.leaveTrap (x : Tile) : Tile := { x with inTrap := false, pc := x.trapPc, past := false }

end Machine

end Sys2Proof
end

