-- ==== Sys2Proof/Machine/Ctis.lean ====
section
/-!
DEFINITION. Sys2Proof/Machine/Ctis.lean: the encodings of the Corwa Tile Instruction Set (R79, R82, R87, R89, R91), both
ways, and the fetch of an instruction (R77).
-/

namespace Sys2Proof.Machine

open Sys2Proof

/-- An encoded instruction: a scalar word or a tensor instruction's four words (R77, R89). -/
inductive CtisWord where
  | scalar (w : W32)
  | tensor (w : BitVec 128)
  deriving DecidableEq, Repr

/-- The OP class (R79): hi, I, RS1, RD, OP, CLASS 00. -/
def encOp (op : BitVec 5) (a : OpArgs) : CtisWord :=
  .scalar (a.hi ++ BitVec.ofBool a.i ++ a.rs1 ++ a.rd ++ op ++ 0b00#2)

/-- The MEM class (R79): IMM14, V, RS1, RD, OP, CLASS 01. -/
def encMem (op : BitVec 5) (a : MemArgs) : CtisWord :=
  .scalar (a.imm ++ BitVec.ofBool a.v ++ a.rs1 ++ a.rd ++ op ++ 0b01#2)

/-- The atomics (R82): RSV, W, RS3, RS2, bit 17, RS1, RD, OP, CLASS 01. -/
def encAmo (op : BitVec 5) (a : AmoArgs) : CtisWord :=
  .scalar (a.rsv ++ BitVec.ofBool a.w ++ a.rs3 ++ a.rs2 ++ BitVec.ofBool a.bit17 ++ a.rs1 ++ a.rd ++ op ++ 0b01#2)

/-- The CTRL class (R87): bits 31:7, OP, CLASS 10. -/
def encCtrl (op : BitVec 5) (rest : BitVec 25) : CtisWord := .scalar (rest ++ op ++ 0b10#2)

/-- A tensor instruction (R89). -/
def encTensor (engine : BitVec 4) (opcode : W8) (a : TensorArgs) : CtisWord :=
  .tensor (a.wait ++ a.greg ++ a.mod ++ a.dc ++ a.db ++ a.da ++ a.sreg ++ BitVec.ofBool a.se ++ a.token ++
    BitVec.ofBool a.te ++ opcode ++ engine ++ 0b11#2)

/-- The fields of an OP word. -/
def opArgs (w : W32) : OpArgs := ⟨w.extractLsb' 18 14, w.getLsbD 17, w.extractLsb' 12 5, w.extractLsb' 7 5⟩

/-- The fields of a MEM word. -/
def memArgs (w : W32) : MemArgs := ⟨w.extractLsb' 18 14, w.getLsbD 17, w.extractLsb' 12 5, w.extractLsb' 7 5⟩

/-- The fields of an atomic. -/
def amoArgs (w : W32) : AmoArgs :=
  ⟨w.extractLsb' 29 3, w.getLsbD 28, w.extractLsb' 23 5, w.extractLsb' 18 5, w.getLsbD 17, w.extractLsb' 12 5,
   w.extractLsb' 7 5⟩

/-- The fields of a tensor instruction. -/
def tensorArgs (w : BitVec 128) : TensorArgs :=
  ⟨w.extractLsb' 64 64, w.extractLsb' 59 5, w.extractLsb' 40 19, w.extractLsb' 35 5, w.extractLsb' 30 5,
   w.extractLsb' 25 5, w.extractLsb' 22 3, w.getLsbD 21, w.extractLsb' 15 6, w.getLsbD 14⟩

/-- The encoding of an instruction command, with its tile; none for a command that is no instruction. -/
def ctisEncode : Instr → Option (TileRef × CtisWord)
  | .add t a => some (t, encOp 1 a)
  | .sub t a => some (t, encOp 2 a)
  | .and t a => some (t, encOp 3 a)
  | .or t a => some (t, encOp 4 a)
  | .xor t a => some (t, encOp 5 a)
  | .sll t a => some (t, encOp 6 a)
  | .srl t a => some (t, encOp 7 a)
  | .sra t a => some (t, encOp 8 a)
  | .mul t a => some (t, encOp 9 a)
  | .mulh t a => some (t, encOp 10 a)
  | .mulhu t a => some (t, encOp 11 a)
  | .div t a => some (t, encOp 12 a)
  | .divu t a => some (t, encOp 13 a)
  | .rem t a => some (t, encOp 14 a)
  | .remu t a => some (t, encOp 15 a)
  | .min t a => some (t, encOp 16 a)
  | .max t a => some (t, encOp 17 a)
  | .minu t a => some (t, encOp 18 a)
  | .maxu t a => some (t, encOp 19 a)
  | .cmpeq t a => some (t, encOp 20 a)
  | .cmplt t a => some (t, encOp 21 a)
  | .cmpltu t a => some (t, encOp 22 a)
  | .ldb t a => some (t, encMem 1 a)
  | .ldh t a => some (t, encMem 2 a)
  | .ldw t a => some (t, encMem 3 a)
  | .ldd t a => some (t, encMem 4 a)
  | .ldbu t a => some (t, encMem 5 a)
  | .ldhu t a => some (t, encMem 6 a)
  | .ldwu t a => some (t, encMem 7 a)
  | .stb t a => some (t, encMem 8 a)
  | .sth t a => some (t, encMem 9 a)
  | .stw t a => some (t, encMem 10 a)
  | .std t a => some (t, encMem 11 a)
  | .dld t a => some (t, encMem 12 a)
  | .dst t a => some (t, encMem 13 a)
  | .csrr t a => some (t, encMem 14 a)
  | .csrw t a => some (t, encMem 15 a)
  | .fenceM t rsv => some (t, .scalar (rsv ++ 0x10#5 ++ 0b01#2))
  | .amoAdd t a => some (t, encAmo 17 a)
  | .amoFadd t a => some (t, encAmo 18 a)
  | .amoMin t a => some (t, encAmo 19 a)
  | .amoMax t a => some (t, encAmo 20 a)
  | .amoAnd t a => some (t, encAmo 21 a)
  | .amoOr t a => some (t, encAmo 22 a)
  | .amoXor t a => some (t, encAmo 23 a)
  | .amoSwap t a => some (t, encAmo 24 a)
  | .amoCas t a => some (t, encAmo 25 a)
  | .jal t off rd => some (t, encCtrl 1 (off ++ rd))
  | .jalr t imm rsv rs1 rd => some (t, encCtrl 2 (imm ++ BitVec.ofBool rsv ++ rs1 ++ rd))
  | .br t off rsv n p => some (t, encCtrl 3 (off ++ BitVec.ofBool rsv ++ BitVec.ofBool n ++ p))
  | .brs t off cond s => some (t, encCtrl 4 (off ++ cond ++ s))
  | .lsh t imm rd => some (t, encCtrl 5 (imm ++ rd))
  | .pset t rh tt pb pa rl pd => some (t, encCtrl 6 (rh ++ tt ++ pb ++ pa ++ rl ++ pd))
  | .smov t rsv s rd => some (t, encCtrl 7 (rsv ++ s ++ rd))
  | .tstat t rsv tok rd => some (t, encCtrl 8 (rsv ++ tok ++ rd))
  | .twait t mask rsv group => some (t, encCtrl 9 (mask ++ rsv ++ group))
  | .tclr t mask rsv group => some (t, encCtrl 10 (mask ++ rsv ++ group))
  | .dbase t rsv a rs1 rd => some (t, encCtrl 11 (rsv ++ BitVec.ofBool a ++ rs1 ++ rd))
  | .eret t rsv => some (t, encCtrl 12 rsv)
  | .brk t code => some (t, encCtrl 13 code)
  | .mload t a => some (t, encTensor 0 0x01 a)
  | .mzero t a => some (t, encTensor 0 0x02 a)
  | .mmaE4 t a => some (t, encTensor 0 0x10 a)
  | .mmaE5 t a => some (t, encTensor 0 0x11 a)
  | .mmaC4 t a => some (t, encTensor 0 0x12 a)
  | .mmaBf t a => some (t, encTensor 0 0x13 a)
  | .mmaHf t a => some (t, encTensor 0 0x14 a)
  | .mmaF32 t a => some (t, encTensor 0 0x15 a)
  | .vadd t a => some (t, encTensor 1 0x01 a)
  | .vsub t a => some (t, encTensor 1 0x02 a)
  | .vmul t a => some (t, encTensor 1 0x03 a)
  | .vfma t a => some (t, encTensor 1 0x04 a)
  | .vmax t a => some (t, encTensor 1 0x05 a)
  | .vmin t a => some (t, encTensor 1 0x06 a)
  | .vabs t a => some (t, encTensor 1 0x07 a)
  | .vneg t a => some (t, encTensor 1 0x08 a)
  | .vcmp t a => some (t, encTensor 1 0x09 a)
  | .vsel t a => some (t, encTensor 1 0x0A a)
  | .vmov t a => some (t, encTensor 1 0x0B a)
  | .vand t a => some (t, encTensor 1 0x0C a)
  | .vor t a => some (t, encTensor 1 0x0D a)
  | .vxor t a => some (t, encTensor 1 0x0E a)
  | .vexp t a => some (t, encTensor 1 0x20 a)
  | .vlog t a => some (t, encTensor 1 0x21 a)
  | .vrcp t a => some (t, encTensor 1 0x22 a)
  | .vrsq t a => some (t, encTensor 1 0x23 a)
  | .vsin t a => some (t, encTensor 1 0x24 a)
  | .vcos t a => some (t, encTensor 1 0x25 a)
  | .vcvt t a => some (t, encTensor 1 0x30 a)
  | .vquant t a => some (t, encTensor 1 0x31 a)
  | .vimport t a => some (t, encTensor 1 0x32 a)
  | .vexport t a => some (t, encTensor 1 0x33 a)
  | .vperm t a => some (t, encTensor 1 0x38 a)
  | .vgather t a => some (t, encTensor 1 0x39 a)
  | .vrsum t a => some (t, encTensor 1 0x40 a)
  | .vrmax t a => some (t, encTensor 1 0x41 a)
  | .vrmin t a => some (t, encTensor 1 0x42 a)
  | .vrssq t a => some (t, encTensor 1 0x43 a)
  | .vramax t a => some (t, encTensor 1 0x44 a)
  | .vacc t a => some (t, encTensor 1 0x50 a)
  | .drvGo t a => some (t, encTensor 2 0x01 a)
  | .drvCancel t a => some (t, encTensor 2 0x02 a)
  | .drvPut t a => some (t, encTensor 2 0x03 a)
  | .attn t a => some (t, encTensor 3 0x01 a)
  | .merge t a => some (t, encTensor 3 0x02 a)
  | .kvappend t a => some (t, encTensor 3 0x03 a)
  | .kvprefix t a => some (t, encTensor 3 0x04 a)
  | .conv2 t a => some (t, encTensor 4 0x01 a)
  | .conv3 t a => some (t, encTensor 4 0x02 a)
  | .stip t a => some (t, encTensor 5 0x01 a)
  | .trgPush t a => some (t, encTensor 6 0x01 a)
  | .trgPop t a => some (t, encTensor 6 0x02 a)
  | .trgDrop t a => some (t, encTensor 6 0x03 a)
  | .trgFlush t a => some (t, encTensor 6 0x04 a)
  | .syncTick t a => some (t, encTensor 7 0x01 a)
  | .layerOpen t a => some (t, encTensor 7 0x02 a)
  | .layerClose t a => some (t, encTensor 7 0x03 a)
  | .syncJoin t a => some (t, encTensor 7 0x04 a)
  | .oxRule t a => some (t, encTensor 8 0x01 a)
  | .oxProg t a => some (t, encTensor 8 0x02 a)
  | _ => none

/-- The OP opcodes (R80); none for a reserved one. -/
def decOp (t : TileRef) (op : Nat) (a : OpArgs) : Option Instr :=
  match op with
  | 1 => some (.add t a)
  | 2 => some (.sub t a)
  | 3 => some (.and t a)
  | 4 => some (.or t a)
  | 5 => some (.xor t a)
  | 6 => some (.sll t a)
  | 7 => some (.srl t a)
  | 8 => some (.sra t a)
  | 9 => some (.mul t a)
  | 10 => some (.mulh t a)
  | 11 => some (.mulhu t a)
  | 12 => some (.div t a)
  | 13 => some (.divu t a)
  | 14 => some (.rem t a)
  | 15 => some (.remu t a)
  | 16 => some (.min t a)
  | 17 => some (.max t a)
  | 18 => some (.minu t a)
  | 19 => some (.maxu t a)
  | 20 => some (.cmpeq t a)
  | 21 => some (.cmplt t a)
  | 22 => some (.cmpltu t a)
  | _ => none

/-- The MEM opcodes (R82); none for a reserved one. -/
def decMem (t : TileRef) (op : Nat) (w : W32) : Option Instr :=
  match op with
  | 1 => some (.ldb t (memArgs w))
  | 2 => some (.ldh t (memArgs w))
  | 3 => some (.ldw t (memArgs w))
  | 4 => some (.ldd t (memArgs w))
  | 5 => some (.ldbu t (memArgs w))
  | 6 => some (.ldhu t (memArgs w))
  | 7 => some (.ldwu t (memArgs w))
  | 8 => some (.stb t (memArgs w))
  | 9 => some (.sth t (memArgs w))
  | 10 => some (.stw t (memArgs w))
  | 11 => some (.std t (memArgs w))
  | 12 => some (.dld t (memArgs w))
  | 13 => some (.dst t (memArgs w))
  | 14 => some (.csrr t (memArgs w))
  | 15 => some (.csrw t (memArgs w))
  | 16 => some (.fenceM t (w.extractLsb' 7 25))
  | 17 => some (.amoAdd t (amoArgs w))
  | 18 => some (.amoFadd t (amoArgs w))
  | 19 => some (.amoMin t (amoArgs w))
  | 20 => some (.amoMax t (amoArgs w))
  | 21 => some (.amoAnd t (amoArgs w))
  | 22 => some (.amoOr t (amoArgs w))
  | 23 => some (.amoXor t (amoArgs w))
  | 24 => some (.amoSwap t (amoArgs w))
  | 25 => some (.amoCas t (amoArgs w))
  | _ => none

/-- The CTRL opcodes (R87); none for a reserved one. -/
def decCtrl (t : TileRef) (op : Nat) (w : W32) : Option Instr :=
  match op with
  | 1 => some (.jal t (w.extractLsb' 12 20) (w.extractLsb' 7 5))
  | 2 => some (.jalr t (w.extractLsb' 18 14) (w.getLsbD 17) (w.extractLsb' 12 5) (w.extractLsb' 7 5))
  | 3 => some (.br t (w.extractLsb' 12 20) (w.getLsbD 11) (w.getLsbD 10) (w.extractLsb' 7 3))
  | 4 => some (.brs t (w.extractLsb' 12 20) (w.extractLsb' 10 2) (w.extractLsb' 7 3))
  | 5 => some (.lsh t (w.extractLsb' 12 20) (w.extractLsb' 7 5))
  | 6 => some (.pset t (w.extractLsb' 22 10) (w.extractLsb' 18 4) (w.extractLsb' 15 3) (w.extractLsb' 12 3)
      (w.extractLsb' 10 2) (w.extractLsb' 7 3))
  | 7 => some (.smov t (w.extractLsb' 15 17) (w.extractLsb' 12 3) (w.extractLsb' 7 5))
  | 8 => some (.tstat t (w.extractLsb' 18 14) (w.extractLsb' 12 6) (w.extractLsb' 7 5))
  | 9 => some (.twait t (w.extractLsb' 16 16) (w.extractLsb' 9 7) (w.extractLsb' 7 2))
  | 10 => some (.tclr t (w.extractLsb' 16 16) (w.extractLsb' 9 7) (w.extractLsb' 7 2))
  | 11 => some (.dbase t (w.extractLsb' 18 14) (w.getLsbD 17) (w.extractLsb' 12 5) (w.extractLsb' 7 5))
  | 12 => some (.eret t (w.extractLsb' 7 25))
  | 13 => some (.brk t (w.extractLsb' 7 25))
  | _ => none

/-- The engine and opcode map (R91), by engine × 256 + opcode; none for a reserved one. -/
def decTensor (t : TileRef) (k : Nat) (a : TensorArgs) : Option Instr :=
  match k with
  | 0x001 => some (.mload t a)
  | 0x002 => some (.mzero t a)
  | 0x010 => some (.mmaE4 t a)
  | 0x011 => some (.mmaE5 t a)
  | 0x012 => some (.mmaC4 t a)
  | 0x013 => some (.mmaBf t a)
  | 0x014 => some (.mmaHf t a)
  | 0x015 => some (.mmaF32 t a)
  | 0x101 => some (.vadd t a)
  | 0x102 => some (.vsub t a)
  | 0x103 => some (.vmul t a)
  | 0x104 => some (.vfma t a)
  | 0x105 => some (.vmax t a)
  | 0x106 => some (.vmin t a)
  | 0x107 => some (.vabs t a)
  | 0x108 => some (.vneg t a)
  | 0x109 => some (.vcmp t a)
  | 0x10A => some (.vsel t a)
  | 0x10B => some (.vmov t a)
  | 0x10C => some (.vand t a)
  | 0x10D => some (.vor t a)
  | 0x10E => some (.vxor t a)
  | 0x120 => some (.vexp t a)
  | 0x121 => some (.vlog t a)
  | 0x122 => some (.vrcp t a)
  | 0x123 => some (.vrsq t a)
  | 0x124 => some (.vsin t a)
  | 0x125 => some (.vcos t a)
  | 0x130 => some (.vcvt t a)
  | 0x131 => some (.vquant t a)
  | 0x132 => some (.vimport t a)
  | 0x133 => some (.vexport t a)
  | 0x138 => some (.vperm t a)
  | 0x139 => some (.vgather t a)
  | 0x140 => some (.vrsum t a)
  | 0x141 => some (.vrmax t a)
  | 0x142 => some (.vrmin t a)
  | 0x143 => some (.vrssq t a)
  | 0x144 => some (.vramax t a)
  | 0x150 => some (.vacc t a)
  | 0x201 => some (.drvGo t a)
  | 0x202 => some (.drvCancel t a)
  | 0x203 => some (.drvPut t a)
  | 0x301 => some (.attn t a)
  | 0x302 => some (.merge t a)
  | 0x303 => some (.kvappend t a)
  | 0x304 => some (.kvprefix t a)
  | 0x401 => some (.conv2 t a)
  | 0x402 => some (.conv3 t a)
  | 0x501 => some (.stip t a)
  | 0x601 => some (.trgPush t a)
  | 0x602 => some (.trgPop t a)
  | 0x603 => some (.trgDrop t a)
  | 0x604 => some (.trgFlush t a)
  | 0x701 => some (.syncTick t a)
  | 0x702 => some (.layerOpen t a)
  | 0x703 => some (.layerClose t a)
  | 0x704 => some (.syncJoin t a)
  | 0x801 => some (.oxRule t a)
  | 0x802 => some (.oxProg t a)
  | _ => none

/-- The instruction that a word of a tile's memory encodes; none where R78 makes it ILLEGAL before any field is looked
at (the zero word, a reserved opcode, an engine from 9 to 15). -/
def ctisDecode (t : TileRef) : CtisWord → Option Instr
  | .scalar w =>
    let op := (w.extractLsb' 2 5).toNat
    match (w.extractLsb' 0 2).toNat with
    | 0 => decOp t op (opArgs w)
    | 1 => decMem t op w
    | 2 => decCtrl t op w
    | _ => none
  | .tensor w =>
    if w.extractLsb' 0 2 = 3#2 then
      decTensor t ((w.extractLsb' 2 4).toNat * 256 + (w.extractLsb' 6 8).toNat) (tensorArgs w)
    else none

/-- What the core of a tile meets at its pc. -/
inductive Fetched where
  | idle
  | stalled
  | cause (c : Nat) (info : W64)
  | word (w : CtisWord)
  deriving DecidableEq, Repr

/-- A 32-bit word of a tile's instruction memory (R74). -/
def Dev.imemWord (d : Dev) (t : TileRef) (pc : Nat) : W32 := BitVec.ofNat 32 (d.imem.nat (t.ix * 65536 + pc) 4)

/-- Whether a word of instruction memory cannot be read (R106, FETCH_ECC). -/
def Dev.imemUnreadable (d : Dev) (t : TileRef) (pc : Nat) : Bool := d.imemBad.contains (t.ix * 16384 + pc / 4)

/-- The fetch (R77, R49, R78, R106), the cause of the lowest number first: nothing while the tile runs no slice, or while a scalar access is outstanding. -/
def Dev.fetch (d : Dev) (t : TileRef) : Fetched :=
  let x := d.tile t
  let pc := x.pc.toNat
  if x.run ≠ .running then .idle
  else if x.outstanding.isSome ∨ x.bracket.any (fun b => b.close.isSome) then .stalled
  else if x.past ∨ pc > 65532 then .cause cFetchBound 0
  else if d.imemUnreadable t pc ∨ (pc % 4 ≠ 0 ∧ d.imemUnreadable t (pc + 4)) then .cause cFetchEcc 0
  else if pc % 4 ≠ 0 then .cause cMisaligned (BitVec.ofNat 64 pc)
  else
    let w := d.imemWord t pc
    if w.extractLsb' 0 2 ≠ 3#2 then
      if (ctisDecode t (.scalar w)).isNone then .cause cIllegal 0 else .word (.scalar w)
    else if [4, 8, 12].any (fun k => decide (pc + k ≤ 65532) && d.imemUnreadable t (pc + k)) then .cause cFetchEcc 0
    else if pc > 65520 then .cause cFetchBound 0
    else
      let v : BitVec 128 := d.imemWord t (pc + 12) ++ d.imemWord t (pc + 8) ++ d.imemWord t (pc + 4) ++ w
      if (ctisDecode t (.tensor v)).isNone then .cause cIllegal 0 else .word (.tensor v)

/-- The core of a tile meets an instruction: a cause of the fetch is taken; where the word at pc is the instruction's own
encoding, `f` is what it does; otherwise nothing happens (log 4). -/
def Dev.runInstr (d : Dev) (t : TileRef) (w : CtisWord) (f : Dev → Dev) : Dev :=
  match d.fetch t with
  | .idle => d
  | .stalled => d
  | .cause c info => d.trap t c info
  | .word v => if v = w then f d else d

end Sys2Proof.Machine
end

