-- ==== Sys2Proof/Machine/Flags.lean ====
section
/-!
DEFINITION. Sys2Proof/Machine/Flags.lean: status codes (R434) and their classes (R99), status and token words (R88, R98),
sticky flags, predicates and branch conditions (R71, R88).
-/

namespace Sys2Proof.Machine

open Sys2Proof

def sDone : W8 := 0x00
def sDoneEmpty : W8 := 0x01
def sDoneFlagged : W8 := 0x02
def sOperandLong : W8 := 0x10
def sOperandShort : W8 := 0x11
def sBlockSum : W8 := 0x12
def sTableInvalid : W8 := 0x13
def sPageAbsent : W8 := 0x20
def sTableChanged : W8 := 0x21
def sPrefixMismatch : W8 := 0x22
def sLate : W8 := 0x40
def sUnitDisabled : W8 := 0x41
def sCancelled : W8 := 0x42
def sFenced : W8 := 0x43
def sUnitAbsent : W8 := 0x44
def sResidue : W8 := 0x50
def sEcc : W8 := 0x51
def sRetryExhausted : W8 := 0x52
def sStepBehind : W8 := 0x60
def sStepRepeat : W8 := 0x61
def sStepGap : W8 := 0x62
def sTranslation : W8 := 0x70
def sDeadlock : W8 := 0x71
def sInternal : W8 := 0x7F

/-- The class of a status: its upper four bits (R99). -/
def statusClass (s : W8) : Nat := s.toNat / 16

/-- Whether a status is trap-enabled by CORE_TRAP_EN (R99): DONE never traps. -/
def trapEnabled (en : W8) (s : W8) : Bool := s != 0 && en.getLsbD (statusClass s)

/-- Sticky flags that an instruction raises (R98, R111). -/
structure Sticky where
  overflow : Bool := false
  underrun : Bool := false
  rowEmpty : Bool := false
  indexRange : Bool := false
  deriving DecidableEq, Repr

def Sticky.or (a b : Sticky) : Sticky :=
  ⟨a.overflow || b.overflow, a.underrun || b.underrun, a.rowEmpty || b.rowEmpty, a.indexRange || b.indexRange⟩

/-- The bits of SECT.CORE_STICKY (R111). -/
def Sticky.bits (s : Sticky) : BitVec 4 :=
  BitVec.ofBool s.overflow ++ BitVec.ofBool s.underrun ++ BitVec.ofBool s.rowEmpty ++ BitVec.ofBool s.indexRange

/-- The status word of a summary register (R98). -/
def statusWord (status : W8) (detail : W32) (s : Sticky) : W64 :=
  0#16 ++ detail ++ 0#5 ++ BitVec.ofBool s.underrun ++ BitVec.ofBool s.rowEmpty ++ BitVec.ofBool s.indexRange ++ status

/-- The number of a token state (R88). -/
def TokState.code : TokState → BitVec 2
  | .clear => 0
  | .pending => 1
  | .set => 2

/-- The token word that TSTAT returns (R88). -/
def TokenReg.word (k : TokenReg) : W64 :=
  0#42 ++ k.origin ++ 0#5 ++ BitVec.ofBool k.suppressed ++ k.state.code ++ k.status

/-! ## Register files (R70 to R72) -/

/-- A general register; g0 reads as zero (R71). -/
def CoreRegs.rg (r : CoreRegs) (i : BitVec 5) : W64 := if i = 0 then 0 else r.g.get ⟨i.toNat, i.isLt⟩

/-- Writes a general register; a write to g0 is discarded (R71). -/
def CoreRegs.wg (r : CoreRegs) (i : BitVec 5) (v : W64) : CoreRegs :=
  if i = 0 then r else { r with g := r.g.set i.toNat v i.isLt }

/-- A predicate; p0 reads as one (R71). -/
def CoreRegs.rp (r : CoreRegs) (i : BitVec 3) : Bool := if i = 0 then true else r.p.get ⟨i.toNat, i.isLt⟩

/-- Writes a predicate; a write to p0 is discarded (R71). -/
def CoreRegs.wp (r : CoreRegs) (i : BitVec 3) (v : Bool) : CoreRegs :=
  if i = 0 then r else { r with p := r.p.set i.toNat v i.isLt }

def CoreRegs.rs (r : CoreRegs) (i : BitVec 3) : Summary := r.s.get ⟨i.toNat, i.isLt⟩

/-- Writes a summary register with its kind (R72). -/
def CoreRegs.ws (r : CoreRegs) (i : BitVec 3) (v : Summary) : CoreRegs := { r with s := r.s.set i.toNat v i.isLt }

def CoreRegs.rd (r : CoreRegs) (i : BitVec 5) : BitVec 256 := r.d.get ⟨i.toNat, i.isLt⟩

def CoreRegs.wd (r : CoreRegs) (i : BitVec 5) (v : BitVec 256) : CoreRegs := { r with d := r.d.set i.toNat v i.isLt }

def CoreRegs.rt (r : CoreRegs) (i : BitVec 6) : TokenReg := r.t.get ⟨i.toNat, i.isLt⟩

def CoreRegs.wt (r : CoreRegs) (i : BitVec 6) (v : TokenReg) : CoreRegs := { r with t := r.t.set i.toNat v i.isLt }

/-- The tokens of a set, lowest first. -/
def tokensOf (m : W64) : List (BitVec 6) := (List.range 64).filterMap (fun i =>
  if m.getLsbD i then some (BitVec.ofNat 6 i) else none)

/-- The lowest-numbered token of a set that holds a trap-enabled status (R99, R107). -/
def CoreRegs.failing (r : CoreRegs) (en : W8) (m : W64) : Option (BitVec 6) :=
  (tokensOf m).find? (fun k => decide ((r.rt k).state = .set) && trapEnabled en (r.rt k).status)

/-- TRAP_INFO of TENSOR_STATUS (R108) for a failing token. -/
def CoreRegs.tensorInfo (r : CoreRegs) (k : BitVec 6) : W64 :=
  let x := r.rt k
  x.detail ++ x.status ++ x.src ++ 0#2 ++ x.origin ++ 0#2 ++ k

/-! ## Branch conditions (R88) -/

/-- Whether a summary register meets a BRS condition: 0 EQZ, 1 NEZ, 2 LTZ, 3 GEZ (R88). -/
def Summary.meets (s : Summary) (cond : BitVec 2) : Bool :=
  match s.kind with
  | .int =>
    match cond.toNat with
    | 0 => s.val == 0
    | 1 => s.val != 0
    | 2 => s.val.slt 0
    | _ => !s.val.slt 0
  | .f32 =>
    let w := s.val.setWidth 32
    let mag := w &&& 0x7FFFFFFF#32
    let isNan := decide (mag.toNat > 0x7F800000)
    let isZero := mag == 0
    let neg := w.getLsbD 31
    match cond.toNat with
    | 0 => !isNan && isZero
    | 1 => isNan || !isZero
    | 2 => !isNan && !isZero && neg
    | _ => !isNan && (isZero || !neg)

end Sys2Proof.Machine
end

