-- ==== Sys2Proof/Machine/Rs.lean ====
section
/-!
DEFINITION. Sys2Proof/Machine/Rs.lean: the check code of a Quire line (R252 to R254): GF(2^8), check bytes, syndromes,
the correction of up to 3 bytes, and how a received line is judged.
-/

namespace Sys2Proof.Machine

open Sys2Proof

/-- Multiplication by x in GF(2^8) with x^8 + x^4 + x^3 + x^2 + 1 (R252). -/
def gfX (a : Nat) : Nat := if 2 * a < 256 then 2 * a else (2 * a) ^^^ 0x11D

/-- Multiplication in GF(2^8): `k` further bits of `b`. -/
def gfMulAux : Nat → Nat → Nat → Nat
  | 0, _, _ => 0
  | k + 1, a, b => (if b % 2 = 1 then a else 0) ^^^ gfMulAux k (gfX a) (b / 2)

def gfMul (a b : Nat) : Nat := if a = 0 ∨ b = 0 then 0 else gfMulAux 8 a b

/-- α^k with α = 2. -/
def gfPow : Nat → Nat
  | 0 => 1
  | k + 1 => gfX (gfPow k)

/-- The inverse, by search; 0 for 0. -/
def gfInv (a : Nat) : Nat := ((List.range 256).find? (fun x => gfMul a x == 1)).getD 0

def gfDiv (a b : Nat) : Nat := gfMul a (gfInv b)

/-- (x + α^0) … (x + α^(n-1)), lowest coefficient first. -/
def rsGenAux : Nat → List Nat
  | 0 => [1]
  | n + 1 =>
    let p := rsGenAux n
    List.zipWith (· ^^^ ·) (p.map (gfMul (gfPow n)) ++ [0]) (0 :: p)

/-- The coefficients g[0] to g[7] of the generator below its leading term (R252). -/
def rsGen : List Nat := (rsGenAux 8).take 8

/-- One step of the division of R252: the registers after a data byte. -/
def rsStep (r : List Nat) (d : Nat) : List Nat :=
  let f := d ^^^ r.getD 7 0
  List.zipWith (fun a g => a ^^^ gfMul f g) (0 :: r.take 7) rsGen

/-- The 8 check bytes of 64 data bytes (R252). -/
def rsCheck (data : List W8) : List W8 :=
  if data.all (· == 0) then List.replicate 8 0
  else ((data.reverse.map (·.toNat)).foldl rsStep (List.replicate 8 0)).map (BitVec.ofNat 8)

/-- The polynomial of a received word at a point: check bytes then data bytes, lowest coefficient first. -/
def gfEval (x : Nat) : List Nat → Nat
  | [] => 0
  | c :: r => c ^^^ gfMul x (gfEval x r)

/-- The syndromes S0 to S7 (R252). -/
def rsSyndromes (word : List Nat) : List Nat := (List.range 8).map (fun i => gfEval (gfPow i) word)

/-- The syndromes of an error pattern: places (0 to 71) and values. -/
def patternSyndromes (e : List (Nat × Nat)) : List Nat :=
  (List.range 8).map (fun i => e.foldl (fun s p => s ^^^ gfMul p.2 (gfPow (i * p.1))) 0)

/-- 3 by 3 determinant. -/
def gfDet3 (a b c d e f g h i : Nat) : Nat :=
  gfMul a (gfMul e i ^^^ gfMul f h) ^^^ gfMul b (gfMul d i ^^^ gfMul f g) ^^^ gfMul c (gfMul d h ^^^ gfMul e g)

/-- The error locator's coefficients for `n` errors, from the syndromes (1 + l1 x + … + ln x^n); none where singular. -/
def rsLocator (s : List Nat) (n : Nat) : Option (List Nat) :=
  let g := fun i => s.getD i 0
  match n with
  | 1 => if g 0 = 0 then none else some [gfDiv (g 1) (g 0)]
  | 2 =>
    let det := gfMul (g 1) (g 1) ^^^ gfMul (g 0) (g 2)
    if det = 0 then none
    else some [gfDiv (gfMul (g 2) (g 1) ^^^ gfMul (g 0) (g 3)) det, gfDiv (gfMul (g 1) (g 3) ^^^ gfMul (g 2) (g 2)) det]
  | 3 =>
    let det := gfDet3 (g 2) (g 1) (g 0) (g 3) (g 2) (g 1) (g 4) (g 3) (g 2)
    if det = 0 then none
    else some [gfDiv (gfDet3 (g 3) (g 1) (g 0) (g 4) (g 2) (g 1) (g 5) (g 3) (g 2)) det,
               gfDiv (gfDet3 (g 2) (g 3) (g 0) (g 3) (g 4) (g 1) (g 4) (g 5) (g 2)) det,
               gfDiv (gfDet3 (g 2) (g 1) (g 3) (g 3) (g 2) (g 4) (g 4) (g 3) (g 5)) det]
  | _ => none

/-- The places in error: where the locator is zero at α^(-p). -/
def rsPlaces (l : List Nat) : List Nat :=
  (List.range 72).filter (fun p => (gfEval (gfPow ((255 - p) % 255)) (1 :: l)) == 0)

/-- The values of errors at given places, from the first syndromes. -/
def rsValues (s : List Nat) (places : List Nat) : List (Nat × Nat) :=
  let g := fun i => s.getD i 0
  match places with
  | [p] => [(p, g 0)]
  | [p, q] =>
    let x := gfPow p
    let y := gfPow q
    let e := gfDiv (g 1 ^^^ gfMul (g 0) x) (y ^^^ x)
    [(p, g 0 ^^^ e), (q, e)]
  | [p, q, r] =>
    let x := gfPow p
    let y := gfPow q
    let z := gfPow r
    let det := gfDet3 1 1 1 x y z (gfMul x x) (gfMul y y) (gfMul z z)
    [(p, gfDiv (gfDet3 (g 0) 1 1 (g 1) y z (g 2) (gfMul y y) (gfMul z z)) det),
     (q, gfDiv (gfDet3 1 (g 0) 1 x (g 1) z (gfMul x x) (g 2) (gfMul z z)) det),
     (r, gfDiv (gfDet3 1 1 (g 0) x y (g 1) (gfMul x x) (gfMul y y) (g 2)) det)]
  | _ => []

/-- The pattern of exactly `n` byte errors that explains the syndromes, if there is one. -/
def rsExplain (s : List Nat) (n : Nat) : Option (List (Nat × Nat)) :=
  match rsLocator s n with
  | none => none
  | some l =>
    let e := rsValues s (rsPlaces l)
    if (rsPlaces l).length = n ∧ e.all (fun p => p.2 != 0) = true ∧ patternSyndromes e = s then some e else none

/-- How a read of a line comes out (R253). -/
inductive Judged where
  | clean (data : List W8)
  | poison
  | corrected (data : List W8)
  | uncorrectable
  deriving DecidableEq, Repr

/-- The check bytes of the poison pattern (R254). -/
def poisonCheck : List W8 := [0xFF, 0xFF, 0xFF, 0xFF, 0, 0, 0, 0]

/-- The data bytes of the poison pattern (R254). -/
def poisonData : List W8 := List.replicate 64 0

/-- How many places two words differ in. -/
def distance (a b : List W8) : Nat := ((List.zip a b).filter (fun p => p.1 != p.2)).length

/-- The judgement of a received line (R253): the first matching row. -/
def judge (data check : List W8) : Judged :=
  if rsCheck data = check then .clean data
  else if distance (check ++ data) (poisonCheck ++ poisonData) ≤ 1 then .poison
  else
    let word := (check ++ data).map (·.toNat)
    let s := rsSyndromes word
    match (rsExplain s 1).orElse (fun _ => (rsExplain s 2).orElse (fun _ => rsExplain s 3)) with
    | none => .uncorrectable
    | some e => .corrected ((word.mapIdx (fun i b =>
        BitVec.ofNat 8 (b ^^^ (e.foldl (fun x p => if p.1 = i then x ^^^ p.2 else x) 0)))).drop 8)

/-! ## Errors, and bursts on the lines of a channel (R251, R257) -/

/-- Data bytes with errors added: place 0 to 7 is a check byte, 8 to 71 a data byte. -/
def flipData (e : List (Fin 72 × W8)) (ds : List W8) : List W8 :=
  e.foldl (fun l f => if 8 ≤ f.1.val then l.set (f.1.val - 8) (l.getD (f.1.val - 8) 0 ^^^ f.2) else l) ds

/-- Check bytes with errors added. -/
def flipCheck (e : List (Fin 72 × W8)) (cs : List W8) : List W8 :=
  e.foldl (fun l f => if f.1.val < 8 then l.set f.1.val (l.getD f.1.val 0 ^^^ f.2) else l) cs

/-- Whether an odd number of a word's bits are 1. -/
def oddOnes {w : Nat} (x : BitVec w) : Bool := (List.range w).foldl (fun p i => p ^^ x.getLsbD i) false

/-- The even parity of a beat's 16 data and 2 check bits. -/
def beatEven (data : BitVec 16) (check : BitVec 2) : Bool := oddOnes data ^^ oddOnes check

/-- The 32 beats of a line: data bytes 2b and 2b + 1 on the data lines, bits 2b and 2b + 1 of the check string, and the parity (R251). -/
def beatsOf (data check : List W8) : List Beat :=
  (List.range 32).map fun b =>
    let x := data.getD (2 * b + 1) 0 ++ data.getD (2 * b) 0
    let c : BitVec 2 := (check.getD (b / 4) 0).extractLsb' (2 * (b % 4)) 2
    { data := x, check := c, parity := beatEven x c }

/-- The data and check bytes that beats carry. -/
def bytesOfBeats (bs : List Beat) : List W8 × List W8 :=
  ((List.range 64).map (fun i => (((bs.map (·.data)).getD (i / 2) 0).extractLsb' (8 * (i % 2)) 8)),
    (List.range 8).map (fun k =>
      let c := fun (i : Nat) => (bs.map (·.check)).getD (4 * k + i) 0
      c 3 ++ c 2 ++ c 1 ++ c 0))

/-- A transfer's beats as they arrive. -/
def heardBeats (x : Transfer) (bs : List Beat) : List Beat :=
  bs.mapIdx fun i b =>
    match x.noise[i]? with
    | none => b
    | some e => { data := b.data ^^^ e.data, check := b.check ^^^ e.check, parity := b.parity ^^ e.parity }

/-- Whether a transfer passes its parity checks: the command's, and every beat's. -/
def transferPasses (x : Transfer) (bs : List Beat) : Bool :=
  !x.commandBad && (heardBeats x bs).all (fun b => b.parity == beatEven b.data b.check)

/-- How a burst of data and check bytes arrives (R257): the number of transfers that failed a parity check, up to 4, and what the first
that passed brought. -/
def burstArrives (b : Burst) (data check : List W8) : Nat × List W8 × List W8 :=
  let bs := beatsOf data check
  let bad := (b.transfers.take 4).takeWhile (fun x => !transferPasses x bs)
  (bad.length, match b.transfers[bad.length]? with
    | none => (data, check)
    | some x => bytesOfBeats (heardBeats x bs))

end Sys2Proof.Machine
end

