-- ==== Sys2Proof/Machine/Memory.lean ====
section
/-!
DEFINITION. Sys2Proof/Machine/Memory.lean: the physical map (R267), the cache and stack of a hub slice line by line (R249 to
R259, R268 to R271), the regulators' charge (R280, R281), translation (R282 to R286), and the memories of a tile and a
sector (R552).
-/

namespace Sys2Proof.Machine

open Sys2Proof

/-! ## The physical map -/

/-- The regions of R267 with the offset in each. -/
inductive Region where
  | quire (n off : Nat)
  | scratch (n off : Nat)
  | aperture (n window slot off : Nat)
  | window (w off : Nat)
  | csr (off : Nat)
  | reserved
  deriving DecidableEq, Repr

def quireStride : Nat := 0xC00000000
def scratchBase : Nat := 0xC000000000
def apertureBase : Nat := 0xC800000000
def windowBase : Nat := 0x100000000000
def csrBase : Nat := 0xFF0000000000

/-- The region of a physical address (R267). -/
def regionOf (a : Nat) : Region :=
  if a < 0x9000000000 then .quire (a / quireStride) (a % quireStride)
  else if a < scratchBase then .reserved
  else if a < 0xC00C000000 then .scratch ((a - scratchBase) / 0x1000000) ((a - scratchBase) % 0x1000000)
  else if a < apertureBase then .reserved
  else if a < 0xD400000000 then
    let o := a - apertureBase
    .aperture (o / 0x100000000) (o / 0x1000000 % 256) (o / 0x40000 % 64) (o % 0x40000)
  else if a < windowBase then .reserved
  else if a < 0x500000000000 then .window ((a - windowBase) / 0x10000000000) ((a - windowBase) % 0x10000000000)
  else if a < csrBase then .reserved
  else if a < 0x1000000000000 then .csr (a - csrBase)
  else .reserved

/-- The logical channel of a line of a stack (R250), by the line's number in the stack. -/
def channelOf (line : Nat) : Nat := line % 128

/-- The 4 KiB group of a line on its channel (R259). -/
def groupOf (line : Nat) : Nat := line / 8192

/-- What an access answers: a status, bytes, and the device after it. -/
structure Acc where
  st : W8
  data : List W8
  d : Dev

/-! ## Stack lines -/

/-- The first physical address of a line of stack `n`. -/
def lineAddr (n line : Nat) : Nat := n * quireStride + line * 64

/-- The number by which `check` keeps a line of stack `n`. -/
def checkAddr (n line : Nat) : Nat := (n * (quireStride / 64) + line) * 8

/-- The 64 data bytes stored for a line of stack `n`. -/
def Dev.storedData (d : Dev) (n line : Nat) : List W8 := Mem.read d.quire (lineAddr n line) 64

/-- The 8 check bytes stored for a line of stack `n`. -/
def Dev.storedCheck (d : Dev) (n line : Nat) : List W8 := Mem.read d.check (checkAddr n line) 8

/-- Stores a codeword, or any 64 data and 8 check bytes, in a line of stack `n`. -/
def Dev.storeRaw (d : Dev) (n line : Nat) (data check : List W8) : Dev :=
  { d with quire := Mem.store d.quire (lineAddr n line) data,
           check := Mem.store d.check (checkAddr n line) check }

/-- Writes a line with its check bytes (R252). -/
def Dev.storeLine (d : Dev) (n line : Nat) (data : List W8) : Dev := d.storeRaw n line data (rsCheck data)

/-- Writes the poison pattern (R254). -/
def Dev.poisonLine (d : Dev) (n line : Nat) : Dev := d.storeRaw n line poisonData poisonCheck

/-- Whether a line lies on a failed channel (R258). -/
def Hub.lost (h : Hub) (line : Nat) : Bool := h.failed.contains (channelOf line)

/-- Whether a line's group has not been filled since its channel was newly mapped (R259). -/
def Hub.unfilledAt (h : Hub) (line : Nat) : Bool :=
  h.unfilled.any (fun e => e.1 == channelOf line && !e.2.contains (groupOf line))

/-- Fills one 4 KiB group of a newly mapped channel with the poison pattern (R259). -/
def Dev.fillGroup (d : Dev) (n channel group : Nat) : Dev :=
  let h := d.hub n
  if h.unfilled.any (fun e => e.1 == channel && !e.2.contains group) then
    let d1 := (List.range 64).foldl (fun (x : Dev) i => x.poisonLine n ((group * 64 + i) * 128 + channel)) d
    d1.onHub n fun h => { h with unfilled := h.unfilled.map (fun e => if e.1 = channel then (e.1, group :: e.2) else e) }
  else d

/-- How many 4 KiB groups a channel has (R248). -/
def Variant.groups (v : Variant) : Nat := v.stackGiB * 2 ^ 30 / 128 / 4096

/-- A channel all of whose groups are filled is no longer being filled. -/
def Dev.endFill (v : Variant) (d : Dev) (n : Nat) : Dev :=
  d.onHub n fun h => { h with unfilled := h.unfilled.filter (fun e => decide (e.2.length < v.groups)) }

/-- A read of a stored line under R253: its status, data, and the counts and write-back that go with it. -/
def Dev.readStored (d : Dev) (n line : Nat) : Acc :=
  if (d.hub n).unfilledAt line then ⟨sEcc, [], d.count (At.hub n 0x00C) 0 32 1⟩
  else
    match judge (d.storedData n line) (d.storedCheck n line) with
    | .clean data => ⟨0, data, d⟩
    | .poison => ⟨sEcc, [], d.count (At.hub n 0x00C) 0 32 1⟩
    | .corrected data => ⟨0, data, (d.storeLine n line data).count (At.hub n 0x004) 0 32 1⟩
    | .uncorrectable =>
      ⟨sEcc, [], (d.count (At.hub n 0x008) 0 32 1).setReg64 (At.hub n 0x010) (BitVec.ofNat 64 (lineAddr n line))⟩

/-! ## The shared cache (R268 to R271) -/

def cacheSets : Nat := 32768

/-- The ways of slice `n` that cache Quire lines: 16 less the scratch ways in force and the failed ways that no spare
replaces (R268, R269). -/
def Hub.ways (h : Hub) : Nat := 16 - h.scratchWays - (h.waysBad - 2)

def Hub.cached (h : Hub) (line : Nat) : Option CacheLine := (h.cache.find? (fun e => e.1 == line)).map (·.2)

def Hub.uncache (h : Hub) (line : Nat) : Hub := { h with cache := Tab.drop line h.cache }

/-- The least recently used line of a set (R270). -/
def Hub.victim (h : Hub) (set : Nat) : Option (Nat × CacheLine) :=
  (h.cache.filter (fun e => e.1 % cacheSets == set)).foldl
    (fun b e => match b with
      | none => some e
      | some x => if e.2.stamp < x.2.stamp then some e else some x) none

/-- The data of a cached line as its code gives them; none where it is uncorrectable (R271). -/
def CacheLine.judged (c : CacheLine) : Option (List W8) :=
  if c.upset.isEmpty then some c.data
  else
    match judge (flipData c.upset c.data) (flipCheck c.upset (rsCheck c.data)) with
    | .clean data => some data
    | .corrected data => some data
    | .poison => none
    | .uncorrectable => none

/-- Writes a dirty line back to its stack; a line of a failed channel is lost (R258, R270). -/
def Dev.writeBack (d : Dev) (n line : Nat) (c : CacheLine) : Dev :=
  if !c.dirty || (d.hub n).lost line then d
  else
    match c.judged with
    | none => d.poisonLine n line
    | some data => (d.fillGroup n (channelOf line) (groupOf line)).storeLine n line data

/-- Makes room in a set: the least recently used line leaves, written back when dirty (R270). -/
def Dev.evictFor (d : Dev) (n line : Nat) : Dev :=
  let h := d.hub n
  if (h.cache.filter (fun e => e.1 % cacheSets == line % cacheSets)).length < h.ways then d
  else
    match h.victim (line % cacheSets) with
    | none => d
    | some e => (d.writeBack n e.1 e.2).onHub n (·.uncache e.1)

/-- Puts a line into the cache as its most recently used (R270). -/
def Dev.cachePut (d : Dev) (n line : Nat) (data : List W8) (dirty : Bool) : Dev :=
  let d1 := if ((d.hub n).cached line).isSome then d else d.evictFor n line
  d1.onHub n fun h =>
    { h with cache := Tab.ins line { data := data, dirty := dirty, stamp := h.clock } (Tab.drop line h.cache),
             clock := h.clock + 1 }

/-- Writes back and drops every line of a slice (R265, R441). -/
def Dev.flushCache (d : Dev) (n : Nat) : Dev :=
  ((d.hub n).cache.foldl (fun (x : Dev) e => x.writeBack n e.1 e.2) d).onHub n (fun h => { h with cache := [] })

/-- A line read from its stack into the cache (R270). -/
def Dev.refetch (d : Dev) (n line : Nat) : Acc :=
  let r := d.readStored n line
  if r.st = 0 then ⟨0, r.data, r.d.cachePut n line r.data false⟩ else r

/-- A cached line as its code judges it (R271): corrected and counted; or, uncorrectable, refetched where clean, and lost to the poison
pattern where dirty. -/
def Dev.cachedRead (d : Dev) (n line : Nat) (c : CacheLine) : Acc :=
  if c.upset.isEmpty then ⟨0, c.data, d.cachePut n line c.data c.dirty⟩
  else
    match c.judged with
    | some data => ⟨0, data, (d.cachePut n line data c.dirty).count (At.hub n 0x004) 0 32 1⟩
    | none =>
      if c.dirty then ⟨sEcc, [], (d.poisonLine n line).onHub n (·.uncache line)⟩
      else ((d.onHub n (·.uncache line)).count (At.hub n 0x004) 0 32 1).refetch n line

/-- A line of stack `n` through its slice: from the cache, or from the stack after one read (R270, R271); no fill of it is in
progress. -/
def Dev.lineRead (d : Dev) (n line : Nat) : Acc :=
  let h := d.hub n
  if h.lost line then ⟨sRetryExhausted, [], d⟩
  else
    match h.cached line with
    | some c => d.cachedRead n line c
    | none => d.refetch n line

/-- Bytes written over a line from an offset. -/
def mergeBytes (line : List W8) (off : Nat) (bytes : List W8) : List W8 :=
  (line.take off ++ bytes ++ line.drop (off + bytes.length)).take 64

/-- A write to a line of stack `n`: a whole line allocates without a read, part of a line reads and merges (R255, R270); no fill of it
is in progress. -/
def Dev.lineWrite (d : Dev) (n line off : Nat) (bytes : List W8) : Acc :=
  let h := d.hub n
  if h.lost line then ⟨sRetryExhausted, [], d⟩
  else
    let d := d.fillGroup n (channelOf line) (groupOf line)
    if off = 0 ∧ bytes.length = 64 then ⟨0, [], d.cachePut n line bytes true⟩
    else
      let r := d.lineRead n line
      if r.st = 0 then ⟨0, [], r.d.cachePut n line (mergeBytes r.data off bytes) true⟩ else ⟨r.st, [], r.d⟩

/-- The new value of an atomic on `w` bits, but for AMO.FADD, whose sum is given (R273). -/
def amoResult (op : AmoOp) {w : Nat} (x v c fsum : BitVec w) : BitVec w :=
  match op with
  | .add => x + v
  | .fadd => fsum
  | .min => if x.slt v then x else v
  | .max => if x.slt v then v else x
  | .and => x &&& v
  | .or => x ||| v
  | .xor => x ^^^ v
  | .swap => v
  | .cas => if x = c then v else x

/-- What an atomic leaves of an old value of 8 bytes, or of 4 where `w` (R273). -/
def amoNew (op : AmoOp) (w : Bool) (old x c : W64) : Nat :=
  if w then (amoResult op (old.setWidth 32) (x.setWidth 32) (c.setWidth 32) (f32Add (old.setWidth 32) (x.setWidth 32))).toNat
  else (amoResult op old x c old).toNat

/-- An answer to a request that a slice was sent. -/
def Dev.reply (d : Dev) (j : SliceJob) (st : W8) (data : List W8) : Dev := d.send (.sliceResp j.req.tag st data)

/-- Whether a request writes a whole line (R255). -/
def SliceJob.wholeLine (j : SliceJob) : Bool :=
  match j.op with
  | .write data => decide (j.req.addr % 64 = 0) && decide (data.length = 64)
  | _ => false

/-- Performs a request for a line of stack `n`, and answers it (R255, R273). -/
def Dev.serveLine (d : Dev) (n line : Nat) (j : SliceJob) : Dev :=
  let off := j.req.addr % 64
  match j.op with
  | .read =>
    let r := d.lineRead n line
    r.d.reply j r.st ((r.data.drop off).take j.req.len)
  | .write data =>
    let r := d.lineWrite n line off data
    r.d.reply j r.st []
  | .atomic op w x c =>
    let k := if w then 4 else 8
    if op = .fadd ∧ !w ∨ off % k ≠ 0 then d.reply j sTranslation []
    else
      let r := d.lineRead n line
      if r.st ≠ 0 then r.d.reply j r.st []
      else
        let old := BitVec.ofNat 64 (leNat ((r.data.drop off).take k))
        let y := r.d.lineWrite n line off (toLE k (amoNew op w old x c))
        y.d.reply j y.st (if y.st = 0 then toLE k old.toNat else [])

/-- Serves the requests that waited on a fill, in their order: a failed read fails them until a whole-line write makes the line
new. -/
def Dev.drain (n line : Nat) (st : W8) : List SliceJob → Dev → Dev
  | [], d => d
  | j :: r, d =>
    if st = 0 ∨ j.wholeLine ∨ ((d.hub n).cached line).isSome then Dev.drain n line st r (d.serveLine n line j)
    else Dev.drain n line st r (d.reply j st [])

/-- A fill of a line ends (R270, R272): what it brought enters the cache, and the requests that waited on it are served in their
order. -/
def Dev.endLineFill (d : Dev) (n line : Nat) (f : Fill) (st : W8) (data : List W8) : Dev :=
  let d := d.onHub n fun h => { h with fills := h.fills.filter (fun f => f.line != line) }
  let d := if st = 0 ∧ ((d.hub n).cached line).isNone then d.cachePut n line data false else d
  Dev.drain n line st f.waiters d

/-- An access to a line being filled waits for that fill and starts no other (R270, R272): the fill ends first. -/
def Dev.settleFill (d : Dev) (n line : Nat) : Dev :=
  match (d.hub n).fills.find? (fun f => f.line == line) with
  | none => d
  | some f =>
    match f.outcome with
    | some o => d.endLineFill n line f o.1 o.2
    | none =>
      if (d.hub n).lost line then d.endLineFill n line f sRetryExhausted []
      else
        let r := d.readStored n line
        r.d.endLineFill n line f r.st r.data

/-- A read of a line of stack `n`, after the requests for it that came before (R272). -/
def Dev.quireRead (d : Dev) (n line : Nat) : Acc := (d.settleFill n line).lineRead n line

/-- A write to a line of stack `n`, after the requests for it that came before (R272). -/
def Dev.quireWrite (d : Dev) (n line off : Nat) (bytes : List W8) : Acc := (d.settleFill n line).lineWrite n line off bytes

/-- The slice that an address is homed on. -/
def homeSlice (a : Nat) : Option Nat :=
  match regionOf a with
  | .quire n _ => some n
  | .scratch n _ => some n
  | .aperture n _ _ _ => some n
  | .window _ _ => none
  | .csr _ => none
  | .reserved => none

/-! ## Scratch (R255, R269, R552): a read of a poison line counts as a poison read (log 19) -/

def scratchLine (n line : Nat) : Nat := n * 0x1000000 + line * 64

def Dev.scratchRead (d : Dev) (n off : Nat) : Acc :=
  let h := d.hub n
  if off ≥ h.scratchWays * 0x200000 then ⟨sTranslation, [], d⟩
  else if h.scratchBad.has (off / 64) then ⟨sEcc, [], d.count (At.hub n 0x00C) 0 32 1⟩
  else ⟨0, Mem.read d.scratch (scratchLine n (off / 64)) 64, d⟩

def Dev.scratchWrite (d : Dev) (n off : Nat) (bytes : List W8) : Acc :=
  let h := d.hub n
  if off ≥ h.scratchWays * 0x200000 then ⟨sTranslation, [], d⟩
  else if off % 64 = 0 ∧ bytes.length = 64 then
    ⟨0, [], ({ d with scratch := Mem.store d.scratch (n * 0x1000000 + off) bytes }).onHub n
      fun h => { h with scratchBad := h.scratchBad.del (off / 64) }⟩
  else if h.scratchBad.has (off / 64) then ⟨sEcc, [], d.count (At.hub n 0x00C) 0 32 1⟩
  else ⟨0, [], { d with scratch := Mem.store d.scratch (n * 0x1000000 + off) bytes }⟩

/-! ## Regulators (R280, R281) -/

/-- The regulator class of a request of sector `n`, none where it is not regulated. -/
def classOf (n : Nat) (atomic write : Bool) (kind : Region → Nat) (r : Region) : Option Nat :=
  match r with
  | .quire m _ => if atomic then some 1 else if m = n then none else some 0
  | .scratch m _ => if atomic then some 1 else if m = n then none else some 0
  | .aperture _ _ _ _ => if write then some 1 else none
  | .window _ _ => some (kind r)
  | .csr _ => none
  | .reserved => none

/-- Holds a balance within the i32 that HUB.REG_BALANCE shows (R289). -/
def clampBalance (b : Int) : Int := max (-2147483648) (min 2147483647 b)

/-- The budget of a class in force: that of the register, but for one written since the last edge (R289). -/
def Dev.budget (d : Dev) (n k : Nat) : W32 := (Tab.look none (d.hub n).budgets k).getD (d.reg (At.hub n (0x030 + 4 * k)))

/-- Whether a request of a class proceeds (R281): its balance is above 0, or its budget is unlimited. -/
def Dev.regOpen (d : Dev) (n k : Nat) : Bool :=
  d.budget n k == 0xFFFFFFFF || decide (0 < Tab.look (0 : Int) (d.hub n).balance k)

/-- Charges ⌈bytes / 64⌉ units to a class of a partition (R280, R281). -/
def Dev.charge (d : Dev) (n k bytes : Nat) : Dev :=
  if d.budget n k == 0xFFFFFFFF then d
  else d.onHub n fun h =>
    { h with balance := Tab.alter (0 : Int) h.balance k (fun b => clampBalance (b - (((bytes + 63) / 64 : Nat) : Int))) }

/-- The refill of a tick edge (R281, R289): budgets written come into force, and balance ← min(balance, 0) + budget. -/
def Dev.refill (d : Dev) (n : Nat) : Dev :=
  (List.range 4).foldl (fun (x : Dev) k =>
    let u := x.reg (At.hub n (0x030 + 4 * k))
    if u = 0xFFFFFFFF then x
    else x.onHub n fun h =>
      { h with balance := Tab.alter (0 : Int) h.balance k (fun b => clampBalance (min b 0 + (u.toNat : Int))) }) (d.onHub n fun h => { h with budgets := [] })

/-! ## Windows (R284) -/

/-- A window entry. -/
structure WindowEntry where
  kind : Nat
  device : W16
  conn : Nat
  hostBase : Nat
  ok : Bool
  deriving DecidableEq, Repr

/-- One 64-byte line of local memory by its physical address, through its home slice: Quire or scratch (R249, R267, R269,
R440). -/
def Dev.localRead (v : Variant) (d : Dev) (a : Nat) : Acc :=
  match regionOf a with
  | .quire n off =>
    if n < v.sectors ∧ off < v.stackGiB * 2 ^ 30 then
      if (d.hub n).fenced then ⟨sFenced, [], d⟩ else d.quireRead n (off / 64)
    else ⟨sTranslation, [], d⟩
  | .scratch n off =>
    if n < v.sectors then
      if (d.hub n).fenced then ⟨sFenced, [], d⟩ else d.scratchRead n off
    else ⟨sTranslation, [], d⟩
  | .aperture n _ _ _ =>
    if n < v.sectors ∧ (d.hub n).fenced then ⟨sFenced, [], d⟩ else ⟨sTranslation, [], d⟩
  | .window _ _ => ⟨sTranslation, [], d⟩
  | .csr _ => ⟨sTranslation, [], d⟩
  | .reserved => ⟨sTranslation, [], d⟩

/-- A write of bytes within one line of local memory. -/
def Dev.localWrite (v : Variant) (d : Dev) (a : Nat) (bytes : List W8) : Acc :=
  match regionOf a with
  | .quire n off =>
    if n < v.sectors ∧ off < v.stackGiB * 2 ^ 30 then
      if (d.hub n).fenced then ⟨sFenced, [], d⟩ else d.quireWrite n (off / 64) (off % 64) bytes
    else ⟨sTranslation, [], d⟩
  | .scratch n off =>
    if n < v.sectors then
      if (d.hub n).fenced then ⟨sFenced, [], d⟩ else d.scratchWrite n off bytes
    else ⟨sTranslation, [], d⟩
  | .aperture _ _ _ _ => ⟨sTranslation, [], d⟩
  | .window _ _ => ⟨sTranslation, [], d⟩
  | .csr _ => ⟨sTranslation, [], d⟩
  | .reserved => ⟨sTranslation, [], d⟩

/-- The pieces of a byte range, line by line: address and length of each. -/
def piecesAux : Nat → Nat → Nat → List (Nat × Nat)
  | 0, _, _ => []
  | fuel + 1, a, len =>
    if len = 0 then []
    else
      let n := min len (64 - a % 64)
      (a, n) :: piecesAux fuel (a + n) (len - n)

def pieces (a len : Nat) : List (Nat × Nat) := piecesAux (len / 64 + 2) a len

/-- A byte range read piece by piece: the first status that is not DONE, and the bytes (zeros where a piece failed). -/
def readPieces (rd : Dev → Nat → Nat → Acc) : List (Nat × Nat) → Dev → Acc
  | [], d => ⟨0, [], d⟩
  | (a, n) :: r, d =>
    let x := rd d a n
    let y := readPieces rd r x.d
    ⟨if x.st = 0 then y.st else x.st, (if x.st = 0 then x.data else List.replicate n 0) ++ y.data, y.d⟩

/-- Bytes of local memory by physical address. -/
def Dev.physBytes (v : Variant) (d : Dev) (a len : Nat) : Acc :=
  readPieces (fun x b n => let r := x.localRead v b; ⟨r.st, (r.data.drop (b % 64)).take n, r.d⟩) (pieces a len) d

/-- A little-endian number of `len` bytes in local memory. -/
def Dev.physNat (v : Variant) (d : Dev) (a len : Nat) : W8 × Nat × Dev :=
  let r := d.physBytes v a len
  (r.st, leNat r.data, r.d)

/-- Writes bytes piece by piece until a piece fails. -/
def writePieces (wr : Dev → Nat → List W8 → Acc) : List (Nat × Nat) → List W8 → Dev → Acc
  | [], _, d => ⟨0, [], d⟩
  | (a, n) :: r, bytes, d =>
    let x := wr d a (bytes.take n)
    if x.st = 0 then writePieces wr r (bytes.drop n) x.d else ⟨x.st, [], x.d⟩

/-- Stores bytes to local memory by physical address; stops at the first piece that fails. -/
def Dev.physStore (v : Variant) (d : Dev) (a : Nat) (bytes : List W8) : Acc :=
  writePieces (fun x b bs => x.localWrite v b bs) (pieces a bytes.length) bytes d

/-- Window `w` of the window table (R284). -/
def Dev.windowEntry (v : Variant) (d : Dev) (w : Nat) : W8 × WindowEntry × Dev :=
  let r := d.physBytes v ((d.reg64 (At.hub 0 0x108)).toNat + 16 * w) 16
  let b := fun i => r.data.getD i 0
  (r.st, { kind := (b 0).toNat, device := b 3 ++ b 2, conn := leNat [b 4, b 5], hostBase := leNat (r.data.drop 8),
           ok := (b 1 == 0) && (b 6 == 0) && (b 7 == 0) && decide ((b 0).toNat = 1 ∨ (b 0).toNat = 2) }, r.d)

/-- Whether an offset lies in the Quire range of R267: what a borrowed window may reach (R284). -/
def inQuireRange (off : Nat) : Bool := decide (off < 0x9000000000)

/-- The class of a window's traffic: 2 LINK for a borrowed one, 3 HOST for a host one (R280). -/
def WindowEntry.cls (e : WindowEntry) : Nat := if e.kind = 1 then 2 else 3

/-- Charges a request of sector `src` by its region (R280). -/
def Dev.chargeFor (d : Dev) (src : Option Nat) (atomic write : Bool) (winClass : Nat) (a bytes : Nat) : Dev :=
  match src with
  | none => d
  | some n =>
    match classOf n atomic write (fun _ => winClass) (regionOf a) with
    | none => d
    | some k => d.charge n k bytes

/-! ## Translation (R282, R283, R285) -/

/-- A leaf of the level-3 table (R283): page address, EVALW, WRITE. -/
structure Leaf where
  page : Nat
  evalw : Bool
  write : Bool
  deriving DecidableEq, Repr

def leafOf (w : W64) : Leaf := ⟨(w &&& 0xFFFFFFE00000#64).toNat, w.getLsbD 2, w.getLsbD 1⟩

/-- Whether a level-1 or level-2 entry is present with its reserved bits zero. -/
def tableOk (w : W64) : Bool := w.getLsbD 0 && (w &&& 0xFFFF000000000FFE#64) == 0

/-- Whether a leaf is present with its reserved bits zero. -/
def leafOk (w : W64) : Bool := w.getLsbD 0 && (w &&& 0xFFFF0000001FFFF8#64) == 0

/-- Whether a context-table entry is VALID with its reserved bits and bytes zero (R282, R285). -/
def rootOk (w r : W64) : Bool := w.getLsbD 0 && (w &&& 0xFFFF000000000FFE#64) == 0 && r == 0

/-- The sector of a unit; for one outside the sectors, a number that no sector has. -/
def XlUnit.sector : XlUnit → Nat
  | .tile n => n / 16
  | .drover n => n
  | .walker n => n
  | .engine n => n
  | .ox n => n
  | .outside => 12

/-- Whether a unit caches translations (R282). -/
def XlUnit.caches : XlUnit → Bool
  | .tile _ => true
  | .drover _ => true
  | .walker _ => true
  | .engine _ => true
  | .ox _ => false
  | .outside => false

/-- Walks tables from an entry address: `k` more levels above the leaf. -/
def Dev.walkFrom (v : Variant) : Nat → Dev → Nat → Nat → W8 × W64 × Dev
  | 0, d, tbl, va =>
    let r := d.physNat v (tbl + 8 * (va / 2 ^ 21 % 512)) 8
    if r.1 ≠ 0 then (r.1, 0, r.2.2)
    else if leafOk (BitVec.ofNat 64 r.2.1) then (0, BitVec.ofNat 64 r.2.1, r.2.2) else (sTranslation, 0, r.2.2)
  | k + 1, d, tbl, va =>
    let r := d.physNat v (tbl + 8 * (va / 2 ^ (21 + 9 * (k + 1)) % 512)) 8
    if r.1 ≠ 0 then (r.1, 0, r.2.2)
    else if tableOk (BitVec.ofNat 64 r.2.1) then
      Dev.walkFrom v k r.2.2 (BitVec.ofNat 64 r.2.1 &&& 0xFFFFFFFFF000#64).toNat va
    else (sTranslation, 0, r.2.2)

/-- The leaf of a page, from the translations the unit keeps or by a walk from the context table (R282, R285, R286). -/
def Dev.walk (v : Variant) (d : Dev) (u : XlUnit) (ctx va : Nat) : W8 × W64 × Dev :=
  match d.xlCache.find? (fun e => e.1 == u && e.2.1 == ctx && e.2.2.1 == va / 2 ^ 21) with
  | some e => (0, e.2.2.2, d)
  | none =>
    let r := d.physBytes v ((d.reg64 (At.hub 0 0x100)).toNat + 16 * ctx) 16
    let root := BitVec.ofNat 64 (leNat (r.data.take 8))
    if r.st ≠ 0 then (r.st, 0, r.d)
    else if !rootOk root (BitVec.ofNat 64 (leNat (r.data.drop 8))) then (sTranslation, 0, r.d)
    else
      let x := Dev.walkFrom v 2 r.d (root &&& 0xFFFFFFFFF000#64).toNat va
      if x.1 = 0 ∧ u.caches then (0, x.2.1, { x.2.2 with xlCache := (u, ctx, va / 2 ^ 21, x.2.1) :: x.2.2.xlCache }) else x

/-- Whether a partition belongs to the evaluation slice in force (R384). -/
def Dev.evalMember (d : Dev) (n : Nat) : Bool := d.seq.evalPart.getLsbD n

/-- Notes that a context used the slice of an address (R433). -/
def Dev.touch (d : Dev) (ctx a : Nat) : Dev :=
  let note := fun (n : Nat) => { d with gander := { d.gander with
    active := Tab.put 0 d.gander.active (16 * n + ctx) (d.tick.number.toNat + 1) } }
  match regionOf a with
  | .quire n _ => note n
  | .scratch n _ => note n
  | .aperture n _ _ _ => note n
  | .window _ _ => d
  | .csr _ => d
  | .reserved => d

/-- A virtual address to a physical one (R282 to R285): status and address. A write needs WRITE, and EVALW as well from a
partition of the evaluation slice. -/
def Dev.translate (v : Variant) (d : Dev) (u : XlUnit) (ctx va : Nat) (write eval : Bool) : W8 × Nat × Dev :=
  if va ≥ 2 ^ 48 then (sTranslation, 0, d)
  else
    let r := d.walk v u ctx va
    if r.1 ≠ 0 then (r.1, 0, r.2.2)
    else
      let l := leafOf r.2.1
      let a := l.page + va % 2 ^ 21
      if write && (!l.write || (eval && !l.evalw)) then (sTranslation, 0, r.2.2)
      else match regionOf a with
        | .csr _ => (sTranslation, 0, r.2.2)
        | .reserved => (sTranslation, 0, r.2.2)
        | _ => (0, a, r.2.2.touch ctx a)

/-! ## Tile memory and the sector buffer (R552) -/

def tileMemSize : Nat := 0x200000
def sectBufSize : Nat := 0x800000

def Dev.tileLineBad (d : Dev) (t : TileRef) (line : Nat) : Bool := (Tab.look {} d.tileBad t.ix).has line

def Dev.tileByte (d : Dev) (t : TileRef) (a : Nat) : W8 := Mem.byte d.tileMem (t.ix * tileMemSize + a)

/-- Bytes of a tile's memory within one line. -/
def Dev.tileRead (d : Dev) (t : TileRef) (a len : Nat) : Acc :=
  if d.tileLineBad t (a / 64) then ⟨sEcc, [], d⟩ else ⟨0, Mem.read d.tileMem (t.ix * tileMemSize + a) len, d⟩

/-- A write within one line of a tile's memory: a whole line makes it readable, part of an unreadable line has no
effect (R552). -/
def Dev.tileWrite (d : Dev) (t : TileRef) (a : Nat) (bytes : List W8) : Acc :=
  let m := Mem.store d.tileMem (t.ix * tileMemSize + a) bytes
  if a % 64 = 0 ∧ bytes.length = 64 then
    ⟨0, [], { d with tileMem := m, tileBad := Tab.alter {} d.tileBad t.ix (fun s => s.del (a / 64)) }⟩
  else if d.tileLineBad t (a / 64) then ⟨sEcc, [], d⟩
  else ⟨0, [], { d with tileMem := m }⟩

/-- Poisons a line of a tile's memory (R303, R553). -/
def Dev.tilePoison (d : Dev) (t : TileRef) (line : Nat) : Dev :=
  { d with tileBad := Tab.alter {} d.tileBad t.ix (fun s => s.add line) }

def Dev.bufRead (d : Dev) (n a len : Nat) : Acc :=
  if (d.sector n).bad.has (a / 64) then ⟨sEcc, [], d⟩ else ⟨0, Mem.read d.sectBuf (n * sectBufSize + a) len, d⟩

def Dev.bufWrite (d : Dev) (n a : Nat) (bytes : List W8) : Acc :=
  let m := Mem.store d.sectBuf (n * sectBufSize + a) bytes
  if a % 64 = 0 ∧ bytes.length = 64 then
    ⟨0, [], ({ d with sectBuf := m }).onSector n (fun s => { s with bad := s.bad.del (a / 64) })⟩
  else if (d.sector n).bad.has (a / 64) then ⟨sEcc, [], d⟩
  else ⟨0, [], { d with sectBuf := m }⟩

def Dev.bufPoison (d : Dev) (n line : Nat) : Dev := d.onSector n (fun s => { s with bad := s.bad.add line })

end Sys2Proof.Machine
end

