-- ==== Sys2Proof/Machine/LinkOps.lean ====
section
/-!
DEFINITION. Sys2Proof/Machine/LinkOps.lean: the device as a requester: Nimser streams and host connections, the way a
packet takes, requests to borrowed and host windows, and reads and atomics of any region of the physical map (R267, R274,
R284, R400 to R408, R419).
-/

namespace Sys2Proof.Machine

open Sys2Proof

/-! ## The links as carriers (R402, R410 to R413, R417) -/

/-- The Nimser operations that are responses (R403). -/
def isResponse (op : W8) : Bool := op.getLsbD 4

/-- The virtual channel a packet travels on (R403, R412). -/
def channelOfPacket (op : W8) (vc : BitVec 2) : Nat := if isResponse op then 1 else if op = 0x04 then 2 else vc.toNat

/-- A packet's 40-byte header (R402). -/
def headerBytes (op : W8) (h : NimHdr) : List W8 :=
  [(1 : BitVec 4) ++ h.epoch, op, (if h.retx then 1 else 0) + (if h.host then 2 else 0), h.hops] ++ toLE 2 h.src.toNat ++ toLE 2 h.dst.toNat ++
    toLE 2 h.stream.toNat ++ [h.vc.setWidth 8, h.ctx] ++ toLE 4 h.psn.toNat ++ toLE 4 h.ackPsn.toNat ++ toLE 2 h.length.toNat ++
    [h.status, h.queue] ++ toLE 8 h.addr.toNat ++ toLE 8 h.aux.toNat

/-- The receive buffer of a virtual channel, in flits (R412). -/
def vcBuffer (vc : Nat) : Nat := if vc = 3 then 64 else 320

/-- The payload of a flit. -/
def flitPayload : Nat := 244

/-- A packet cut into flits (R410, R411); SEQ is given when a flit is sent. -/
def cutFlits (vc : Nat) (bytes : List W8) : List Flit :=
  let n := (bytes.length + flitPayload - 1) / flitPayload
  (List.range n).map fun i =>
    let part := (bytes.drop (flitPayload * i)).take flitPayload
    { seq := 0, ack := 0, ackValid := false, nak := false, vc := BitVec.ofNat 2 vc, sop := decide (i = 0), eop := decide (i + 1 = n),
      used := BitVec.ofNat 8 part.length, crvc := 0, credits := 0, payload := part, crc := 0 }

/-- One byte of a 32-bit CRC with its bits reflected. -/
def crcStep (poly c : W32) (b : W8) : W32 :=
  (List.range 8).foldl (fun c _ => if c.getLsbD 0 then (c >>> 1) ^^^ poly else c >>> 1) (c ^^^ b.setWidth 32)

/-- A 32-bit CRC from all ones, complemented. -/
def crcOf (poly : W32) (bs : List W8) : W32 := ~~~(bs.foldl (crcStep poly) 0xFFFFFFFF)

/-- The link header of a flit (R411). -/
def flitHeader (idle : Bool) (f : Flit) : W64 :=
  f.seq ++ f.ack ++ BitVec.ofBool f.ackValid ++ BitVec.ofBool f.nak ++ f.vc ++ BitVec.ofBool f.sop ++ BitVec.ofBool f.eop ++
    (if idle then 0#2 else 1#2) ++ f.used ++ f.crvc ++ f.credits ++ 0#16

/-- The IEEE 802.3 CRC-32 over bytes 0 to 251 of a flit (R410); payload bytes that a packet does not fill are 0 (log 50). -/
def flitCrc (idle : Bool) (f : Flit) : W32 :=
  crcOf 0xEDB88320 (toLE 8 (flitHeader idle f).toNat ++ (f.payload ++ List.replicate flitPayload 0).take flitPayload)

/-- Whether a flit's CRC is good (R414). -/
def flitGood (idle : Bool) (f : Flit) : Bool := decide (f.crc = flitCrc idle f)

/-- A flit with its CRC. -/
def flitSealed (idle : Bool) (f : Flit) : Flit := { f with crc := flitCrc idle f }

/-- The next flit of a port, in the order VC 3, 1, 2, 0 among those with credit (R412, R413); at most 512 are unacknowledged
(R414). -/
def Port.nextFlit (x : Port) : Option (Flit × Port) :=
  if 512 ≤ x.replayBuf.length then none
  else
    match [3, 1, 2, 0].find? (fun c => !(Tab.look [] x.txQueue c).isEmpty && decide (Tab.look 0 x.spent c < vcBuffer c)) with
    | none => none
    | some c =>
      match Tab.look [] x.txQueue c with
      | [] => none
      | f :: r =>
        let f := flitSealed false { f with seq := x.txSeq }
        some (f, { x with txSeq := x.txSeq + 1, spent := Tab.alter 0 x.spent c (· + 1), txQueue := Tab.put [] x.txQueue c r,
                          replayBuf := x.replayBuf ++ [f] })

/-- Sends as many flits of a port as credits and the replay buffer allow. -/
def Dev.sendFlits (p : Nat) : Nat → Dev → Dev
  | 0, d => d
  | fuel + 1, d =>
    if !(d.port p).up then d
    else match (d.port p).nextFlit with
      | none => d
      | some (f, x) => Dev.sendFlits p fuel ((d.onPort p fun _ => x).send (.flit p false f))

/-- Flits that wait on a port. -/
def Port.queuedFlits (x : Port) : Nat := (x.txQueue.map (fun e => e.2.length)).sum

/-- The priority of a virtual channel of a port: VC_PCP of a peer port (R417). -/
def Dev.pcpOf (d : Dev) (p vc : Nat) : Nat := d.fld (At.port p 0) (16 + 3 * vc) 3

/-- Number by which a stream is kept: 4 × device + virtual channel for a peer, from 2^20 on for a host connection (R404). -/
def streamKey : StreamRef → Nat
  | .peer dev vc => 4 * dev.toNat + vc.toNat
  | .conn i => 2 ^ 20 + i.toNat

def Dev.nim (d : Dev) (k : Nat) : NimStream := Tab.look {} d.links.streams k

def Dev.onNim (d : Dev) (k : Nat) (f : NimStream → NimStream) : Dev :=
  d.onLinks fun l => { l with streams := Tab.alter {} l.streams k f }

/-! ## Frames (R393, R395, R401, R409, R416, R417, R426) -/

/-- CRC-32C, the ECRC of R401 (PRESUMED, log 48: reflected, from all ones, complemented). -/
def crc32c (bs : List W8) : W32 := crcOf 0x82F63B78 bs

/-- Sum of bytes taken as 16-bit words, high byte first. -/
def wordSum : List W8 → Nat
  | [] => 0
  | [a] => 256 * a.toNat
  | a :: b :: r => 256 * a.toNat + b.toNat + wordSum r

/-- The UDP checksum over the addresses, ports and payload (R393): the complement of the sum in ones' complement, 0 sent as 0xFFFF. -/
def udpSum (v4 : Bool) (sip dip : BitVec 128) (sport dport : W16) (body : List W8) : W16 :=
  let half := fun (a : BitVec 128) => wordSum (toLE 16 a.toNat).reverse
  let low := fun (a : BitVec 128) => wordSum (toLE 4 (a.toNat % 2 ^ 32)).reverse
  let n := 8 + body.length
  let s := (if v4 then low sip + low dip else half sip + half dip) + 17 + n + sport.toNat + dport.toNat + n + wordSum body
  let r := 65535 - s % 65535
  BitVec.ofNat 16 (if r = 0 then 65535 else r)

/-- The bytes of a tick message (R424). -/
def tickBytes (kind : W8) (m : TickMsg) : List W8 :=
  [kind, m.hops] ++ toLE 2 m.root.toNat ++ toLE 4 m.value.toNat ++ toLE 8 m.tick.toNat ++ toLE 8 m.step.toNat ++ toLE 8 m.time.toNat

/-- The MAC address of port `p` of device `dev` (R416), its first byte on the wire highest. -/
def Dev.portMac (d : Dev) (dev : W16) (p : Nat) : BitVec 48 := 0x02#8 ++ d.links.fleetMac ++ dev ++ BitVec.ofNat 8 p

/-- The prefix that LINK.PFX gives to peer ports (R416, R429). -/
def Dev.fleetPrefix (d : Dev) : BitVec 104 :=
  d.reg (At.link 0 0x210) ++ d.reg (At.link 0 0x20C) ++ d.reg (At.link 0 0x208) ++ (d.reg (At.link 0 0x204)).extractLsb' 24 8

/-- The IPv6 address of port `p` of device `dev` (R416). -/
def Dev.portIp (d : Dev) (dev : W16) (p : Nat) : BitVec 128 := d.fleetPrefix ++ BitVec.ofNat 8 p ++ dev

/-- The destination MAC address of a packet to device `dev` that leaves port `p` (R416). -/
def Dev.nextMac (d : Dev) (dev : W16) (p : Nat) : BitVec 48 :=
  if d.bit (At.port p 0) 6 then (d.reg64 (At.port p 0x010)).setWidth 48 else d.portMac dev p

/-- HOST.IP6 (R430). -/
def Dev.hostIp6 (d : Dev) : BitVec 128 :=
  d.reg (At.host 0x020) ++ d.reg (At.host 0x01C) ++ d.reg (At.host 0x018) ++ d.reg (At.host 0x014)

/-- The multicast group of tick messages (R426). -/
def Dev.tickGroup (d : Dev) : BitVec 128 := 0xFF15#16 ++ 0#80 ++ 0x0C12#16 ++ d.links.fleetMac

/-- ECT(0), which every IP packet sent carries (R409). -/
def ectZero : BitVec 2 := 0b10

/-- The UDP port of RoCEv2 (PRESUMED, log 48). -/
def roceUdp : W16 := 4791

/-- The local queue pair number of RoCEv2 connection `i` (R395). -/
def localQp (i : Nat) : BitVec 24 := BitVec.ofNat 24 (0x100 + i)

/-- Whether a packet belongs to a management stream (R528): virtual channel 3 of a peer, or a host connection that has served one. -/
def Dev.onMgmtStream (d : Dev) (p : Nat) (h : NimHdr) : Bool :=
  if p = 16 then (d.nim (streamKey (.conn (h.stream.setWidth 8)))).mgmt else decide (h.vc = 3)

/-- A frame's envelope once its addresses are known: the body is the packet, the code its ECRC or ICRC. -/
def sealed (e : Envelope) (packet : List W8) (code : W32) : Envelope :=
  { e with code := code, sum := udpSum e.v4 e.sip e.dip e.sport e.dport (packet ++ toLE 4 code.toNat) }

/-- What a host connection's frames carry (R394, R395): its own addresses, VLAN, priority and ports. -/
def Dev.hostEnvelope (d : Dev) (i : Nat) (dport : W16) : Envelope :=
  let c := d.conn i
  let v4 := decide (c.ipv = 4)
  { dmac := c.dmac, smac := d.links.hostMac, vid := c.vlan.setWidth 12, pcp := c.prio.setWidth 3, v4 := v4,
    sip := if v4 then (d.reg (At.host 0x010)).setWidth 128 else d.hostIp6, dip := c.dip, ecn := ectZero, sport := c.udpSrc, dport := dport,
    sum := 0, code := 0 }

/-- What a peer port's frames carry (R416, R417). -/
def Dev.peerEnvelope (d : Dev) (p : Nat) (src dst : W16) (vc : BitVec 2) (c : Nat) (dport : W16) : Envelope :=
  { dmac := d.nextMac dst p, smac := d.portMac d.deviceId p, vid := 0, pcp := BitVec.ofNat 3 (d.pcpOf p c), v4 := false,
    sip := d.portIp d.deviceId p, dip := d.portIp dst p, ecn := ectZero, sport := Config.udpSource src dst vc, dport := dport, sum := 0,
    code := 0 }

/-- The multicast frame of a tick message (R426); its group MAC address is PRESUMED (log 48). -/
def Dev.tickEnvelope (d : Dev) (p : Nat) (dport : W16) : Envelope :=
  let g := d.tickGroup
  { dmac := 0x3333#16 ++ g.setWidth 32, smac := if p = 16 then d.links.hostMac else d.portMac d.deviceId p, vid := 0, pcp := 7, v4 := false,
    sip := if p = 16 then d.hostIp6 else d.portIp d.deviceId p, dip := g, ecn := ectZero, sport := Config.udpSource d.deviceId 0 0,
    dport := dport, sum := 0, code := 0 }

/-- A tick message sent to one device, towards the root (R427). -/
def Dev.unicastTick (d : Dev) (p : Nat) (dst : W16) (dport : W16) : Envelope :=
  { d.tickEnvelope p dport with dmac := d.nextMac dst p, dip := d.portIp dst p }

/-- The header of a TICK packet, which takes no PSN (R403). -/
def tickHdr (src dst : W16) : NimHdr :=
  { epoch := 0, retx := false, host := false, hops := 0, src := src, dst := dst, stream := 0, vc := 0, ctx := 0, psn := 0, ackPsn := 0,
    length := 32, status := 0, queue := 0, addr := 0, aux := 0, ce := none }

/-- The frame that carries a packet on a port in Ethernet mode (R401): to DATA_PORT, or for a management stream to MGMT_PORT, with the
VLAN and priority of HOST.MGMT on the host port; every packet with its ECRC or ICRC. A STRETCH_REQ goes to the root alone (R427). -/
def Dev.envelope (d : Dev) (p : Nat) (m : Packet) : Envelope :=
  let data : W16 := BitVec.ofNat 16 (d.fld (At.host 0x024) 0 16)
  let mgmt : W16 := BitVec.ofNat 16 (d.fld (At.host 0x024) 16 16)
  match m with
  | .nimser op h bytes =>
    let body := headerBytes op h ++ bytes
    let m := d.onMgmtStream p h
    let dport := if m then mgmt else data
    let e := if p = 16 then
        let e := d.hostEnvelope h.stream.toNat dport
        if m then { e with vid := BitVec.ofNat 12 (d.fld (At.host 0x028) 0 12), pcp := BitVec.ofNat 3 (d.fld (At.host 0x028) 12 3) } else e
      else d.peerEnvelope p h.src h.dst h.vc (channelOfPacket op h.vc) dport
    sealed e body (crc32c body)
  | .roce i op psn addr key len syn bytes =>
    let body := Config.roceWire [(d.conn i).rqpn.toNat % 2 ^ 24, op.toNat, psn.toNat % 2 ^ 24, addr.toNat, key.toNat, len, syn.toNat] bytes
    sealed (d.hostEnvelope i roceUdp) body (Config.icrc body)
  | .tick kind t =>
    let dst := if kind = 3 then d.rootId else 0
    let body := headerBytes 0x06 (tickHdr d.deviceId dst) ++ tickBytes kind t
    sealed (if kind = 3 then d.unicastTick p dst data else d.tickEnvelope p data) body (crc32c body)

/-- The priority of a packet on a port (R417, R426, R528). -/
def Dev.priorityOf (d : Dev) (p : Nat) (m : Packet) : Nat :=
  match m with
  | .nimser op h _ =>
    if p = 16 then (if d.onMgmtStream p h then d.fld (At.host 0x028) 12 3 else (d.conn h.stream.toNat).prio.toNat)
    else d.pcpOf p (channelOfPacket op h.vc)
  | .roce i _ _ _ _ _ _ _ => (d.conn i).prio.toNat
  | .tick _ _ => 7

/-- Whether a port has stopped sending a packet's priority (R417). -/
def Dev.stopped (d : Dev) (p : Nat) (m : Packet) : Bool := (d.port p).paused.getLsbD (d.priorityOf p m)

/-- Sends a packet on a port: as flits in direct mode, else in one frame unless its priority is stopped. -/
def Dev.transmit (d : Dev) (p : Nat) (m : Packet) : Dev :=
  if decide (p ≠ 16) && decide ((d.port p).mode = 1) then
    match m with
    | .nimser op h data =>
      let c := channelOfPacket op h.vc
      let d := d.onPort p fun x => { x with txQueue := Tab.alter [] x.txQueue c (· ++ cutFlits c (headerBytes op h ++ data)) }
      Dev.sendFlits p (d.port p).queuedFlits d
    | .tick kind t => d.send (.tick p kind t)
    | .roce _ _ _ _ _ _ _ _ => d
  else if d.stopped p m then d.onLinks fun l => { l with heldOut := l.heldOut ++ [(p, m)] }
  else d.send (.frame p (d.envelope p m) m)

/-- Packets whose priority is no longer stopped go out in order. -/
def Dev.releaseHeld (d : Dev) : Dev :=
  let ms := d.links.heldOut
  ms.foldl (fun (d : Dev) m => d.transmit m.1 m.2) (d.onLinks fun l => { l with heldOut := [] })

/-- The ways of a routing entry (R418): valid ways in way order, with their ports. -/
def waysOf (e : W32) : List Nat :=
  (List.range 4).filterMap (fun k => if e.getLsbD (16 + k) then some ((e.toNat / 16 ^ k) % 16) else none)

/-- The usable ways to a device (R419): ports up and present; the entry of the device's own ID is ignored (R418). -/
def Dev.usableWays (v : Variant) (d : Dev) (dst : W16) : List Nat :=
  if dst = d.deviceId then [] else (waysOf (Tab.look 0 d.links.routes dst.toNat)).filter (fun p => decide (p < v.ports) && (d.port p).up)

/-- The port a stream takes (R419): kept while the set of usable ways stays the same. -/
def Dev.pickWay (v : Variant) (d : Dev) (src dst : W16) (vc : Nat) : Option Nat × Dev :=
  let ws := d.usableWays v dst
  if ws.isEmpty then (none, d)
  else
    let set := ws.foldl (fun m p => m ||| 2 ^ p) 0
    let k := 4 * dst.toNat + vc
    match (d.nim k).way with
    | some (s, p) =>
      if s = set ∧ src = d.deviceId then (some p, d)
      else
        let p := ws.getD (Config.wayHash src.toNat dst.toNat vc % ws.length) 0
        (some p, if src = d.deviceId then d.onNim k (fun x => { x with way := some (set, p) }) else d)
    | none =>
      let p := ws.getD (Config.wayHash src.toNat dst.toNat vc % ws.length) 0
      (some p, if src = d.deviceId then d.onNim k (fun x => { x with way := some (set, p) }) else d)

/-- The header of a request of a stream (R402). -/
def reqHdr (src dst : W16) (host : Bool) (stream : W16) (vc : BitVec 2) (ctx : W8) (epoch : BitVec 4) (psn : W32)
    (addr aux : W64) (len : Nat) (retx : Bool) : NimHdr :=
  { epoch := epoch, retx := retx, host := host, hops := 0, src := src, dst := dst, stream := stream, vc := vc, ctx := ctx,
    psn := psn, ackPsn := 0, length := BitVec.ofNat 16 len, status := 0, queue := 0, addr := addr, aux := aux, ce := none }

/-- At most this many requests of a stream are unacknowledged (R406). -/
def maxUnacked : Nat := 256

/-- Sends an outstanding request of a stream on its port. -/
def Dev.sendReq (v : Variant) (d : Dev) (s : StreamRef) (o : Outstanding) (retx : Bool) : Dev :=
  let x := d.nim (streamKey s)
  match s with
  | .peer dev vc =>
    let w := d.pickWay v d.deviceId dev vc.toNat
    match w.1 with
    | none => w.2
    | some p => w.2.transmit p (.nimser o.op
        (reqHdr d.deviceId dev false 0 vc 0 x.reqEpoch o.psn o.addr o.aux o.data.length retx) o.data)
  | .conn i =>
    d.transmit 16 (.nimser o.op
      (reqHdr d.deviceId 0 true (i.setWidth 16) 0 0 x.reqEpoch o.psn o.addr o.aux o.data.length retx) o.data)

/-- At most this many atomics of a stream are outstanding (R405). -/
def maxAtomics : Nat := 64

/-- The requests that may go out next, in order: while fewer than `n` are unacknowledged and fewer than `m` atomics outstanding. -/
def goNext : Nat → Nat → List Outstanding → List Outstanding
  | _, _, [] => []
  | n, m, o :: r =>
    if o.sent then goNext n m r
    else if n = 0 then []
    else if o.op = 0x03 then (match m with
      | 0 => []
      | k + 1 => o :: goNext (n - 1) k r)
    else o :: goNext (n - 1) m r

/-- Sends every request of a stream that waits for room among the 256 unacknowledged and, for atomics, the 64 outstanding (R405, R406)
or for a handshake to end (R408). -/
def Dev.pump (v : Variant) (d : Dev) (s : StreamRef) : Dev :=
  let x := d.nim (streamKey s)
  if x.resyncing then d
  else
    let n := (x.outstanding.filter (fun o => o.sent && !o.acked)).length
    let m := (x.outstanding.filter (fun o => o.sent && o.op == 0x03)).length
    let go := goNext (maxUnacked - n) (maxAtomics - m) x.outstanding
    let d1 := go.foldl (fun (y : Dev) o => y.sendReq v s o false) d
    d1.onNim (streamKey s) fun y =>
      { y with outstanding := y.outstanding.map (fun o => if go.any (fun g => g.psn == o.psn) then { o with sent := true } else o) }

/-- A new request on a Nimser stream (R404, R406); a destination with no usable way gives INTERFACE_RETRY_EXHAUSTED at
once, and 0 otherwise. -/
def Dev.nimRequest (v : Variant) (d : Dev) (s : StreamRef) (op : W8) (addr aux : W64) (data : List W8) (tag : Nat) : W8 × Dev :=
  let usable := match s with
    | .peer dev _ => !(d.usableWays v dev).isEmpty
    | .conn _ => (d.port 16).up
  if !usable then
    (sRetryExhausted, match s with
      | .peer _ _ => d.count (At.link 0 0x23C) 0 16 1
      | .conn _ => d)
  else
    let o : Outstanding := { psn := (d.nim (streamKey s)).nextPsn, op := op, addr := addr, aux := aux, data := data, tag := tag }
    (0, (d.onNim (streamKey s) fun x => { x with nextPsn := x.nextPsn + 1, outstanding := x.outstanding ++ [o] }).pump v s)

/-- Sends a request of a RoCEv2 connection, an RDMA WRITE (0x01) or RDMA READ (0x02), with its key and length, in one packet, under the
transport's opcode (0x0A, 0x0C; PRESUMED, log 48): every request of the device lies within one line, below every path MTU (R395). -/
def Dev.sendRoce (d : Dev) (i : Nat) (o : Outstanding) : Dev :=
  d.transmit 16 (.roce i (if o.op = 0x02 then 0x0C else 0x0A) o.psn o.addr ((o.aux >>> 32).setWidth 32) (o.aux.toNat % 2 ^ 32) 0 o.data)

/-- Requests that wait on a RoCEv2 connection go out (R400): at most 16 RDMA READs are outstanding. -/
def Dev.rocePump (d : Dev) (i : Nat) : Dev :=
  let c := d.conn i
  let n := (c.outstanding.filter (fun o => o.sent && o.op == 0x02)).length
  let go := (c.outstanding.foldl (fun (r : List Outstanding × Nat) o =>
    if o.sent then r else if o.op == 0x02 then (if r.2 < 16 then (r.1 ++ [o], r.2 + 1) else r) else (r.1 ++ [o], r.2))
    ([], n)).1
  let d1 := go.foldl (fun (y : Dev) o => y.sendRoce i o) d
  d1.onConn i fun c =>
    { c with outstanding := c.outstanding.map (fun o => if go.any (fun g => g.psn == o.psn) then { o with sent := true } else o) }

/-- PSNs of a RoCEv2 connection are counted modulo 2^24 (PRESUMED, log 48: the transport's own width). -/
def psn24 (p : W32) : W32 := p &&& 0xFFFFFF

/-- A new request on a RoCEv2 connection (R400). -/
def Dev.roceRequest (d : Dev) (i : Nat) (op : W8) (addr : W64) (len : Nat) (data : List W8) (tag : Nat) : W8 × Dev :=
  let c := d.conn i
  if c.state ≠ 1 then (sRetryExhausted, d)
  else
    let o : Outstanding := { psn := c.nextPsn, op := op, addr := addr, aux := c.rkey ++ BitVec.ofNat 32 len, data := data, tag := tag }
    (0, (d.onConn i fun c => { c with nextPsn := psn24 (c.nextPsn + 1), outstanding := c.outstanding ++ [o] }).rocePump i)

/-- A request on a host connection of either kind, as the requester (R400); op is 0x01 for a write, 0x02 for a read. -/
def Dev.hostRequest (v : Variant) (d : Dev) (i : Nat) (op : W8) (addr : W64) (len : Nat) (data : List W8) (tag : Nat) : W8 × Dev :=
  let c := d.conn i
  if c.state ≠ 1 then (sRetryExhausted, d)
  else if c.kind = 1 then d.roceRequest i op addr len data tag
  else d.nimRequest v (.conn (BitVec.ofNat 8 i)) op addr (c.rkey ++ BitVec.ofNat 32 len) data tag

/-- Records the outcome of a request that something waits for. -/
def Dev.answer (d : Dev) (tag : Nat) (st : W8) (data : List W8) : Dev :=
  if tag = 0 then d else d.onLinks fun l => { l with answers := Tab.put none l.answers tag (some (st, data)) }

def Dev.answered (d : Dev) (tag : Nat) : Option (W8 × List W8) := Tab.look none d.links.answers tag

def Dev.takeAnswer (d : Dev) (tag : Nat) : Dev := d.onLinks fun l => { l with answers := Tab.put none l.answers tag none }

/-- A tag that no request has had. -/
def Dev.newTag (d : Dev) : Nat × Dev := (d.links.nextTag + 1, d.onLinks fun l => { l with nextTag := l.nextTag + 1 })

/-- What a window address leads to, or a status (R284, R285). -/
def Dev.windowTarget (v : Variant) (d : Dev) (a : Nat) : W8 × WindowEntry × Nat × Dev :=
  match regionOf a with
  | .window w off =>
    let e := d.windowEntry v w
    if e.1 ≠ 0 then (e.1, e.2.1, 0, e.2.2)
    else if !e.2.1.ok || (e.2.1.kind == 1 && !inQuireRange off) then (sTranslation, e.2.1, 0, e.2.2)
    else (0, e.2.1, off, e.2.2)
  | _ => (sTranslation, ⟨0, 0, 0, 0, false⟩, 0, d)

/-- Sends a read of window bytes; the status is 0 where an answer will come under the tag. -/
def Dev.windowRead (v : Variant) (src : Option Nat) (d : Dev) (a len tag : Nat) : W8 × Dev :=
  let r := d.windowTarget v a
  let e := r.2.1
  if r.1 ≠ 0 then (r.1, r.2.2.2)
  else
    let d := r.2.2.2.chargeFor src false false e.cls a len
    if e.kind = 1 then d.nimRequest v (.peer e.device 0) 0x02 (BitVec.ofNat 64 r.2.2.1) (BitVec.ofNat 64 len) [] tag
    else d.hostRequest v e.conn 0x02 (BitVec.ofNat 64 (e.hostBase + r.2.2.1)) len [] tag

/-- Sends a write of window bytes. -/
def Dev.windowWrite (v : Variant) (src : Option Nat) (d : Dev) (a : Nat) (bytes : List W8) (tag : Nat) : W8 × Dev :=
  let r := d.windowTarget v a
  let e := r.2.1
  if r.1 ≠ 0 then (r.1, r.2.2.2)
  else
    let d := r.2.2.2.chargeFor src false true e.cls a bytes.length
    if e.kind = 1 then d.nimRequest v (.peer e.device 0) 0x01 (BitVec.ofNat 64 r.2.2.1) 0 bytes tag
    else d.hostRequest v e.conn 0x01 (BitVec.ofNat 64 (e.hostBase + r.2.2.1)) bytes.length bytes tag

/-- Sends an atomic on a borrowed window (R274); a host window refuses it. -/
def Dev.windowAtomic (v : Variant) (src : Option Nat) (d : Dev) (a : Nat) (payload : List W8) (tag : Nat) : W8 × Dev :=
  let r := d.windowTarget v a
  let e := r.2.1
  if r.1 ≠ 0 then (r.1, r.2.2.2)
  else if e.kind = 2 then (sTranslation, r.2.2.2)
  else
    let d := r.2.2.2.chargeFor src true false e.cls a 64
    d.nimRequest v (.peer e.device 0) 0x03 (BitVec.ofNat 64 r.2.2.1) 0 payload tag

/-- Whether an address lies in a borrowed or host window. -/
def isWindow (a : Nat) : Bool :=
  match regionOf a with
  | .window _ _ => true
  | _ => false

/-- How a request to a window comes back, which the lender or the host and the way there decide (R397, R400, R407, R423): DONE,
FENCED, TRANSLATION, ECC_UNCORRECTABLE or INTERFACE_RETRY_EXHAUSTED, by a free value (log 7). -/
def windowOutcome (x : W64) : W8 :=
  match x.toNat % 5 with
  | 0 => 0
  | 1 => sRetryExhausted
  | 2 => sFenced
  | 3 => sTranslation
  | _ => sEcc

/-- A read of `len` bytes within one line by physical address, of any region (R267, R276, R284). From a window the request
is sent, and its outcome and its bytes, which the lender's or the host's memory holds, are free values here (log 7). -/
def Dev.physRead (v : Variant) (src : Option Nat) (d : Dev) (a len : Nat) : Acc :=
  if isWindow a then
    let r := d.windowRead v src a len 0
    if r.1 ≠ 0 then ⟨r.1, [], r.2⟩
    else
      let z := r.2.draw
      let x := z.2.drawBytes len
      ⟨windowOutcome z.1, x.1, x.2⟩
  else
    let r := (d.chargeFor src false false 0 a len).localRead v a
    ⟨r.st, (r.data.drop (a % 64)).take len, r.d⟩

/-- A write of bytes within one line by physical address, outside the reduction aperture (R267, R284). -/
def Dev.physWrite (v : Variant) (src : Option Nat) (d : Dev) (a : Nat) (bytes : List W8) : Acc :=
  if isWindow a then
    let r := d.windowWrite v src a bytes 0
    if r.1 ≠ 0 then ⟨r.1, [], r.2⟩
    else
      let z := r.2.draw
      ⟨windowOutcome z.1, [], z.2⟩
  else (d.chargeFor src false true 0 a bytes.length).localWrite v a bytes

/-- An atomic in its home slice (R273, R274): status, old value and the device after it. -/
def Dev.localAtomic (v : Variant) (d : Dev) (a : Nat) (op : AmoOp) (w : Bool) (x c : W64) : W8 × W64 × Dev :=
  let n := if w then 4 else 8
  if a % n ≠ 0 then (sTranslation, 0, d)
  else
    let r := d.localRead v a
    if r.st ≠ 0 then (r.st, 0, r.d)
    else
      let old := BitVec.ofNat 64 (leNat ((r.data.drop (a % 64)).take n))
      let y := r.d.localWrite v a (toLE n (amoNew op w old x c))
      (y.st, old, y.d)

end Sys2Proof.Machine
end

