-- ==== Sys2Proof/Machine/Operands.lean ====
section
/-!
DEFINITION. Sys2Proof/Machine/Operands.lean: descriptors (R92, R93), their checks at issue (R94), the walk over an operand's
elements, its decoding and encoding in plain formats and blocks (R113 to R128), and reads and writes line by line (R160,
R552).
-/

namespace Sys2Proof.Machine

open Sys2Proof

/-! ## Descriptors -/

/-- A descriptor's fields (R92): extents are as described (field + 1), strides in bytes. -/
structure Desc where
  base : Nat
  space : Nat
  fmt : Nat
  coded : Bool
  table : Nat
  ndim : Nat
  watchEn : Bool
  watch : Nat
  ctx : Nat
  scaleRec : Nat
  e0 : Nat
  e1 : Nat
  e2 : Nat
  e3 : Nat
  e4 : Nat
  s1 : Nat
  s2 : Nat
  s3 : Nat
  s4 : Nat
  rsv : Nat
  deriving DecidableEq, Repr

def descOf (w : BitVec 256) : Desc :=
  let f := fun lo n => w.toNat / 2 ^ lo % 2 ^ n
  { base := f 0 48, space := f 48 2, fmt := f 50 5, coded := w.getLsbD 55, table := f 56 4, ndim := f 60 3,
    watchEn := w.getLsbD 63, watch := f 64 5, ctx := f 69 4, scaleRec := f 73 12, e0 := f 85 20 + 1,
    e1 := f 105 16 + 1, e2 := f 121 16 + 1, e3 := f 137 16 + 1, e4 := f 153 16 + 1,
    s1 := f 169 21 * 32, s2 := f 190 21 * 32, s3 := f 211 21 * 32, s4 := f 232 21 * 32, rsv := f 253 3 }

/-- Rows: runs of the innermost dimension. -/
def Desc.rows (d : Desc) : Nat := d.e1 * d.e2 * d.e3 * d.e4

/-- Elements described. -/
def Desc.total (d : Desc) : Nat := d.e0 * d.rows

/-- Extent `k`, 0 to 4. -/
def Desc.ext (d : Desc) (k : Nat) : Nat :=
  match k with
  | 0 => d.e0
  | 1 => d.e1
  | 2 => d.e2
  | 3 => d.e3
  | _ => d.e4

/-- The bank that a SPACE 3 descriptor names (R92). -/
def Desc.bank (d : Desc) : Nat := d.base % 4

/-- The byte address of the first element; within the bank for SPACE 3 (R92, R138). -/
def Desc.origin (d : Desc) : Nat := if d.space = 3 then d.base / 4 % 256 * 256 else d.base

/-- The byte address of the row of dimensions 1 to 4 at an index vector. -/
def Desc.rowAt (d : Desc) (i1 i2 i3 i4 : Nat) : Nat := d.origin + i1 * d.s1 + i2 * d.s2 + i3 * d.s3 + i4 * d.s4

/-- The byte address of row `r` in walk order (R149). -/
def Desc.rowAddr (d : Desc) (r : Nat) : Nat :=
  d.rowAt (r % d.e1) (r / d.e1 % d.e2) (r / (d.e1 * d.e2) % d.e3) (r / (d.e1 * d.e2 * d.e3))

/-- Where the space ends (R94). -/
def spaceEnd (space : Nat) : Nat :=
  match space with
  | 0 => 0x200000
  | 1 => 0x800000
  | 2 => 2 ^ 48
  | _ => 0x10000

/-- The first byte beyond the reach of a plain operand (R94). -/
def Desc.reach (d : Desc) : Nat :=
  d.rowAt (d.e1 - 1) (d.e2 - 1) (d.e3 - 1) (d.e4 - 1) + rowBytes d.fmt d.e0

/-- Coded blocks of a row (R169). -/
def Desc.nb (d : Desc) : Nat := d.e0 / 256

/-- Header bytes of a coded block (R172). -/
def codedHeader (fmt : Nat) : Nat := if isBlockFmt fmt then 44 else 12

/-- Largest payload of a coded block (R171). -/
def codedPmax (fmt : Nat) : Nat := if fmt = nCF4 ∨ fmt = nCB4 then 128 else 256

/-- Entries of a stream index (R170). -/
def indexEntries (nb : Nat) : Nat := (nb + 63) / 64 + 1

/-- Bytes of a stream index (R170). -/
def indexBytes (nb : Nat) : Nat := (4 * indexEntries nb + 31) / 32 * 32

/-- The reserved size W of a coded row (R171). -/
def codedRowSize (fmt nb : Nat) : Nat := indexBytes nb + nb * (codedHeader fmt + codedPmax fmt)

/-- The checks of R171 on a coded operand. -/
def Desc.codedOk (d : Desc) (dest : Bool) : Bool :=
  let w := codedRowSize d.fmt d.nb
  d.space != 3 && decide (d.base % 32 = 0) && (decide (d.e1 = 1) || decide (w ≤ d.s1)) &&
  (!dest || d.space == 2 || decide (d.rowAt (d.e1 - 1) (d.e2 - 1) (d.e3 - 1) (d.e4 - 1) + w ≤ spaceEnd d.space))

/-- The checks of R94 that need no opcode, with those of R171; `fmts` are the formats the opcode accepts here. -/
def Desc.ok (d : Desc) (ctx : Nat) (dest : Bool) (fmts : List Nat) : Bool :=
  decide (1 ≤ d.ndim ∧ d.ndim ≤ 5) &&
  (decide (2 ≤ d.ndim) || (d.e1 == 1 && d.s1 == 0)) && (decide (3 ≤ d.ndim) || (d.e2 == 1 && d.s2 == 0)) &&
  (decide (4 ≤ d.ndim) || (d.e3 == 1 && d.s3 == 0)) && (decide (5 ≤ d.ndim) || (d.e4 == 1 && d.s4 == 0)) &&
  fmts.contains d.fmt &&
  (!d.coded || decide (3 ≤ d.fmt ∧ d.fmt ≤ 8)) && (d.coded || d.table == 0) &&
  (!(isBlockFmt d.fmt || isMxFmt d.fmt) || decide (d.e0 % 32 = 0)) && (!d.coded || decide (d.e0 % 256 = 0)) &&
  (d.space != 0 || decide (d.base < 0x200000)) && (d.space != 1 || decide (d.base < 0x800000)) &&
  (d.space != 3 || decide (d.base < 1024)) && d.ctx == ctx && d.rsv == 0 &&
  (if d.coded then d.codedOk dest else decide (d.reach ≤ spaceEnd d.space))

/-! ## Bytes of an operand's space -/

/-- How the bytes of a space are read while an instruction computes: each byte, and the status of the line that holds it
(0 where it can be read). -/
structure Src where
  byte : Nat → W8
  st : Nat → W8

/-- Number by which a byte of a tile's accumulator bank is kept (R138). -/
def accAddr (t : TileRef) (bank a : Nat) : Nat := (t.ix * 4 + bank) * 0x10000 + a

/-- The tile memory, sector buffer or accumulator bank of a tile as a source; a failing accumulator row fails whole
(R160). -/
def Dev.src (d : Dev) (t : TileRef) (space bank : Nat) : Src :=
  match space with
  | 0 => { byte := fun a => d.tileByte t a, st := fun a => if d.tileLineBad t (a / 64) then sEcc else 0 }
  | 1 =>
    { byte := fun a => Mem.byte d.sectBuf (t.sector.val * sectBufSize + a),
      st := fun a => if (d.sector t.sector.val).bad.has (a / 64) then sEcc else 0 }
  | _ =>
    { byte := fun a => Mem.byte d.acc (accAddr t bank a),
      st := fun a => if d.accBad.contains (accAddr t bank a / 256) then sEcc else 0 }

def Src.bytes (s : Src) (a n : Nat) : List W8 := (List.range n).map (fun i => s.byte (a + i))

def Src.nat (s : Src) (a n : Nat) : Nat := leNat (s.bytes a n)

/-- The first status that is not 0 among those of a byte range. -/
def Src.fault (s : Src) (a n : Nat) : W8 :=
  ((List.range n).map (fun i => s.st (a + i))).foldl (fun r x => if r = 0 then x else r) 0

/-! ## Spans -/

/-- The bytes of the first `n` elements of an operand, row by row: of a block format whole blocks, of a coded row all of it. -/
def Desc.spans (d : Desc) (n : Nat) : List Span :=
  (List.range ((n + d.e0 - 1) / d.e0)).map fun r =>
    let k := min d.e0 (n - r * d.e0)
    ⟨d.space, if d.space = 3 then d.bank else 0, d.rowAddr r,
     if d.coded then codedRowSize d.fmt d.nb
     else rowBytes d.fmt (if isBlockFmt d.fmt || isMxFmt d.fmt then (k + 31) / 32 * 32 else k)⟩

/-- What two spans have in common. -/
def Span.inter (a b : Span) : Option Span :=
  let lo := max a.addr b.addr
  let hi := min (a.addr + a.len) (b.addr + b.len)
  if a.space = b.space ∧ a.bank = b.bank ∧ lo < hi then some ⟨a.space, a.bank, lo, hi - lo⟩ else none

/-- Whether two lists of spans have a byte in common. -/
def meets (xs ys : List Span) : Bool := xs.any fun a => ys.any fun b => (a.inter b).isSome

/-- The bytes of a span in tile memory, the sector buffer or an accumulator bank become values that the manual leaves open; whether
its lines can be read stands (log 27). -/
def Dev.blur (d : Dev) (t : TileRef) (s : Span) : Dev :=
  let r := match s.space with
    | 0 => { d with tileMem := d.tileMem.freed (t.ix * tileMemSize + s.addr) s.len d.free }
    | 1 => { d with sectBuf := d.sectBuf.freed (t.sector.val * sectBufSize + s.addr) s.len d.free }
    | 3 => { d with acc := d.acc.freed (accAddr t s.bank s.addr) s.len d.free }
    | _ => d
  { r with free := d.free + s.len }

/-! ## Elements as read -/

/-- An element as read: its exact value (a canonical NaN where it failed), its code, why it failed (0 where it did not) and
its byte offset from BASE. -/
structure Elem where
  v : FVal
  code : Nat
  st : W8
  off : Nat
  deriving DecidableEq, Repr

/-- The value of a code of a plain format: scaled by σ (R121), an integer for INT8, UINT8 and I32 (R114). -/
def codeValue (fmt : Nat) (sigma : Int) (c : Nat) : FVal :=
  if fmt = nI32 then .ofInt (BitVec.ofNat 32 c).toInt
  else if fmt = nINT8 then .ofInt (BitVec.ofNat 8 c).toInt
  else if fmt = nUINT8 then .ofInt c
  else if fmt = nOcpE4M3 then ocpDecode c
  else if isScaledFmt fmt then ((elemFmt fmt).decode c).scale sigma
  else (elemFmt fmt).decode c

/-- Element `i` of a row of a plain format with no blocks. -/
def Src.plainElem (s : Src) (fmt : Nat) (sigma : Int) (orig row i : Nat) : Elem :=
  let w := fmtBits fmt
  let a := row + i * w / 8
  let n := (w + 7) / 8
  let st := s.fault a n
  let c := if w = 4 then (s.byte a).toNat / (if i % 2 = 0 then 1 else 16) % 16 else s.nat a n
  if st = 0 then ⟨codeValue fmt sigma c, c, 0, a - orig⟩ else ⟨.qnan, c, st, a - orig⟩

/-- A CB block of a plain row: a failing line under SCALE, FLAGS or OUTLIER fails the whole block (R160). -/
def Src.blockElems (s : Src) (fmt : Nat) (orig a : Nat) : List Elem × Block32 :=
  let n := blockBytes fmt
  let b := readBlock fmt (s.bytes a n)
  let vs := b.decode fmt
  let meta_ := s.fault (a + n - 4) 4
  let place := fun i => if fmt = nCB4 then i / 2 else i
  let first := ((List.range 32).find? (fun i => s.st (a + place i) != 0)).map place
  ((List.range 32).map (fun i =>
    let own := s.st (a + place i)
    let st := if own = 0 then meta_ else own
    ⟨if st = 0 then vs.getD i .zero else .qnan, b.codes.getD i 0, st,
     a + (if own = 0 ∧ st ≠ 0 then first.getD 0 else place i) - orig⟩), b)

/-- An MX record (R127, R128); a failing scale byte fails the record. -/
def Src.mxElems (s : Src) (fmt : Nat) (orig a : Nat) : List Elem :=
  let n := blockBytes fmt
  let vs := mxDecode fmt (s.bytes a n)
  let m := s.st a
  (List.range 32).map (fun i =>
    let o := 1 + (if fmt = nMx4 then i / 2 else i)
    let st := s.st (a + o)
    let st := if m = 0 then st else m
    ⟨if st = 0 then vs.getD i .zero else .qnan, 0, st, a + o - orig⟩)

/-- The elements of the first `k` of a plain row, with the blocks that hold them. -/
def Src.plainRow (s : Src) (fmt : Nat) (sigma : Int) (orig row k : Nat) : List Elem × List Block32 :=
  if isBlockFmt fmt then
    let bs := (List.range ((k + 31) / 32)).map (fun j => s.blockElems fmt orig (row + j * blockBytes fmt))
    ((bs.flatMap (·.1)).take k, bs.map (·.2))
  else if isMxFmt fmt then
    (((List.range ((k + 31) / 32)).flatMap (fun j => s.mxElems fmt orig (row + j * blockBytes fmt))).take k, [])
  else ((List.range k).map (fun i => s.plainElem fmt sigma orig row i), [])

/-! ## Writes -/

/-- Bytes an instruction writes to one space, by address; a later write of a byte wins. -/
abbrev Patch := Tab (Option W8)

def Patch.put (p : Patch) (a : Nat) (bytes : List W8) : Patch :=
  (bytes.mapIdx (fun i b => (a + i, b))).foldl (fun (r : Patch) e => Tab.put none r e.1 (some e.2)) p

/-- Consecutive bytes of a patch that lie in one line, each with its first address. -/
def Patch.runs (p : Patch) : List (Nat × List W8) :=
  (p.foldl (fun (r : List (Nat × List W8)) e =>
    match r with
    | (a, bs) :: rest =>
      if e.1 = a + bs.length ∧ e.1 / 64 = a / 64 then (a, bs ++ [e.2.getD 0]) :: rest else (e.1, [e.2.getD 0]) :: r
    | [] => [(e.1, [e.2.getD 0])]) []).reverse

/-- Writes bytes of one line of a tile's space; a failing accumulator row takes them, and is readable again only once all of it is
written (R138, R552). -/
def Dev.spaceWrite (d : Dev) (t : TileRef) (space bank a : Nat) (bytes : List W8) : Acc :=
  match space with
  | 0 => d.tileWrite t a bytes
  | 1 => d.bufWrite t.sector.val a bytes
  | _ => ⟨0, [], { d with acc := Mem.store d.acc (accAddr t bank a) bytes }⟩

/-- Whether a patch covers a whole accumulator row. -/
def Patch.covers (p : Patch) (row : Nat) : Bool := (p.filter (fun e => decide (e.1 / 256 = row))).length == 256

/-- Makes the failing accumulator rows that a patch covers whole readable again. -/
def Dev.healRows (d : Dev) (t : TileRef) (bank : Nat) (p : Patch) : Dev :=
  { d with accBad := d.accBad.filter (fun r => !(decide (r / 256 = accAddr t bank 0 / 65536) && p.covers (r % 256))) }

/-- Writes a patch line by line: each failing line's status with the address of its first byte, in rising order; a line that fails is
left unchanged and the others are written (R160). -/
def Dev.applyLines (d : Dev) (t : TileRef) (space bank : Nat) (p : Patch) : List (W8 × Nat) × Dev :=
  let d := if space = 3 then d.healRows t bank p else d
  (Patch.runs p).foldl (fun r e =>
    let x := r.2.spaceWrite t space bank e.1 e.2
    (if x.st = 0 then r.1 else r.1 ++ [(x.st, e.1)], x.d)) ([], d)

/-- Writes a patch: the status and address of the lowest line that fails. -/
def Dev.applyPatch (d : Dev) (t : TileRef) (space bank : Nat) (p : Patch) : W8 × Nat × Dev :=
  let r := d.applyLines t space bank p
  match r.1 with
  | [] => (0, 0, r.2)
  | f :: _ => (f.1, f.2, r.2)

/-- Where element `i` of an operand lies: the first byte of its code and how many bytes the code touches. -/
def Desc.place (d : Desc) (i : Nat) : Nat × Nat :=
  let row := d.rowAddr (i / d.e0)
  let c := i % d.e0
  if isBlockFmt d.fmt then (row + c / 32 * blockBytes d.fmt + (if d.fmt = nCB4 then c % 32 / 2 else c % 32), 1)
  else if isMxFmt d.fmt then (row + c / 32 * blockBytes d.fmt + 1 + (if d.fmt = nMx4 then c % 32 / 2 else c % 32), 1)
  else (row + c * fmtBits d.fmt / 8, (fmtBits d.fmt + 7) / 8)

/-- The byte offset from BASE of the first of `n` elements, in walk order, that lies in one of some lines (R160): for a block whose
metadata alone lies there its first element, for a coded row the first byte that does (log 27). -/
def Desc.firstIn (d : Desc) (n : Nat) (lines : List Nat) : Nat :=
  let inLine := fun (a : Nat) => lines.contains (a / 64)
  let own := fun (i : Nat) => let p := d.place i; (List.range p.2).any (fun k => inLine (p.1 + k))
  if d.coded then
    let w := codedRowSize d.fmt d.nb
    (((List.range ((n + d.e0 - 1) / d.e0)).flatMap (fun r =>
      (List.range w).filterMap (fun k => if inLine (d.rowAddr r + k) then some (d.rowAddr r + k) else none))).headD d.origin) - d.origin
  else if isBlockFmt d.fmt ∨ isMxFmt d.fmt then
    let size := blockBytes d.fmt
    let hit := fun (b : Nat) =>
      let a := d.rowAddr (32 * b / d.e0) + 32 * b % d.e0 / 32 * size
      (List.range size).any (fun k => inLine (a + k))
    match (List.range ((n + 31) / 32)).find? hit with
    | none => 0
    | some b =>
      let is := (List.range (min 32 (n - 32 * b))).map (32 * b + ·)
      (d.place ((is.find? own).getD (32 * b))).1 - d.origin
  else match (List.range n).find? own with
    | none => 0
    | some i => (d.place i).1 - d.origin

/-! ## Codes from values -/

/-- An integer nearest a value, ties to even; 0 for a NaN, saturating at ±2^70 for an infinity. -/
def rneInt (v : FVal) : Int :=
  match v with
  | .nan _ => 0
  | .inf s => if s then -(2 ^ 70) else 2 ^ 70
  | .fin s m e => let n : Int := (rneAt m e 0 : Nat); if s then -n else n

/-- I32 from a value (R154): nearest even, saturating, 0 for a NaN; and whether that is flagged. -/
def toI32 (v : FVal) : Nat × Bool :=
  let z := rneInt v
  let c := max (-2147483648) (min 2147483647 z)
  ((BitVec.ofInt 32 c).toNat, v.isNan || decide (c ≠ z))

/-- The code of a value in a format with no blocks, and whether OVERFLOW is set (R119 to R121, R151). -/
def codeOf (fmt : Nat) (sigma : Int) (v : FVal) : Nat × Bool :=
  if fmt = nI32 then ((toI32 v).1, false)
  else if fmt = nOcpE4M3 then ((ocpEncode v).1, false)
  else if isScaledFmt fmt then (elemFmt fmt).encode (v.scale (-sigma))
  else (elemFmt fmt).encode v

/-- The code that the canonical NaN of a failing read or residue error takes (R160): +6 in CF4, 0 in an integer format. -/
def nanCode (fmt : Nat) : Nat :=
  if fmt = nI32 ∨ fmt = nINT8 ∨ fmt = nUINT8 then 0
  else if fmt = nOcpE4M3 then 0x7F
  else ((elemFmt fmt).encode .qnan).1

/-- An input of a block rounded to BF16 (R125): a value that rounds to infinity is one, and a NaN keeps its sign. -/
def toBf16 (v : FVal) : FVal :=
  match v with
  | .nan s => .nan s
  | x => fBF16.decode (fBF16.encode x).1

end Sys2Proof.Machine
end

