-- ==== Sys2Proof/Machine/Scalar.lean ====
section
/-!
DEFINITION. Sys2Proof/Machine/Scalar.lean: the scalar instructions of the control core (R79 to R88, R106 to R109): OP, MEM
but for the accesses to memory (Machine/Access.lean) and to CSRs, and CTRL.
-/

namespace Sys2Proof.Machine

open Sys2Proof

/-! ## What a scalar instruction does to its core -/

/-- The outcome of an instruction on its core: it stalls, raises a cause with its detail, or goes on. -/
inductive CoreRes where
  | stall
  | trap (cause : Nat) (info : W64)
  | ok (x : Tile)

/-- Runs an instruction that reads and writes only its core. -/
def Dev.runCore (d : Dev) (t : TileRef) (w : CtisWord) (f : Dev → Tile → CoreRes) : Dev :=
  d.runInstr t w fun d =>
    match f d (d.tile t) with
    | .stall => d
    | .trap c info => d.trap t c info
    | .ok x => d.setTile t x

/-- On to an offset of instruction memory; one past 65,532 raises FETCH_BOUND at the next fetch (R77, log 5). DESIGN CHOICE (log 59): a
target below 0 or above 2^16 counts as one past 65,532. -/
def Tile.goto (x : Tile) (target : W64) : Tile :=
  { x with pc := target.setWidth 16, past := decide (65532 < target.toNat) }

/-- On past an instruction of `n` bytes. -/
def Tile.skip4 (x : Tile) (n : Nat) : Tile := x.goto (BitVec.ofNat 64 (x.pc.toNat + n))

/-- Replaces the register files. -/
def Tile.setRegs (x : Tile) (r : CoreRegs) : Tile := { x with regs := r }

/-! ## OP (R79 to R81) -/

/-- A non-zero RSV bit of the register form (R78, R79). -/
def opReserved (a : OpArgs) : Bool := !a.i && a.hi.extractLsb' 5 9 != 0

/-- The second operand (R80): g[RS2], or IMM14 sign-extended. -/
def CoreRegs.opB (r : CoreRegs) (a : OpArgs) : W64 :=
  if a.i then a.hi.signExtend 64 else r.rg (a.hi.extractLsb' 0 5)

/-- An OP instruction that writes g[RD]. -/
def opResult (a : OpArgs) (f : W64 → W64 → W64) (_ : Dev) (x : Tile) : CoreRes :=
  if opReserved a then .trap cIllegal 0
  else .ok ((x.setRegs (x.regs.wg a.rd (f (x.regs.rg a.rs1) (x.regs.opB a)))).skip4 4)

/-- A compare: writes the predicate that bits 9:7 name; bits 11:10 are RSV (R79). -/
def cmpResult (a : OpArgs) (f : W64 → W64 → Bool) (_ : Dev) (x : Tile) : CoreRes :=
  if opReserved a || a.rd.extractLsb' 3 2 != 0 then .trap cIllegal 0
  else .ok ((x.setRegs (x.regs.wp (a.rd.extractLsb' 0 3) (f (x.regs.rg a.rs1) (x.regs.opB a)))).skip4 4)

/-- ADD (R80). -/
def aluAdd (a b : W64) : W64 := a + b

def execAdd (t : TileRef) (a : OpArgs) (s : State) : Host.Outcome State Fault Refusal :=
  s.onDev fun d => d.runCore t (encOp 1 a) (opResult a aluAdd)

/-- SUB (R80). -/
def aluSub (a b : W64) : W64 := a - b

def execSub (t : TileRef) (a : OpArgs) (s : State) : Host.Outcome State Fault Refusal :=
  s.onDev fun d => d.runCore t (encOp 2 a) (opResult a aluSub)

/-- AND (R80). -/
def aluAnd (a b : W64) : W64 := a &&& b

def execAnd (t : TileRef) (a : OpArgs) (s : State) : Host.Outcome State Fault Refusal :=
  s.onDev fun d => d.runCore t (encOp 3 a) (opResult a aluAnd)

/-- OR (R80). -/
def aluOr (a b : W64) : W64 := a ||| b

def execOr (t : TileRef) (a : OpArgs) (s : State) : Host.Outcome State Fault Refusal :=
  s.onDev fun d => d.runCore t (encOp 4 a) (opResult a aluOr)

/-- XOR (R80). -/
def aluXor (a b : W64) : W64 := a ^^^ b

def execXor (t : TileRef) (a : OpArgs) (s : State) : Host.Outcome State Fault Refusal :=
  s.onDev fun d => d.runCore t (encOp 5 a) (opResult a aluXor)

/-- SLL (R80). -/
def aluSll (a b : W64) : W64 := a <<< (b.toNat % 64)

def execSll (t : TileRef) (a : OpArgs) (s : State) : Host.Outcome State Fault Refusal :=
  s.onDev fun d => d.runCore t (encOp 6 a) (opResult a aluSll)

/-- SRL (R80). -/
def aluSrl (a b : W64) : W64 := a >>> (b.toNat % 64)

def execSrl (t : TileRef) (a : OpArgs) (s : State) : Host.Outcome State Fault Refusal :=
  s.onDev fun d => d.runCore t (encOp 7 a) (opResult a aluSrl)

/-- SRA (R80). -/
def aluSra (a b : W64) : W64 := a.sshiftRight (b.toNat % 64)

def execSra (t : TileRef) (a : OpArgs) (s : State) : Host.Outcome State Fault Refusal :=
  s.onDev fun d => d.runCore t (encOp 8 a) (opResult a aluSra)

/-- MUL (R80). -/
def aluMul (a b : W64) : W64 := a * b

def execMul (t : TileRef) (a : OpArgs) (s : State) : Host.Outcome State Fault Refusal :=
  s.onDev fun d => d.runCore t (encOp 9 a) (opResult a aluMul)

/-- MULH (R80). -/
def aluMulh (a b : W64) : W64 := ((a.signExtend 128 * b.signExtend 128) >>> 64).setWidth 64

def execMulh (t : TileRef) (a : OpArgs) (s : State) : Host.Outcome State Fault Refusal :=
  s.onDev fun d => d.runCore t (encOp 10 a) (opResult a aluMulh)

/-- MULHU (R80). -/
def aluMulhu (a b : W64) : W64 := ((a.setWidth 128 * b.setWidth 128) >>> 64).setWidth 64

def execMulhu (t : TileRef) (a : OpArgs) (s : State) : Host.Outcome State Fault Refusal :=
  s.onDev fun d => d.runCore t (encOp 11 a) (opResult a aluMulhu)

/-- DIV (R81). -/
def aluDiv (a b : W64) : W64 := if b = 0 then 0xFFFFFFFFFFFFFFFF else a.sdiv b

def execDiv (t : TileRef) (a : OpArgs) (s : State) : Host.Outcome State Fault Refusal :=
  s.onDev fun d => d.runCore t (encOp 12 a) (opResult a aluDiv)

/-- DIVU (R81). -/
def aluDivu (a b : W64) : W64 := if b = 0 then 0xFFFFFFFFFFFFFFFF else a / b

def execDivu (t : TileRef) (a : OpArgs) (s : State) : Host.Outcome State Fault Refusal :=
  s.onDev fun d => d.runCore t (encOp 13 a) (opResult a aluDivu)

/-- REM (R81). -/
def aluRem (a b : W64) : W64 := if b = 0 then a else a.srem b

def execRem (t : TileRef) (a : OpArgs) (s : State) : Host.Outcome State Fault Refusal :=
  s.onDev fun d => d.runCore t (encOp 14 a) (opResult a aluRem)

/-- REMU (R81). -/
def aluRemu (a b : W64) : W64 := if b = 0 then a else a % b

def execRemu (t : TileRef) (a : OpArgs) (s : State) : Host.Outcome State Fault Refusal :=
  s.onDev fun d => d.runCore t (encOp 15 a) (opResult a aluRemu)

/-- MIN (R80). -/
def aluMin (a b : W64) : W64 := if a.slt b then a else b

def execMin (t : TileRef) (a : OpArgs) (s : State) : Host.Outcome State Fault Refusal :=
  s.onDev fun d => d.runCore t (encOp 16 a) (opResult a aluMin)

/-- MAX (R80). -/
def aluMax (a b : W64) : W64 := if a.slt b then b else a

def execMax (t : TileRef) (a : OpArgs) (s : State) : Host.Outcome State Fault Refusal :=
  s.onDev fun d => d.runCore t (encOp 17 a) (opResult a aluMax)

/-- MINU (R80). -/
def aluMinu (a b : W64) : W64 := if a < b then a else b

def execMinu (t : TileRef) (a : OpArgs) (s : State) : Host.Outcome State Fault Refusal :=
  s.onDev fun d => d.runCore t (encOp 18 a) (opResult a aluMinu)

/-- MAXU (R80). -/
def aluMaxu (a b : W64) : W64 := if a < b then b else a

def execMaxu (t : TileRef) (a : OpArgs) (s : State) : Host.Outcome State Fault Refusal :=
  s.onDev fun d => d.runCore t (encOp 19 a) (opResult a aluMaxu)

/-- CMPEQ (R80). -/
def aluCmpeq (a b : W64) : Bool := a == b

def execCmpeq (t : TileRef) (a : OpArgs) (s : State) : Host.Outcome State Fault Refusal :=
  s.onDev fun d => d.runCore t (encOp 20 a) (cmpResult a aluCmpeq)

/-- CMPLT (R80). -/
def aluCmplt (a b : W64) : Bool := a.slt b

def execCmplt (t : TileRef) (a : OpArgs) (s : State) : Host.Outcome State Fault Refusal :=
  s.onDev fun d => d.runCore t (encOp 21 a) (cmpResult a aluCmplt)

/-- CMPLTU (R80). -/
def aluCmpltu (a b : W64) : Bool := a.ult b

def execCmpltu (t : TileRef) (a : OpArgs) (s : State) : Host.Outcome State Fault Refusal :=
  s.onDev fun d => d.runCore t (encOp 22 a) (cmpResult a aluCmpltu)

/-! ## MEM (R82, R83) -/

/-- The address of a MEM access: g[RS1] + IMM14 sign-extended (R82). -/
def CoreRegs.memAddr (r : CoreRegs) (a : MemArgs) : W64 := r.rg a.rs1 + a.imm.signExtend 64

/-- The cause that a status of a memory access raises (R83), none where it completed. -/
def memCause (st : W8) : Option Nat :=
  if st = 0 then none
  else if st = sEcc ∨ st = sRetryExhausted then some cDataEcc
  else some cTranslation

/-- The value a load delivers: `n` bytes, sign- or zero-extended (R82). -/
def loadValue (op : Nat) (bytes : List W8) : W64 :=
  let v := leNat bytes
  match op with
  | 1 => (BitVec.ofNat 8 v).signExtend 64
  | 2 => (BitVec.ofNat 16 v).signExtend 64
  | 3 => (BitVec.ofNat 32 v).signExtend 64
  | _ => BitVec.ofNat 64 v

/-- Writes what a load or DLD delivers (R82). -/
def CoreRegs.deliver (r : CoreRegs) (op : Nat) (rd : BitVec 5) (bytes : List W8) : CoreRegs :=
  if op = 12 then r.wd rd (BitVec.ofNat 256 (leNat bytes)) else r.wg rd (loadValue op bytes)

/-- The bytes a store or DST writes (R82). -/
def CoreRegs.storeBytes (r : CoreRegs) (op n : Nat) (rd : BitVec 5) : List W8 :=
  if op = 13 then toLE 32 (r.rd rd).toNat else toLE n (r.rg rd).toNat

/-- FENCE.M (R82): complete once every earlier scalar access has completed; the core meets it only then (log 6). -/
def execFenceM (t : TileRef) (rsv : BitVec 25) (s : State) : Host.Outcome State Fault Refusal :=
  s.onDev fun d => d.runCore t (.scalar (rsv ++ 0x10#5 ++ 0b01#2)) fun _ x =>
    if rsv ≠ 0 then .trap cIllegal 0 else .ok (x.skip4 4)

/-- The payload of a Nimser ATOMIC (R403). -/
def atomicPayload (op : Nat) (w : Bool) (x c : W64) : List W8 :=
  [BitVec.ofNat 8 op, if w then 1 else 0, 0, 0, 0, 0, 0, 0] ++ toLE 8 x.toNat ++ toLE 8 c.toNat

/-- The atomic of a MEM opcode (R82). -/
def amoOf (op : Nat) : AmoOp :=
  match op with
  | 0x11 => .add
  | 0x12 => .fadd
  | 0x13 => .min
  | 0x14 => .max
  | 0x15 => .and
  | 0x16 => .or
  | 0x17 => .xor
  | 0x18 => .swap
  | _ => .cas

/-- Bytes that a MEM opcode moves. -/
def memSize (op : Nat) (w : Bool) : Nat :=
  match op with
  | 1 => 1
  | 2 => 2
  | 3 => 4
  | 4 => 8
  | 5 => 1
  | 6 => 2
  | 7 => 4
  | 8 => 1
  | 9 => 2
  | 10 => 4
  | 11 => 8
  | 12 => 32
  | 13 => 32
  | _ => if w then 4 else 8

/-- Whether the regulator of a sector lets a request through (R281); a window is of class LINK or HOST by its entry (R280). -/
def Dev.mayPass (v : Variant) (d : Dev) (n : Nat) (atomic write : Bool) (a : Nat) : Bool :=
  let cls := fun (r : Region) => match r with
    | .window w _ => (d.windowEntry v w).2.1.cls
    | _ => 2
  match classOf n atomic write cls (regionOf a) with
  | none => true
  | some k => d.regOpen n k

/-! ## CTRL (R87) -/

/-- Every tensor instruction of a tile that is issued and not complete: in its queues, as a stream, in an Ox unit. -/
def Dev.inFlight (d : Dev) (t : TileRef) : List TensorArgs :=
  let x := d.tile t
  let n := t.sector.val
  x.queues.flatMap (fun q => q.2.map (·.args)) ++
  ((d.sector n).streams.filter (fun y => decide (y.tile = t.tile))).map (·.args) ++
  d.hubs.flatMap (fun h =>
    (h.2.oxQueue.filter (fun c => decide (c.tile = t))).map (·.args) ++
    (match h.2.oxPass with
      | none => []
      | some p => if p.cmd.tile = t then [p.cmd.args] else []))

/-- Whether a tensor instruction still to complete writes a summary register (R73). -/
def Dev.sregBusy (d : Dev) (t : TileRef) (s : BitVec 3) : Bool :=
  (d.inFlight t).any (fun a => a.se && a.sreg == s)

/-- The target of a branch: pc + OFF20 × 4 (R87). -/
def Tile.branchTarget (x : Tile) (off : BitVec 20) : W64 := x.pc.setWidth 64 + off.signExtend 64 * 4

/-- JAL (R87). -/
def execJal (t : TileRef) (off : BitVec 20) (rd : BitVec 5) (s : State) : Host.Outcome State Fault Refusal :=
  s.onDev fun d => d.runCore t (encCtrl 1 (off ++ rd)) fun _ x =>
    .ok ((x.setRegs (x.regs.wg rd (x.pc.setWidth 64 + 4))).goto (x.branchTarget off))

/-- JALR (R87). -/
def execJalr (t : TileRef) (imm : BitVec 14) (rsv : Bool) (rs1 rd : BitVec 5) (s : State) :
    Host.Outcome State Fault Refusal :=
  s.onDev fun d => d.runCore t (encCtrl 2 (imm ++ BitVec.ofBool rsv ++ rs1 ++ rd)) fun _ x =>
    let target := x.regs.rg rs1 + imm.signExtend 64
    if rsv then .trap cIllegal 0
    else if target.toNat % 4 ≠ 0 then .trap cMisaligned target
    else .ok ((x.setRegs (x.regs.wg rd (x.pc.setWidth 64 + 4))).goto target)

/-- BR (R87). -/
def execBr (t : TileRef) (off : BitVec 20) (rsv n : Bool) (p : BitVec 3) (s : State) : Host.Outcome State Fault Refusal :=
  s.onDev fun d => d.runCore t (encCtrl 3 (off ++ BitVec.ofBool rsv ++ BitVec.ofBool n ++ p)) fun _ x =>
    if rsv then .trap cIllegal 0
    else if xor (x.regs.rp p) n then .ok (x.goto (x.branchTarget off)) else .ok (x.skip4 4)

/-- BRS (R73, R87, R88). -/
def execBrs (t : TileRef) (off : BitVec 20) (cond : BitVec 2) (sr : BitVec 3) (s : State) :
    Host.Outcome State Fault Refusal :=
  s.onDev fun d => d.runCore t (encCtrl 4 (off ++ cond ++ sr)) fun d x =>
    if d.sregBusy t sr then .stall
    else if (x.regs.rs sr).meets cond then .ok (x.goto (x.branchTarget off)) else .ok (x.skip4 4)

/-- LSH (R87). -/
def execLsh (t : TileRef) (imm : BitVec 20) (rd : BitVec 5) (s : State) : Host.Outcome State Fault Refusal :=
  s.onDev fun d => d.runCore t (encCtrl 5 (imm ++ rd)) fun _ x =>
    .ok ((x.setRegs (x.regs.wg rd ((x.regs.rg rd <<< 20) ||| imm.setWidth 64))).skip4 4)

/-- PSET (R87): bit 2 × p[PA] + p[PB] of TT. -/
def execPset (t : TileRef) (rh : BitVec 10) (tt : BitVec 4) (pb pa : BitVec 3) (rl : BitVec 2) (pd : BitVec 3) (s : State) :
    Host.Outcome State Fault Refusal :=
  s.onDev fun d => d.runCore t (encCtrl 6 (rh ++ tt ++ pb ++ pa ++ rl ++ pd)) fun _ x =>
    if rh ≠ 0 ∨ rl ≠ 0 then .trap cIllegal 0
    else
      let k := (if x.regs.rp pa then 2 else 0) + (if x.regs.rp pb then 1 else 0)
      .ok ((x.setRegs (x.regs.wp pd (tt.getLsbD k))).skip4 4)

/-- SMOV (R73, R87). -/
def execSmov (t : TileRef) (rsv : BitVec 17) (sr : BitVec 3) (rd : BitVec 5) (s : State) : Host.Outcome State Fault Refusal :=
  s.onDev fun d => d.runCore t (encCtrl 7 (rsv ++ sr ++ rd)) fun d x =>
    if rsv ≠ 0 then .trap cIllegal 0
    else if d.sregBusy t sr then .stall
    else .ok ((x.setRegs (x.regs.wg rd (x.regs.rs sr).val)).skip4 4)

/-- TSTAT (R87, R88). -/
def execTstat (t : TileRef) (rsv : BitVec 14) (tok : BitVec 6) (rd : BitVec 5) (s : State) : Host.Outcome State Fault Refusal :=
  s.onDev fun d => d.runCore t (encCtrl 8 (rsv ++ tok ++ rd)) fun _ x =>
    if rsv ≠ 0 then .trap cIllegal 0
    else .ok ((x.setRegs (x.regs.wg rd (x.regs.rt tok).word)).skip4 4)

/-- The tokens that a group and its mask name (R87). -/
def groupMask (mask : W16) (group : BitVec 2) : W64 := mask.setWidth 64 <<< (16 * group.toNat)

/-- The program has waited on the tokens of a mask: what their instructions touched is defined again (R85). -/
def Tile.waitedOn (x : Tile) (m : W64) : Tile :=
  { x with unwaited := x.unwaited.filter (fun q => !(q.args.te && m.getLsbD q.args.token.toNat)) }

/-- TWAIT (R85, R87, R107). -/
def execTwait (t : TileRef) (mask : W16) (rsv : BitVec 7) (group : BitVec 2) (s : State) :
    Host.Outcome State Fault Refusal :=
  s.onDev fun d => d.runCore t (encCtrl 9 (mask ++ rsv ++ group)) fun _ x =>
    let m := groupMask mask group
    if rsv ≠ 0 then .trap cIllegal 0
    else if (tokensOf m).any (fun k => decide ((x.regs.rt k).state = .clear)) then .trap cTokenIdle 0
    else if (tokensOf m).any (fun k => decide ((x.regs.rt k).state = .pending)) then .stall
    else
      match x.regs.failing x.trapEn m with
      | some k => .trap cTensorStatus (x.regs.tensorInfo k)
      | none => .ok ((x.waitedOn m).skip4 4)

/-- TCLR (R85, R87): waits until no selected token is PENDING, then sets them to CLEAR. DESIGN CHOICE (log 59): only the state changes; what
TSTAT shows of the status, the SUPPRESSED mark and the origin stays. -/
def execTclr (t : TileRef) (mask : W16) (rsv : BitVec 7) (group : BitVec 2) (s : State) : Host.Outcome State Fault Refusal :=
  s.onDev fun d => d.runCore t (encCtrl 10 (mask ++ rsv ++ group)) fun _ x =>
    let m := groupMask mask group
    if rsv ≠ 0 then .trap cIllegal 0
    else if (tokensOf m).any (fun k => decide ((x.regs.rt k).state = .pending)) then .stall
    else
      .ok (((x.setRegs ((tokensOf m).foldl (fun r k => r.wt k { r.rt k with state := .clear }) x.regs)).waitedOn m).skip4 4)

/-- DBASE (R87): BASE is bits 47:0 of a descriptor. -/
def execDbase (t : TileRef) (rsv : BitVec 14) (a : Bool) (rs1 rd : BitVec 5) (s : State) : Host.Outcome State Fault Refusal :=
  s.onDev fun d => d.runCore t (encCtrl 11 (rsv ++ BitVec.ofBool a ++ rs1 ++ rd)) fun _ x =>
    let q := x.regs.rd rd
    let g : BitVec 48 := (x.regs.rg rs1).setWidth 48
    if rsv ≠ 0 then .trap cIllegal 0
    else .ok ((x.setRegs (x.regs.wd rd (q.extractLsb' 48 208 ++ (if a then q.extractLsb' 0 48 + g else g)))).skip4 4)

/-- ERET (R87, R108). -/
def execEret (t : TileRef) (rsv : BitVec 25) (s : State) : Host.Outcome State Fault Refusal :=
  s.onDev fun d => d.runCore t (encCtrl 12 rsv) fun _ x =>
    if rsv ≠ 0 ∨ !x.inTrap then .trap cIllegal 0 else .ok x.leaveTrap

/-- BRK (R87, R108). -/
def execBrk (t : TileRef) (code : BitVec 25) (s : State) : Host.Outcome State Fault Refusal :=
  s.onDev fun d => d.runCore t (encCtrl 13 code) fun _ _ => .trap cBreak (code.setWidth 64)

end Sys2Proof.Machine
end

