-- ==== Sys2Proof/Machine/Codec.lean ====
section
/-!
DEFINITION. Sys2Proof/Machine/Codec.lean: coded streams (R169 to R179), the Graver that writes them (R180 to R186) and the
Press that reads them (R187 to R191).
-/

namespace Sys2Proof.Machine

open Sys2Proof

/-! ## Symbols (R174 to R178) -/

/-- The `n` low bits of a number, least significant first (R174). -/
def bitsLE (n v : Nat) : List Bool := (List.range n).map (fun i => v.testBit i)

/-- A unary count (R174). -/
def unary (q : Nat) : List Bool := List.replicate q true ++ [false]

/-- Rice_k(r) (R176). -/
def rice (k r : Nat) : List Bool := unary (r / 2 ^ k) ++ bitsLE k (r % 2 ^ k)

/-- Parameter k of tables 0 to 13 (R176). -/
def riceK (table : Nat) : Nat := if table ≤ 6 then table else table - 7

/-- The symbol of an element code of non-zero rank, `w` bits wide (R176, R177). -/
def codeSymbol (w table c : Nat) : List Bool :=
  if table = 14 then true :: bitsLE w c
  else
    let s := rice (riceK table) (c % 2 ^ (w - 1)) ++ [c.testBit (w - 1)]
    if 12 < s.length then List.replicate 12 true ++ bitsLE w c else s

/-- The symbol of a run of zero ranks (R176); nothing for an empty one. -/
def runSymbol (table len : Nat) : List Bool :=
  if len = 0 then [] else (if table = 14 then [false] else rice (riceK table) 0) ++ rice 2 (len - 1)

/-- A substream's symbols: each run of zero ranks as long as it can be (R181); `run` counts the zero ranks before. -/
def encSub (w table : Nat) : Nat → List Nat → List Bool
  | run, [] => runSymbol table run
  | run, c :: cs =>
    if c % 2 ^ (w - 1) = 0 then
      if table ≤ 6 then rice table 0 ++ encSub w table 0 cs else encSub w table (run + 1) cs
    else runSymbol table run ++ codeSymbol w table c ++ encSub w table 0 cs

/-- Bits packed into the fewest whole bytes (R174, R181). -/
def packBits (bs : List Bool) : List W8 :=
  (List.range ((bs.length + 7) / 8)).map (fun j =>
    BitVec.ofNat 8 (((List.range 8).map (fun i => if bs.getD (8 * j + i) false then 2 ^ i else 0)).sum))

def unpackBits (bytes : List W8) : List Bool := bytes.flatMap (fun b => bitsLE 8 b.toNat)

/-- A symbol as decoded. -/
inductive Sym where
  | zeros (n : Nat) (rest : List Bool)
  | code (c : Nat) (rest : List Bool)
  | invalid
  | short

/-- Ones before a zero-bit, at most `lim` of them; none where the bits end first. -/
def readOnes : Nat → List Bool → Option (Nat × List Bool)
  | 0, bs => some (0, bs)
  | _ + 1, [] => none
  | n + 1, b :: bs => if b then (readOnes n bs).map (fun r => (r.1 + 1, r.2)) else some (0, b :: bs)

/-- The value of the first `n` bits; none where there are fewer. -/
def readBits (n : Nat) (bs : List Bool) : Option (Nat × List Bool) :=
  if bs.length < n then none
  else some (((List.range n).map (fun i => if bs.getD i false then 2 ^ i else 0)).sum, bs.drop n)

/-- A run code (R176). -/
def readRun (bs : List Bool) : Sym :=
  match readOnes 9 bs with
  | none => .short
  | some (u, r) =>
    if u = 9 then .invalid
    else
      match readBits 2 (r.drop 1) with
      | none => .short
      | some (l, r') => .zeros (4 * u + l + 1) r'

/-- The code that an escape or a literal carries; one of rank zero decodes as +0 (R178). -/
def carried (w c : Nat) : Nat := if c % 2 ^ (w - 1) = 0 then 0 else c

/-- The next symbol of a substream (R176 to R178). -/
def readSym (w table : Nat) (bs : List Bool) : Sym :=
  if table = 14 then
    match bs with
    | [] => .short
    | b :: r =>
      if b then
        match readBits w r with
        | none => .short
        | some (c, r') => .code (carried w c) r'
      else readRun r
  else
    let k := riceK table
    match readOnes 12 bs with
    | none => .short
    | some (u, r) =>
      if u = 12 then
        match readBits w r with
        | none => .short
        | some (c, r') => .code (carried w c) r'
      else if 12 < u + k + 2 then .invalid
      else
        match readBits k (r.drop 1) with
        | none => .short
        | some (l, r1) =>
          let rank := u * 2 ^ k + l
          if rank = 0 then (if table ≤ 6 then .zeros 1 r1 else readRun r1)
          else if 2 ^ (w - 1) ≤ rank then .invalid
          else
            match readBits 1 r1 with
            | none => .short
            | some (s, r2) => .code (rank + s * 2 ^ (w - 1)) r2

/-- A substream as decoded: its 32 codes and the bits left, or why not. -/
inductive SubRes where
  | ok (codes : List Nat) (rest : List Bool)
  | invalid
  | short

def SubRes.cons (cs : List Nat) : SubRes → SubRes
  | .ok r b => .ok (cs ++ r) b
  | x => x

/-- Decodes positions up to 31; `n` positions are left. -/
def decSub (w table : Nat) : Nat → Nat → List Bool → SubRes
  | 0, _, _ => .invalid
  | fuel + 1, n, bs =>
    if n = 0 then .ok [] bs
    else
      match readSym w table bs with
      | .short => .short
      | .invalid => .invalid
      | .zeros l r => if n < l then .invalid else (decSub w table fuel (n - l) r).cons (List.replicate l 0)
      | .code c r => (decSub w table fuel (n - 1) r).cons [c]

/-- The block sum (R179). -/
def blockSum (codes : List Nat) : Nat := codes.sum % 255

/-! ## The Graver (R180 to R183) -/

/-- Bits of an element code of a coded format. -/
def codedBits (fmt : Nat) : Nat := if fmt = nCF4 ∨ fmt = nCB4 then 4 else 8

/-- −0 becomes +0, except in a CB block whose SCALE is 0xFF (R180). -/
def dropMinusZero (w : Nat) (keep : Bool) (c : Nat) : Nat := if c = 2 ^ (w - 1) ∧ !keep then 0 else c

/-- The codes of a coded block with −0 made +0 (R180); `cbs` are its CB blocks, none for a CF format. -/
def normalCodes (fmt : Nat) (codes : List Nat) (cbs : List Block32) : List Nat :=
  codes.mapIdx (fun i c =>
    dropMinusZero (codedBits fmt) ((cbs[i / 32]?).any (fun b => b.scale == 0xFF)) c)

/-- A coded block's bytes (R172, R173, R181), and whether the raw fallback alone made it raw. -/
def codeBlock (fmt table : Nat) (fallback : Bool) (codes0 : List Nat) (cbs : List Block32) : List W8 × Bool :=
  let w := codedBits fmt
  let codes := normalCodes fmt codes0 cbs
  let subs := (List.range 8).map (fun s =>
    packBits (encSub w table 0 ((List.range 32).map (fun i => codes.getD (8 * i + s) 0))))
  let p := (subs.map (·.length)).sum
  let must := decide (table = 15) || cbs.any (fun b => b.scale == 0xFF) || decide (codedPmax fmt < p)
  let near := fallback && decide (codedPmax fmt * 7 < p * 8)
  let raw := must || near
  let body := if raw then packCodes (if w = 4 then nCF4 else nE4) codes else subs.flatten
  let lens := subs.map (fun s => if raw then (0 : W8) else BitVec.ofNat 8 s.length)
  let meta_ := cbs.map (·.scale) ++ cbs.map (·.flags) ++ cbs.flatMap (fun b => toLE 2 b.outlier.toNat)
  ([BitVec.ofNat 8 ((if raw then 128 else 0) + table), BitVec.ofNat 8 (blockSum codes), 0, 0] ++ lens ++
    (if isBlockFmt fmt then meta_ else []) ++ body, near && !must)

/-- A coded row's bytes from its coded blocks (R170, R183): the index, then the blocks. An entry for a block that is not
written holds no stated value: `free` gives it (log 10). -/
def codedRow (nb : Nat) (free : Nat → Nat) (blocks : List (List W8)) : List W8 :=
  let n := indexEntries nb
  let offs := fun j => indexBytes nb + ((blocks.take j).map (·.length)).sum
  let entry := fun j => if j + 1 = n then offs blocks.length else if 64 * j < blocks.length then offs (64 * j) else free j
  let idx := (List.range n).flatMap (fun j => toLE 4 (entry j))
  idx ++ List.replicate (indexBytes nb - idx.length) 0 ++ blocks.flatten

/-! ## The Press (R187 to R191) -/

/-- A coded block as the Press delivers it: its status, its header's address, its codes, its CB blocks, and RAW with its
payload's length, none where its header could not be read. -/
structure PBlock where
  st : W8
  at_ : Nat
  codes : List Nat
  cbs : List Block32
  payload : Option (Bool × Nat)
  deriving DecidableEq, Repr

/-- The CB blocks of a coded block, from its header and its codes (R172). -/
def cbsOf (fmt : Nat) (hdr : List W8) (codes : List Nat) : List Block32 :=
  if isBlockFmt fmt then
    (List.range 8).map (fun j => ⟨(codes.drop (32 * j)).take 32, hdr.getD (12 + j) 0, hdr.getD (20 + j) 0,
      hdr.getD (29 + 2 * j) 0 ++ hdr.getD (28 + 2 * j) 0⟩)
  else []

/-- Bytes of the substreams before substream `s`. -/
def subStart (hdr : List W8) (s : Nat) : Nat := ((List.range s).map (fun j => (hdr.getD (4 + j) 0).toNat)).sum

/-- Checks 2 to 6 of R189 on a block's header and payload: its status and codes. -/
def judgeBlock (fmt table : Nat) (hdr body : List W8) : W8 × List Nat :=
  let w := codedBits fmt
  let ctrl := (hdr.getD 0 0).toNat
  let raw := decide (128 ≤ ctrl)
  let lens := (List.range 8).map (fun j => (hdr.getD (4 + j) 0).toNat)
  if ctrl / 16 % 8 ≠ 0 ∨ hdr.getD 2 0 ≠ 0 ∨ hdr.getD 3 0 ≠ 0 ∨ (!raw ∧ (ctrl % 16 ≠ table ∨ table = 15)) ∨
      (raw ∧ lens.any (· != 0)) then (sTableInvalid, [])
  else if raw then
    let codes := (List.range 256).map (fun i => packedCode (if w = 4 then nCF4 else nE4) body i)
    (if blockSum codes = (hdr.getD 1 0).toNat then 0 else sBlockSum, codes)
  else
    let rs := (List.range 8).map (fun s =>
      decSub w table 33 32 (unpackBits ((body.drop (subStart hdr s)).take (lens.getD s 0))))
    if rs.any (fun r => match r with | .invalid => true | _ => false) then (sTableInvalid, [])
    else if rs.any (fun r => match r with | .short => true | _ => false) then (sOperandLong, [])
    else if rs.any (fun r => match r with | .ok _ b => decide (8 ≤ b.length) || b.any id | _ => true) then
      (sOperandShort, [])
    else
      let sub := fun s => match rs.getD s .short with | .ok c _ => c | _ => []
      let codes := (List.range 256).map (fun i => (sub (i % 8)).getD (i / 8) 0)
      (if blockSum codes = (hdr.getD 1 0).toNat then 0 else sBlockSum, codes)

/-- Walks the coded blocks of a row from block `b` (R189 to R191): `at_` is where the block begins, none where an error
hides it until the next index entry. -/
def Src.pressWalk (s : Src) (fmt table row limit endOff : Nat) : Nat → Nat → Option Nat → List PBlock
  | 0, _, _ => []
  | n + 1, b, at_ =>
    let h := codedHeader fmt
    let here : Option Nat :=
      if b % 64 = 0 ∧ (b = 0 ∨ at_ = none) then
        (if s.fault (row + 4 * (b / 64)) 4 = 0 then some (row + s.nat (row + 4 * (b / 64)) 4) else none)
      else at_
    match here with
    | none => ⟨sEcc, row, [], [], none⟩ :: s.pressWalk fmt table row limit endOff n (b + 1) none
    | some p =>
      if endOff ≤ p - row ∨ limit < p + h then
        ⟨sOperandLong, p, [], [], none⟩ :: s.pressWalk fmt table row limit endOff n (b + 1) (some p)
      else if s.st p ≠ 0 ∨ s.fault (p + 4) 8 ≠ 0 then
        ⟨sEcc, p, [], [], none⟩ :: s.pressWalk fmt table row limit endOff n (b + 1) none
      else
        let hdr := s.bytes p h
        let len := if 128 ≤ (hdr.getD 0 0).toNat then codedPmax fmt else subStart hdr 8
        let rest := s.pressWalk fmt table row limit endOff n (b + 1) (some (p + h + len))
        let y := some (decide (128 ≤ (hdr.getD 0 0).toNat), len)
        if s.fault p (min (h + len) (limit - p)) ≠ 0 then ⟨s.fault p (min (h + len) (limit - p)), p, [], [], y⟩ :: rest
        else if limit < p + h + len then ⟨sOperandLong, p, [], [], y⟩ :: rest
        else
          let r := judgeBlock fmt table hdr (s.bytes (p + h) len)
          ⟨r.1, p, r.2, if r.1 = 0 then cbsOf fmt hdr r.2 else [], y⟩ :: rest

/-- The first `k` coded blocks of a row of `nb`. -/
def Src.press (s : Src) (fmt table nb row limit k : Nat) : List PBlock :=
  let e := row + 4 * (indexEntries nb - 1)
  s.pressWalk fmt table row limit (if s.fault e 4 = 0 then s.nat e 4 else 2 ^ 32) k 0 none

/-- The 256 elements of a coded block; a failing block is NaN whole (R190). -/
def PBlock.elems (b : PBlock) (fmt : Nat) (sigma : Int) (orig : Nat) : List Elem :=
  if b.st ≠ 0 then List.replicate 256 ⟨.qnan, 0, b.st, b.at_ - orig⟩
  else if isBlockFmt fmt then
    let vs := b.cbs.flatMap (fun x => x.decode fmt)
    (List.range 256).map (fun i => ⟨vs.getD i .zero, b.codes.getD i 0, 0, b.at_ - orig⟩)
  else b.codes.map (fun c => ⟨codeValue fmt sigma c, c, 0, b.at_ - orig⟩)

/-- An operand as read: its first elements in walk order, the CB blocks that hold them, and the coded blocks read. -/
structure Opnd where
  elems : List Elem
  blocks : List Block32
  coded : List PBlock
  deriving DecidableEq, Repr

/-- The first `n` elements of an operand (R149, R169, R189). -/
def Src.operand (s : Src) (d : Desc) (sigma : Int) (n : Nat) : Opnd :=
  let rs := (List.range ((n + d.e0 - 1) / d.e0)).map (fun r =>
    let k := min d.e0 (n - r * d.e0)
    if d.coded then
      let bs := s.press d.fmt d.table d.nb (d.rowAddr r) (spaceEnd d.space) ((k + 255) / 256)
      (⟨(bs.flatMap (fun b => b.elems d.fmt sigma d.origin)).take k,
        (bs.flatMap (fun b => if isBlockFmt d.fmt then
            (if b.st = 0 then b.cbs else List.replicate 8 ⟨List.replicate 32 0, 0xFF, 0, 0⟩) else [])).take ((k + 31) / 32), bs⟩ : Opnd)
    else
      let x := s.plainRow d.fmt sigma d.origin (d.rowAddr r) k
      ⟨x.1, x.2, []⟩)
  ⟨rs.flatMap (·.elems), rs.flatMap (·.blocks), rs.flatMap (·.coded)⟩

/-- Element `j` of an operand in walk order; a coded row is decoded from its first block (R170). -/
def Src.elemAt (s : Src) (d : Desc) (sigma : Int) (j : Nat) : Elem :=
  let row := d.rowAddr (j / d.e0)
  let c := j % d.e0
  if d.coded then
    match (s.press d.fmt d.table d.nb row (spaceEnd d.space) (c / 256 + 1)).getLast? with
    | some b => (b.elems d.fmt sigma d.origin).getD (c % 256) ⟨.qnan, 0, sEcc, 0⟩
    | none => ⟨.qnan, 0, sEcc, 0⟩
  else if isBlockFmt d.fmt then
    (s.blockElems d.fmt d.origin (row + c / 32 * blockBytes d.fmt)).1.getD (c % 32) ⟨.qnan, 0, sEcc, 0⟩
  else s.plainElem d.fmt sigma d.origin row c

/-- The coded blocks that reading the elements of a list of places decodes, each row once. -/
def Src.codedAt (s : Src) (d : Desc) (js : List Nat) : List PBlock :=
  if d.coded then
    ((js.map (· / d.e0)).eraseDups).flatMap (fun r =>
      s.press d.fmt d.table d.nb (d.rowAddr r) (spaceEnd d.space)
        ((js.filter (fun j => j / d.e0 == r)).foldl (fun m j => max m (j % d.e0 / 256 + 1)) 0))
  else []

/-! ## Press cycles (R159, R187, R188) -/

/-- The nominal cost of a coded block (R187). -/
def pressNominal (fmt : Nat) : Nat := if codedPmax fmt = 128 then 2 else 4

/-- The cost of a coded block (R187). -/
def PBlock.cost (b : PBlock) (fmt : Nat) : Nat :=
  match b.payload with
  | some (false, p) => max (pressNominal fmt) ((p + 55) / 56)
  | _ => pressNominal fmt

/-- The cycles of blocks whose header could not be read: the report's, for no rule gives their cost (log 25). -/
def hiddenStall (bs : List PBlock) (stall : Nat) : Nat := if bs.any (fun b => b.payload.isNone) then stall else 0

/-- The Press stall of a matrix instruction (R188). -/
def matrixStall (fmt : Nat) (bs : List PBlock) (stall : Nat) : Nat :=
  (bs.map (fun b => b.cost fmt - pressNominal fmt)).sum + hiddenStall bs stall

/-- The rows among the first `n` elements that are the first of those a dimension of stride 0 repeats (R159). -/
def Desc.freshRows (d : Desc) (n : Nat) : List Nat :=
  (List.range ((n + d.e0 - 1) / d.e0)).filter (fun r =>
    (d.s1 != 0 || r % d.e1 == 0) && (d.s2 != 0 || r / d.e1 % d.e2 == 0) &&
    (d.s3 != 0 || r / (d.e1 * d.e2) % d.e3 == 0) && (d.s4 != 0 || r / (d.e1 * d.e2 * d.e3) == 0))

/-- The coded blocks of those rows, among the blocks that reading the operand decodes. -/
def Desc.freshBlocks (d : Desc) (n : Nat) (bs : List PBlock) : List PBlock :=
  let rows := d.freshRows n
  ((bs.mapIdx (fun i b => (i / d.nb, b))).filter (fun x => rows.contains x.1)).map (·.2)

/-- The bytes of an operand read that pass the tile-memory port (R159): a coded row's index, headers and payloads. -/
def Desc.portBytes (d : Desc) (n : Nat) (fresh : List PBlock) : Nat :=
  if 2 ≤ d.space then 0
  else if d.coded then
    (d.freshRows n).length * indexBytes d.nb +
      (fresh.map (fun b => codedHeader d.fmt + (b.payload.map (·.2)).getD 0)).sum
  else ((d.freshRows n).map (fun r =>
    let k := min d.e0 (n - r * d.e0)
    rowBytes d.fmt (if isBlockFmt d.fmt || isMxFmt d.fmt then (k + 31) / 32 * 32 else k))).sum

/-- The larger Press total of blocks dealt alternately to two Presses (R188). -/
def pressTotal (costs : List Nat) : Nat :=
  let at_ := fun k => (((costs.mapIdx (fun i c => (i, c))).filter (fun x => x.1 % 2 == k)).map (·.2)).sum
  max (at_ 0) (at_ 1)

/-! ## Tallies (R185) -/

/-- What the Graver counts of one instruction, in the order of R342. -/
structure Tally where
  total : Nat := 0
  zeros : Nat := 0
  saturations : Nat := 0
  subnormals : Nat := 0
  nonfinite : Nat := 0
  flushed : Nat := 0
  deriving DecidableEq, Repr

def Tally.add (a b : Tally) : Tally :=
  ⟨a.total + b.total, a.zeros + b.zeros, a.saturations + b.saturations, a.subnormals + b.subnormals,
   a.nonfinite + b.nonfinite, a.flushed + b.flushed⟩

def nat01 (b : Bool) : Nat := if b then 1 else 0

/-- The layout by which an element's code is counted: OCP E4M3, and MX elements of that format, have the fields of CF8-E4 (R126). -/
def tallyFmt (fmt : Nat) : FFmt := if fmt = nOcpE4M3 then fE4 else elemFmt fmt

/-- The counts of one written element: its format, its code before −0 becomes +0, and the value it comes from. In OCP E4M3 finite values
use the exponent field 1111 (R126). -/
def tallyElem (fmt c : Nat) (v : FVal) : Tally :=
  let f := tallyFmt fmt
  let ex := c / 2 ^ f.mbits % 2 ^ f.ebits
  let fr := c % 2 ^ f.mbits
  if fmt = nI32 then { total := 1, zeros := nat01 (c == 0) }
  else if fmt = nOcpE4M3 ∨ fmt = nMx8E4 then
    { total := 1
      zeros := nat01 (c % 128 == 0)
      saturations := nat01 (ex == 15 && c % 128 != 0x7F)
      subnormals := nat01 (ex == 0 && fr != 0)
      nonfinite := nat01 (v.isNan || v.isInf) }
  else
    { total := 1
      zeros := nat01 (c % 2 ^ (f.width - 1) == 0)
      saturations := nat01 (ex == (if f.special then 2 ^ f.ebits - 2 else 2 ^ f.ebits - 1))
      subnormals := nat01 (ex == 0 && fr != 0)
      nonfinite := nat01 (v.isNan || v.isInf) }

/-- The counts of an MX record written from the values `vs` (R128, R185). -/
def tallyMx (fmt : Nat) (bytes : List W8) (vs : List FVal) : Tally :=
  let b := bytes.drop 1
  (vs.mapIdx (fun i v => tallyElem fmt (packedCode (if fmt = nMx4 then nCF4 else nE4) b i) v)).foldl Tally.add {}

/-- The counts of the first `k` elements of a CB block written from the values `vs` (R125, R185). -/
def tallyBlock (fmt : Nat) (b : Block32) (vs : List FVal) (k : Nat) : Tally :=
  ((List.range (min k 32)).map (fun i =>
    let c := b.codes.getD i 0
    let v := vs.getD i .zero
    if b.scale = 0xFF then
      { total := 1, zeros := nat01 (c % 2 ^ ((elemFmt fmt).width - 1) == 0), nonfinite := 1 }
    else if b.flags.getLsbD 6 then { tallyElem fmt c .zero with zeros := 1 }
    else if b.flags.getLsbD 7 ∧ i = b.flags.toNat % 32 then { total := 1 }
    else { tallyElem fmt c v with flushed := nat01 (!(toBf16 v).isZero && c % 2 ^ ((elemFmt fmt).width - 1) == 0) })).foldl
    Tally.add {}

end Sys2Proof.Machine
end

