-- ==== Sys2Proof/Machine/Scales.lean ====
section
/-!
DEFINITION. Sys2Proof/Machine/Scales.lean: scale records (R324 to R328) and the overflow sticky (R330, R331).
-/

namespace Sys2Proof.Machine

open Sys2Proof

/-! ## Scale records -/

/-- A field of a record, little-endian. -/
def recNat (r : List W8) (off n : Nat) : Nat := leNat ((r.drop off).take n)

/-- A record with a field replaced. -/
def recSet (r : List W8) (off n v : Nat) : List W8 := r.take off ++ toLE n v ++ r.drop (off + n)

/-- Whether a record's contents make it missing (R326), for an operand of format `fmt`. -/
def scaleMissing (fmt : Nat) (r : List W8) : Bool :=
  let h := recNat r 0x2C 2
  let hv := bf16 (BitVec.ofNat 16 h)
  recNat r 0x3F 1 != 0xC5 || recNat r 0x2F 1 != fmt || recNat r 0x38 7 != 0 || decide (15 < recNat r 0x30 1) ||
  decide (16 < recNat r 0x31 1) || decide (16 < recNat r 0x32 1) || decide (1 < recNat r 0x33 1) ||
  (h != 0 && (hv.isNan || hv.isInf || hv.lt (.ofInt 1) || (FVal.ofInt 256).lt hv))

/-- F of R327. -/
def scaleTop (fmt : Nat) : Nat := if fmt = nE4 then 240 else if fmt = nE5 then 57344 else 6

/-- The largest valid entry of a history (R325, R327). -/
def histMax (r : List W8) : FVal :=
  let head := recNat r 0x30 1
  let count := recNat r 0x31 1
  (List.range count).foldl (fun m j =>
    let v := bf16 (BitVec.ofNat 16 (recNat r (2 * ((head + 16 - 1 - j % 16) % 16)) 2))
    if v.isInf then .inf false else if m.lt v then v else m) .zero

/-- The scale exponent that a history gives (R327), clamped. -/
def scaleChoice (fmt : Nat) (r : List W8) : Int :=
  let M := histMax r
  let h := if 0 < recNat r 0x32 1 then FVal.ofInt 4
           else if recNat r 0x2C 2 = 0 then FVal.ofInt 2 else bf16 (BitVec.ofNat 16 (recNat r 0x2C 2))
  let sg : Int := if M.isZero then 0 else if M.isInf then 127 else blockExp (M.mul h).1 (scaleTop fmt)
  max (-127) (min 127 sg)

/-- The signed value of SCALE_EXP. -/
def scaleExp (r : List W8) : Int := (BitVec.ofNat 8 (recNat r 0x2E 1)).toInt

/-- A fetch on a record that is not missing, at step `s` (R327): the record after it and σ, none where the history is lost. -/
def scaleFetch (fmt : Nat) (s : W64) (r : List W8) : List W8 × Option Int :=
  let step := BitVec.ofNat 64 (recNat r 0x20 8)
  let cold := decide (recNat r 0x33 1 = 1)
  if step = s then (r, if cold then none else some (scaleExp r))
  else if step = s - 1 then
    let cur := (bf16Of (f32 (BitVec.ofNat 32 (recNat r 0x28 4)))).toNat
    let head := recNat r 0x30 1
    let r1 :=
      if cold then recSet (recSet (recSet (recSet (recSet r 0 2 cur) 0x30 1 1) 0x31 1 1) 0x32 1 16) 0x33 1 0
      else
        recSet (recSet (recSet (recSet r (2 * head) 2 cur) 0x30 1 ((head + 1) % 16)) 0x31 1
          (min (recNat r 0x31 1 + 1) 16)) 0x32 1 (recNat r 0x32 1 - 1)
    let sg := scaleChoice fmt r1
    (recSet (recSet (recSet r1 0x2E 1 (BitVec.ofInt 8 sg).toNat) 0x20 8 s.toNat) 0x28 4 0, some sg)
  else
    (recSet (recSet (recSet (recSet (recSet (recSet (recSet (recSet r 0 32 0) 0x30 1 0) 0x31 1 0) 0x32 1 0) 0x33 1 1)
      0x2E 1 0) 0x20 8 s.toNat) 0x28 4 0, none)

/-- Where a record lies, for an access that writes or not, by a unit inside the evaluation slice or not: its physical address, none
where the record is missing (R324, R326). A record in a borrowed or host window is taken as missing (log 11). -/
def Dev.scalePlace (v : Variant) (write eval : Bool) (d : Dev) (t : TileRef) (ctx rec_ : Nat) : Option Nat × Dev :=
  let tbl := d.reg64 (At.tile t (0x700 + 8 * ctx))
  if rec_ = 0xFFF ∨ tbl = 0 then (none, d)
  else
    let r := d.translate v (XlUnit.engine t.sector.val) ctx (tbl.toNat + 64 * rec_) write eval
    if r.1 ≠ 0 ∨ isWindow r.2.1 then (none, r.2.2) else (some r.2.1, r.2.2)

/-- Where a record that an instruction of a tile fetches or notes lies. -/
def Dev.scaleAt (v : Variant) (d : Dev) (t : TileRef) (ctx rec_ : Nat) : Option Nat × Dev :=
  d.scalePlace v true (d.evalMember t.sector.val) t ctx rec_

/-- The fetch of an operand's scale (R327): σ, none where it is LOST. -/
def Dev.fetchScale (v : Variant) (d : Dev) (t : TileRef) (ctx rec_ fmt : Nat) (s : W64) : Option Int × Dev :=
  match d.scaleAt v t ctx rec_ with
  | (none, d) => (none, d)
  | (some a, d) =>
    let r := d.localRead v a
    if r.st ≠ 0 ∨ scaleMissing fmt r.data then (none, r.d)
    else
      let x := scaleFetch fmt s r.data
      (x.2, (r.d.localWrite v a x.1).d)

/-- The greater of two f32 values at least +0, by R328's maximum. -/
def f32Max (a b : W32) : W32 := if (f32 a).lt (f32 b) then b else a

/-- A note (R328): CUR_MAX rises where the record is not missing and belongs to the step of the note. -/
def Dev.applyNote (v : Variant) (d : Dev) (n : Note) : Dev :=
  match d.scaleAt v n.tile n.ctx n.rec_ with
  | (none, d) => d
  | (some a, d) =>
    let r := d.localRead v a
    if r.st ≠ 0 ∨ scaleMissing (recNat r.data 0x2F 1) r.data ∨ BitVec.ofNat 64 (recNat r.data 0x20 8) ≠ n.step then r.d
    else (r.d.localWrite v a (recSet r.data 0x28 4 (f32Max (BitVec.ofNat 32 (recNat r.data 0x28 4)) n.value).toNat)).d

/-- Adds 1 to the REPEATS of a record that is not missing (R337). -/
def Dev.countRepeat (v : Variant) (d : Dev) (t : TileRef) (ctx rec_ : Nat) : Dev :=
  match d.scaleAt v t ctx rec_ with
  | (none, d) => d
  | (some a, d) =>
    let r := d.localRead v a
    if r.st ≠ 0 ∨ scaleMissing (recNat r.data 0x2F 1) r.data then r.d
    else (r.d.localWrite v a (recSet r.data 0x34 4 (min (recNat r.data 0x34 4 + 1) 0xFFFFFFFF))).d

/-! ## The overflow sticky -/

/-- Raises sticky flags of a tile (R98). -/
def Tile.raiseSticky (x : Tile) (s : Sticky) : Tile := { x with sticky := x.sticky ||| s.bits }

/-- A cause of R330: the sticky is set, and the first cause of the attempt is recorded (R330, R344). -/
def Dev.overflow (d : Dev) (t : TileRef) (cause engine opcode scaleRec : Nat) (max_ : W32) : Dev :=
  let d1 := d.onTile t (fun x => x.raiseSticky { overflow := true })
  if d.bit (At.tile t 0x780) 31 then d1
  else
    (d1.setReg (At.tile t 0x780) (BitVec.ofNat 32 (2 ^ 31 + cause * 2 ^ 28 + engine * 2 ^ 24 + opcode * 2 ^ 16 + scaleRec))).setReg
      (At.tile t 0x784) (if cause = 0 ∨ cause = 3 then max_ else 0)

/-- The level of the open bracket, 0 where none is open (R330, log 12). -/
def Tile.level (x : Tile) : Nat := match x.bracket with
  | none => 0
  | some b => b.level

/-- Clears the sticky and the recorded cause (R103, R104, R344). -/
def Dev.clearOverflow (d : Dev) (t : TileRef) : Dev :=
  ((d.onTile t (fun x => { x with sticky := x.sticky &&& 7 })).setReg (At.tile t 0x780) 0).setReg (At.tile t 0x784) 0

end Sys2Proof.Machine
end

