-- ==== Sys2Proof/Machine/Issue.lean ====
section
/-!
DEFINITION. Sys2Proof/Machine/Issue.lean: issue of a tensor instruction by the control core (R69, R78, R89 to R96), its begin
or suppression at the head of its engine queue (R96, R99), and its completion (R97, R98).
-/

namespace Sys2Proof.Machine

open Sys2Proof

/-! ## Issue -/

/-- What an engine's issue check looks at: the core, the instruction, its descriptors and the captured g register. -/
structure IssueView where
  x : Tile
  a : TensorArgs
  da : Desc
  db : Desc
  dc : Desc
  g : W64

/-- The captured value of GREG; g0 gives none, 0 (R89, R90). -/
def CoreRegs.greg (r : CoreRegs) (a : TensorArgs) : W64 := r.rg a.greg

/-- A field of an instruction's MOD (R89). -/
def modOf (a : TensorArgs) (lo n : Nat) : Nat := a.mod.toNat / 2 ^ lo % 2 ^ n

def IssueView.m (w : IssueView) (lo n : Nat) : Nat := modOf w.a lo n

def Tile.issueView (x : Tile) (a : TensorArgs) : IssueView :=
  ⟨x, a, descOf (x.regs.rd a.da), descOf (x.regs.rd a.db), descOf (x.regs.rd a.dc), x.regs.greg a⟩

/-- Instructions of a tile's engine queue. -/
def Tile.queue (x : Tile) (e : Nat) : List Queued := Tab.look [] x.queues e

def Tile.setQueue (x : Tile) (e : Nat) (q : List Queued) : Tile := { x with queues := Tab.put [] x.queues e q }

/-- Every instruction issued and not completed. -/
def Tile.queued (x : Tile) : List Queued := x.queues.flatMap (·.2)

/-- Whether an instruction that waits on token `k` has not begun (R95). -/
def Tile.hasWaiter (x : Tile) (k : BitVec 6) : Bool :=
  x.queued.any (fun q => !q.running && q.args.wait.getLsbD k.toNat)

/-- The next place in issue order. -/
def Tile.nextOrder (x : Tile) : Nat := x.queued.foldl (fun m q => max m (q.order + 1)) 0

/-- Whether every engine queue is empty and no token is PENDING (R101, R104). -/
def Tile.quiet (x : Tile) : Bool :=
  x.queued.isEmpty && (List.range 64).all (fun i => decide ((x.regs.rt (BitVec.ofNat 6 i)).state ≠ .pending))

/-- Whether a token of the instruction's WAIT is CLEAR (R96). -/
def CoreRegs.waitsOnClear (r : CoreRegs) (w : W64) : Bool := (tokensOf w).any (fun k => decide ((r.rt k).state = .clear))

/-- Whether every token of a WAIT is SET (R96). -/
def CoreRegs.waitMet (r : CoreRegs) (w : W64) : Bool := (tokensOf w).all (fun k => decide ((r.rt k).state = .set))

/-- Replaces an instruction in its queue. -/
def Dev.requeue (d : Dev) (t : TileRef) (q q' : Queued) : Dev :=
  d.onTile t fun x => x.setQueue q.engine ((x.queue q.engine).map (fun y => if y = q then q' else y))

/-- The head of a queue: its first instruction that has not begun. -/
def Tile.head (x : Tile) (e : Nat) : Option Queued := (x.queue e).find? (fun q => !q.running)

/-- The instruction of a queue that has begun and not completed. -/
def Tile.active (x : Tile) (e : Nat) : Option Queued := (x.queue e).find? (fun q => q.running)

/-- The first instruction of a tile's Drover queue takes its place among those of the sector that have reached their queue heads
(R290). -/
def Dev.reachHead (d : Dev) (t : TileRef) : Dev :=
  let x := d.tile t
  match x.head 2 with
  | none => d
  | some q =>
    if q.reached.isSome || (x.active 2).isSome then d
    else
      (d.requeue t q { q with reached := some (d.sector t.sector.val).headOrder }).onSector t.sector.val
        fun s => { s with headOrder := s.headOrder + 1 }

/-- What a change of a queue means for the order in which heads are served: only the Drover has one (R290). -/
def Dev.queueMoved (d : Dev) (t : TileRef) (e : Nat) : Dev := if e = 2 then d.reachHead t else d

/-- The token PENDING at issue (R95). DESIGN CHOICE (log 59): until the instruction completes, TSTAT shows no status, no SUPPRESSED mark
and the token itself as the origin. -/
def CoreRegs.pend (r : CoreRegs) (a : TensorArgs) : CoreRegs :=
  if a.te then r.wt a.token { state := .pending, origin := a.token } else r

/-- Issue of a tensor instruction of an engine with a queue (R69, R90, R94 to R96): `opcode` is what executes (R334), `ok` are
the checks that raise DESC_INVALID, and `post` is what issue records of it. -/
def Dev.issue (d : Dev) (t : TileRef) (word : CtisWord) (engine opcode : Nat) (a : TensorArgs) (ok : IssueView → Bool)
    (post : IssueView → Tile → Tile) : Dev :=
  d.runInstr t word fun d =>
    let x := d.tile t
    let w := x.issueView a
    if (a.te && x.hasWaiter a.token) || decide (8 ≤ ((x.queue engine).filter (fun q => !q.running)).length) then d
    else if !ok w then d.trap t cDescInvalid 0
    else if a.te && decide ((x.regs.rt a.token).state = .pending) then d.trap t cTokenBusy 0
    else if x.regs.waitsOnClear a.wait then d.trap t cTokenIdle 0
    else
      let q : Queued :=
        { engine := engine, opcode := opcode, args := a, da := x.regs.rd a.da, db := x.regs.rd a.db, dc := x.regs.rd a.dc,
          gval := w.g, ctx := x.ctx.toNat, step := 0, order := x.nextOrder }
      let y := (x.setRegs (x.regs.pend a)).setQueue engine (x.queue engine ++ [q])
      let y := { y with unwaited := y.unwaited ++ [q] }
      (d.setTile t ((post w y).skip4 16)).queueMoved t engine

/-- An issue that records nothing more. -/
def noPost (_ : IssueView) (x : Tile) : Tile := x

/-! ## Completion -/

/-- The outcome of an instruction: status and DETAIL, the result for SREG where it is a reduction's, and the sticky flags it
raised. -/
structure Outcome where
  st : W8
  detail : W32 := 0
  result : Option Summary := none
  sticky : Sticky := {}
  deriving DecidableEq, Repr

/-- ENGINE × 16 + OPCODE mod 16 (R108). -/
def Queued.src (q : Queued) : W8 := BitVec.ofNat 8 (q.engine * 16 + q.opcode % 16)

/-- Takes the first instruction equal to `q` out of its queue. -/
def Tile.dequeue (x : Tile) (q : Queued) : Tile := x.setQueue q.engine ((x.queue q.engine).erase q)

/-- A vector reduction (R157). -/
def Queued.reduces (q : Queued) : Bool := decide (q.engine = 1) && decide (0x40 ≤ q.opcode) && decide (q.opcode ≤ 0x44)

/-- What completion leaves in a summary register that SREG names (R97): a reduction's result, where it has one, and else of any other
instruction the status word; a reduction without a result leaves it as it was. -/
def Queued.summary (q : Queued) (o : Outcome) (was : Summary) : Summary :=
  match o.result with
  | some r => r
  | none => if q.reduces then was else { kind := .int, val := statusWord o.st o.detail o.sticky }

/-- Completion (R97, R98): the token becomes SET with the status, then SREG is written; the sticky flags are ORed in. -/
def Dev.finish (d : Dev) (t : TileRef) (q : Queued) (o : Outcome) : Dev :=
  let x := (d.tile t).dequeue q
  let r := if q.args.te then
      x.regs.wt q.args.token { state := .set, status := o.st, suppressed := false, origin := q.args.token, detail := o.detail,
                               src := q.src }
    else x.regs
  let r := if q.args.se then r.ws q.args.sreg (q.summary o (r.rs q.args.sreg)) else r
  (d.setTile t ((x.setRegs r).raiseSticky o.sticky)).queueMoved t q.engine

/-- Suppression (R99): nothing executes and no summary register is written; the token carries the failed token's status and
origin. -/
def Dev.suppress (d : Dev) (t : TileRef) (q : Queued) (k : BitVec 6) : Dev :=
  let x := (d.tile t).dequeue q
  let f := x.regs.rt k
  let r := if q.args.te then x.regs.wt q.args.token { f with state := .set, suppressed := true } else x.regs
  (d.setTile t (x.setRegs r)).queueMoved t q.engine

/-! ## Begin -/

/-- The physical tile behind a logical one (R26). -/
def Dev.physicalTile (d : Dev) (t : TileRef) : Nat := if (d.tile t).spared then 16 else t.tile.val

/-- The unit number of a tile (R535). -/
def Dev.tileUnit (d : Dev) (t : TileRef) : BitVec 16 := unitNo 0x01 (17 * t.sector.val + d.physicalTile t)

/-- The unit number of the unit behind engine `e` of a tile (R91, R535). -/
def Dev.engineUnit (d : Dev) (t : TileRef) (e : Nat) : BitVec 16 :=
  let own := fun (k : Nat) => unitNo 0x02 (5 * (17 * t.sector.val + d.physicalTile t) + k)
  match e with
  | 0 => own 0
  | 1 => own 1
  | 2 => unitNo 0x03 t.sector.val
  | 3 => own 2
  | 4 => unitNo 0x04 t.sector.val
  | 5 => unitNo 0x05 t.sector.val
  | 6 => own 3
  | 7 => own 4
  | _ => unitNo 0x0B t.sector.val

/-- Why an engine refuses an instruction that begins, 0 where it does not: absent in the variant (R6), DISABLED or DRAINING
itself or with its tile or partition (R91, R434, R453), or in a fenced partition (R440). -/
def Dev.engineRefuses (v : Variant) (d : Dev) (t : TileRef) (e : Nat) : W8 :=
  let st := (d.entry v (d.engineUnit t e)).state
  let sts := [st, (d.entry v (d.tileUnit t)).state, (d.entry v (unitNo 0x08 t.sector.val)).state]
  if (e = 4 ∧ !v.crosshatch) ∨ (e = 5 ∧ !v.stipple) ∨ st = stAbsent then sUnitAbsent
  else if sts.any (fun x => x == stDisabled || x == stDraining) then sUnitDisabled
  else if sts.any (fun x => x == stFenced || x == stResetting) then sFenced
  else 0

end Sys2Proof.Machine
end

