-- ==== Sys2Proof/Machine/Compute.lean ====
section
/-!
DEFINITION. Sys2Proof/Machine/Compute.lean: what the engines share when an instruction completes: scales, ranked statuses
(R160), residue mismatches (R162 to R164), Press and Graver counts (R186, R188, R194), and the writing of a destination
(R150, R151, R183, R185).
-/

namespace Sys2Proof.Machine

open Sys2Proof

/-! ## Operands of a queued instruction -/

def Queued.da' (q : Queued) : Desc := descOf q.da
def Queued.db' (q : Queued) : Desc := descOf q.db
def Queued.dc' (q : Queued) : Desc := descOf q.dc

/-- A field of MOD (R89). -/
def Queued.mod (q : Queued) (lo n : Nat) : Nat := modOf q.args lo n

/-- Descriptor of operand 0 (DA), 1 (DB) or 2 (DC). -/
def Queued.operand (q : Queued) (k : Nat) : Desc := match k with
  | 0 => q.da'
  | 1 => q.db'
  | _ => q.dc'

/-- σ of an operand: 0 where its fetch was LOST, or where it is not per-tensor-scaled (R327). -/
def Queued.scale (q : Queued) (k : Nat) : Int := match q.sigma.find? (fun e => e.1 == k) with
  | some e => e.2.getD 0
  | none => 0

/-! ## Ranked statuses (R160) -/

/-- A failure met while computing: its status and DETAIL. -/
abbrev Fail := W8 × W32

/-- Rank of a status in R160 and R243; the highest has the least number. -/
def rankOf (s : W8) : Nat :=
  match s.toNat with
  | 0x43 => 1
  | 0x70 => 2
  | 0x50 => 3
  | 0x52 => 4
  | 0x51 => 5
  | 0x10 => 6
  | 0x11 => 7
  | 0x12 => 8
  | 0x13 => 9
  | 0x02 => 10
  | 0x01 => 11
  | _ => 12

/-- The highest-ranked failure, the first of its rank (R160). -/
def worstOf (fs : List Fail) : Option Fail :=
  fs.foldl (fun b f => match b with
    | none => some f
    | some x => if rankOf f.1 < rankOf x.1 then some f else some x) none

/-- DETAIL of a failing operand (R160): the operand in bits 31:30 and the byte offset, saturated. -/
def failDetail (operand off : Nat) : W32 := BitVec.ofNat 32 (operand * 2 ^ 30 + min off 0x3FFFFFFF)

/-- The failures of an operand's elements, in walk order. -/
def Opnd.fails (o : Opnd) (operand : Nat) : List Fail :=
  (o.elems.filter (fun e => e.st != 0)).map (fun e => (e.st, failDetail operand e.off))

/-- Counts the coded blocks that failed (R190, R194). -/
def Dev.pressCount (d : Dev) (t : TileRef) (bs : List PBlock) : Dev :=
  match (bs.filter (fun b => b.st != 0)).reverse with
  | [] => d
  | b :: r => (d.count (At.tile t 0x208) 0 24 (r.length + 1)).setFld (At.tile t 0x208) 24 8 b.st.toNat

/-- Adds Press stall cycles (R188, R194). -/
def Dev.stallCount (d : Dev) (t : TileRef) (n : Nat) : Dev :=
  if n = 0 then d else (d.count (At.tile t 0x204) 0 32 n).onTile t fun x => { x with stall := x.stall + n }

/-! ## Residue (R162 to R167) -/

/-- Whether a unit of RES_LAST has array columns: a multiplier, an adder tree, an accumulator (R167, log 28). -/
def inArray (unit : BitVec 4) : Bool := unit == 2 || unit == 3 || unit == 4

/-- Records a mismatch's place in RES_LAST (R163, R167). -/
def Dev.resLast (d : Dev) (t : TileRef) (q : Queued) (h : ResidueHit) : Dev :=
  d.setReg (At.tile t 0x104)
    (h.unit ++ BitVec.ofNat 4 q.engine ++ BitVec.ofNat 8 q.opcode ++ (if inArray h.unit then h.column else 0) ++ h.row)

/-- Whether the spare tile of a sector stands in for one of its tiles (R26). -/
def Dev.spareInUse (d : Dev) (n : Fin 12) : Bool := (List.range 16).any (fun k => (d.tile ⟨n, Fin.ofNat 16 k⟩).spared)

/-- The repair that a tile marked under R164 will take (R165): 1 spare row or column, 2 spare tile, 3 disable. -/
def Dev.repairOf (d : Dev) (t : TileRef) (unit : BitVec 4) : Nat :=
  let x := d.tile t
  if (unit = 2 ∨ unit = 3) ∧ (x.rowsUsed < 2 ∨ x.colsUsed < 2) then 1
  else if !d.spareInUse t.sector then 2 else 3

/-- The mismatches of an instruction, with the one that RES_CTRL.INJECT forces at its first check (R167); where that one falls
the manual does not say (log 1). -/
def Dev.hitsOf (d : Dev) (t : TileRef) (r : EngineReport) : List ResidueHit × Dev :=
  if d.bit (At.tile t 0x108) 0 then
    let w := d.draw
    let unit : BitVec 4 := 1 + BitVec.ofNat 4 (w.1.toNat % 6)
    (⟨unit, BitVec.ofNat 8 (w.1.toNat / 8 % 64), BitVec.ofNat 8 (w.1.toNat / 512 % (if unit = 5 then 128 else 96)), 0⟩ :: r.hits,
     w.2.setFld (At.tile t 0x108) 0 1 0)
  else (r.hits, d)

/-- Counts an instruction's mismatches (R163, R164): where a second one ends it, the place it fell on. `mark` says whether the
tile is marked for repair. -/
def Dev.residue (d : Dev) (t : TileRef) (q : Queued) (r : EngineReport) (mark : Bool) : Option Nat × Dev :=
  let x := d.hitsOf t r
  match x.1 with
  | [] => (none, x.2)
  | [h] => (none, (x.2.count (At.tile t 0x100) 16 16 1).resLast t q h)
  | h :: h2 :: _ =>
    let d1 := if h.at_ < h2.at_ then x.2.count (At.tile t 0x100) 16 16 1 else x.2
    let d2 := (d1.count (At.tile t 0x100) 0 16 1).resLast t q h2
    (some h2.at_, if mark then d2.setFld (At.tile t 0x108) 1 2 (d2.repairOf t h2.unit) else d2)

/-! ## Destinations -/

/-- What an instruction writes to an element: an FP32 result, an I32 result, an encoding unchanged, the NaN of a failing read
or residue error, or nothing. -/
inductive DVal where
  | f (v : FVal)
  | i (c : Nat)
  | raw (c : Nat)
  | err
  | keep
  deriving DecidableEq, Repr

/-- The value that an element's conversion starts from. -/
def DVal.value (fmt : Nat) (sigma : Int) : DVal → FVal
  | .f v => v
  | .i c => (f32 (toF32 (.ofInt (BitVec.ofNat 32 c).toInt)).1)
  | .raw c => codeValue fmt sigma c
  | .err => .qnan
  | .keep => .zero

/-- The code of an element in a format with no blocks, and whether it sets OVERFLOW (R119, R151). -/
def DVal.code (fmt : Nat) (sigma : Int) : DVal → Nat × Bool
  | .f v => codeOf fmt sigma v
  | .i c => if fmt = nI32 then (c, false) else codeOf fmt sigma (DVal.value fmt sigma (.i c))
  | .raw c => (c, false)
  | .err => (nanCode fmt, false)
  | .keep => (0, false)

/-- Whether an element is written. -/
def DVal.written : DVal → Bool
  | .keep => false
  | _ => true

def DVal.isErr : DVal → Bool
  | .err => true
  | _ => false

/-- The value that an element converts, for a note (R328): that of an I32 code where the destination is no I32. -/
def DVal.noted (fmt : Nat) (sigma : Int) : DVal → FVal
  | .f v => v
  | .raw c => codeValue fmt sigma c
  | .i c => if fmt = nI32 then .zero else DVal.value fmt sigma (.i c)
  | _ => .zero

/-- What writing a destination comes to. -/
structure DestOut where
  patch : Patch := []
  cause : Option Nat := none
  tally : Tally := {}
  raws : Nat := 0
  entries : Nat := 0
  deriving DecidableEq, Repr

/-- Puts one element of a plain row with no blocks; a CF4 element shares its byte with its neighbour (R114). -/
def Patch.putElem (p : Patch) (s : Src) (fmt row i c : Nat) : Patch :=
  if fmtBits fmt = 4 then
    let a := row + i / 2
    let old := ((Tab.look none p a).getD (s.byte a)).toNat
    Patch.put p a [BitVec.ofNat 8 (if i % 2 = 0 then old / 16 * 16 + c % 16 else old % 16 + 16 * (c % 16))]
  else Patch.put p (row + i * (fmtBits fmt / 8)) (toLE (fmtBits fmt / 8) c)

/-- A CB block from the elements written to it, padded with +0 (R125, R150): the block, and whether cause 3 applies. -/
def destBlock (fmt : Nat) (sigma : Int) (vs : List DVal) : Block32 × Bool :=
  let xs := vs.map (fun x => toBf16 (x.value fmt sigma))
  let b := encodeBlock fmt (xs ++ List.replicate (32 - xs.length) .zero)
  (b.1, b.2 && vs.any (fun x => !x.isErr && ((toBf16 (x.value fmt sigma)).isNan || (toBf16 (x.value fmt sigma)).isInf)))

/-- One row of a destination (R150, R151, R170, R183); `copy` gives the CB blocks of the row that are copied unchanged
(R153). -/
def destRow (s : Src) (dst : Desc) (sigma : Int) (fallback : Bool) (free : Nat → Nat) (copy : Nat → Option Block32)
    (row : Nat) (vs : List DVal) (o : DestOut) : DestOut :=
  let fmt := dst.fmt
  if isBlockFmt fmt then
    let gs := groupsOf vs
    let bs := gs.mapIdx (fun j g => match copy j with
      | some b => (b, false)
      | none => destBlock fmt sigma g)
    let ty := (gs.zip bs).foldl (fun (t : Tally) g => t.add (tallyBlock fmt g.2.1 (g.1.map (fun x => x.value fmt sigma)) g.1.length)) {}
    let cause := if bs.any (·.2) then some 3 else none
    if dst.coded then
      let pad := bs.map (·.1) ++ List.replicate ((8 - bs.length % 8) % 8) (encodeBlock fmt (List.replicate 32 .zero)).1
      let cbs := (List.range (pad.length / 8)).map (fun j => (pad.drop (8 * j)).take 8)
      let ks := cbs.map (fun c => codeBlock fmt dst.table fallback (c.flatMap (·.codes)) c)
      { o with patch := o.patch.put row (codedRow dst.nb free (ks.map (·.1))), cause := orCause o.cause cause,
               tally := o.tally.add ty, raws := o.raws + (ks.filter (·.2)).length, entries := o.entries + indexEntries dst.nb }
    else
      { o with patch := o.patch.put row (bs.flatMap (fun b => writeBlock fmt b.1)), cause := orCause o.cause cause,
               tally := o.tally.add ty }
  else if isMxFmt fmt then
    let gs := groupsOf vs
    let rs := gs.map (fun g => (mxEncode fmt (g.map (fun x => x.value fmt sigma) ++ List.replicate (32 - g.length) .zero)).1)
    let ty := (gs.zip rs).foldl (fun (t : Tally) g => t.add (tallyMx fmt g.2 (g.1.map (fun x => x.value fmt sigma)))) {}
    { o with patch := o.patch.put row rs.flatten, tally := o.tally.add ty }
  else
    let cs := vs.map (fun x => x.code fmt sigma)
    let ty := ((vs.zip cs).filter (fun x => x.1.written)).foldl
      (fun (t : Tally) x => t.add (tallyElem fmt x.2.1 (x.1.value fmt sigma))) {}
    let cause := if cs.any (·.2) then some 0 else none
    if dst.coded then
      let pad := cs.map (·.1) ++ List.replicate ((256 - cs.length % 256) % 256) 0
      let ks := (List.range (pad.length / 256)).map (fun j => codeBlock fmt dst.table fallback ((pad.drop (256 * j)).take 256) [])
      { o with patch := o.patch.put row (codedRow dst.nb free (ks.map (·.1))), cause := orCause o.cause cause,
               tally := o.tally.add ty, raws := o.raws + (ks.filter (·.2)).length, entries := o.entries + indexEntries dst.nb }
    else
      { o with
          patch := ((vs.zip cs).mapIdx (fun i x => (i, x))).foldl (fun (p : Patch) e =>
            if e.2.1.written then p.putElem s fmt row e.1 e.2.2.1 else p) o.patch
          cause := orCause o.cause cause
          tally := o.tally.add ty }

/-- A destination from its elements in walk order; `s` is the destination's space before the write, and `copy` gives the CB
blocks copied unchanged, numbered in walk order. -/
def destOut (s : Src) (dst : Desc) (sigma : Int) (fallback : Bool) (free : Nat → Nat) (copy : Nat → Option Block32)
    (vs : List DVal) : DestOut :=
  (List.range ((vs.length + dst.e0 - 1) / dst.e0)).foldl (fun (o : DestOut) r =>
    destRow s dst sigma fallback (fun j => free (o.entries + j)) (fun j => copy (r * (dst.e0 / 32) + j)) (dst.rowAddr r)
      ((vs.drop (r * dst.e0)).take dst.e0) o) {}

/-- The largest magnitude that an instruction converts, NaN apart (R328, R330). -/
def notedMax (fmt : Nat) (sigma : Int) (vs : List DVal) : W32 :=
  (toF32 (vs.foldl (fun (m : FVal) x =>
    let a := (x.noted fmt sigma).abs
    if m.lt a then a else m) .zero)).1

/-- Adds an instruction's counts to a tally slot of its sector, saturating (R186, R341). -/
def Dev.addTally (d : Dev) (n slot : Nat) (y : Tally) : Dev :=
  let add := fun (s : Sector) (c k : Nat) =>
    { s with tallies := Tab.alter (0 : W64) s.tallies (6 * slot + c) (fun v => BitVec.ofNat 64 (min (v.toNat + k) (2 ^ 64 - 1))) }
  d.onSector n fun s => add (add (add (add (add (add s 0 y.total) 1 y.zeros) 2 y.saturations) 3 y.subnormals) 4 y.nonfinite) 5 y.flushed

/-- A note for the record that a destination names (R328); SCALE_NOTE applies it. -/
def Dev.note (d : Dev) (t : TileRef) (q : Queued) (dst : Desc) (v : W32) : Dev :=
  if dst.scaleRec = 0xFFF then d
  else { d with notes := d.notes ++ [{ tile := t, ctx := q.ctx, rec_ := dst.scaleRec, step := q.step, value := v }] }

/-- Counts, sticky, tallies and note of a destination written (R186, R194, R328, R330); `max_` is the largest magnitude
converted. -/
def Dev.destCounts (d : Dev) (t : TileRef) (q : Queued) (dst : Desc) (o : DestOut) (max_ : W32) : Dev :=
  let d := match o.cause with
    | none => d
    | some c => d.overflow t c q.engine q.opcode dst.scaleRec max_
  let d := if dst.watchEn then d.addTally t.sector.val dst.watch o.tally else d
  let d := if o.raws = 0 then d else d.count (At.tile t 0x20C) 0 32 o.raws
  (({ d with free := d.free + o.entries }).note t q dst max_)

/-- Writes the elements of a destination in tile memory, the sector buffer or an accumulator bank: the failure of a partial
line where there is one (R160, R552), and the device after it. -/
def Dev.writeDest (d : Dev) (t : TileRef) (q : Queued) (dst : Desc) (sigma : Int) (copy : Nat → Option Block32)
    (vs : List DVal) : List Fail × Dev :=
  let o := destOut (d.src t dst.space dst.bank) dst sigma (d.bit (At.tile t 0x200) 0)
    (fun j => (Config.freeWord (d.free + j)).toNat) copy vs
  let w := d.applyLines t dst.space dst.bank o.patch
  (match w.1 with
    | [] => []
    | f :: _ => [(f.1, failDetail 2 (dst.firstIn vs.length (w.1.map (fun e => e.2 / 64))))],
   w.2.destCounts t q dst o (notedMax dst.fmt sigma vs))

end Sys2Proof.Machine
end

