-- ==== Sys2Proof/Machine/Matrix.lean ====
section
/-!
DEFINITION. Sys2Proof/Machine/Matrix.lean: the matrix engine (R135 to R146): issue of its instructions, with promotion inside a
repeated bracket (R334), and what each does when it completes.
-/

namespace Sys2Proof.Machine

open Sys2Proof

/-! ## Issue -/

/-- Streaming formats of an MMA (R135). -/
def mmaStreams (op : Nat) : List Nat :=
  match op with
  | 0x10 => [nE4, nCB8E4]
  | 0x11 => [nE5, nCB8E5]
  | 0x12 => [nCF4, nCB4]
  | 0x13 => [nBF16]
  | 0x14 => [nFP16]
  | _ => [nFP32]

/-- Stationary formats of an MMA (R135). -/
def mmaStationary (op : Nat) : List Nat :=
  match op with
  | 0x10 => [nE4, nE5, nCB8E4, nCB8E5, nCF4, nCB4]
  | 0x11 => [nE4, nE5, nCB8E4, nCB8E5, nCF4, nCB4]
  | 0x12 => [nCF4, nCB4]
  | 0x13 => [nBF16, nFP16]
  | 0x14 => [nBF16, nFP16]
  | _ => [nFP32]

/-- Largest K of an MMA (R135). -/
def mmaLargestK (op : Nat) : Nat :=
  match op with
  | 0x10 => 768
  | 0x11 => 768
  | 0x12 => 1536
  | _ => 384

/-- Formats an MLOAD accepts: those some MMA takes as its stationary operand. -/
def mloadFormats : List Nat := [nE4, nE5, nCB8E4, nCB8E5, nCF4, nCB4, nBF16, nFP16, nFP32]

/-- Largest K of an MLOAD (R145). -/
def mloadLargestK (fmt : Nat) : Nat :=
  if fmt = nCF4 ∨ fmt = nCB4 then 1536 else if fmt = nBF16 ∨ fmt = nFP16 ∨ fmt = nFP32 then 384 else 768

/-- The checks of an MLOAD (R90, R94, R142, R145). -/
def mloadOk (w : IssueView) : Bool :=
  w.a.db == 0 && w.a.dc == 0 && w.m 1 18 == 0 && w.da.ok w.x.ctx.toNat false mloadFormats &&
  decide (w.da.space ≤ 1) && w.da.ndim == 2 && decide (w.da.e1 ≤ 64) && decide (w.da.e0 ≤ mloadLargestK w.da.fmt)

/-- The checks of an MZERO (R142, R145). -/
def mzeroOk (w : IssueView) : Bool :=
  w.a.da == 0 && w.a.db == 0 && w.a.dc == 0 && w.m 18 1 == 0 &&
  decide (w.m 2 8 + w.m 10 8 + 1 ≤ 256)

/-- What issue knows of a buffer. -/
def Tile.bufRec (x : Tile) (b : Nat) : Option BufRec := if b = 0 then x.rec0 else x.rec1

def Tile.setBufRec (x : Tile) (b : Nat) (r : Option BufRec) : Tile := if b = 0 then { x with rec0 := r } else { x with rec1 := r }

/-- The checks of an MMA of opcode `op` with pass mode `pass` (R142, R145). -/
def mmaOk (op pass : Nat) (w : IssueView) : Bool :=
  w.a.db == 0 && w.a.dc == 0 && w.m 14 5 == 0 && w.da.ok w.x.ctx.toNat false (mmaStreams op) &&
  decide (w.da.space ≤ 1) && decide (pass ≤ 2) && (decide (0x13 ≤ op) || pass == 0) &&
  decide (w.m 2 8 + w.da.rows ≤ 256) && decide (w.da.e0 ≤ mmaLargestK op) &&
  (match w.x.bufRec (w.m 10 1) with
   | none => false
   | some r => r.whole && (mmaStationary op).contains r.fmt && decide (r.k = w.da.e0))

/-- Issue's record of an MLOAD (R136, R145). -/
def mloadPost (w : IssueView) (x : Tile) : Tile :=
  let b := w.m 0 1
  let r : BufRec := { fmt := w.da.fmt, k := w.da.e0, n := w.da.e1, whole := true }
  let other := x.bufRec (1 - b)
  (x.setBufRec b (some r)).setBufRec (1 - b)
    (if w.da.fmt = nFP32 then some { r with whole := false }
     else other.map (fun o => if o.fmt = nFP32 then { o with whole := false } else o))

/-- The opcode that executes and its pass mode, for an MMA issued as `op` (R334). -/
def promoteMma (x : Tile) (op pass : Nat) : Nat × Nat :=
  match x.bracket with
  | none => (op, pass)
  | some b =>
    if !b.table then (op, pass)
    else if b.level = 1 ∧ op ≤ 0x12 then (0x13, 0)
    else if b.level = 2 ∧ op ≤ 0x14 then (0x15, 2)
    else (op, pass)

/-- Issue of an MMA. The instruction queued carries the pass mode that executes. -/
def Dev.issueMma (d : Dev) (t : TileRef) (op : Nat) (a : TensorArgs) : Dev :=
  let p := promoteMma (d.tile t) op (modOf a 11 2)
  let m := (a.mod &&& ~~~(0x1800#19)) ||| BitVec.ofNat 19 (p.2 * 2 ^ 11)
  d.issue t (encTensor 0 (BitVec.ofNat 8 op) a) 0 p.1 { a with mod := m } (mmaOk p.1 p.2) noPost

def execMload (t : TileRef) (a : TensorArgs) (s : State) : Host.Outcome State Fault Refusal :=
  s.onDev fun d => d.issue t (encTensor 0 0x01 a) 0 0x01 a mloadOk mloadPost

def execMzero (t : TileRef) (a : TensorArgs) (s : State) : Host.Outcome State Fault Refusal :=
  s.onDev fun d => d.issue t (encTensor 0 0x02 a) 0 0x02 a mzeroOk noPost

def execMmaE4 (t : TileRef) (a : TensorArgs) (s : State) : Host.Outcome State Fault Refusal :=
  s.onDev fun d => d.issueMma t 0x10 a

def execMmaE5 (t : TileRef) (a : TensorArgs) (s : State) : Host.Outcome State Fault Refusal :=
  s.onDev fun d => d.issueMma t 0x11 a

def execMmaC4 (t : TileRef) (a : TensorArgs) (s : State) : Host.Outcome State Fault Refusal :=
  s.onDev fun d => d.issueMma t 0x12 a

def execMmaBf (t : TileRef) (a : TensorArgs) (s : State) : Host.Outcome State Fault Refusal :=
  s.onDev fun d => d.issueMma t 0x13 a

def execMmaHf (t : TileRef) (a : TensorArgs) (s : State) : Host.Outcome State Fault Refusal :=
  s.onDev fun d => d.issueMma t 0x14 a

def execMmaF32 (t : TileRef) (a : TensorArgs) (s : State) : Host.Outcome State Fault Refusal :=
  s.onDev fun d => d.issueMma t 0x15 a

/-! ## Completion -/

def Tile.buffer (x : Tile) (b : Nat) : Option Buffer := if b = 0 then x.sb0 else x.sb1

def Tile.setBuffer (x : Tile) (b : Nat) (v : Option Buffer) : Tile := if b = 0 then { x with sb0 := v } else { x with sb1 := v }

/-- The values from place `k` on made NaN, where a residue error ended the instruction there (R164). -/
def nanFrom (r : Option Nat) (unit : Nat) (vs : List FVal) : List FVal :=
  match r with
  | none => vs
  | some k => vs.mapIdx (fun i v => if k * unit ≤ i then .qnan else v)

/-- MLOAD (R136, R143): the operand's exact values enter the buffer; an FP32 operand takes both buffers. -/
def Dev.doMload (d : Dev) (t : TileRef) (q : Queued) (r : EngineReport) : Outcome × Dev :=
  let dn := q.da'
  let b := q.mod 0 1
  let o := (d.src t dn.space dn.bank).operand dn (q.scale 0) dn.total
  let z := ((d.pressCount t o.coded).stallCount t (matrixStall dn.fmt o.coded r.stall)).residue t q r true
  let vs := nanFrom z.1 dn.e0 (o.elems.map (·.v))
  let mk := fun (f : FVal → FVal) => some { fmt := dn.fmt, k := dn.e0, n := dn.e1, vals := vs.map f : Buffer }
  let d1 := z.2.onTile t fun x =>
    if dn.fmt = nFP32 then
      (x.setBuffer b (mk (fun v => (splitHiLo true v).1))).setBuffer (1 - b) (mk (fun v => (splitHiLo true v).2))
    else x.setBuffer b (mk id)
  match z.1 with
  | some _ => (⟨sResidue, d1.reg (At.tile t 0x104), none, {}⟩, d1)
  | none =>
    match worstOf (o.fails 0) with
    | some f => (⟨f.1, f.2, none, {}⟩, d1)
    | none => (⟨sDone, 0, none, {}⟩, d1)

/-- The FP32 code of accumulator element `j` of a row. -/
def Dev.accElem (d : Dev) (t : TileRef) (bank row j : Nat) : W32 :=
  BitVec.ofNat 32 (Mem.nat d.acc (accAddr t bank (256 * row + 4 * j)) 4)

/-- MZERO (R146): every element of the rows becomes +0. -/
def Dev.doMzero (d : Dev) (t : TileRef) (q : Queued) : Outcome × Dev :=
  let bank := q.mod 0 2
  let row := q.mod 2 8
  let n := q.mod 10 8 + 1
  let a := accAddr t bank (256 * row)
  (⟨sDone, 0, none, {}⟩,
   { d with acc := Mem.clear d.acc a (256 * n),
            accBad := d.accBad.filter (fun x => !(decide (a / 256 ≤ x) && decide (x < a / 256 + n))) })

/-- The parts of a streaming and of a stationary operand along K (R132): `lo` holds the low parts of an FP32 operand. -/
def mmaPairs (wide : Bool) (arow bcol lo : List FVal) : List ((FVal × FVal) × (FVal × FVal)) :=
  arow.mapIdx (fun k a => (splitHiLo wide a, (bcol.getD k .zero, lo.getD k .zero)))

/-- One row of an MMA's results: element `n` of the N columns, with the causes met in order (R144). -/
def mmaRow (mode : Nat) (wide zero : Bool) (old : Nat → W32) (arow : List FVal) (b lo : Buffer) : List (W32 × Option Nat) :=
  (List.range b.n).map (fun n =>
    accElement (if zero then 0 else old n) mode
      (mmaPairs wide arow ((b.vals.drop (n * b.k)).take b.k) ((lo.vals.drop (n * b.k)).take b.k)))

/-- MMA (R144): M rows of results into the accumulator rows from ROW on; columns N to 63 keep their contents. DESIGN CHOICE (log 60): with
an MLOAD that was suppressed or refused, the buffer holds what it held; an empty one has no columns, so nothing is written. -/
def Dev.doMma (d : Dev) (t : TileRef) (q : Queued) (r : EngineReport) : Outcome × Dev :=
  let dn := q.da'
  let x := d.tile t
  let bank := q.mod 0 2
  let row := q.mod 2 8
  let bf := q.mod 10 1
  let mode := q.mod 11 2
  let zero := decide (q.mod 13 1 = 1)
  let wide := decide (q.opcode = 0x15)
  let none_ : Buffer := { fmt := 0, k := dn.e0, n := 0, vals := [] }
  let b := (x.buffer bf).getD none_
  let lo := if wide then (x.buffer (1 - bf)).getD none_ else { none_ with vals := [] }
  let o := (d.src t dn.space dn.bank).operand dn (q.scale 0) dn.total
  let z := ((d.pressCount t o.coded).stallCount t (matrixStall dn.fmt o.coded r.stall)).residue t q r true
  let as := o.elems.map (·.v)
  let acc := d.src t 3 bank
  let rows := (List.range dn.rows).map (fun m =>
    let bad := !zero && acc.st (256 * (row + m)) != 0
    let ok := mmaRow mode wide zero (fun n => if bad then qnan32 else d.accElem t bank (row + m) n)
      ((as.drop (m * dn.e0)).take dn.e0) b lo
    match z.1 with
    | none => ok
    | some k => if k ≤ m then ok.map (fun _ => (qnan32, none)) else ok)
  let cause := (rows.flatten).foldl (fun c e => orCause c e.2) none
  let patch := (rows.mapIdx (fun m es => (m, es))).foldl (fun (p : Patch) e =>
    Patch.put p (256 * (row + e.1)) (e.2.flatMap (fun w => toLE 4 w.1.toNat))) []
  let w := z.2.applyPatch t 3 bank patch
  let d1 := match cause with
    | none => w.2.2
    | some c => w.2.2.overflow t c 0 q.opcode 0xFFF 0
  let bads := if zero then [] else (List.range dn.rows).filter (fun m => acc.st (256 * (row + m)) != 0)
  let fails := o.fails 0 ++ bads.map (fun m => (sEcc, failDetail 2 (256 * m))) ++
    (if w.1 = 0 then [] else [(w.1, failDetail 2 (w.2.1 - 256 * row))])
  match z.1 with
  | some _ => (⟨sResidue, d1.reg (At.tile t 0x104), none, {}⟩, d1)
  | none =>
    match worstOf fails with
    | some f => (⟨f.1, f.2, none, {}⟩, d1)
    | none => (⟨sDone, 0, none, {}⟩, d1)

/-- What a matrix instruction does when it completes. -/
def Dev.doMatrix (d : Dev) (t : TileRef) (q : Queued) (r : EngineReport) : Outcome × Dev :=
  match q.opcode with
  | 0x01 => d.doMload t q r
  | 0x02 => d.doMzero t q
  | _ => d.doMma t q r

end Sys2Proof.Machine
end

