-- ==== Sys2Proof/Machine/Vector.lean ====
section
/-!
DEFINITION. Sys2Proof/Machine/Vector.lean: the vector engine (R149 to R158): issue of its instructions and what each does when
it completes.
-/

namespace Sys2Proof.Machine

open Sys2Proof

/-! ## Issue (R149, R152 to R158) -/

/-- The floating-point formats of the vector engine (R149). -/
def floatFormats : List Nat := [nFP32, nFP16, nBF16, nE4, nE5, nCF4, nCB8E4, nCB8E5, nCB4]

/-- The formats of the vector engine (R149). -/
def vecFormats : List Nat := floatFormats ++ [nI32]

/-- The OCP and MX formats (R149). -/
def ocpFormats : List Nat := [nOcpE4M3, nMx8E4, nMx8E5, nMx4]

/-- How a vector opcode uses its descriptors (R149). -/
inductive VForm where
  | binary | unary | reduce | acc
  deriving DecidableEq, Repr

def vecForm (op : Nat) : VForm :=
  if op = 0x50 then .acc
  else if 0x40 ≤ op then .reduce
  else if op = 0x07 ∨ op = 0x08 ∨ op = 0x0B ∨ (0x20 ≤ op ∧ op ≤ 0x33) then .unary
  else .binary

/-- A vector operand: the checks of R94 and its space (R149). -/
def vecOperand (ctx : Nat) (dest : Bool) (fmts : List Nat) (d : Desc) : Bool := d.ok ctx dest fmts && d.space != 2

/-- Whether the formats of the operands may stand together (R149, R153, R155, R157, R158). -/
def vecKinds (op : Nat) (bias : Bool) (da db dc : Desc) : Bool :=
  let i := fun (d : Desc) => d.fmt == nI32
  if op = 0x30 ∨ op = 0x31 then true
  else if 0x20 ≤ op ∧ op ≤ 0x25 then !i da && !i dc
  else if op = 0x32 then ocpFormats.contains da.fmt && (dc.fmt == nFP32 || dc.fmt == nBF16)
  else if op = 0x33 then (da.fmt == nFP32 || da.fmt == nFP16 || da.fmt == nBF16) && ocpFormats.contains dc.fmt
  else if op = 0x43 then !i da
  else if 0x40 ≤ op ∧ op ≤ 0x44 then true
  else if op = 0x50 then da.space == 3 && da.fmt == nFP32 && !i dc && (!bias || !i db)
  else if 0x0C ≤ op ∧ op ≤ 0x0E then
    da.fmt == db.fmt && db.fmt == dc.fmt && [nFP32, nFP16, nBF16, nI32].contains da.fmt
  else if op = 0x09 then i da == i db && (!i da || i dc)
  else if op = 0x0A then db.fmt == dc.fmt && (!i db || i da)
  else if op = 0x38 ∨ op = 0x39 then i db && i da == i dc
  else if op = 0x07 ∨ op = 0x08 ∨ op = 0x0B then i da == i dc
  else i da == i db && i db == i dc

/-- The checks of a vector instruction (R90, R94, R149, R152, R153). -/
def vecOk (op : Nat) (w : IssueView) : Bool :=
  let form := vecForm op
  let bias := decide (w.m 16 1 = 1)
  let func := w.m 12 3
  let ctx := w.x.ctx.toNat
  let src := if op = 0x32 then ocpFormats else vecFormats
  let dst := if op = 0x33 then ocpFormats else vecFormats
  w.m 17 2 == 0 && (op == 0x50 || w.m 15 2 == 0) &&
  (if op = 0x09 ∨ op = 0x50 then decide (func ≤ 6) else func == 0) &&
  vecOperand ctx false src w.da &&
  (match form with
   | .binary => vecOperand ctx false vecFormats w.db && vecOperand ctx true dst w.dc
   | .unary => w.a.db == 0 && vecOperand ctx true dst w.dc
   | .reduce => w.a.db == 0 && w.a.dc == 0 && w.a.se
   | .acc => (if bias then vecOperand ctx false floatFormats w.db else w.a.db == 0) && vecOperand ctx true dst w.dc) &&
  vecKinds op bias w.da w.db w.dc

/-- Issue of a vector instruction. -/
def Dev.issueVec (d : Dev) (t : TileRef) (op : Nat) (a : TensorArgs) : Dev :=
  d.issue t (encTensor 1 (BitVec.ofNat 8 op) a) 1 op a (vecOk op) noPost

def execVadd (t : TileRef) (a : TensorArgs) (s : State) : Host.Outcome State Fault Refusal :=
  s.onDev fun d => d.issueVec t 0x01 a

def execVsub (t : TileRef) (a : TensorArgs) (s : State) : Host.Outcome State Fault Refusal :=
  s.onDev fun d => d.issueVec t 0x02 a

def execVmul (t : TileRef) (a : TensorArgs) (s : State) : Host.Outcome State Fault Refusal :=
  s.onDev fun d => d.issueVec t 0x03 a

def execVfma (t : TileRef) (a : TensorArgs) (s : State) : Host.Outcome State Fault Refusal :=
  s.onDev fun d => d.issueVec t 0x04 a

def execVmax (t : TileRef) (a : TensorArgs) (s : State) : Host.Outcome State Fault Refusal :=
  s.onDev fun d => d.issueVec t 0x05 a

def execVmin (t : TileRef) (a : TensorArgs) (s : State) : Host.Outcome State Fault Refusal :=
  s.onDev fun d => d.issueVec t 0x06 a

def execVabs (t : TileRef) (a : TensorArgs) (s : State) : Host.Outcome State Fault Refusal :=
  s.onDev fun d => d.issueVec t 0x07 a

def execVneg (t : TileRef) (a : TensorArgs) (s : State) : Host.Outcome State Fault Refusal :=
  s.onDev fun d => d.issueVec t 0x08 a

def execVcmp (t : TileRef) (a : TensorArgs) (s : State) : Host.Outcome State Fault Refusal :=
  s.onDev fun d => d.issueVec t 0x09 a

def execVsel (t : TileRef) (a : TensorArgs) (s : State) : Host.Outcome State Fault Refusal :=
  s.onDev fun d => d.issueVec t 0x0A a

def execVmov (t : TileRef) (a : TensorArgs) (s : State) : Host.Outcome State Fault Refusal :=
  s.onDev fun d => d.issueVec t 0x0B a

def execVand (t : TileRef) (a : TensorArgs) (s : State) : Host.Outcome State Fault Refusal :=
  s.onDev fun d => d.issueVec t 0x0C a

def execVor (t : TileRef) (a : TensorArgs) (s : State) : Host.Outcome State Fault Refusal :=
  s.onDev fun d => d.issueVec t 0x0D a

def execVxor (t : TileRef) (a : TensorArgs) (s : State) : Host.Outcome State Fault Refusal :=
  s.onDev fun d => d.issueVec t 0x0E a

def execVexp (t : TileRef) (a : TensorArgs) (s : State) : Host.Outcome State Fault Refusal :=
  s.onDev fun d => d.issueVec t 0x20 a

def execVlog (t : TileRef) (a : TensorArgs) (s : State) : Host.Outcome State Fault Refusal :=
  s.onDev fun d => d.issueVec t 0x21 a

def execVrcp (t : TileRef) (a : TensorArgs) (s : State) : Host.Outcome State Fault Refusal :=
  s.onDev fun d => d.issueVec t 0x22 a

def execVrsq (t : TileRef) (a : TensorArgs) (s : State) : Host.Outcome State Fault Refusal :=
  s.onDev fun d => d.issueVec t 0x23 a

def execVsin (t : TileRef) (a : TensorArgs) (s : State) : Host.Outcome State Fault Refusal :=
  s.onDev fun d => d.issueVec t 0x24 a

def execVcos (t : TileRef) (a : TensorArgs) (s : State) : Host.Outcome State Fault Refusal :=
  s.onDev fun d => d.issueVec t 0x25 a

def execVcvt (t : TileRef) (a : TensorArgs) (s : State) : Host.Outcome State Fault Refusal :=
  s.onDev fun d => d.issueVec t 0x30 a

def execVquant (t : TileRef) (a : TensorArgs) (s : State) : Host.Outcome State Fault Refusal :=
  s.onDev fun d => d.issueVec t 0x31 a

def execVimport (t : TileRef) (a : TensorArgs) (s : State) : Host.Outcome State Fault Refusal :=
  s.onDev fun d => d.issueVec t 0x32 a

def execVexport (t : TileRef) (a : TensorArgs) (s : State) : Host.Outcome State Fault Refusal :=
  s.onDev fun d => d.issueVec t 0x33 a

def execVperm (t : TileRef) (a : TensorArgs) (s : State) : Host.Outcome State Fault Refusal :=
  s.onDev fun d => d.issueVec t 0x38 a

def execVgather (t : TileRef) (a : TensorArgs) (s : State) : Host.Outcome State Fault Refusal :=
  s.onDev fun d => d.issueVec t 0x39 a

def execVrsum (t : TileRef) (a : TensorArgs) (s : State) : Host.Outcome State Fault Refusal :=
  s.onDev fun d => d.issueVec t 0x40 a

def execVrmax (t : TileRef) (a : TensorArgs) (s : State) : Host.Outcome State Fault Refusal :=
  s.onDev fun d => d.issueVec t 0x41 a

def execVrmin (t : TileRef) (a : TensorArgs) (s : State) : Host.Outcome State Fault Refusal :=
  s.onDev fun d => d.issueVec t 0x42 a

def execVrssq (t : TileRef) (a : TensorArgs) (s : State) : Host.Outcome State Fault Refusal :=
  s.onDev fun d => d.issueVec t 0x43 a

def execVramax (t : TileRef) (a : TensorArgs) (s : State) : Host.Outcome State Fault Refusal :=
  s.onDev fun d => d.issueVec t 0x44 a

def execVacc (t : TileRef) (a : TensorArgs) (s : State) : Host.Outcome State Fault Refusal :=
  s.onDev fun d => d.issueVec t 0x50 a

/-! ## Elements -/

/-- An element in the engine's working format: an FP32 value with the sign of a NaN kept, an I32 code, or one that could not
be read (R124, R160). -/
inductive VElem where
  | f (v : FVal)
  | i (c : W32)
  | err
  deriving DecidableEq, Repr

/-- An operand's element in the working format, and whether rounding it to FP32 overflows (R119, R124). -/
def Elem.work (fmt : Nat) (e : Elem) : VElem × Bool :=
  if e.st ≠ 0 then (.err, false)
  else if fmt = nI32 then (.i (BitVec.ofNat 32 e.code), false)
  else match e.v with
    | .nan s => (.f (.nan s), false)
    | v => let r := toF32 v; (.f (f32 r.1), r.2)

/-- The value of an element; a NaN where it could not be read. -/
def VElem.val : VElem → FVal
  | .f v => v
  | .i c => .ofInt c.toInt
  | .err => .qnan

def VElem.isErr : VElem → Bool
  | .err => true
  | _ => false

/-- A result: what is written, and the cause of R330 where it is one. -/
abbrev VRes := DVal × Option Nat

/-- An exact result rounded once to FP32 (R151); `bad` says that the operation is invalid, `fin` that its operands are finite. -/
def roundRes (v : FVal) (bad fin : Bool) : VRes :=
  let r := toF32 v
  (.f (f32 r.1), orCause (cause2 bad) (cause1 (fin && r.2)))

/-- The larger value, +0 above −0; a NaN gives the canonical one (R118, R154). -/
def fmax (a b : FVal) : FVal :=
  if a.isNan || b.isNan then .qnan else if a.lt b then b else if b.lt a then a else if a.neg then b else a

/-- The smaller value, −0 below +0. -/
def fmin (a b : FVal) : FVal :=
  if a.isNan || b.isNan then .qnan else if a.lt b then a else if b.lt a then b else if a.neg then a else b

/-- A comparison of VCMP (R153, R154). -/
def vcmp (func : Nat) (a b : FVal) : Bool :=
  let nan := a.isNan || b.isNan
  match func with
  | 0 => a.eqv b
  | 1 => nan || !a.eqv b
  | 2 => a.lt b
  | 3 => !nan && !b.lt a
  | 4 => b.lt a
  | 5 => !nan && !a.lt b
  | _ => nan

/-- An arithmetic result of two FP32 operands (R153): VADD, VSUB, VMUL, VFMA with `c`, VMAX, VMIN. -/
def arithF (op : Nat) (a b c : FVal) : VRes :=
  let fin := !a.isInf && !b.isInf && !c.isInf
  match op with
  | 0x01 => let r := a.add b; roundRes r.1 r.2 fin
  | 0x02 => let r := a.sub b; roundRes r.1 r.2 fin
  | 0x03 => let r := a.mul b; roundRes r.1 r.2 fin
  | 0x04 => let r := a.fma b c; roundRes r.1 r.2 fin
  | 0x05 => (.f (fmax a b), none)
  | _ => (.f (fmin a b), none)

/-- An arithmetic result of I32 operands, modulo 2^32 (R151, R153). -/
def arithI (op : Nat) (a b c : W32) : W32 :=
  match op with
  | 0x01 => a + b
  | 0x02 => a - b
  | 0x03 => a * b
  | 0x04 => a * b + c
  | 0x05 => if a.slt b then b else a
  | _ => if a.slt b then a else b

/-- A bitwise result on encodings (R153). -/
def bitwise (op a b : Nat) : Nat := if op = 0x0C then a &&& b else if op = 0x0D then a ||| b else a ^^^ b

/-- An elementary function (R155). -/
def elemFn (op : Nat) (w : W32) : W32 × Option Nat :=
  match op with
  | 0x20 => elemExp w
  | 0x21 => elemLog w
  | 0x22 => elemRcp w
  | 0x23 => elemRsq w
  | 0x24 => elemTrig false w
  | _ => elemTrig true w

/-- The FP32 code of a value that has one. -/
def codeF (v : FVal) : W32 := (toF32 v).1

/-- A VRes that passes a NaN as the NaN of a failing read where an operand could not be read (R160). -/
def orErr (bad : Bool) (r : VRes) : VRes := if bad && (match r.1 with | .f v => v.isNan | _ => true) then (.err, none) else r

/-- The element-wise results of R153, but for VMOV between identical formats, VSEL's unselected elements, VPERM and VGATHER. -/
def elemRes (op func : Nat) (a b c : VElem) : VRes :=
  let bad := a.isErr || b.isErr || (op == 0x04 && c.isErr)
  if op = 0x09 then (.i (if vcmp func a.val b.val then 1 else 0), none)
  else if op = 0x0A then
    match b with
    | .f v => (.f v, none)
    | .i w => (.i w.toNat, none)
    | .err => (.err, none)
  else
    match a, b, c with
    | .i x, .i y, .i z => (.i (arithI op x y z).toNat, none)
    | .i x, .i y, _ => (.i (arithI op x y 0).toNat, none)
    | _, _, _ => orErr bad (arithF op a.val b.val c.val)

/-- The results of the unary opcodes (R153, R155). -/
def unaryRes (op : Nat) (a : VElem) : VRes :=
  match a with
  | .err => (.err, none)
  | .i x => if op = 0x07 then (.i (if x.slt 0 then -x else x).toNat, none) else if op = 0x08 then (.i (-x).toNat, none)
            else (.i x.toNat, none)
  | .f v =>
    if op = 0x07 then (.f v.abs, none)
    else if op = 0x08 then (.f v.negate, none)
    else if 0x20 ≤ op ∧ op ≤ 0x25 then let r := elemFn op (codeF v); (.f (f32 r.1), r.2)
    else (.f v, none)

/-! ## VACC (R158) -/

/-- A value with the causes met so far. -/
abbrev FAcc := W32 × Option Nat

def fstep (c : Option Nat) (r : FVal × Bool) (fin : Bool) : FAcc :=
  let x := toF32 r.1
  (x.1, orCause c (orCause (cause2 r.2) (cause1 (fin && x.2))))

def accMul (a b : FAcc) : FAcc :=
  fstep (orCause a.2 b.2) ((f32 a.1).mul (f32 b.1)) (!(f32 a.1).isInf && !(f32 b.1).isInf)

def accAdd (a b : FAcc) : FAcc :=
  fstep (orCause a.2 b.2) ((f32 a.1).add (f32 b.1)) (!(f32 a.1).isInf && !(f32 b.1).isInf)

def accFma (a b c : FAcc) : FAcc :=
  fstep (orCause a.2 (orCause b.2 c.2)) ((f32 a.1).fma (f32 b.1) (f32 c.1))
    (!(f32 a.1).isInf && !(f32 b.1).isInf && !(f32 c.1).isInf)

def accFn (fn : W32 → W32 × Option Nat) (a : FAcc) : FAcc := let r := fn a.1; (r.1, orCause a.2 r.2)

def accNeg (a : FAcc) : FAcc := (codeF (f32 a.1).negate, a.2)

def accConst (w : W32) : FAcc := (w, none)

def fOne : W32 := 0x3F800000
def gelu1 : W32 := 0x3F4C422A
def gelu2 : W32 := 0x3D372713

/-- tanh_c (R158). -/
def tanhC (z : FAcc) : FAcc :=
  let a := accConst (codeF (f32 z.1).abs)
  let t := accFn elemExp (accMul (accConst 0xC0000000) (a.1, z.2))
  let r := accMul (accAdd (accConst fOne) (accNeg t)) (accFn elemRcp (accAdd (accConst fOne) t))
  (if (f32 r.1).isNan then r.1 else codeF (match f32 r.1 with
    | .fin _ m e => .fin (f32 z.1).neg m e
    | .inf _ => .inf (f32 z.1).neg
    | v => v), r.2)

/-- rcp(1 + exp(−y)) (R158). -/
def sigmoidC (y : FAcc) : FAcc := accFn elemRcp (accAdd (accConst fOne) (accFn elemExp (accNeg y)))

/-- The activations of VACC (R158). -/
def activate (func : Nat) (y : FAcc) : FAcc :=
  match func with
  | 0 => y
  | 1 => (codeF (fmax (f32 y.1) .zero), y.2)
  | 2 => sigmoidC y
  | 3 => accMul y (sigmoidC y)
  | 4 => tanhC y
  | 5 =>
    let u := accMul y y
    let w := accMul u y
    let z := accFma (accConst gelu2) w y
    accMul (accMul (accConst 0x3F000000) y) (accAdd (accConst fOne) (tanhC (accMul (accConst gelu1) z)))
  | _ => let r : FAcc := (codeF (fmax (f32 y.1) .zero), y.2); accMul r r

/-- One element of VACC (R158). -/
def vaccRes (func : Nat) (s : W32) (bias : Option VElem) (x : VElem) : VRes :=
  let bad := x.isErr || (bias.map VElem.isErr).getD false
  let a := accConst (codeF x.val)
  let y := match bias with
    | none => accMul a (accConst s)
    | some b => accFma a (accConst s) (accConst (codeF b.val))
  let r := activate func y
  orErr bad (.f (f32 r.1), r.2)

/-! ## Reductions (R157) -/

/-- The fixed tree over 128 lanes. -/
def treeSum (p : List FAcc) : FAcc :=
  let halve := fun (l : List FAcc) => (List.range (l.length / 2)).map (fun i =>
    accAdd (l.getD i (accConst 0)) (l.getD (i + l.length / 2) (accConst 0)))
  (halve (halve (halve (halve (halve (halve (halve p))))))).getD 0 (accConst 0)

/-- Lane `l` of a sum: its elements in order. -/
def laneSum (sq : Bool) (xs : List W32) (l : Nat) : FAcc :=
  (List.range ((xs.length + 127 - l) / 128)).foldl (fun (p : FAcc) k =>
    let x := accConst (xs.getD (l + 128 * k) 0)
    if sq then accFma x x p else accAdd p x) (accConst 0)

/-- VRSUM, or VRSSQ where `sq`, of FP32 codes (R157). -/
def reduceSum (sq : Bool) (xs : List W32) : FAcc := treeSum ((List.range 128).map (laneSum sq xs))

/-- VRMAX, VRMIN or VRAMAX of FP32 values (R154, R157). -/
def reduceMax (op : Nat) (xs : List FVal) : FVal :=
  match xs.map (fun x => if op = 0x44 then x.abs else x) with
  | [] => .zero
  | y :: ys =>
    let r := ys.foldl (fun m x => if op = 0x42 then fmin m x else fmax m x) y
    if r.isNan then .qnan else r

/-- A reduction of I32 elements as an i64 (R157). -/
def reduceInt (op : Nat) (xs : List Int) : Int :=
  if op = 0x40 then xs.sum
  else
    match xs.map (fun x => if op = 0x44 then x.natAbs else x) with
    | [] => 0
    | y :: ys => ys.foldl (fun m x => if op = 0x42 then min m x else max m x) y

/-- A reduction's result and the cause of R330 where it is one. DESIGN CHOICE (log 60): with an I32 element that cannot be read the result
is 0, as in a residue error (R164). -/
def reduceRes (op fmt : Nat) (xs : List VElem) : Summary × Option Nat :=
  if fmt = nI32 then
    ({ kind := .int, val := if xs.any VElem.isErr then 0 else BitVec.ofInt 64 (reduceInt op (xs.map (fun x =>
        match x with
        | .i c => c.toInt
        | _ => 0))) }, none)
  else if op = 0x40 ∨ op = 0x43 then
    let r := reduceSum (decide (op = 0x43)) (xs.map (fun x => codeF x.val))
    ({ kind := .f32, val := r.1.setWidth 64 }, r.2)
  else ({ kind := .f32, val := (codeF (reduceMax op (xs.map VElem.val))).setWidth 64 }, none)

/-! ## Completion -/

/-- The operands that bound the element count (R150, R156). -/
def vecTotal (q : Queued) : Nat :=
  let bias := decide (q.mod 16 1 = 1)
  match vecForm q.opcode with
  | .binary => min (min q.da'.total q.db'.total) q.dc'.total
  | .unary => min q.da'.total q.dc'.total
  | .reduce => q.da'.total
  | .acc => if bias then min (min q.da'.total q.db'.total) q.dc'.total else min q.da'.total q.dc'.total

/-- The element count asked for (R150, R158). -/
def vecCount (q : Queued) : Nat :=
  if q.opcode ≠ 0x50 ∧ q.args.greg ≠ 0 then q.gval.toNat else q.mod 0 12 + 1

/-- What a vector instruction comes to before its destination is written: results by element, places flagged, sticky. -/
structure VecOut where
  vals : List VRes
  copy : List (Option Block32) := []
  flags : List Nat := []
  indexRange : Bool := false

/-- The CB blocks that VMOV copies unchanged (R153, R160): whole blocks; one that holds a failing element becomes an overflow
block (R125). -/
def vmovBlocks (fmt : Nat) (o : Opnd) (n : Nat) : List (Option Block32) :=
  (List.range (n / 32)).map (fun j =>
    let es := (o.elems.drop (32 * j)).take 32
    if es.any (fun e => e.st != 0) then some (encodeBlock fmt (es.map (fun e => toBf16 e.v))).1 else o.blocks[j]?)

/-- Elements that a conversion to I32, or an export, flags (R126, R128, R154). -/
def convFlags (op fmt : Nat) (vs : List DVal) : List Nat :=
  let at_ := fun (p : DVal → Bool) => ((vs.mapIdx (fun i v => (i, v))).filter (fun e => p e.2)).map (·.1)
  if (op = 0x30 ∨ op = 0x31) ∧ fmt = nI32 then
    at_ (fun v => match v with
      | .f x => (toI32 x).2
      | _ => false)
  else if op = 0x33 ∧ fmt = nOcpE4M3 then
    at_ (fun v => match v with
      | .f x => (ocpEncode x).2
      | _ => false)
  else if op = 0x33 then
    ((groupsOf (vs.map (fun v => v.value fmt 0))).mapIdx (fun j g =>
      let xs := g ++ List.replicate (32 - g.length) FVal.zero
      let r := mxEncode fmt xs
      if !r.2 then []
      else if r.1.headD 0 = 0xFF then [32 * j]
      else
        let k : Int := ((r.1.headD 0).toNat : Int) - 127
        ((List.range g.length).filter (fun i => (mxElem fmt ((xs.getD i .zero).scale (-k))).2)).map (32 * j + ·))).flatten
  else []

/-- Results of the element-wise opcodes of `n` elements. -/
def vecResults (q : Queued) (n : Nat) (a b c : List VElem) (oa ob : Opnd) (oc : Opnd) (gather : Nat → Elem) : VecOut :=
  let op := q.opcode
  let at_ := fun (l : List VElem) i => l.getD i .err
  let same := q.da'.fmt = q.dc'.fmt
  let plain := !isBlockFmt q.dc'.fmt && !q.dc'.coded
  if op = 0x0B ∧ same then
    if isBlockFmt q.dc'.fmt then
      { vals := (oa.elems.take n).map (fun e => if e.st = 0 then (.f e.v, none) else (.err, none)), copy := vmovBlocks q.dc'.fmt oa n }
    else { vals := (oa.elems.take n).map (fun e => if e.st = 0 then (.raw e.code, none) else (.err, none)) }
  else if 0x0C ≤ op ∧ op ≤ 0x0E then
    { vals := (List.range n).map (fun i =>
        let x := oa.elems.getD i ⟨.qnan, 0, sEcc, 0⟩
        let y := ob.elems.getD i ⟨.qnan, 0, sEcc, 0⟩
        if x.st = 0 ∧ y.st = 0 then (.raw (bitwise op x.code y.code), none) else (.err, none)) }
  else if op = 0x0A then
    { vals := (List.range n).map (fun i =>
        if !(at_ a i).val.isZero then elemRes op 0 (at_ a i) (at_ b i) .err
        else if plain then (.keep, none)
        else
          let e := oc.elems.getD i ⟨.qnan, 0, sEcc, 0⟩
          if e.st = 0 then (.f e.v, none) else (.err, none)) }
  else if op = 0x38 ∨ op = 0x39 then
    let lim := if op = 0x38 then n else q.da'.total
    let rs := (List.range n).map (fun i =>
      match at_ b i with
      | .i w =>
        if w.toNat < lim then
          (match (if op = 0x38 then at_ a w.toNat else ((gather w.toNat).work q.da'.fmt).1) with
           | .f v => ((.f v, none) : VRes)
           | .i x => (.i x.toNat, none)
           | .err => (.err, none), false)
        else ((if q.dc'.fmt = nI32 then .i 0 else .f .zero, none), true)
      | _ => ((.err, none), false))
    let fl := ((rs.mapIdx (fun i r => (i, r.2))).filter (·.2)).map (·.1)
    { vals := rs.map (·.1), flags := fl, indexRange := !fl.isEmpty }
  else if op = 0x50 then
    let s := if q.args.greg = 0 then fOne else q.gval.setWidth 32
    { vals := (List.range n).map (fun i =>
        vaccRes (q.mod 12 3) s (if q.mod 16 1 = 1 then some (at_ b i) else none) (at_ a i)) }
  else if vecForm op = .unary then
    let vs := (List.range n).map (fun i => unaryRes op (at_ a i))
    { vals := vs, flags := convFlags op q.dc'.fmt (vs.map (·.1)) }
  else { vals := (List.range n).map (fun i => elemRes op (q.mod 12 3) (at_ a i) (at_ b i) (at_ c i)) }

/-- VCMP's 1 and 0 in the destination's kind (R153). -/
def cmpResultIn (fmt : Nat) (v : DVal) : DVal :=
  match v with
  | .i c => if fmt = nI32 then .i c else .f (.ofInt c)
  | x => x

/-- Elements of an accumulator operand become +0; a row all of whose elements do can be read again (R138). -/
def Dev.clearAcc (d : Dev) (t : TileRef) (da : Desc) (is : List Nat) : Dev :=
  (d.applyPatch t 3 da.bank (is.foldl (fun p i => Patch.put p (da.place i).1 [0, 0, 0, 0]) [])).2.2

/-- The outcome of a vector instruction from its failures and flags (R150, R160). -/
def vecOutcome (fails : List Fail) (flags : List Nat) (n count total : Nat) (indexRange : Bool) (res : Option Summary) :
    Outcome :=
  let beyond := decide (total < count ∨ 4096 < count)
  let fl := flags ++ (if beyond then [n] else [])
  let all := fails ++ (match fl with
    | [] => []
    | i :: is => [(sDoneFlagged, BitVec.ofNat 32 (is.foldl min i))])
  let sticky : Sticky := { indexRange := indexRange || beyond }
  match worstOf all with
  | some f => ⟨f.1, f.2, res, sticky⟩
  | none => ⟨sDone, 0, res, sticky⟩

/-! ## Press stall (R159, R188) -/

/-- Elements per cycle of a vector opcode (R159). -/
def vecRate (q : Queued) : Nat :=
  let op := q.opcode
  let half := fun (d : Desc) => d.fmt == nFP16 || d.fmt == nBF16
  if 0x20 ≤ op ∧ op ≤ 0x25 then 64
  else if op = 0x39 then 32
  else if op = 0x50 then (if 2 ≤ q.mod 12 3 ∧ q.mod 12 3 ≤ 5 then 64 else 128)
  else if 0x40 ≤ op then 128
  else if half q.da' && half q.dc' && (decide (vecForm op = .unary) || half q.db') then 256
  else 128

/-- What VACC with CLR reads of its accumulators, cycle by cycle: each element read becomes +0 in the cycle of its read, so that one met
again in a later cycle reads +0 (R158, R159). Only the first `m` elements are cleared. -/
def Dev.readClear (d : Dev) (t : TileRef) (q : Queued) (n m : Nat) : List Elem × Dev :=
  let r := vecRate q
  let da := q.da'
  (List.range ((n + r - 1) / r)).foldl (fun (s : List Elem × Dev) c =>
    let is := (List.range (min r (n - r * c))).map (r * c + ·)
    (s.1 ++ is.map (fun i => (s.2.src t da.space da.bank).elemAt da 0 i), s.2.clearAcc t da (is.filter (fun i => decide (i < m)))))
    ([], d)

/-- Bytes of the coded rows that an instruction of `n` elements has written, by the last entry of each row's index (R183). -/
def Dev.codedWritten (d : Dev) (t : TileRef) (dn : Desc) (n : Nat) : Nat :=
  ((dn.freshRows n).map (fun r =>
    (d.src t dn.space dn.bank).nat (dn.rowAddr r + 4 * (indexEntries dn.nb - 1)) 4)).sum

/-- Bits of an element's code (R159). -/
def elemBits (fmt : Nat) : Nat := if fmt = nCB4 then 4 else fmtBits fmt

/-- Press stall cycles of a vector instruction (R188): `d` is the device after the write, and `ga` counts the elements that a
VGATHER reads. -/
def Dev.vecStall (d : Dev) (t : TileRef) (q : Queued) (n ga stall : Nat) (a g b c : List PBlock) : Nat :=
  let fa := q.da'.freshBlocks n a ++ g
  let fb := q.db'.freshBlocks n b
  let fc := q.dc'.freshBlocks n c
  let form := vecForm q.opcode
  let useB := form = .binary ∨ (form = .acc ∧ q.mod 16 1 = 1)
  let useC := q.opcode = 0x04 ∨ (q.opcode = 0x0A ∧ (isBlockFmt q.dc'.fmt ∨ q.dc'.coded))
  let bytes :=
    (if q.opcode = 0x39 then (if 2 ≤ q.da'.space then 0 else (ga * elemBits q.da'.fmt + 7) / 8) else q.da'.portBytes n fa) +
    (if useB then q.db'.portBytes n fb else 0) + (if useC then q.dc'.portBytes n fc else 0) +
    (if form = .reduce then 0 else if q.dc'.coded then d.codedWritten t q.dc' n else q.dc'.portBytes n [])
  let busy := max ((n + vecRate q - 1) / vecRate q) ((bytes + 127) / 128)
  pressTotal (fa.map (·.cost q.da'.fmt) ++ fb.map (·.cost q.db'.fmt) ++ fc.map (·.cost q.dc'.fmt)) - busy +
    hiddenStall (fa ++ fb ++ fc) stall

/-- A vector instruction completes (R149 to R160). DESIGN CHOICE (log 60): a VQUANT with SE that ends in RESIDUE leaves its status word in
SREG. -/
def Dev.doVector (d : Dev) (t : TileRef) (q : Queued) (r : EngineReport) : Outcome × Dev :=
  let op := q.opcode
  let form := vecForm op
  let count := vecCount q
  let total := vecTotal q
  let n := min count (min 4096 total)
  if count = 0 then (⟨sDoneEmpty, 0, none, {}⟩, d)
  else
    let none_ : Opnd := ⟨[], [], []⟩
    let rd := fun (k : Nat) => (d.src t (q.operand k).space (q.operand k).bank).operand (q.operand k) (q.scale k) n
    let useB := form = .binary ∨ (form = .acc ∧ q.mod 16 1 = 1)
    let z := d.residue t q r true
    let lim := match z.1 with
      | none => n
      | some k => min n (128 * k)
    let clr := decide (op = 0x50 ∧ q.mod 15 1 = 1)
    let rc := if clr then z.2.readClear t q n (match z.1 with
      | none => n
      | some k => min n (128 * (k + 1))) else ([], z.2)
    let oa := if op = 0x39 then none_ else if clr then { none_ with elems := rc.1 } else rd 0
    let ob := if useB then rd 1 else none_
    let oc := if op = 0x04 ∨ (op = 0x0A ∧ (isBlockFmt q.dc'.fmt ∨ q.dc'.coded)) then rd 2 else none_
    let wa := oa.elems.map (Elem.work q.da'.fmt)
    let wb := ob.elems.map (Elem.work q.db'.fmt)
    let wc := oc.elems.map (Elem.work q.dc'.fmt)
    let sa := d.src t q.da'.space q.da'.bank
    let js := if op = 0x39 then (wb.filterMap (fun x => match x.1 with
        | .i w => if w.toNat < q.da'.total then some w.toNat else none
        | _ => none)) else []
    let ga := js.map (fun j => sa.elemAt q.da' (q.scale 0) j)
    let copies := decide (op = 0x0B ∧ q.da'.fmt = q.dc'.fmt)
    let conv := !copies && (form != .reduce || z.1.isNone) &&
      (wa.take lim ++ wb.take lim ++ wc.take lim ++ (ga.map (Elem.work q.da'.fmt)).take lim).any (·.2)
    let gb := sa.codedAt q.da' js
    let d1 := (((rc.2.pressCount t oa.coded).pressCount t gb).pressCount t ob.coded).pressCount t oc.coded
    let stalled := fun (x : Dev) => x.stallCount t (x.vecStall t q n js.length r.stall oa.coded gb ob.coded oc.coded)
    let d2 := if conv then d1.overflow t 0 1 op (if form = .reduce then 0xFFF else q.dc'.scaleRec) 0x7F800000 else d1
    let gfails := (ga.filter (fun e => e.st != 0)).map (fun e => (e.st, failDetail 0 e.off))
    let fails := oa.fails 0 ++ gfails ++ ob.fails 1 ++ oc.fails 2
    let beyond := decide (total < count ∨ 4096 < count)
    if form = .reduce then
      let res := reduceRes op q.da'.fmt (wa.map (·.1))
      match z.1 with
      | some _ =>
        (⟨sResidue, d2.reg (At.tile t 0x104),
          some (if q.da'.fmt = nI32 then { kind := .int, val := 0 } else { kind := .f32, val := qnan32.setWidth 64 }),
          { indexRange := beyond }⟩, stalled d2)
      | none =>
        let d3 := match res.2 with
          | none => d2
          | some c => d2.overflow t c 1 op 0xFFF 0
        (vecOutcome fails [] n count total false (some res.1), stalled d3)
    else
      let out := vecResults q n (wa.map (·.1)) (wb.map (·.1)) (wc.map (·.1)) oa ob oc (fun j => sa.elemAt q.da' (q.scale 0) j)
      let cause := (out.vals.take lim).foldl (fun c e => orCause c e.2) none
      let d3 := match cause with
        | none => d2
        | some c => d2.overflow t c 1 op q.dc'.scaleRec 0
      let vs := (out.vals.map (fun e => if op = 0x09 then cmpResultIn q.dc'.fmt e.1 else e.1)).mapIdx
        (fun i v => if z.1.isSome ∧ lim ≤ i then .err else v)
      let copy := fun j => (out.copy.getD j none).bind (fun b => if z.1.isSome ∧ lim ≤ 32 * j + 31 then none else some b)
      let w := d3.writeDest t q q.dc' (q.scale 2) copy vs
      let res := if op = 0x31 ∧ q.args.se then
          some { kind := .f32, val := (codeF (reduceMax 0x44 (wa.map (fun x => x.1.val)))).setWidth 64 : Summary }
        else none
      match z.1 with
      | some _ =>
        (⟨sResidue, w.2.reg (At.tile t 0x104), none,
          { indexRange := beyond || (out.indexRange && out.flags.any (fun i => decide (i < lim))) }⟩, stalled w.2)
      | none => (vecOutcome (fails ++ w.1) out.flags n count total out.indexRange res, stalled w.2)

end Sys2Proof.Machine
end

