-- ==== Sys2Proof/Machine/OxMath.lean ====
section
/-!
DEFINITION. Sys2Proof/Machine/OxMath.lean: the arithmetic of the Ox units: Ox sums in 64 f64 lanes (R353), the statistics
vector (R354), the built-in rules (R356 to R359) and custom programs (R364, R365).
-/

namespace Sys2Proof.Machine

open Sys2Proof

/-! ## Ox sums (R353) -/

/-- f64. -/
def fFP64 : FFmt := ⟨11, 52, 1023, true⟩

def f64Round (v : FVal) : FVal := fFP64.decode (fFP64.encode v).1

/-- A value from its f64 bits. -/
def f64 (w : W64) : FVal := fFP64.decode w.toNat

/-- The f64 bits of a value. -/
def toF64 (v : FVal) : W64 := BitVec.ofNat 64 (fFP64.encode v).1

def chunksAux {α : Type} (n : Nat) : Nat → List α → List (List α)
  | 0, _ => []
  | k + 1, l => if l.isEmpty then [] else l.take n :: chunksAux n k (l.drop n)

/-- A list cut into pieces of `n`. -/
def chunks {α : Type} (n : Nat) (l : List α) : List (List α) := chunksAux n l.length l

/-- Adds one value to each of the first lanes, with one f64 rounding each. -/
def addLanes : List FVal → List FVal → List FVal
  | l :: ls, x :: xs => f64Round (l.add x).1 :: addLanes ls xs
  | ls, [] => ls
  | [], _ => []

def zeroLanes : List FVal := List.replicate 64 .zero

/-- Adds a sequence: element i to lane i mod 64. -/
def sumLanes (lanes : List FVal) (xs : List FVal) : List FVal := (chunks 64 xs).foldl addLanes lanes

/-- The lanes folded with h from 32 down to 1. -/
def foldLanes (lanes : List FVal) : FVal :=
  let halve := fun (l : List FVal) => addLanes (l.take (l.length / 2)) (l.drop (l.length / 2))
  (halve (halve (halve (halve (halve (halve lanes)))))).getD 0 .zero

/-- An Ox sum before its rounding to FP32. -/
def oxSum64 (xs : List FVal) : FVal := foldLanes (sumLanes zeroLanes xs)

/-- An Ox sum. -/
def oxSum (xs : List FVal) : W32 := codeF (oxSum64 xs)

/-- The exact squares of FP32 values. -/
def squares (xs : List W32) : List FVal := xs.map (fun x => ((f32 x).mul (f32 x)).1)

/-! ## Rules (R356 to R359) -/

/-- β^t, correctly rounded (R357). -/
def powcr (b : W32) (t : W64) : W32 :=
  if t = 0 then fOne
  else
    match f32 b with
    | .nan _ => qnan32
    | .inf s => codeF (.inf (s && t.getLsbD 0))
    | .fin s m e =>
      if m = 0 then codeF (.fin (s && t.getLsbD 0) 0 0)
      else
        let z := ((List.range 24).find? (fun i => m.testBit i)).getD 0
        codeF (.fin (s && t.getLsbD 0) ((m / 2 ^ z) ^ t.toNat) ((e + z) * t.toNat))

/-- The hyperparameters k0 to k15 of a command record (R348). -/
def oxK (record : List W8) (i : Nat) : W32 := BitVec.ofNat 32 (leNat ((record.drop (0x40 + 4 * i)).take 4))

/-- The clip factor (R356): `norm` is NORM_RES[0], none where NORM_WIN is 0. -/
def oxNorm (norm : Option W32) : W32 := match norm with
  | none => fOne
  | some x => f32Sqrt x

def oxClip (clip n : W32) : W32 := if (f32 clip).isZero || (!(f32 clip).isNan && !(f32 clip).lt (f32 n)) then fOne else f32Div clip n

/-- m, v and u of OX_ADAMW (R357). -/
def oxAdam (k : Nat → W32) (bc1 bc2 c g m v : W32) : W32 × W32 × W32 :=
  let gp := f32Mul g c
  let m' := f32Fma (k 1) m (f32Mul (f32Sub fOne (k 1)) gp)
  let v' := f32Fma (k 2) v (f32Mul (f32Sub fOne (k 2)) (f32Mul gp gp))
  (m', v', f32Div (f32Div m' bc1) (f32Add (f32Sqrt (f32Div v' bc2)) (k 3)))

/-- The tensors of a shard as FP32, and after a pass 2 what it writes of them. -/
structure OxTensors where
  w : List W32
  m1 : List W32
  m2 : List W32
  m3 : List W32
  deriving DecidableEq, Repr

def zip4 (f : W32 → W32 → W32 → W32 → W32 × W32 × W32) (a b c d : List W32) : List (W32 × W32 × W32) :=
  List.zipWith (fun (x : W32 × W32) (y : W32 × W32) => f x.1 x.2 y.1 y.2) (a.zip b) (c.zip d)

/-- wn = w − lr × x, with x given. -/
def oxStep (lr w x : W32) : W32 := f32Sub w (f32Mul lr x)

/-- OX_ADAMW (R357): w, m, v by element. -/
def oxAdamW (k : Nat → W32) (t : W64) (c : W32) (g : List W32) (s : OxTensors) : OxTensors :=
  let bc1 := f32Sub fOne (powcr (k 1) t)
  let bc2 := f32Sub fOne (powcr (k 2) t)
  let r := zip4 (fun g w m v =>
    let a := oxAdam k bc1 bc2 c g m v
    (oxStep (k 0) w (f32Fma (k 4) w a.2.2), a.1, a.2.1)) g s.w s.m1 s.m2
  { s with w := r.map (·.1), m1 := r.map (·.2.1), m2 := r.map (·.2.2) }

/-- OX_MOMENTUM (R357). -/
def oxMomentum (k : Nat → W32) (c : W32) (g : List W32) (s : OxTensors) : OxTensors :=
  let r := zip4 (fun g w m _ =>
    let m' := f32Fma (k 1) m (f32Mul g c)
    (oxStep (k 0) w (f32Fma (k 4) w m'), m', 0)) g s.w s.m1 s.m1
  { s with w := r.map (·.1), m1 := r.map (·.2.1) }

/-- r of OX_LAMB with the moments, by element (R358). -/
def oxLambParts (k : Nat → W32) (t : W64) (g : List W32) (s : OxTensors) : List (W32 × W32 × W32) :=
  let bc1 := f32Sub fOne (powcr (k 1) t)
  let bc2 := f32Sub fOne (powcr (k 2) t)
  zip4 (fun g w m v =>
    let a := oxAdam k bc1 bc2 fOne g m v
    (f32Fma (k 4) w a.2.2, a.1, a.2.1)) g s.w s.m1 s.m2

/-- OX_LAMB (R358): `wSum` and `qSum` are elements 1 and 2 of the layer window's result. -/
def oxLamb (k : Nat → W32) (t : W64) (wSum qSum : W32) (g : List W32) (s : OxTensors) : OxTensors :=
  let pos := fun (x : W32) => FVal.zero.lt (f32 x)
  let phi := if pos wSum && pos qSum then f32Div (f32Sqrt wSum) (f32Sqrt qSum) else fOne
  let r := oxLambParts k t g s
  { s with w := List.zipWith (fun w x => oxStep (f32Mul (k 0) phi) w x.1) s.w r, m1 := r.map (·.2.1), m2 := r.map (·.2.2) }

/-- The new row statistics of OX_FACTORED (R359). -/
def oxRows (k : Nat → W32) (cols : Nat) (g : List W32) (rs : List W32) : List W32 :=
  List.zipWith (fun row r =>
    let q := row.map (fun x => f32 (f32Fma x x (k 6)))
    f32Fma (k 2) r (f32Mul (f32Sub fOne (k 2)) (f32Div (oxSum q) (f32OfNat cols)))) (chunks cols g) rs

/-- The column sums of q over the shard's rows (R354, R359). -/
def oxCols (k : Nat → W32) (cols : Nat) (g : List W32) : List W32 :=
  let rows := chunks cols g
  (List.range cols).map (fun j => oxSum (rows.map (fun r => let x := r.getD j 0; f32 (f32Fma x x (k 6)))))

/-- OX_FACTORED (R359): `l` is the layer window's result. -/
def oxFactored (k : Nat → W32) (cols total : Nat) (l : Nat → W32) (g : List W32) (s : OxTensors) : OxTensors :=
  let rn := oxRows k cols g s.m2
  let rbar := f32Div (l 3) (f32OfNat total)
  let cn := s.m3.mapIdx (fun j c => f32Fma (k 2) c (f32Mul (f32Sub fOne (k 2)) (f32Div (l (16 + j)) (f32OfNat total))))
  let pos := FVal.zero.lt (f32 (k 1))
  let u := (List.zipWith (fun row r => List.zipWith (fun x c => f32Div x (f32Sqrt (f32Div (f32Mul r c) rbar))) row cn)
    (chunks cols g) rn).flatten
  let m := if pos then List.zipWith (fun m u => f32Fma (k 1) m (f32Mul (f32Sub fOne (k 1)) u)) s.m1 u else s.m1
  let x := if pos then m else u
  { w := List.zipWith (fun w x => oxStep (k 0) w (f32Fma (k 4) w x)) s.w x, m1 := m, m2 := rn, m3 := cn }

/-! ## Custom programs (R364, R365) -/

/-- Whether an instruction may stand in an Ox program (R364, R365). -/
def oxInstrOk (w : BitVec 128) : Bool :=
  let a := tensorArgs w
  let op := (w.extractLsb' 6 8).toNat
  let red := op == 0x40 || op == 0x43
  decide (w.extractLsb' 0 2 = 3#2) && decide ((w.extractLsb' 2 4).toNat = 1) &&
  (decide (1 ≤ op ∧ op ≤ 0x0B) || decide (0x20 ≤ op ∧ op ≤ 0x25) || red) &&
  !a.te && !a.se && a.token == 0 && a.sreg == 0 && a.wait == 0 && a.greg == 0 &&
  (if op = 0x09 then decide (a.mod.toNat % 4096 = 0 ∧ a.mod.toNat / 4096 ≤ 6) else a.mod == 0) &&
  (!red || decide (a.dc.toNat ≤ 3) || decide (7 ≤ a.dc.toNat ∧ a.dc.toNat ≤ 15))

/-- A chunk in work: x0 to x15, and the lanes of the statistics vector's elements 0 to 15. -/
structure OxChunk where
  x : List (List W32)
  lanes : List (List FVal)

/-- A chunk register or a broadcast constant (R365). -/
def OxChunk.operand (c : OxChunk) (k : Nat → W32) (n : Nat) (r : BitVec 5) : List W32 :=
  if r.toNat < 16 then c.x.getD r.toNat [] else List.replicate n (k (r.toNat - 16))

/-- One instruction of an Ox program over a chunk of `n` elements; a constant is read-only. VMOV, and VSEL where it does not select, keep
the bits (R153). -/
def oxInstr (k : Nat → W32) (n : Nat) (c : OxChunk) (w : BitVec 128) : OxChunk :=
  let a := tensorArgs w
  let op := (w.extractLsb' 6 8).toNat
  let va := c.operand k n a.da
  let vb := c.operand k n a.db
  let vc := c.operand k n a.dc
  if op = 0x40 ∨ op = 0x43 then
    let ys := if op = 0x43 then squares va else va.map f32
    { c with lanes := c.lanes.set a.dc.toNat (addLanes (c.lanes.getD a.dc.toNat zeroLanes) ys) }
  else
    let r := (List.range n).map (fun i =>
      let e := fun (l : List W32) => VElem.f (f32 (l.getD i 0))
      if op = 0x0B then va.getD i 0
      else if op = 0x0A ∧ (f32 (va.getD i 0)).isZero then vc.getD i 0
      else
        let y := if op = 0x07 ∨ op = 0x08 ∨ 0x20 ≤ op then (unaryRes op (e va)).1
                 else (elemRes op (a.mod.toNat / 4096) (e va) (e vb) (e vc)).1
        codeF ((cmpResultIn nFP32 y).value nFP32 0))
    if a.dc.toNat < 16 then { c with x := c.x.set a.dc.toNat r } else c

end Sys2Proof.Machine
end

