-- ==== Sys2Proof/Machine/Journal.lean ====
section
/-!
DEFINITION. Sys2Proof/Machine/Journal.lean: virtual accesses that a slice, an engine or the sequencer makes on local memory, the
step journal (R376 to R379), what a replay looks up in it (R381, R382), and stretch requests (R63, R427).
-/

namespace Sys2Proof.Machine

open Sys2Proof

/-! ## Virtual accesses on local memory -/

/-- Bytes of a context's local memory. -/
def Dev.virtLoad (v : Variant) (ctx : Nat) (eval : Bool) (d : Dev) (va len : Nat) : Acc :=
  readPieces (fun x a n =>
    let r := x.translate v .outside ctx a false eval
    if r.1 ≠ 0 then ⟨r.1, [], r.2.2⟩
    else
      let y := r.2.2.localRead v r.2.1
      ⟨y.st, (y.data.drop (a % 64)).take n, y.d⟩) (pieces va len) d

/-- Stores bytes to a context's local memory; stops at the first piece that fails. -/
def Dev.virtStore (v : Variant) (ctx : Nat) (eval : Bool) (d : Dev) (va : Nat) (bytes : List W8) : Acc :=
  writePieces (fun x a bs =>
    let r := x.translate v .outside ctx a true eval
    if r.1 ≠ 0 then ⟨r.1, [], r.2.2⟩ else r.2.2.localWrite v r.2.1 bs) (pieces va bytes.length) bytes d

/-- A 64-bit atomic of an engine on a context's local memory (R273): status, old value, device. -/
def Dev.virtAtomic (v : Variant) (ctx : Nat) (eval : Bool) (d : Dev) (va : Nat) (op : AmoOp) (x c : W64) : W8 × W64 × Dev :=
  let r := d.translate v .outside ctx va true eval
  if r.1 ≠ 0 then (r.1, 0, r.2.2) else r.2.2.localAtomic v r.2.1 op false x c

/-! ## The step journal -/

def jPad : Nat := 0x00
def jStepOpen : Nat := 0x01
def jBatch : Nat := 0x02
def jWindow : Nat := 0x03
def jBracket : Nat := 0x04
def jScale : Nat := 0x05
def jOx : Nat := 0x06
def jPlan : Nat := 0x07
def jTick : Nat := 0x08
def jTrace : Nat := 0x09
def jDiverge : Nat := 0x0A
def jStepClose : Nat := 0x0F

/-- An entry's bytes (R377). -/
def jrnBytes (type units : Nat) (step : W64) (rep : Bool) (payload : List W8) : List W8 :=
  ([BitVec.ofNat 8 type, if rep then 1 else 0] ++ toLE 2 units ++ [0, 0, 0, 0] ++ toLE 8 step.toNat ++ payload ++
    List.replicate (64 * units) 0).take (64 * units)

/-- Bytes of the ring (R376). -/
def Dev.jrnSize (d : Dev) : Nat := d.fld (At.seq 0x408) 0 16 * 0x10000

/-- An entry that cannot be written is counted (R376). -/
def Dev.jrnLose (d : Dev) : Dev := (d.count (At.seq 0x418) 0 32 1).onSeq fun q => { q with jrnLost := q.jrnLost + 1 }

/-- Writes an entry at the head of the ring, over the oldest ones. -/
def Dev.jrnPut (v : Variant) (d : Dev) (bytes : List W8) : Dev :=
  let off := d.seq.jrnOff
  let r := d.physStore v ((d.reg64 (At.seq 0x400)).toNat + off) bytes
  if r.st ≠ 0 then r.d.jrnLose
  else
    r.d.onSeq fun q =>
      { q with jrnOff := if d.jrnSize ≤ off + bytes.length then 0 else off + bytes.length
               jrnHead := q.jrnHead + 1
               jrnEntries := q.jrnEntries + 1
               jrnIndex := (q.jrnHead.toNat, off) ::
                 q.jrnIndex.filter (fun e => decide (e.2 < off) || decide (off + bytes.length ≤ e.2)) }

/-- Journals an entry of `units` × 64 bytes; one that would straddle the end of the ring follows a PAD (R376, R377). Whether the entry
was written. -/
def Dev.journaled (v : Variant) (d : Dev) (type units : Nat) (step : W64) (rep : Bool) (payload : List W8) : Bool × Dev :=
  if !d.bit (At.seq 0x40C) 31 then (false, d)
  else if d.jrnSize = 0 then (false, d.jrnLose)
  else
    let room := (d.jrnSize - d.seq.jrnOff) / 64
    let d := if room < units then d.jrnPut v (jrnBytes jPad room step rep []) else d
    let y := d.jrnPut v (jrnBytes type units step rep payload)
    (decide (y.seq.jrnHead ≠ d.seq.jrnHead), y)

def Dev.journal (v : Variant) (d : Dev) (type units : Nat) (step : W64) (rep : Bool) (payload : List W8) : Dev :=
  (d.journaled v type units step rep payload).2

/-! ## Replay (R381, R382) -/

/-- Whether a partition replays. -/
def Dev.replaying (d : Dev) (n : Nat) : Bool := match d.seq.replay with
  | none => false
  | some r => r.opened && r.parts.getLsbD n

/-- The step an instruction of a sector reads: TICK.STEP, or the journaled step in a replay (R59, R382). -/
def Dev.stepOf (d : Dev) (n : Nat) : W64 := match d.seq.replay with
  | none => d.tick.step
  | some r => if r.opened && r.parts.getLsbD n then r.step else d.tick.step

/-- The bytes of an entry still in the ring. -/
def Dev.jrnEntry (v : Variant) (d : Dev) (off : Nat) : Acc :=
  d.physBytes v ((d.reg64 (At.seq 0x400)).toNat + off) (min 128 (d.jrnSize - off))

/-- The first entry from number `base` on that the original run wrote and `p` accepts: its number and bytes. -/
def Dev.jrnFind (v : Variant) (d : Dev) (base : Nat) (p : List W8 → Bool) : Option (Nat × List W8) × Dev :=
  (d.seq.jrnIndex.reverse.filter (fun e => decide (base ≤ e.1))).foldl
    (fun (r : Option (Nat × List W8) × Dev) e =>
      if r.1.isSome then r
      else
        let x := r.2.jrnEntry v e.2
        (if x.st = 0 ∧ (x.data.getD 1 0).getLsbD 0 = false ∧ p x.data then some (e.1, x.data) else none, x.d)) (none, d)

/-- Whether an entry has a type and a step. -/
def jrnIs (type : Nat) (step : W64) (e : List W8) : Bool :=
  (e.getD 0 0).toNat == type && leNat ((e.drop 8).take 8) == step.toNat

/-- A field of an entry's payload, at its offset from 0x10. -/
def jrnField (e : List W8) (off n : Nat) : Nat := leNat ((e.drop (0x10 + off)).take n)

/-- A DIVERGE entry (R377, R382): the entry compared, what it held and what the replay found; it counts once written (R381, R389). -/
def Dev.diverge (v : Variant) (d : Dev) (type entry : Nat) (expected got : W64) : Dev :=
  let step := match d.seq.replay with
    | none => d.tick.step
    | some r => r.step
  let r := d.journaled v jDiverge 1 step true
    ([BitVec.ofNat 8 type, 0, 0, 0] ++ toLE 4 entry ++ toLE 8 expected.toNat ++ toLE 8 got.toNat)
  if r.1 then (r.2.count (At.seq 0x42C) 0 32 1).onSeq fun q => { q with diverged := true } else r.2

/-! ## Stretch requests (R63, R427) -/

/-- A stretch request of `us` µs for a tick: the root keeps the largest that comes before the announcement of the tick's end
edge; a follower sends it towards the root. -/
def Dev.requestStretch (d : Dev) (n : W64) (us : Nat) : Dev :=
  if !d.bit (At.tick 0) 4 then d
  else if d.isRoot then
    if d.tick.announced = some (n + 1) then d
    else d.onTick fun x => { x with requests := Tab.alter 0 x.requests n.toNat (max us) }
  else
    match (if d.fld (At.tick 0) 6 2 = 1 then d.tick.upstream.map (·.1) else some d.links.ptpPort) with
    | none => d
    | some port => d.transmit port (.tick 3 { hops := 0, root := d.rootId, value := BitVec.ofNat 32 us, tick := n, step := d.tick.step,
                                              time := 0 })

end Sys2Proof.Machine
end

