-- ==== Sys2Proof/Machine/Windows.lean ====
section
/-!
DEFINITION. Sys2Proof/Machine/Windows.lean: reduction windows (R275 to R279, R368 to R375): opening, contributions, late lines,
the close with its fold and publication, forwards and captures, and watch records (R338 to R340, R367).
-/

namespace Sys2Proof.Machine

open Sys2Proof

/-! ## Geometry -/

def WinEntry.bf16 (e : WinEntry) : Bool := e.mode.getLsbD 1

/-- Bytes of an element of the contribution format. -/
def WinEntry.es (e : WinEntry) : Nat := if e.bf16 then 2 else 4

/-- Bytes of a slot. -/
def WinEntry.slotBytes (e : WinEntry) : Nat := e.n * e.es

/-- Lines of a slot. -/
def WinEntry.lines (e : WinEntry) : Nat := (e.slotBytes + 63) / 64

/-- 0 DEFER, 1 DROP, 2 WAIT. -/
def WinEntry.policy (e : WinEntry) : Nat := e.mode.toNat / 16 % 4

def WinEntry.isMax (e : WinEntry) : Bool := e.mode.getLsbD 0

def WinEntry.mean (e : WinEntry) : Bool := e.mode.getLsbD 2

/-- The grace of an entry (R368). -/
def WinEntry.graceUs (e : WinEntry) (periodUs : Nat) : Nat := if e.grace = 0 then periodUs / 10 else e.grace

def Dev.window (d : Dev) (n w : Nat) : Window := Tab.look {} (d.hub n).windows w

def Dev.onWindow (d : Dev) (n w : Nat) (f : Window → Window) : Dev :=
  d.onHub n fun h => { h with windows := Tab.alter {} h.windows w f }

/-- The entry of an accepted plan by its serial number and index. -/
def Dev.winEntry (d : Dev) (serial index : Nat) : Option WinEntry :=
  d.seq.windows.find? (fun e => e.serial == serial && e.index == index)

def Dev.onWinEntry (d : Dev) (serial index : Nat) (f : WinEntry → WinEntry) : Dev :=
  d.onSeq fun q => { q with windows := q.windows.map (fun e => if e.serial = serial ∧ e.index = index then f e else e) }

/-- Replaces the line of a slot, or adds it (R276). -/
def putHeld (ls : List RedHeld) (x : RedHeld) : List RedHeld :=
  ls.filter (fun y => !(y.slot == x.slot && y.line == x.line)) ++ [x]

/-- Whether every line of a slot is held. -/
def heldWhole (lines : Nat) (ls : List RedHeld) (slot : Nat) : Bool :=
  (List.range lines).all (fun k => ls.any (fun y => y.slot == slot && y.line == k))

/-- The slots below `s` that a condition picks, as a bit set. -/
def slotSet (s : Nat) (p : Nat → Bool) : W64 :=
  (List.range s).foldl (fun m k => if p k then m ||| (1#64 <<< k) else m) 0

def bitCount (m : W64) : Nat := ((List.range 64).filter (fun k => m.getLsbD k)).length

/-! ## Opening (R275, R369, R382) -/

/-- The pages from `a` to `e` as slice `n` accesses them: 0, or the first status of a translation; TRANSLATION where they must lie in
stack `n` (`home`) and one does not. -/
def Dev.pageStatus (v : Variant) (ctx n : Nat) (home write : Bool) : Nat → Dev → Nat → Nat → W8 × Dev
  | 0, d, _, _ => (0, d)
  | k + 1, d, a, e =>
    if e ≤ a then (0, d)
    else
      let r := d.translate v .outside ctx a write (d.evalMember n)
      let here := match regionOf r.2.1 with
        | .quire m off => decide (m = n ∧ off < v.stackGiB * 2 ^ 30)
        | _ => false
      if r.1 ≠ 0 then (r.1, r.2.2)
      else if home && !here then (sTranslation, r.2.2)
      else Dev.pageStatus v ctx n home write k r.2.2 (a / 2 ^ 21 * 2 ^ 21 + 2 ^ 21) e

/-- Whether a window's slot buffer, with its deferred area under DEFER, is homed on its slice (R275, R368). -/
def Dev.homedBuffer (v : Variant) (d : Dev) (e : WinEntry) : Bool × Dev :=
  let size := e.slots * e.slotBytes * (if e.policy = 0 then 2 else 1)
  let r := Dev.pageStatus v e.ctx e.slice true true (size / 2 ^ 21 + 2) d e.slotBuf.toNat (e.slotBuf.toNat + size)
  (decide (r.1 = 0), r.2)

/-- How many windows of a slice are open. -/
def Hub.openWindows (h : Hub) : Nat := (h.windows.filter (fun w => w.2.isOpen)).length

/-- What the journal says of a window in the replay in progress: BITMAP, DEFERRED, HASH and the entry's number (R382). -/
def Dev.expectWindow (v : Variant) (d : Dev) (e : WinEntry) : Option (W64 × W64 × W64 × Nat) × Dev :=
  match d.seq.replay with
  | none => (none, d)
  | some r =>
    if !(r.opened && r.parts.getLsbD e.slice) then (none, d)
    else
      let f := d.jrnFind v r.base
        (fun x => jrnIs jWindow r.step x && jrnField x 0x20 1 == e.slice && jrnField x 0x21 1 == e.window)
      (f.1.map (fun x => (BitVec.ofNat 64 (jrnField x.2 0 8), BitVec.ofNat 64 (jrnField x.2 8 8),
        BitVec.ofNat 64 (jrnField x.2 0x18 8), x.1)), f.2)

/-- The lines of a captured slot, fresh or deferred (R375). -/
def Dev.captureLines (v : Variant) (d : Dev) (e : WinEntry) (slot : Nat) (deferred : Bool) (step : W64) :
    List RedHeld × Dev :=
  let a := e.capture.toNat + (slot * 2 + (if deferred then 1 else 0)) * e.slotBytes
  (List.range e.lines).foldl (fun (r : List RedHeld × Dev) k =>
    let x := r.2.virtLoad v e.ctx (d.evalMember e.slice) (a + 64 * k) (min 64 (e.slotBytes - 64 * k))
    (if x.st = 0 then r.1 ++ [⟨slot, k, step, (x.data ++ List.replicate 64 0).take 64⟩] else r.1, x.d)) ([], d)

/-- The fresh slots that the capture buffer of an instance holds. -/
def Dev.capturedSlots (d : Dev) (n w : Nat) (step : W64) : W64 :=
  match d.seq.captured.find? (fun c => c.1 == n && c.2.1 == w && c.2.2.1 == step) with
  | none => 0
  | some c => c.2.2.2

/-- Loads the captured slots that a replay's window expects (R382). -/
def Dev.loadCaptures (v : Variant) (d : Dev) (e : WinEntry) (x : W64 × W64 × W64 × Nat) : Dev :=
  match d.seq.replay with
  | none => d
  | some r =>
    let cap := d.capturedSlots e.slice e.window r.step &&& x.1
    let f := (List.range 64).foldl (fun (y : List RedHeld × Dev) k =>
      if cap.getLsbD k then let z := y.2.captureLines v e k false r.step; (y.1 ++ z.1, z.2) else y) ([], d)
    let g := (List.range 64).foldl (fun (y : List RedHeld × Dev) k =>
      if x.2.1.getLsbD k then let z := y.2.captureLines v e k true (r.step - 1); (y.1 ++ z.1, z.2) else y) ([], f.2)
    if e.capture = 0 then d
    else (g.2.onWindow e.slice e.window fun w =>
      { w with fresh := f.1, step := if f.1.isEmpty then w.step else some r.step }).onWinEntry e.serial e.index
      fun q => { q with deferred := g.1 }

/-- Opens a window: every fresh slot becomes absent (R369); one that would be the 65th or whose slot buffer is homed elsewhere
is not opened (R275), and one of a fenced slice is abandoned (R279). -/
def Dev.openWindow (v : Variant) (d : Dev) (e : WinEntry) : Dev :=
  let d := d.onWinEntry e.serial e.index fun q => { q with opened := true }
  let n := e.slice
  if (d.hub n).fenced then
    (d.onWindow n e.window fun w => { w with entry := some e, isOpen := false, abandoned := true }).onWinEntry e.serial e.index
      fun q => { q with closed := true }
  else
    let h := d.homedBuffer v e
    let d := h.2
    if 64 ≤ (d.hub n).openWindows ∨ !h.1 then d.onWindow n e.window fun w => { w with blocked := some e }
    else
      let pred := d.seq.windows.any (fun q => q.serial == e.serial && q.next == e.index)
      let d := if pred then d else d.onWinEntry e.serial e.index fun q => { q with deferred := [] }
      let d := if e.next = 0xFFFF then d else d.onWinEntry e.serial e.next fun q => { q with deferred := [] }
      let x := d.expectWindow v e
      let d := x.2.onWindow n e.window fun w =>
        { w with entry := some e, blocked := none, isOpen := true, abandoned := false, step := none, failed := none, fresh := [],
                 remote := [], waiting := false, expect := x.1 }
      match x.1 with
      | none => d
      | some y => d.loadCaptures v e y

/-- Opens the windows due at an edge (R369). -/
def Dev.openWindows (v : Variant) (d : Dev) : Dev :=
  (d.seq.windows.filter (fun e => !e.opened && !e.closed && decide (e.openTick.toNat ≤ d.tick.number.toNat))).foldl
    (fun x e => x.openWindow v e) d

/-! ## Watch records (R338 to R340, R367) -/

/-- HOT_T, or 0.1 (R339). -/
def hotThreshold (r : List W8) : W32 := if recNat r 0x14 4 = 0 then 0x3DCCCCCD else BitVec.ofNat 32 (recNat r 0x14 4)

/-- STALL_T, or the FP32 value nearest 10^-9 (R339). -/
def stallThreshold (r : List W8) : W32 := if recNat r 0x18 4 = 0 then 0x3089705F else BitVec.ofNat 32 (recNat r 0x18 4)

/-- A watch record after the update for step `s` with ‖Δw‖ and ‖w‖ and their ratio, and whether LAYER_HOT and LAYER_STALLED are
raised, each with its run (R340). -/
def watchUpdate (s : W64) (ratio u w : W32) (r : List W8) : List W8 × Option Nat × Option Nat :=
  let nums := fun (r : List W8) => recSet (recSet (recSet r 0x08 4 ratio.toNat) 0x0C 4 u.toNat) 0x10 4 w.toNat
  let step := recNat r 0 8
  if step > s.toNat then (r, none, none)
  else if step = s.toNat then (nums r, none, none)
  else
    let hot := (f32 ratio).isNan || (f32 (hotThreshold r)).lt (f32 ratio)
    let stalled := !hot && (f32 ratio).lt (f32 (stallThreshold r))
    let mask := recNat r 0x22 1
    let hotRun := recNat r 0x20 2
    let run := min (recNat r 0x1E 2 + 1) 65535
    let every := if recNat r 0x1C 2 = 0 then 64 else recNat r 0x1C 2
    let r1 := if hot then recSet (recSet r 0x20 2 (min (hotRun + 1) 65535)) 0x28 8 (min (recNat r 0x28 8 + 1) (2 ^ 64 - 1))
              else recSet r 0x20 2 0
    let r2 := if stalled then recSet (recSet r1 0x1E 2 run) 0x30 8 (min (recNat r 0x30 8 + 1) (2 ^ 64 - 1)) else recSet r1 0x1E 2 0
    (nums (recSet r2 0 8 s.toNat),
     if hot ∧ hotRun = 0 ∧ mask % 2 = 0 then some hotRun else none,
     if stalled ∧ run % every = 0 ∧ run < 65535 ∧ mask / 2 % 2 = 0 then some run else none)

/-- The Ox unit of a slice updates the watch record of a window of step `s` that closes with the result `r` (R338, R367). -/
def Dev.watch (v : Variant) (d : Dev) (e : WinEntry) (s : W64) (r : List W32) : Dev :=
  let at_ := fun k => r.getD k 0
  if e.watch = 0 ∨ !(f32 (at_ 5)).eqv (f32 (at_ 6)) then d
  else
    let u := f32Sqrt (at_ 4)
    let w := f32Sqrt (at_ 1)
    let ratio : W32 := if (f32 (at_ 4)).isZero then 0 else f32Div u w
    let ev := d.evalMember e.slice
    let x := d.virtLoad v e.ctx ev e.watch.toNat 64
    if x.st ≠ 0 then x.d
    else
      let y := watchUpdate (s - 1) ratio u w x.data
      let d := if recNat x.data 0 8 > (s - 1).toNat then x.d else (x.d.virtStore v e.ctx ev e.watch.toNat y.1).d
      let info : Nat → EventInfo := fun run =>
        { ctx := e.ctx, partition := e.slice, arg := toLE 8 e.watch.toNat ++ toLE 4 (recNat x.data 0x24 4) ++ toLE 4 ratio.toNat ++ toLE 2 run }
      let d := match y.2.1 with
        | none => d
        | some k => d.raise 0x08 (info k)
      match y.2.2 with
      | none => d
      | some k => d.raise 0x09 (info k)

/-! ## Fold (R277, R372) -/

/-- The elements of a slot from its lines, as FP32. -/
def slotValues (e : WinEntry) (ls : List RedHeld) (slot : Nat) : List W32 :=
  let bytes := (List.range e.lines).flatMap (fun k =>
    match ls.find? (fun y => y.slot == slot && y.line == k) with
    | some y => y.data
    | none => List.replicate 64 0)
  (List.range e.n).map (fun i =>
    let c := leNat ((bytes.drop (i * e.es)).take e.es)
    codeF (if e.bf16 then fBF16.decode c else fFP32.decode c))

/-- SUM or MAX of two results. -/
def redOp (isMax : Bool) (a b : W32) : W32 := if isMax then codeF (fmax (f32 a) (f32 b)) else f32Add a b

/-- The result of a window: `fresh` and `deferred` hold whole slots only; `k` is COUNT. -/
def foldWindow (e : WinEntry) (fresh deferred : List RedHeld) (bitmap def_ : W64) (k : Nat) : List W32 :=
  let op := redOp e.isMax
  let slot := fun s =>
    if def_.getLsbD s then
      if bitmap.getLsbD s then List.zipWith op (slotValues e deferred s) (slotValues e fresh s) else slotValues e deferred s
    else slotValues e fresh s
  let present := (List.range e.slots).filter (fun s => bitmap.getLsbD s || def_.getLsbD s)
  let r := match present with
    | [] => List.replicate e.n (if e.isMax then 0xFF800000 else 0)
    | s :: rest => rest.foldl (fun r s => List.zipWith op r (slot s)) (slot s)
  if e.mean && decide (0 < k) then r.map (fun x => f32Div x (f32OfNat k)) else r

/-- HASH of a status line: R222's loop body over the result words (R373). -/
def redHash (r : List W32) : W64 :=
  r.foldl (fun h x =>
    let h1 := (h ^^^ x.setWidth 64) * 0x9E3779B97F4A7C15
    h1 ^^^ (h1 >>> 29)) 0

/-! ## Contributions (R276, R370, R371) -/

/-- A dropped line: counted, and its slot's bit set for the next status line of the window number. -/
def Dev.redDrop (d : Dev) (n w slot lines : Nat) : Dev :=
  (d.count (At.hub n 0x20C) 0 16 lines).onWindow n w fun x => { x with dropped := x.dropped ||| (1#64 <<< slot) }

/-- A late line of the instance of entry `e` (R371): deferred to NEXT, or dropped; where NEXT has closed, the drop shows under NEXT's
window number, as the worked example of R371 has it. In a replay NEXT has its deferred slots from CAPTURE alone (R382). -/
def Dev.redLate (v : Variant) (d : Dev) (e : WinEntry) (l : RedHeld) : W8 × Dev :=
  let drop := fun (w : Nat) => (sDone, d.redDrop e.slice w l.slot 1)
  if e.policy ≠ 0 ∨ e.next = 0xFFFF then drop e.window
  else
    match d.winEntry e.serial e.next with
    | none => drop (e.nextWindow.getD e.window)
    | some q =>
      if q.closed then drop q.window
      else if d.replaying e.slice then (sDone, d.count (At.hub e.slice 0x20C) 16 16 1)
      else
        let r := d.virtStore v q.ctx (d.evalMember q.slice) (q.slotBuf.toNat + (q.slots + l.slot) * q.slotBytes + 64 * l.line)
          (l.data.take (min 64 (q.slotBytes - 64 * l.line)))
        if r.st ≠ 0 then (r.st, r.d)
        else (sDone, (r.d.count (At.hub e.slice 0x20C) 16 16 1).onWinEntry e.serial e.next fun q =>
          { q with deferred := putHeld q.deferred l })

/-- Writes `N` result elements and a status line, each write only after the ones before it (R278, R373): the first status that is
not DONE. -/
def Dev.publish (v : Variant) (d : Dev) (e : WinEntry) (result : Option (List W32)) (bitmap : W64) (status : List W8) : Acc :=
  let ev := d.evalMember e.slice
  let line := e.result.toNat + 4 * e.n
  let r0 : Acc := match result with
    | none => ⟨0, [], d⟩
    | some r => d.virtStore v e.ctx ev e.result.toNat (r.flatMap (fun x => toLE 4 x.toNat))
  if r0.st ≠ 0 then r0
  else
    let r1 := r0.d.virtStore v e.ctx ev (line + 16) status
    if r1.st ≠ 0 then r1
    else
      let r2 := r1.d.virtStore v e.ctx ev line (toLE 8 bitmap.toNat)
      if r2.st ≠ 0 then r2
      else
        let r3 := r2.d.virtAtomic v e.ctx ev (line + 8) .add 1 0
        ⟨r3.1, [], r3.2.2⟩

/-- Copies the slots that a capture buffer takes (R375): fresh ones of other devices, and deferred ones. -/
def Dev.capture (v : Variant) (d : Dev) (e : WinEntry) (step : W64) (remote : List Nat) (fresh deferred : List RedHeld)
    (bitmap def_ : W64) : Dev :=
  if e.capture = 0 then
    if remote.any bitmap.getLsbD || def_ != 0 then d.onSeq fun q => { q with uncaptured := step :: q.uncaptured.filter (· != step) } else d
  else
    let put := fun (x : Dev) (l : RedHeld) (k : Nat) =>
      (x.virtStore v e.ctx (x.evalMember e.slice) (e.capture.toNat + (l.slot * 2 + k) * e.slotBytes + 64 * l.line)
        (l.data.take (min 64 (e.slotBytes - 64 * l.line)))).d
    let fs := fresh.filter (fun l => remote.contains l.slot && bitmap.getLsbD l.slot)
    let d1 := fs.foldl (fun x l => put x l 0) d
    let d2 := (deferred.filter (fun l => def_.getLsbD l.slot)).foldl (fun x l => put x l 1) d1
    d2.onSeq fun q =>
      { q with captured := (e.slice, e.window, step, slotSet 64 (fun k => fs.any (fun l => l.slot == k))) ::
          q.captured.filter (fun c => !(c.1 == e.slice && c.2.1 == e.window && c.2.2.1 == step)) }

/-- The WINDOW entry of the journal (R377). -/
def Dev.journalWindow (v : Variant) (d : Dev) (e : WinEntry) (step : W64) (bitmap def_ dropped hash : W64) (flags count : Nat) : Dev :=
  d.journal v jWindow 1 step (d.replaying e.slice)
    (toLE 8 bitmap.toNat ++ toLE 8 def_.toNat ++ toLE 8 dropped.toNat ++ toLE 8 hash.toNat ++
     [BitVec.ofNat 8 e.slice, BitVec.ofNat 8 e.window, BitVec.ofNat 8 flags, BitVec.ofNat 8 e.policy] ++ toLE 4 count ++
     toLE 8 e.closeTick.toNat)

/-- A failed window is reported and counted (R278, R370). -/
def Dev.windowFailed (d : Dev) (e : WinEntry) (st : W8) (step line : W64) : Dev :=
  (d.count (At.hub e.slice 0x210) 0 16 1).raise 0x0E
    { status := st.toNat, ctx := e.ctx, partition := e.slice,
      arg := [BitVec.ofNat 8 e.slice, BitVec.ofNat 8 e.window, 0, 0, 0, 0, 0, 0] ++ toLE 8 step.toNat ++ toLE 8 line.toNat }

/-- The close of an instance but for its forward: the step, and the result where the window did not fail. -/
def Dev.closeBody (v : Variant) (d : Dev) (e : WinEntry) : W64 × Option (List W32) × Dev :=
  let n := e.slice
  let w := e.window
  let x := d.window n w
  let held := ((d.winEntry e.serial e.index).map (·.deferred)).getD []
  let step := match x.step with
    | some s => s
    | none => match held with
      | l :: _ => l.step + 1
      | [] => d.stepOf n
  let bitmap := slotSet e.slots (heldWhole e.lines x.fresh)
  let now := held.filter (fun l => l.step == step - 1)
  let def_ := slotSet e.slots (heldWhole e.lines now)
  let gone := held.filter (fun l => !(l.step == step - 1 && def_.getLsbD l.slot))
  let dropped := gone.foldl (fun m l => m ||| (1#64 <<< l.slot)) x.dropped
  let k := bitCount bitmap + bitCount def_
  let result := if x.failed.isSome then none else some (foldWindow e x.fresh now bitmap def_ k)
  let hash := match result with
    | none => 0
    | some r => redHash r
  let d := d.count (At.hub n 0x20C) 0 16 gone.length
  let d := d.onWindow n w fun y => { y with isOpen := false, waiting := false, step := some step, dropped := 0 }
  let d := d.onWinEntry e.serial e.index fun q => { q with closed := true, deferred := [] }
  let d := (x.fresh.filter (fun l => !bitmap.getLsbD l.slot)).foldl (fun y l => (y.redLate v e l).2) d
  let d := d.capture v e step x.remote x.fresh now bitmap def_
  let p := d.publish v e result bitmap
    (toLE 8 step.toNat ++ toLE 8 def_.toNat ++ toLE 8 dropped.toNat ++ toLE 8 hash.toNat ++ toLE 4 k ++
     toLE 4 (if x.failed.isSome then 1 else 0) ++ List.replicate 8 0)
  let d := if p.st ≠ 0 then p.d.windowFailed e p.st step 0xFFFFFFFFFFFFFFFF
    else match x.failed with
      | none => p.d
      | some l => p.d.windowFailed e sStepBehind step l
  let d := d.journalWindow v e step bitmap def_ dropped hash (if x.failed.isSome then 1 else 0) k
  let d := match x.expect with
    | none => d
    | some y => if y.2.2.1 = hash then d else d.diverge v jWindow y.2.2.2 y.2.2.1 hash
  let d := match result with
    | none => d
    | some r => d.watch v e step r
  (step, result, d)

/-- The lines of a contribution in a window's format (R120, R374). -/
def redLines (bf : Bool) (r : List W32) : List (List W8) :=
  let bytes := r.flatMap (fun x => if bf then toLE 2 (bf16Of (f32 x)).toNat else toLE 4 x.toNat)
  (List.range ((bytes.length + 63) / 64)).map (fun k => ((bytes.drop (64 * k)).take 64 ++ List.replicate 64 0).take 64)

/-- The deferred lines that an entry's instance holds. -/
def Dev.deferredOf (d : Dev) (e : WinEntry) : List RedHeld := ((d.winEntry e.serial e.index).map (·.deferred)).getD []

/-- Whether an open instance has every slot it waits for: in a replay the fresh and deferred ones that the journal shows. -/
def Window.complete (x : Window) (e : WinEntry) (deferred : List RedHeld) : Bool := match x.expect with
  | some z => (List.range 64).all (fun k => (!z.1.getLsbD k || heldWhole e.lines x.fresh k) && (!z.2.1.getLsbD k || heldWhole e.lines deferred k))
  | none => (List.range e.slots).all (heldWhole e.lines x.fresh)

/-- A line of the reduction aperture (R267, R276, R279, R370, R371); `fin` closes an instance that the line completes under
WAIT. -/
def Dev.storeWith (v : Variant) (fin : Dev → WinEntry → Dev) (d : Dev) (n w slot off : Nat) (step : W64) (remote : Bool)
    (data : List W8) : W8 × Dev :=
  if v.sectors ≤ n then (sTranslation, d)
  else if (d.hub n).fenced then (sFenced, d)
  else if off % 64 ≠ 0 ∨ data.length ≠ 64 then (sTranslation, d)
  else
    let x := d.window n w
    if x.blocked.isSome then (sInternal, d)
    else if x.abandoned then (sFenced, d)
    else
      match x.entry with
      | none => (sInternal, d)
      | some e =>
        let l : RedHeld := ⟨slot, off / 64, step, data⟩
        if e.slots ≤ slot ∨ e.slotBytes ≤ off then (sTranslation, d)
        else if !x.isOpen then
          if x.step = some step then d.redLate v e l else (sDone, d.redDrop n w slot 1)
        else if x.expect.any (fun y => !y.1.getLsbD slot) then (sDone, d)
        else if x.step.isSome && x.step != some step then
          (sDone, d.onWindow n w fun y => { y with failed := some (y.failed.getD step) })
        else
          let r := d.virtStore v e.ctx (d.evalMember n) (e.slotBuf.toNat + slot * e.slotBytes + off)
            (data.take (min 64 (e.slotBytes - off)))
          if r.st ≠ 0 then (r.st, r.d)
          else
            let d := r.d.onWindow n w fun y =>
              { y with step := some step, fresh := putHeld y.fresh l,
                       remote := if remote then slot :: y.remote.filter (· != slot) else y.remote }
            let y := d.window n w
            (sDone, if y.waiting && y.complete e (d.deferredOf e) then fin d e else d)

/-- Closes an instance, and with it every window of the device that its forward completes under WAIT; `fuel` bounds the chain of
forwards by the number of windows of the device. -/
def Dev.closeChain (v : Variant) : Nat → Dev → WinEntry → Dev
  | 0, d, _ => d
  | fuel + 1, d, e =>
    let c := d.closeBody v e
    let d := c.2.2
    match c.2.1 with
    | none => d
    | some r =>
      if e.fwd.getLsbD 0 = false then d
      else
        let dev := (e.fwd >>> 48).setWidth 16
        let n := (e.fwd >>> 40).toNat % 256
        let w := (e.fwd >>> 32).toNat % 256
        let slot := (e.fwd >>> 24).toNat % 256
        if dev = d.deviceId then
          let bf := match (d.window n w).entry with
            | none => e.bf16
            | some t => t.bf16
          (redLines bf r).zipIdx.foldl (fun y l => (Dev.storeWith v (Dev.closeChain v fuel) y n w slot (64 * l.2) c.1 false l.1).2) d
        else
          let g := d.draw
          (redLines (g.1.getLsbD 0) r).zipIdx.foldl (fun y l =>
            (y.nimRequest v (.peer dev 2) 0x04
              (BitVec.ofNat 64 (apertureBase + n * 0x100000000 + w * 0x1000000 + slot * 0x40000 + 64 * l.2)) c.1 l.1 0).2) g.2

/-- Closes an instance (R277, R278, R370 to R375). -/
def Dev.closeWindow (v : Variant) (d : Dev) (e : WinEntry) : Dev := Dev.closeChain v 4096 d e

/-- A line written to the reduction aperture. -/
def Dev.redStore (v : Variant) (d : Dev) (n w slot off : Nat) (step : W64) (remote : Bool) (data : List W8) : W8 × Dev :=
  Dev.storeWith v (Dev.closeWindow v) d n w slot off step remote data

/-- Abandons the open windows of a slice that is fenced (R279). -/
def Dev.abandonWindows (v : Variant) (d : Dev) (n : Nat) : Dev :=
  ((d.hub n).windows.filter (fun w => w.2.isOpen)).foldl (fun (x : Dev) w =>
    match w.2.entry with
    | none => x
    | some e =>
      let y := (x.onWindow n w.1 fun z => { z with isOpen := false, waiting := false, abandoned := true }).onWinEntry e.serial e.index
        fun q => { q with closed := true }
      (y.count (At.hub n 0x02C) 16 8 1).journalWindow v e (w.2.step.getD x.tick.step)
        (slotSet e.slots (heldWhole e.lines w.2.fresh)) 0 0 0 2 0) d

/-! ## Commands -/

/-- RED_LINE_WRITE (R276, R370, R371): one line that reaches the aperture of a slice; the acknowledgement carries its status. -/
def execRedLineWrite (n : Fin 12) (l : RedLine) (s : State) : Host.Outcome State Fault Refusal :=
  s.onDev fun d =>
    let r := d.redStore s.fuse.variant n.val l.window.toNat l.slot.toNat l.offset l.step l.remote l.data
    r.2.send (.sliceResp 0 r.1 [])

/-- WINDOW_GRACE_EXPIRY (R369, R371): E + grace of a window due: it closes, or waits under WAIT after a stretch request, or, in a
replay, for the slots the journal shows (R382). -/
def execWindowGraceExpiry (n : Fin 12) (w : W8) (s : State) : Host.Outcome State Fault Refusal :=
  s.onDev fun d =>
    let v := s.fuse.variant
    let x := d.window n.val w.toNat
    match x.blocked with
    | some e =>
      if e.closeTick.toNat ≤ d.tick.number.toNat then
        (d.onWindow n.val w.toNat fun y => { y with blocked := none }).onWinEntry e.serial e.index fun q => { q with closed := true }
      else d
    | none =>
      match x.entry with
      | none => d
      | some e =>
        if !x.isOpen || x.waiting || decide (d.tick.number.toNat < e.closeTick.toNat) then d
        else if x.expect.isSome && !x.complete e (d.deferredOf e) then d.onWindow n.val w.toNat fun y => { y with waiting := true }
        else if x.expect.isNone && e.policy == 2 && !x.complete e [] then
          (d.requestStretch d.tick.number e.wait).onWindow n.val w.toNat fun y => { y with waiting := true }
        else d.closeWindow v e

/-- WINDOW_WAIT_EXPIRY (R371): the longest hold of a WAIT window ends. -/
def execWindowWaitExpiry (n : Fin 12) (w : W8) (s : State) : Host.Outcome State Fault Refusal :=
  s.onDev fun d =>
    let x := d.window n.val w.toNat
    match x.entry with
    | none => d
    | some e => if x.isOpen && x.waiting && x.expect.isNone then d.closeWindow s.fuse.variant e else d

end Sys2Proof.Machine
end

