-- ==== Sys2Proof/Machine/Virt.lean ====
section
/-!
DEFINITION. Sys2Proof/Machine/Virt.lean: accesses of an engine, a stream or an Ox unit to a context's virtual memory in every
region (R267, R276, R282 to R285), and to the three byte spaces of a tile.
-/

namespace Sys2Proof.Machine

open Sys2Proof

/-- Bytes of one line of virtual memory, read by a unit. -/
def Dev.virtRead (v : Variant) (u : XlUnit) (ctx : Nat) (d : Dev) (va len : Nat) : Acc :=
  let r := d.translate v u ctx va false (d.evalMember u.sector)
  if r.1 ≠ 0 then ⟨r.1, [], r.2.2⟩ else r.2.2.physRead v (some u.sector) r.2.1 len

/-- Bytes of virtual memory, line by line. -/
def Dev.virtReads (v : Variant) (u : XlUnit) (ctx : Nat) (d : Dev) (va len : Nat) : Acc :=
  readPieces (fun x a k => x.virtRead v u ctx a k) (pieces va len) d

/-- Writes bytes of one line of virtual memory by a unit; a line of the reduction aperture carries `step` (R276, R370). -/
def Dev.virtWrite (v : Variant) (u : XlUnit) (ctx : Nat) (step : W64) (d : Dev) (va : Nat) (bytes : List W8) : Acc :=
  let r := d.translate v u ctx va true (d.evalMember u.sector)
  if r.1 ≠ 0 then ⟨r.1, [], r.2.2⟩
  else
    match regionOf r.2.1 with
    | .aperture h w slot off =>
      let x := (r.2.2.chargeFor (some u.sector) false true 0 r.2.1 bytes.length).redStore v h w slot off step false bytes
      ⟨x.1, [], x.2⟩
    | _ => r.2.2.physWrite v (some u.sector) r.2.1 bytes

/-- Writes bytes line by line: a line that fails is left as it was (R255), the others are written; the status is the first that is
not DONE. -/
def writeEach (wr : Dev → Nat → List W8 → Acc) : List (Nat × Nat) → List W8 → Dev → Acc
  | [], _, d => ⟨0, [], d⟩
  | (a, n) :: r, bytes, d =>
    let x := wr d a (bytes.take n)
    let y := writeEach wr r (bytes.drop n) x.d
    ⟨if x.st = 0 then y.st else x.st, [], y.d⟩

/-- Writes bytes of virtual memory, line by line. -/
def Dev.virtWrites (v : Variant) (u : XlUnit) (ctx : Nat) (step : W64) (d : Dev) (va : Nat) (bytes : List W8) : Acc :=
  writeEach (fun x a bs => x.virtWrite v u ctx step a bs) (pieces va bytes.length) bytes d

/-- Bytes of SPACE 0, 1 or 2 of a tile (R92), read by a unit. -/
def Dev.spaceRead (v : Variant) (t : TileRef) (u : XlUnit) (ctx space : Nat) (d : Dev) (a len : Nat) : Acc :=
  match space with
  | 0 => readPieces (fun x b k => x.tileRead t b k) (pieces a len) d
  | 1 => readPieces (fun x b k => x.bufRead t.sector.val b k) (pieces a len) d
  | _ => d.virtReads v u ctx a len

/-- The first byte of the pool in force of a sector. -/
def Dev.poolStart (d : Dev) (n : Nat) : Nat := sectBufSize - (d.sector n).pool * 0x40000

/-- Bytes of a list or record that a descriptor names; one that reaches into the Drover pool gives values that the manual does not
define (R302, log 1). -/
def Dev.operandRead (v : Variant) (d : Dev) (t : TileRef) (u : XlUnit) (ctx : Nat) (dn : Desc) (off len : Nat) : Acc :=
  let r := Dev.spaceRead v t u ctx dn.space d (dn.base + off) len
  if dn.space = 1 ∧ d.poolStart t.sector.val < dn.base + off + len then let g := r.d.drawBytes len; ⟨r.st, g.1, g.2⟩ else r

/-- Bytes of virtual memory read line by line, each with the status of its line. -/
def Dev.virtMarked (v : Variant) (u : XlUnit) (ctx : Nat) (d : Dev) (va len : Nat) : List (W8 × W8) × Dev :=
  let r := (pieces va len).foldl (fun (r : List (List (W8 × W8)) × Dev) p =>
    let x := r.2.virtRead v u ctx p.1 p.2
    ((if x.st = 0 then x.data.map (fun b => (b, 0)) else List.replicate p.2 (0, x.st)) :: r.1, x.d)) ([], d)
  (r.1.reverse.flatten, r.2)

/-- Virtual memory as a source of operands: the ranges read, each with its first address. -/
def srcOfMarked (rs : List (Nat × List (W8 × W8))) : Src :=
  let at_ := fun (a : Nat) => match rs.find? (fun r => decide (r.1 ≤ a) && decide (a < r.1 + r.2.length)) with
    | some r => r.2.getD (a - r.1) (0, 0)
    | none => (0, 0)
  { byte := fun a => (at_ a).1, st := fun a => (at_ a).2 }

end Sys2Proof.Machine
end

