-- ==== Sys2Proof/Machine/Slices.lean ====
section
/-!
DEFINITION. Sys2Proof/Machine/Slices.lean: the slices of accepted plans (R49, R54, R61, R74 to R76): what a plan holds of a
tile, the holds of R296, the start of a slice with the program image of a plan's first slice, which slice is a tile's last, and the
planned swaps of banks (R310).
-/

namespace Sys2Proof.Machine

open Sys2Proof

/-! ## Plans -/

/-- The first tick that is no longer the plan's (R49, R50). -/
def Plan.endTick (p : Plan) : Nat := min (p.first.toNat + p.count) ((p.cancelAt.map (·.toNat)).getD (p.first.toNat + p.count))

/-- Whether a tick is one of the plan's. -/
def Plan.covers (p : Plan) (n : Nat) : Bool := decide (p.first.toNat ≤ n) && decide (n < p.endTick)

def Dev.planOf (d : Dev) (serial : Nat) : Option Plan := d.seq.plans.find? (fun p => p.serial == serial)

/-- A slice with no work: IDLE alone (R49). -/
def idleEntry : W64 := 0x10000

/-- The slice entry of a tile in a tick of a plan (R49); a plan without a slice table has idle slices only, and an entry that
cannot be read is idle (log 16). -/
def Dev.sliceEntry (v : Variant) (d : Dev) (p : Plan) (n ix : Nat) : W64 × Dev :=
  if p.slices = 0 then (idleEntry, d)
  else
    let r := d.virtLoad v p.ctx false (p.slices.toNat + ((n - p.first.toNat) * 16 * v.sectors + ix) * 8) 8
    (if r.st = 0 then BitVec.ofNat 64 (leNat r.data) else idleEntry, r.d)

def isIdle (e : W64) : Bool := e.getLsbD 16

/-- Whether no slice of a plan follows tick `n` on a tile. -/
def Dev.lastSlice (v : Variant) (d : Dev) (serial n ix : Nat) : Bool × Dev :=
  match d.planOf serial with
  | none => (true, d)
  | some p =>
    (List.range (p.endTick - (n + 1))).foldl (fun (r : Bool × Dev) k =>
      if !r.1 then r else
        let e := r.2.sliceEntry v p (n + 1 + k) ix
        (isIdle e.1, e.2)) (true, d)

/-! ## Holds (R296) -/

/-- DEADLINE of the entry in progress of a stream (R293). -/
def Stream.deadline (x : Stream) : Nat := (x.cur.getD 0x17 0).toNat

/-- Bytes `off` to `off + 31` of a stream's list. -/
def Dev.listBytes (v : Variant) (d : Dev) (t : TileRef) (ctx : Nat) (list : BitVec 256) (off : Nat) : Acc :=
  d.operandRead v t (.drover t.sector.val) ctx (descOf list) off 32

/-- The tile of a stream. -/
def Stream.ref (x : Stream) (n : Nat) : TileRef := ⟨Fin.ofNat 12 n, x.tile⟩

/-- The first DEADLINE of 1 or more among the entries of a stream from the one in progress on, read without effect: DEADLINEs rise
(R295), so it is the first of them to fall due at an edge. -/
def Dev.firstDue (v : Variant) (d : Dev) (n : Nat) (x : Stream) : Nat → Nat → Option Nat
  | 0, _ => none
  | fuel + 1, i =>
    let b := if i = x.entry then x.cur else (d.listBytes v (x.ref n) x.ctx x.list (32 + 32 * i)).data
    let e := (b.getD 0x17 0).toNat
    if b.length < 32 then none
    else if 1 ≤ e then some e
    else d.firstDue v n x fuel (i + 1)

/-- Whether an entry of a fetch stream of the tile that is due at the edge of tick `n`, or was due at an earlier edge, is
undelivered; an entry with DEADLINE 0 falls due at no edge and holds nothing (log 17). -/
def Dev.sliceHeld (v : Variant) (d : Dev) (t : TileRef) (n : Nat) : Bool :=
  (d.sector t.sector.val).streams.any fun x =>
    decide (x.tile = t.tile) && !x.put && !x.done &&
      (d.firstDue v t.sector.val x (x.entries - x.entry) x.entry).any (fun dl => decide (x.startTick.toNat + dl ≤ n))

/-! ## Accumulator swaps and program images -/

/-- Exchanges accumulator banks 0 and 1, and 2 and 3, of a tile (R138). -/
def Dev.swapAcc (d : Dev) (t : TileRef) : Dev :=
  let base := t.ix * 0x40000
  let part := fun (m : Mem) (k : Nat) => m.filter (fun e => decide (base + k * 0x10000 ≤ e.1) && decide (e.1 < base + (k + 1) * 0x10000))
  let up := fun (m : Mem) => m.map (fun (e : Host.Cell) => (e.1 + 0x10000, e.2))
  let down := fun (m : Mem) => m.map (fun (e : Host.Cell) => (e.1 - 0x10000, e.2))
  { d with
    acc := d.acc.filter (fun e => decide (e.1 < base)) ++ down (part d.acc 1) ++ up (part d.acc 0) ++ down (part d.acc 3) ++
      up (part d.acc 2) ++ d.acc.filter (fun e => decide (base + 0x40000 ≤ e.1)),
    accBad := d.accBad.map (fun r => if r / 1024 = t.ix then (if r / 256 % 2 = 0 then r + 256 else r - 256) else r) }

/-- The accumulator of a tile at zero. -/
def Dev.zeroAcc (d : Dev) (t : TileRef) : Dev :=
  { d with acc := Mem.clear d.acc (t.ix * 0x40000) 0x40000, accBad := d.accBad.filter (fun r => decide (r / 1024 ≠ t.ix)) }

/-- Places bytes in a tile's instruction memory; the words placed can be read. -/
def Dev.placeProgram (d : Dev) (t : TileRef) (off : Nat) (bytes : List W8) : Dev :=
  { d with imem := Mem.store d.imem (t.ix * 65536 + off) bytes,
           imemBad := d.imemBad.filter (fun w => !(decide (t.ix * 16384 + off / 4 ≤ w) &&
             decide (w < t.ix * 16384 + (off + bytes.length) / 4))) }

/-- The cause of a failed read of a program image (R76). -/
def imageCause (st : W8) : Nat := if st = sEcc ∨ st = sRetryExhausted then cDataEcc else cTranslation

/-- Loads the lines of an image until one cannot be read: the cause and its address (R76). -/
def Dev.loadLines (v : Variant) (ctx : Nat) (t : TileRef) (off : Nat) : List (Nat × Nat) → Dev → Option (Nat × W64) × Dev
  | [], d => (none, d)
  | (a, k) :: r, d =>
    let x := d.virtLoad v ctx false a 64
    if x.st ≠ 0 then (some (imageCause x.st, BitVec.ofNat 64 a), x.d)
    else Dev.loadLines v ctx t off r (x.d.placeProgram t (off + k) x.data)

/-- The program image of a plan's first slice on a tile (R75, R76): what it raises before any instruction executes. Lines at or beyond
offset 65,536 are not read, and an image that reaches there raises FETCH_BOUND, which R106 puts before TRANSLATION and DATA_ECC. DESIGN
CHOICE (log 59): an entry that R75 does not allow (a misaligned ADDRESS, LENGTH or TARGET, a LENGTH above 65,536, reserved bits) loads
nothing and raises TRANSLATION. -/
def Dev.loadImage (v : Variant) (d : Dev) (t : TileRef) (p : Plan) : Option (Nat × W64) × Dev :=
  if p.programs = 0 then (none, d)
  else
    let at_ := p.programs.toNat + 16 * t.ix
    let r := d.virtLoad v p.ctx false at_ 16
    let addr := leNat (r.data.take 8)
    let len := recNat r.data 8 4
    let off := recNat r.data 12 2
    if r.st ≠ 0 then (some (imageCause r.st, BitVec.ofNat 64 at_), r.d)
    else if len = 0 then (none, r.d)
    else
      let bound := fun (c : Option (Nat × W64)) => if off + len > 65536 then some (cFetchBound, 0) else c
      if addr % 64 ≠ 0 ∨ len % 64 ≠ 0 ∨ off % 64 ≠ 0 ∨ len > 65536 ∨ recNat r.data 14 2 ≠ 0 then
        (bound (some (cTranslation, BitVec.ofNat 64 addr)), r.d)
      else
        let n := min (len / 64) ((65536 - off) / 64)
        let x := Dev.loadLines v p.ctx t off ((List.range n).map (fun k => (addr + 64 * k, 64 * k))) r.d
        (bound x.1, x.2)

/-! ## The start of a slice -/

/-- Whether a tile is at a slice boundary (R54): no slice runs, and on a halted tile the engines have finished their queues (R109). -/
def Dev.atBoundary (d : Dev) (t : TileRef) : Bool :=
  let x := d.tile t
  decide (x.run ≠ .running) && decide (x.run ≠ .ending) && (decide (x.run ≠ .halted) || x.queued.isEmpty)

/-- A core at the first slice of a plan (R70, R76, R110, R111, R139). DESIGN CHOICE (log 59): R111 names TRAP_EN, TRAP_VEC and
STICKY; IN_TRAP, which a plan that ended inside a handler leaves set, is cleared with them. -/
def Tile.fresh (x : Tile) : Tile :=
  { x with regs := {}, trapEn := 0xA2, vecOffset := 0, vecValid := false, sticky := 0, inTrap := false, bracket := none,
           outstanding := none, sb0 := none, sb1 := none, rec0 := none, rec1 := none, repeating := false, cycles := 0 }

/-- Whether an instruction that no token names is still in flight: a detached stream, or a command in an Ox unit (R290, R297, R347). -/
def Dev.outlives (d : Dev) (t : TileRef) (q : Queued) : Bool :=
  !q.args.te &&
    ((q.engine == 2 && (d.sector t.sector.val).streams.any (fun x => x.tile == t.tile && x.list == q.da && x.args == q.args)) ||
      (q.engine == 8 && d.hubs.any (fun h => h.2.oxQueue.any (fun c => c.tile == t && c.args == q.args) ||
        h.2.oxPass.any (fun p => p.cmd.tile == t && p.cmd.args == q.args))))

/-- Starts a slice (R49, R61, R76). What the slices before it issued has completed (R101), but for what outlives a slice (R85). -/
def Dev.startSlice (v : Variant) (d : Dev) (t : TileRef) (s : Slice) : Dev :=
  let go := fun (d : Dev) => d.onTile t fun x =>
    { x with pc := s.entry.setWidth 16, past := false, run := .running, late := s.late, ctx := BitVec.ofNat 4 s.ctx, cur := some s,
             ran := true, unwaited := x.unwaited.filter (d.outlives t) }
  if (d.tile t).begun.contains s.serial then go d
  else
    let d := go ((d.onTile t fun x => { x.fresh with begun := s.serial :: x.begun }).zeroAcc t)
    match d.planOf s.serial with
    | none => d
    | some p =>
      match d.loadImage v t p with
      | (none, d) => d
      | (some c, d) => d.trap t c.1 c.2

/-- Starts the next of the waiting slices that may start: skipped ones leave (R109), one that is held waits (R296), and an
idle one makes its swap only (R49, R54). -/
def Dev.startFrom (v : Variant) (t : TileRef) : List Slice → Dev → Dev
  | [], d => d.onTile t fun x => { x with waiting := [] }
  | s :: rest, d =>
    if (d.tile t).skip.contains s.serial then Dev.startFrom v t rest d
    else if d.sliceHeld v t s.tick.toNat then d.onTile t fun x => { x with waiting := s :: rest }
    else
      let d := if s.entry.getLsbD 17 && !s.swapped then d.swapAcc t else d
      if isIdle s.entry then Dev.startFrom v t rest d
      else (d.onTile t fun x => { x with waiting := rest }).startSlice v t s

/-- Tries to start a tile's next slice: at a slice boundary alone (R54, R61, R109), and not during the reserve of a maintenance tick
(R65). -/
def Dev.tryStart (v : Variant) (d : Dev) (t : TileRef) : Dev :=
  let x := d.tile t
  if x.waiting.isEmpty || d.tick.reserve || !d.atBoundary t then d else Dev.startFrom v t x.waiting d

/-- The accumulator swaps that fall at an edge (R53 step 8): those of the slices a tile starts next, up to the first that is not idle. -/
def Dev.swapHead (t : TileRef) : List Slice → Dev → List Slice × Dev
  | [], d => ([], d)
  | s :: rest, d =>
    if (d.tile t).skip.contains s.serial then
      let r := Dev.swapHead t rest d
      (s :: r.1, r.2)
    else
      let d := if s.entry.getLsbD 17 && !s.swapped then d.swapAcc t else d
      if isIdle s.entry then
        let r := Dev.swapHead t rest d
        ({ s with swapped := true } :: r.1, r.2)
      else ({ s with swapped := true } :: rest, d)

/-- A tile at a boundary makes its planned accumulator swap at the edge, before its slice starts (R53, R54). -/
def Dev.swapAtEdge (d : Dev) (t : TileRef) : Dev :=
  if (d.tile t).waiting.isEmpty || !d.atBoundary t then d
  else
    let r := Dev.swapHead t (d.tile t).waiting d
    r.2.onTile t fun x => { x with waiting := r.1 }

/-- Every tile present in the variant. -/
def Variant.tiles (v : Variant) : List TileRef := (List.range (16 * v.sectors)).map tileOf

/-- Tries to start the slices of a sector's tiles, as when a hold is released (R296). -/
def Dev.tryStarts (v : Variant) (d : Dev) (n : Nat) : Dev :=
  (List.range 16).foldl (fun x k => x.tryStart v (tileOf (16 * n + k))) d

/-! ## Troughs and their planned swaps (R54, R308, R310) -/

def Dev.trough (d : Dev) (n k : Nat) : Trough := Tab.look {} (d.sector n).troughs k

def Dev.onTrough (d : Dev) (n k : Nat) (f : Trough → Trough) : Dev :=
  d.onSector n fun s => { s with troughs := Tab.alter {} s.troughs k f }

/-- Drops words up to and including the first end-marked one: what is left, and whether one was met (R315). -/
def dropPacket : List TWord → List TWord × Bool
  | [] => ([], false)
  | w :: r => if w.endMark then (r, true) else dropPacket r

/-- The banks exchange roles (R310, R311): words that enter the drain bank are discarded while DROP_PENDING is set, up to and
including the next end-marked word (R315). -/
def Trough.swap (x : Trough) : Trough :=
  let r := if x.dropPending then dropPacket x.fill else (x.fill, true)
  { x with fill := [], drain := r.1, dropPending := x.dropPending && !r.2 }

/-- Whether an end of a trough is at a slice boundary: the Drover and the host port always are (R54, R310). -/
def Dev.endAtBoundary (d : Dev) (n : Nat) (e : W8) : Bool :=
  if e.toNat < 16 then d.atBoundary (tileOf (16 * n + e.toNat)) else true

/-- One planned swap that waits takes place when both ends are at a boundary (R54); the unread words of the drain bank are
discarded and counted (R310). -/
def Dev.plannedSwap (d : Dev) (n k : Nat) : Dev :=
  let x := d.trough n k
  if x.swapPlanned ≠ 0 ∧ d.endAtBoundary n x.producer ∧ d.endAtBoundary n x.consumer then
    (d.count (At.sector n 0x514) 0 32 x.drain.length).onTrough n k fun x => { x.swap with swapPlanned := x.swapPlanned - 1 }
  else d

/-- The planned swaps of a sector's troughs that may take place. -/
def Dev.plannedSwaps (d : Dev) (n : Nat) : Dev := (List.range 32).foldl (fun d k => d.plannedSwap n k) d

/-- A halted tile whose engines have finished their queues is at a boundary (R54, R109): swaps that waited take place, and its next
slice starts. -/
def Dev.settled (v : Variant) (d : Dev) (t : TileRef) : Dev :=
  if (d.tile t).run = .halted ∧ (d.tile t).queued.isEmpty then (d.plannedSwaps t.sector.val).tryStart v t else d

end Sys2Proof.Machine
end

