-- ==== Sys2Proof/Machine/Ox.lean ====
section
/-!
DEFINITION. Sys2Proof/Machine/Ox.lean: the Ox update units (R345 to R366, R386): issue, the queue of a unit, its two passes and
their completion.
-/

namespace Sys2Proof.Machine

open Sys2Proof

/-! ## Issue (R346) -/

def oxOk (w : IssueView) : Bool :=
  w.da.ok w.x.ctx.toNat false [nI32] && !w.da.coded && w.da.ndim == 1 && w.da.e0 == 32 && w.da.space != 3 &&
  w.a.db == 0 && w.a.dc == 0 && w.a.greg == 0 && w.m 1 18 == 0

/-- Whether an issued command names the same shard as `q`: the STATE address of its record in its context (R347, R348). -/
def Queued.sameShard (q y : Queued) : Bool :=
  decide (y.engine = 8 ∧ y.ctx = q.ctx) && y.begun.headD 1 == 0 && q.begun.headD 1 == 0 &&
    (y.begun.drop 1).take 8 == (q.begun.drop 1).take 8

/-- The same of a command that has left its tile's queue. -/
def OxCmd.sameShard (c : OxCmd) (q : Queued) : Bool :=
  decide (c.ctx = q.ctx) && q.begun.headD 1 == 0 && c.record.take 8 == (q.begun.drop 1).take 8

/-- Whether a command for the shard of `q` is in flight (R347). -/
def Dev.oxRival (d : Dev) (q : Queued) : Bool :=
  d.tiles.any (fun e => (e.2.queue 8).any q.sameShard) ||
    d.hubs.any (fun e => e.2.oxQueue.any (·.sameShard q) || e.2.oxPass.any (·.cmd.sameShard q))

/-- Marks every command in flight for the shard of `q`: their results are not defined (R347). -/
def Dev.markShard (d : Dev) (q : Queued) : Dev :=
  let one := fun (c : OxCmd) => if c.sameShard q then { c with open_ := true } else c
  { d with
    tiles := d.tiles.map fun e => (e.1, e.2.setQueue 8 ((e.2.queue 8).map fun y => if q.sameShard y then { y with open_ := true } else y))
    hubs := d.hubs.map fun e => (e.1, { e.2 with oxQueue := e.2.oxQueue.map one, oxPass := e.2.oxPass.map fun p => { p with cmd := one p.cmd } }) }

/-- The record's bytes as issue captures them, after their status: of a read that fails, of the translation of the STATE address, or
TRANSLATION in an evaluation context (R386); the step; and the home slice of the STATE address, 12 where it has none. -/
def Dev.oxCapture (v : Variant) (d : Dev) (t : TileRef) : Dev :=
  match ((d.tile t).queue 8).getLast? with
  | none => d
  | some q =>
    let n := t.sector.val
    let r := d.operandRead v t (.ox n) q.ctx q.da' 0 128
    let a := r.d.translate v (.ox n) q.ctx (leNat (r.data.take 8)) false (r.d.evalMember n)
    let st := if r.d.seq.evalCtx.getLsbD q.ctx then sTranslation else if r.st ≠ 0 then r.st else a.1
    let home := if r.st ≠ 0 ∨ a.1 ≠ 0 then 12 else match regionOf a.2.1 with
      | .quire m _ => m
      | _ => 12
    let q' := { q with begun := st :: r.data, step := d.stepOf n, moved := home }
    let met := d.oxRival q'
    let d := if met then a.2.2.markShard q' else a.2.2
    d.onTile t fun x => x.setQueue 8 ((x.queue 8).dropLast ++ [{ q' with open_ := met }])

/-- Issue of an Ox command (R346). -/
def Dev.issueOx (v : Variant) (d : Dev) (t : TileRef) (op : Nat) (a : TensorArgs) : Dev :=
  let d1 := d.issue t (encTensor 8 (BitVec.ofNat 8 op) a) 8 op a oxOk noPost
  if ((d1.tile t).queue 8).length = ((d.tile t).queue 8).length + 1 then d1.oxCapture v t else d1

/-- OX.RULE (R346). -/
def execOxRule (t : TileRef) (a : TensorArgs) (s : State) : Host.Outcome State Fault Refusal :=
  s.onDev fun d => d.issueOx s.fuse.variant t 1 a

/-- OX.PROG (R364). -/
def execOxProg (t : TileRef) (a : TensorArgs) (s : State) : Host.Outcome State Fault Refusal :=
  s.onDev fun d => d.issueOx s.fuse.variant t 2 a

/-- Adds the status of a completion other than DONE to the replay trace (R382), where TRACE is set and open (R486). -/
def Dev.trace (v : Variant) (d : Dev) (t : TileRef) (engine opcode : Nat) (pc : W16) (st : W8) (detail : W32) : Dev :=
  let open_ := d.seq.replay.any (·.blank) || decide (2 ≤ d.sec.debugLevel.toNat)
  if st ≠ 0 ∧ d.replaying t.sector.val ∧ d.bit (At.seq 0x428) 29 ∧ open_ then
    d.journal v jTrace 1 (d.stepOf t.sector.val) true
      ([BitVec.ofNat 8 t.sector.val, BitVec.ofNat 8 t.tile.val] ++ toLE 2 pc.toNat ++
       [BitVec.ofNat 8 engine, BitVec.ofNat 8 opcode, st, 0] ++ toLE 4 detail.toNat)
  else d

/-! ## Statuses (R366) -/

def oxRank (s : W8) : Nat :=
  match s.toNat with
  | 0x43 => 1
  | 0x70 => 2
  | 0x13 => 3
  | 0x7F => 4
  | 0x60 => 5
  | 0x42 => 6
  | 0x40 => 7
  | 0x51 => 8
  | 0x61 => 9
  | 0x62 => 10
  | 0x02 => 11
  | _ => 12

/-- The higher-ranked of two statuses with their DETAIL. -/
def oxWorse (a b : W8 × W32) : W8 × W32 := if oxRank b.1 < oxRank a.1 then b else a

/-! ## The queue of a unit (R347) -/

/-- Whether a command may run on the Ox unit of its home slice; else why not (R6, R91, R366, R386). -/
def Dev.oxRefuses (v : Variant) (d : Dev) (n : Nat) : W8 :=
  let st := (d.entry v (unitNo 0x0B n)).state
  if 12 ≤ n then sTranslation
  else if (d.hub n).fenced then sFenced
  else if st = stAbsent then sUnitAbsent
  else if st = stDisabled ∨ st = stDraining then sUnitDisabled
  else if st = stFenced ∨ st = stResetting then sFenced
  else 0

/-- OX_COMMAND_ENQUEUE (R347): the head of a tile's engine-8 queue, every token of its WAIT SET, goes to the Ox unit of its
shard's home slice once that unit's queue of 64 has room. -/
def Dev.oxEnqueue (v : Variant) (d : Dev) (t : TileRef) : Dev :=
  let x := d.tile t
  match x.head 8 with
  | none => d
  | some q =>
    if !x.regs.waitMet q.args.wait then d
    else
      match x.regs.failing x.trapEn q.args.wait with
      | some k => d.suppress t q k
      | none =>
        let st := if q.moved = 12 ∧ q.begun.headD 0 ≠ 0 then q.begun.headD 0
          else (oxWorse (d.oxRefuses v q.moved, 0) (q.begun.headD 0, 0)).1
        if st ≠ 0 then (d.finish t q { st := st }).trace v t 8 q.opcode x.pc st 0
        else if 64 ≤ (d.hub q.moved).oxQueue.length then d
        else
          let d := { d with gander := { d.gander with
            active := Tab.put 0 d.gander.active (16 * (12 + q.moved) + q.ctx) (d.tick.number.toNat + 1) } }
          (d.setTile t (x.dequeue q)).onHub q.moved fun h =>
            { h with oxQueue := h.oxQueue ++ [{ tile := t, prog := decide (q.opcode = 2), pass2 := decide (q.mod 0 1 = 1),
                                                args := q.args, ctx := q.ctx, step := q.step, record := q.begun.drop 1,
                                                recStatus := q.begun.headD 0, barred := d.evalMember q.moved, open_ := q.open_ }] }

def execOxCommandEnqueue (t : TileRef) (s : State) : Host.Outcome State Fault Refusal :=
  s.onDev fun d => (d.oxEnqueue s.fuse.variant t).settled s.fuse.variant t

/-! ## Records (R348, R349) -/

/-- A field of the command record. -/
def OxCmd.u (c : OxCmd) (off n : Nat) : Nat := recNat c.record off n

/-- The first condition that holds names the offset. -/
def firstBad (l : List (Bool × Nat)) : Option Nat := (l.find? (·.1)).map (·.2)

/-- A window field: its device, slice, window and slot; bits 23:0 are RSV. -/
def oxWinBad (w : Nat) : Bool :=
  w != 0 && (decide (w % 2 ^ 24 ≠ 0) || decide (12 ≤ w / 2 ^ 40 % 256) || decide (64 ≤ w / 2 ^ 24 % 256))

/-- The rule of a state record: 1 OX_ADAMW, 2 OX_LAMB, 3 OX_FACTORED, 4 OX_MOMENTUM, 0x80 custom. -/
def oxRule (r : List W8) : Nat := recNat r 0x10 1

/-- The first reserved or out-of-range field of a command record (R348). -/
def oxCmdBad (c : OxCmd) (rule : Nat) : Option Nat :=
  firstBad ([(decide (c.u 0 8 % 64 ≠ 0), 0x00), (decide (c.u 8 8 % 64 ≠ 0), 0x08), (oxWinBad (c.u 0x10 8), 0x10),
    (oxWinBad (c.u 0x18 8), 0x18), (c.prog && decide (c.u 0x30 8 % 64 ≠ 0), 0x30),
    (c.prog && decide (256 < c.u 0x38 2 + c.u 0x3A 2), 0x3A), (c.prog && decide (c.u 0x3C 1 / 16 ≠ 0), 0x3C),
    (decide (c.u 0x3E 2 ≠ 0), 0x3E), ((rule == 2 || rule == 3) && decide (c.u 0x54 4 ≠ 0), 0x54)] ++
    (List.range 9).map (fun i => (!c.prog && decide (c.u (0x5C + 4 * i) 4 ≠ 0), 0x5C + 4 * i)))

/-- The first reserved or out-of-range field of a shard state record (R349). -/
def oxStateBad (c : OxCmd) (r : List W8) : Option Nat :=
  let u := fun off n => recNat r off n
  let rule := oxRule r
  let fact := rule == 3
  let elems := u 0x14 4
  let cols := u 0x18 4
  firstBad [(if c.prog then rule != 0x80 else !decide (1 ≤ rule ∧ rule ≤ 4), 0x10), (!([0, 2].contains (u 0x11 1)), 0x11),
    (!([0x02, 0x06, 0x07, 0x08, 0xFF].contains (u 0x12 1)), 0x12), (decide (u 0x13 1 ≠ 0), 0x13),
    (decide (elems % 32 ≠ 0), 0x14),
    (if fact then decide (cols = 0 ∨ 16368 < cols ∨ elems % cols ≠ 0) else cols != 0, 0x18),
    (!fact && decide (u 0x1C 4 ≠ 0), 0x1C),
    (!c.prog && !(fact && (oxK c.record 1 == 0)) && decide (u 0x30 8 = 0), 0x30), (if rule = 4 then decide (u 0x38 8 ≠ 0) else !c.prog && decide (u 0x38 8 = 0), 0x38),
    (!c.prog && (if fact then decide (u 0x40 8 = 0) else decide (u 0x40 8 ≠ 0)), 0x40), ((List.range 24).any (fun i => u (0x68 + i) 1 != 0), 0x68)]

/-- The row count of an OX_FACTORED shard. -/
def oxRowCount (r : List W8) : Nat := if recNat r 0x18 4 = 0 then 0 else recNat r 0x14 4 / recNat r 0x18 4

/-- Bytes of a published copy (R361). -/
def oxPubBytes (fmt elems : Nat) : Nat := if fmt = nBF16 then 2 * elems else elems / 32 * blockBytes fmt

/-- Whether a rule uses the tensor at a pointer of the state record: its number of FP32 values, 0 where it does not. -/
def oxExtent (c : OxCmd) (r : List W8) (off : Nat) : Nat :=
  let elems := recNat r 0x14 4
  let rule := oxRule r
  if recNat r off 8 = 0 then 0
  else
    match off with
    | 0x30 => elems
    | 0x38 => if rule = 3 then oxRowCount r else elems
    | 0x40 => if rule = 3 then recNat r 0x18 4 else if c.prog then elems else 0
    | _ => 0

/-- Whether a pass 2 writes the tensor at a pointer: custom programs under WB, a built-in rule every tensor that it uses. -/
def oxWrites (c : OxCmd) (r : List W8) (off : Nat) : Bool :=
  if c.prog then (c.u 0x3C 1).testBit ((off - 0x20) / 8 - (if off = 0x20 then 0 else 1)) && (off == 0x20 || oxExtent c r off != 0)
  else
    match off with
    | 0x20 => true
    | 0x30 => oxRule r != 3 || FVal.zero.lt (f32 (oxK c.record 1))
    | _ => oxExtent c r off != 0

/-- Whether a pass reads the moment at a pointer (R350, R354, R357 to R359, R365). -/
def oxReads (c : OxCmd) (r : List W8) (off : Nat) : Bool :=
  let rule := oxRule r
  c.prog ||
    match off with
    | 0x30 => if rule = 3 then c.pass2 && FVal.zero.lt (f32 (oxK c.record 1)) else c.pass2 || rule == 2
    | 0x38 => c.pass2 || rule == 2 || rule == 3
    | 0x40 => c.pass2
    | _ => false

/-- Every tensor that a state record names: offset of its pointer, bytes, whether the pass writes it. -/
def oxTensorList (c : OxCmd) (r : List W8) : List (Nat × Nat × Bool) :=
  let elems := recNat r 0x14 4
  let pub := recNat r 0x12 1
  let odd := decide (c.step.toNat % 2 = 1)
  [(0x20, 4 * elems, c.pass2 && oxWrites c r 0x20), (0x28, elems * (if recNat r 0x11 1 = 0 then 4 else 2), false)] ++
  [0x30, 0x38, 0x40].map (fun off => (off, 4 * oxExtent c r off, c.pass2 && oxWrites c r off)) ++
  (if pub = 0xFF then [] else [(0x48, oxPubBytes pub elems, c.pass2 && !odd), (0x50, oxPubBytes pub elems, c.pass2 && odd)])

/-- N of the layer's window (R354). -/
def oxLayerN (r : List W8) : Nat := if oxRule r = 3 then 16 + (recNat r 0x18 4 + 15) / 16 * 16 else 16

/-- The addresses that a pass uses, each with the offset of its field, its bytes, and whether it must be homed on the unit's stack and is
written (R348, R349): the tensors, and in a pass 2 the results of its windows with their status lines. -/
def oxAreas (c : OxCmd) (r : List W8) : List (Nat × Nat × Nat × Bool × Bool) :=
  (oxTensorList c r).map (fun e => (e.1, recNat r e.1 8, e.2.1, true, e.2.2)) ++
  (if c.pass2 then
    (if c.u 0x10 8 = 0 then [] else [(0x20, c.u 0x20 8, 4 * oxLayerN r + 64, false, false)]) ++
    (if c.u 0x18 8 = 0 then [] else [(0x28, c.u 0x28 8, 128, false, false)])
  else [])

/-- The worst status of the pages of a list of areas, with the offset of its field (R366). -/
def Dev.oxHomes (v : Variant) (d : Dev) (n : Nat) (c : OxCmd) (r : List W8) : (W8 × W32) × Dev :=
  (oxAreas c r).foldl (fun (x : (W8 × W32) × Dev) e =>
    if e.2.2.1 = 0 then x
    else
      let h := Dev.pageStatus v c.ctx n e.2.2.2.1 e.2.2.2.2 (e.2.2.1 / 2 ^ 21 + 2) x.2 e.2.1 (e.2.1 + e.2.2.1)
      (oxWorse x.1 (h.1, if h.1 = sTranslation then BitVec.ofNat 32 e.1 else 0), h.2)) ((0, 0), d)

/-! ## Before the element work (R349 to R352, R366) -/

/-- What a pass finds before its element work: a status that ends it, if any, its state record and program. -/
structure OxReady where
  stop : Option (W8 × W32)
  gap : W8 × W32
  state : List W8
  prog : List (BitVec 128)

/-- The 16-byte instructions of a program. -/
def oxWords (bytes : List W8) : List (BitVec 128) := (chunks 16 bytes).map (fun b => BitVec.ofNat 128 (leNat b))

/-- The checks of a pass up to the step rule (R349, R351, R352, R364, R366, R386). -/
def Dev.oxPrepare (v : Variant) (d : Dev) (n : Nat) (c : OxCmd) : OxReady × Dev :=
  let stop := fun (st : W8) (detail : Nat) (r : List W8) (d : Dev) =>
    (({ stop := some (st, BitVec.ofNat 32 detail), gap := (0, 0), state := r, prog := [] } : OxReady), d)
  let ev := d.evalMember n
  if (d.hub n).fenced then stop sFenced 0 [] d
  else if c.barred then stop sTranslation 0 [] d
  else
    let a := c.u 0 8
    let h := Dev.pageStatus v c.ctx n true c.pass2 2 d a (a + 128)
    if h.1 ≠ 0 then stop h.1 0 [] h.2
    else
      let r := h.2.virtLoad v c.ctx ev a 128
      if r.st ≠ 0 then stop r.st 0 [] r.d
      else
        let rec_ := r.data
        let m := r.d.oxHomes v n c rec_
        let ver := if c.pass2 then m.2.virtLoad v c.ctx ev (c.u 8 8) 64 else ⟨0, [], m.2⟩
        let size := 16 * (c.u 0x38 2 + c.u 0x3A 2)
        let pr := if c.prog ∧ c.u 0x38 2 + c.u 0x3A 2 ≤ 256 then ver.d.virtLoad v c.ctx ev (c.u 0x30 8) size else ⟨0, [], ver.d⟩
        let words := oxWords pr.data
        let step := BitVec.ofNat 64 (recNat rec_ 0 8)
        let pend := recNat rec_ 8 8
        let low := step.toNat % 2 ^ 32
        let table := match oxCmdBad c (oxRule rec_), oxStateBad c rec_ with
          | some off, _ => some off
          | none, some off => some off
          | none, none => if pr.st = 0 then words.findIdx? (fun w => !oxInstrOk w) else none
        let access := oxWorse (oxWorse m.1 (ver.st, if ver.st = sTranslation then 0x08 else 0))
          (pr.st, if pr.st = sTranslation then 0x30 else 0)
        if access.1 = sFenced ∨ access.1 = sTranslation then stop access.1 access.2.toNat rec_ pr.d
        else
          match table with
          | some off => stop sTableInvalid off rec_ pr.d
          | none =>
            if pend ≠ step.toNat then stop sInternal (pend % 2 ^ 32) rec_ pr.d
            else if c.step.toNat < step.toNat then stop sStepBehind low rec_ pr.d
            else if access.1 ≠ 0 then stop sEcc 0 rec_ pr.d
            else if c.step = step then stop sStepRepeat low rec_ pr.d
            else
              ({ stop := none, gap := if step + 1 = c.step then (0, 0) else (sStepGap, BitVec.ofNat 32 low), state := rec_,
                 prog := words }, pr.d)

/-! ## Tensors (R360) -/

/-- FP32 values of a tensor of `count` elements of `es` bytes, each with whether its line failed; a failing one is the canonical
NaN. -/
def Dev.oxLoad (v : Variant) (d : Dev) (n ctx va count es : Nat) : List (W32 × Bool) × Dev :=
  let r := d.virtMarked v (.ox n) ctx va (count * es)
  ((chunks es r.1).map (fun b =>
    if b.any (fun x => x.2 != 0) then (qnan32, true)
    else
      let c := leNat (b.map (·.1))
      (if es = 2 then codeF (fBF16.decode c) else BitVec.ofNat 32 c, false)), r.2)

/-- Stores bytes line by line; a line that cannot be written is left as it is. -/
def Dev.oxStore (v : Variant) (d : Dev) (ctx va : Nat) (ev : Bool) (bytes : List W8) : Dev :=
  ((pieces va bytes.length).foldl (fun (r : List W8 × Dev) p =>
    (r.1.drop p.2, (r.2.virtStore v ctx ev p.1 (r.1.take p.2)).d)) (bytes, d)).2

/-- Writes the poison pattern to the line of a virtual address (R254, R360). -/
def Dev.virtPoison (v : Variant) (d : Dev) (ctx va : Nat) (ev : Bool) : Dev :=
  let r := d.translate v .outside ctx va true ev
  if r.1 ≠ 0 then r.2.2
  else
    match regionOf r.2.1 with
    | .quire n off => ((r.2.2.settleFill n (off / 64)).poisonLine n (off / 64)).onHub n (·.uncache (off / 64))
    | _ => r.2.2

/-- What a pass reads of a shard. -/
structure OxShard where
  g : List W32
  t : OxTensors
  /-- elements whose lines failed; rows and columns of OX_FACTORED likewise -/
  bad : List Nat
  badRows : List Nat
  badCols : List Nat
  /-- the row length of OX_FACTORED -/
  cols : Nat

/-- The places of the failing values of a list. -/
def failedAt (l : List (W32 × Bool)) : List Nat := (l.zipIdx.filter (fun e => e.1.2)).map (·.2)

/-- Reads G, W and the moments that the pass reads. -/
def Dev.oxRead (v : Variant) (d : Dev) (n : Nat) (c : OxCmd) (r : List W8) : OxShard × Dev :=
  let elems := recNat r 0x14 4
  let g := d.oxLoad v n c.ctx (recNat r 0x28 8) elems (if recNat r 0x11 1 = 0 then 4 else 2)
  let w := g.2.oxLoad v n c.ctx (recNat r 0x20 8) elems 4
  let moment := fun (d : Dev) (off : Nat) => d.oxLoad v n c.ctx (recNat r off 8) (if oxReads c r off then oxExtent c r off else 0) 4
  let m1 := moment w.2 0x30
  let m2 := moment m1.2 0x38
  let m3 := moment m2.2 0x40
  let fact := oxRule r == 3
  ({ g := g.1.map (·.1), t := ⟨w.1.map (·.1), m1.1.map (·.1), m2.1.map (·.1), m3.1.map (·.1)⟩,
     bad := failedAt g.1 ++ failedAt w.1 ++ failedAt m1.1 ++ (if fact then [] else failedAt m2.1 ++ failedAt m3.1),
     badRows := if fact then failedAt m2.1 else [], badCols := if fact then failedAt m3.1 else [],
     cols := if fact then recNat r 0x18 4 else 0 }, m3.2)

/-- ECC_UNCORRECTABLE with the first failing element (R360, R366): of a row or column of OX_FACTORED, the first element that it enters
(DEDUCED, log 35). -/
def OxShard.status (x : OxShard) : W8 × W32 :=
  match x.bad ++ x.badRows.map (· * x.cols) ++ x.badCols with
  | [] => (0, 0)
  | i :: is => (sEcc, BitVec.ofNat 32 (is.foldl min i))

/-- Runs a section of a program over the chunks of a shard: the registers x0 to x4 of every chunk, and the lanes of the
statistics vector (R364, R365). -/
def oxRun (k : Nat → W32) (prog : List (BitVec 128)) (x : OxShard) : List (List (List W32)) × List (List FVal) :=
  let pick := fun (l : List W32) (j n : Nat) => if l.isEmpty then List.replicate n (0 : W32) else (l.drop (64 * j)).take 64
  (chunks 64 x.g).zipIdx.foldl (fun (r : List (List (List W32)) × List (List FVal)) e =>
    let n := e.1.length
    let c : OxChunk :=
      { x := [e.1, pick x.t.w e.2 n, pick x.t.m1 e.2 n, pick x.t.m2 e.2 n, pick x.t.m3 e.2 n] ++
             List.replicate 11 (List.replicate n 0), lanes := r.2 }
    let c := prog.foldl (oxInstr k n) c
    (r.1 ++ [c.x.take 5], c.lanes)) ([], List.replicate 16 zeroLanes)

/-- The constants of an Ox program (R365): `c` is the clip factor, `l` the layer window's result. -/
def oxConst (cmd : OxCmd) (c : W32) (l : Nat → W32) (i : Nat) : W32 :=
  if i < 10 then oxK cmd.record i
  else if i = 10 then f32OfNat cmd.step.toNat
  else if i = 11 then c
  else l (i - 12)

/-! ## Pass 1 (R354) -/

/-- The statistics vector. -/
def oxStats (c : OxCmd) (r : List W8) (prog : List (BitVec 128)) (x : OxShard) : List W32 :=
  let rule := oxRule r
  let k := oxK c.record
  let known := decide (BitVec.ofNat 64 (recNat r 0x60 8) = c.step - 1)
  let u : W32 := if known then codeF (f64 (BitVec.ofNat 64 (recNat r 0x58 8))) else 0
  let one : W32 := if known then fOne else 0
  if c.prog then
    let run := oxRun (oxConst c fOne (fun _ => 0)) (prog.take (c.u 0x38 2)) x
    (List.range 16).map (fun i => if i = 4 then u else if i = 5 then one else if i = 6 then fOne
      else codeF (foldLanes (run.2.getD i zeroLanes)))
  else
    let e2 : W32 := if rule = 2 then oxSum (squares ((oxLambParts k c.step x.g x.t).map (·.1))) else 0
    let cols := recNat r 0x18 4
    let e3 : W32 := if rule = 3 then oxSum ((oxRows k cols x.g x.t.m2).map f32) else 0
    let v := [oxSum (squares x.g), oxSum (squares x.t.w), e2, e3, u, one, fOne] ++ List.replicate 9 0
    if rule = 3 then
      let q := oxCols k cols x.g
      v ++ q ++ List.replicate ((16 - cols % 16) % 16) 0
    else v

/-- Writes a contribution to the window slot that a field names (R348, R354): its first status that is FENCED or TRANSLATION. -/
def Dev.contribute (v : Variant) (d : Dev) (w : Nat) (step : W64) (r : List W32) : W8 × Dev :=
  if w = 0 then (0, d)
  else
    let dev : W16 := BitVec.ofNat 16 (w / 2 ^ 48)
    let n := w / 2 ^ 40 % 256
    let win := w / 2 ^ 32 % 256
    let slot := w / 2 ^ 24 % 256
    (redLines false r).zipIdx.foldl (fun (x : W8 × Dev) l =>
      let y : W8 × Dev :=
        if dev = x.2.deviceId then x.2.redStore v n win slot (64 * l.2) step false l.1
        else x.2.nimRequest v (.peer dev 2) 0x04
          (BitVec.ofNat 64 (apertureBase + n * 0x100000000 + win * 0x1000000 + slot * 0x40000 + 64 * l.2)) step l.1 0
      (if x.1 ≠ 0 then x.1 else if y.1 = sFenced ∨ y.1 = sTranslation then y.1 else 0, y.2)) (0, d)

/-- The statistics that a pass 1 gives: not defined where two commands for its shard were in flight (R347, log 1). -/
def Dev.oxGiven (d : Dev) (c : OxCmd) (r : List W32) : List W32 × Dev :=
  if c.open_ then
    ((List.range r.length).map (fun i => (Config.freeWord (d.free + i)).setWidth 32), { d with free := d.free + r.length })
  else (r, d)

/-- Sets the pass a unit runs. -/
def Dev.setPass (d : Dev) (n : Nat) (p : OxPass) : Dev := d.onHub n fun h => { h with oxPass := some p }

/-- The head of a unit's queue, where no pass runs and the head is the pass asked for. -/
def Hub.oxHead (h : Hub) (pass2 : Bool) : Option OxCmd :=
  if h.oxPass.isSome then none
  else
    match h.oxQueue with
    | [] => none
    | c :: _ => if c.pass2 = pass2 then some c else none

/-- OX_PASS1 (R351, R354): the unit takes its next command, a pass 1, and contributes the statistics vector. -/
def execOxPass1 (n : Fin 12) (s : State) : Host.Outcome State Fault Refusal :=
  s.onDev fun d =>
    let v := s.fuse.variant
    match (d.hub n).oxHead false with
    | none => d
    | some c =>
      let d := d.onHub n fun h => { h with oxQueue := h.oxQueue.drop 1 }
      let p := d.oxPrepare v n c
      let prior := BitVec.ofNat 64 (recNat p.1.state 0 8)
      match p.1.stop with
      | some st => p.2.setPass n { cmd := c, status := st.1, detail := st.2, finished := true, prior := prior }
      | none =>
        let x := p.2.oxRead v n c p.1.state
        let r := x.2.oxGiven c (oxStats c p.1.state p.1.prog x.1)
        let a := r.2.contribute v (c.u 0x10 8) c.step r.1
        let b := a.2.contribute v (c.u 0x18 8) c.step (r.1.take 16)
        let st := oxWorse (oxWorse (oxWorse p.1.gap x.1.status) (a.1, 0x10)) (b.1, 0x18)
        b.2.setPass n { cmd := c, status := st.1, detail := st.2, finished := true, prior := prior }

/-! ## Pass 2 (R352, R355 to R362) -/

/-- WAIT_TICKS (R348). -/
def OxCmd.waitTicks (c : OxCmd) : Nat := if c.u 0x3D 1 = 0 then 4 else c.u 0x3D 1

/-- OX_PASS2 (R351, R352, R362): the unit takes its next command, a pass 2, applies the step rule and the version lock, and then
waits for its windows. -/
def execOxPass2 (n : Fin 12) (s : State) : Host.Outcome State Fault Refusal :=
  s.onDev fun d =>
    let v := s.fuse.variant
    match (d.hub n).oxHead true with
    | none => d
    | some c =>
      let d := d.onHub n fun h => { h with oxQueue := h.oxQueue.drop 1 }
      let p := d.oxPrepare v n c
      let prior := BitVec.ofNat 64 (recNat p.1.state 0 8)
      match p.1.stop with
      | some st => p.2.setPass n { cmd := c, status := st.1, detail := st.2, finished := true, prior := prior }
      | none =>
        let l := p.2.virtLoad v c.ctx (p.2.evalMember n) (c.u 8 8 + 8 + 8 * (c.step.toNat % 2)) 8
        if l.st ≠ 0 then l.d.setPass n { cmd := c, status := sEcc, finished := true, prior := prior }
        else if leNat l.data < 2 ^ 63 then l.d.setPass n { cmd := c, status := sCancelled, finished := true, prior := prior }
        else
          l.d.setPass n { cmd := c, waiting := true, left := c.waitTicks, status := p.1.gap.1, detail := p.1.gap.2, prior := prior }

/-- A window's status line as a pass 2 reads it (R355, R373). -/
inductive OxLine where
  | none_ | notYet | failed | ready
  deriving DecidableEq, Repr

/-- Reads the status line that follows a result area of `N` elements. -/
def Dev.oxLine (v : Variant) (d : Dev) (n : Nat) (c : OxCmd) (win res count : Nat) : OxLine × Dev :=
  if c.u win 8 = 0 then (.none_, d)
  else
    let r := d.virtLoad v c.ctx (d.evalMember n) (c.u res 8 + 4 * count) 64
    if r.st ≠ 0 ∨ BitVec.ofNat 64 (recNat r.data 16 8) ≠ c.step then (.notYet, r.d)
    else if recNat r.data 52 4 % 2 = 1 then (.failed, r.d) else (.ready, r.d)

/-- The elements of a result area; where no window is named, values that the manual does not state (log 15). -/
def Dev.oxResult (v : Variant) (d : Dev) (n : Nat) (c : OxCmd) (win res count : Nat) : (Nat → W32) × Dev :=
  if c.u win 8 = 0 then
    let f := d.free
    (fun i => (Config.freeWord (f + i)).setWidth 32, { d with free := d.free + count })
  else
    let r := d.oxLoad v n c.ctx (c.u res 8) count 4
    let l := r.1.map (·.1)
    (fun i => l.getD i 0, r.2)

/-- A published copy (R361). -/
def oxPublish (fmt : Nat) (w : List W32) : List W8 :=
  if fmt = nBF16 then w.flatMap (fun x => toLE 2 (bf16Of (f32 x)).toNat)
  else (chunks 32 w).flatMap (fun b => writeBlock fmt (encodeBlock fmt (b.map (fun x => toBf16 (f32 x)))).1)

/-- The byte of a published copy that holds an element. -/
def oxPubPlace (fmt i : Nat) : Nat :=
  if fmt = nBF16 then 2 * i else i / 32 * blockBytes fmt + (if fmt = nCB4 then i % 32 / 2 else i % 32)

/-- The tensors after a pass 2, and U in f64 (R357 to R359, R365). -/
def oxApply (c : OxCmd) (r : List W8) (prog : List (BitVec 128)) (clip : W32) (l : Nat → W32) (x : OxShard) : OxTensors × W64 :=
  let k := oxK c.record
  let out := if c.prog then
      let xs := (oxRun (oxConst c clip l) (prog.drop (c.u 0x38 2)) x).1
      let col := fun (i : Nat) => xs.flatMap (fun y => y.getD i [])
      ⟨col 1, col 2, col 3, col 4⟩
    else
      match oxRule r with
      | 1 => oxAdamW k c.step clip x.g x.t
      | 2 => oxLamb k c.step (l 1) (l 2) x.g x.t
      | 3 => oxFactored k (recNat r 0x18 4) (recNat r 0x1C 4) l x.g x.t
      | _ => oxMomentum k clip x.g x.t
  (out, toF64 (oxSum64 (squares (List.zipWith f32Sub out.w x.t.w))))

def f32Bytes (l : List W32) : List W8 := l.flatMap (fun x => toLE 4 x.toNat)

/-- Writes the tensors and the published copy of a pass 2, and poisons the lines that hold failing elements (R360, R361). -/
def Dev.oxWriteBack (v : Variant) (d : Dev) (n : Nat) (c : OxCmd) (r : List W8) (x : OxShard) (o : OxTensors) : Dev :=
  let ev := d.evalMember n
  let at_ := fun off => recNat r off 8
  let put := fun (d : Dev) (off : Nat) (l : List W32) (bad : List Nat) =>
    if !oxWrites c r off then d
    else bad.foldl (fun y i => y.virtPoison v c.ctx (at_ off + 4 * i) ev) (d.oxStore v c.ctx (at_ off) ev (f32Bytes l))
  let fact := oxRule r == 3
  let d := put d 0x20 o.w x.bad
  let d := put d 0x30 o.m1 x.bad
  let d := put d 0x38 o.m2 (if fact then x.badRows else x.bad)
  let d := put d 0x40 o.m3 (if fact then x.badCols else x.bad)
  let fmt := recNat r 0x12 1
  if fmt = 0xFF then d
  else
    let a := at_ (if c.step.toNat % 2 = 0 then 0x48 else 0x50)
    x.bad.foldl (fun y i => y.virtPoison v c.ctx (a + oxPubPlace fmt i) ev) (d.oxStore v c.ctx a ev (oxPublish fmt o.w))

/-- The element work of a pass 2 whose windows are ready (R352, R356 to R361): its status and U. A step that R356 skips publishes
W as it stands, the lines of elements that could not be read as poison (R360). -/
def Dev.oxUpdate (v : Variant) (d : Dev) (n : Nat) (c : OxCmd) (r : List W8) (prog : List (BitVec 128)) : (W8 × W32) × W64 × Dev :=
  let ev := d.evalMember n
  let l := d.oxResult v n c 0x10 0x20 (oxLayerN r)
  let nr := if c.u 0x18 8 = 0 then (none, l.2) else let z := l.2.oxResult v n c 0x18 0x28 16; (some (z.1 0), z.2)
  let norm := oxNorm nr.1
  let rule := oxRule r
  let clip := if rule = 2 ∨ rule = 3 then fOne else oxClip (oxK c.record 5) norm
  let d := (nr.2.virtStore v c.ctx ev (c.u 0 8 + 8) (toLE 8 c.step.toNat)).d
  let x := d.oxRead v n c r
  if (f32 norm).isNan || (f32 norm).isInf then
    let fmt := recNat r 0x12 1
    let a := recNat r (if c.step.toNat % 2 = 0 then 0x48 else 0x50) 8
    let w := x.2.oxLoad v n c.ctx (recNat r 0x20 8) (recNat r 0x14 4) 4
    let bad := failedAt w.1
    let d := if fmt = 0xFF then w.2 else
      bad.foldl (fun y i => y.virtPoison v c.ctx (a + oxPubPlace fmt i) ev) (w.2.oxStore v c.ctx a ev (oxPublish fmt x.1.t.w))
    (oxWorse (sDoneFlagged, 0) (if bad.isEmpty then (0, 0) else (sEcc, BitVec.ofNat 32 (bad.headD 0))), 0, d)
  else
    let o := oxApply c r prog clip l.1 x.1
    (x.1.status, o.2, x.2.oxWriteBack v n c r x.1 o.1)

/-- A waiting pass 2 looks at the status lines of its windows (R355): a failed window ends it with CANCELLED; once every line carries
the step, the pass clips, updates and publishes (R356 to R361); until then it waits, or, where its time is up, ends with LATE. -/
def Dev.oxProceed (v : Variant) (d : Dev) (n : Nat) (p : OxPass) (late : Bool) : Dev :=
  let c := p.cmd
  let ev := d.evalMember n
  let r := d.virtLoad v c.ctx ev (c.u 0 8) 128
  let a := r.d.oxLine v n c 0x10 0x20 (oxLayerN r.data)
  let b := a.2.oxLine v n c 0x18 0x28 16
  if a.1 = .failed ∨ b.1 = .failed then b.2.setPass n { p with waiting := false, status := sCancelled, detail := 0, finished := true }
  else if a.1 = .notYet ∨ b.1 = .notYet then
    if late then b.2.setPass n { p with waiting := false, status := sLate, detail := 0, finished := true } else d
  else
    let pr := if c.prog then b.2.virtLoad v c.ctx ev (c.u 0x30 8) (16 * (c.u 0x38 2 + c.u 0x3A 2)) else ⟨0, [], b.2⟩
    let u := pr.d.oxUpdate v n c r.data (oxWords pr.data)
    let st := oxWorse (p.status, p.detail) u.1
    u.2.2.setPass n { p with waiting := false, applied := true, usum := u.2.1, status := st.1, detail := st.2, finished := true }

/-- OX_PASS2_WINDOWS_READY (R355). -/
def execOxPass2WindowsReady (n : Fin 12) (s : State) : Host.Outcome State Fault Refusal :=
  s.onDev fun d =>
    match (d.hub n).oxPass with
    | none => d
    | some p => if p.waiting then d.oxProceed s.fuse.variant n p false else d

/-- OX_PASS2_WAIT_TIMEOUT (R355): WAIT_TICKS edges have passed. -/
def execOxPass2WaitTimeout (n : Fin 12) (s : State) : Host.Outcome State Fault Refusal :=
  s.onDev fun d =>
    match (d.hub n).oxPass with
    | none => d
    | some p => if p.waiting && p.left == 0 then d.oxProceed s.fuse.variant n p true else d

/-! ## Completion (R347, R352, R366, R379) -/

/-- Counts a completion (R389). -/
def Dev.oxCount (d : Dev) (n : Nat) (st : W8) : Dev :=
  let d := d.onHub n fun h => { h with oxLast := st }
  if st = sStepRepeat then d.count (At.hub n 0x204) 16 16 1
  else if st = sStepGap then d.count (At.hub n 0x204) 0 16 1
  else if st = sStepBehind then d.count (At.hub n 0x208) 16 16 1
  else if st = sLate then d.count (At.hub n 0x208) 0 16 1
  else d

/-- Completes a command that has left its tile's queue: token, SREG, counters and journal. -/
def Dev.oxFinish (v : Variant) (d : Dev) (n : Nat) (c : OxCmd) (st : W8) (detail : W32) (prior : W64) : Dev :=
  let q : Queued := { engine := 8, opcode := if c.prog then 2 else 1, args := c.args, da := 0, db := 0, dc := 0, gval := 0,
                      ctx := c.ctx, step := c.step }
  let d := (d.finish c.tile q { st := st, detail := detail }).oxCount n st
  let d := d.journal v jOx 1 c.step (d.replaying n)
    (toLE 8 (c.u 0 8) ++ [BitVec.ofNat 8 c.ctx, if c.pass2 then 1 else 0, st, 0, BitVec.ofNat 8 n, 0, 0, 0] ++ toLE 8 prior.toNat)
  d.trace v c.tile 8 q.opcode (d.tile c.tile).pc st detail

/-- An applied pass whose shard met another command while it was in flight gives tensors and U that the manual does not define
(R347, log 1). -/
def Dev.oxUndefined (v : Variant) (d : Dev) (n : Nat) (p : OxPass) : W64 × Dev :=
  let c := p.cmd
  if !c.open_ then (p.usum, d)
  else
    let r := d.virtLoad v c.ctx (d.evalMember n) (c.u 0 8) 128
    let x := r.d.oxRead v n c r.data
    let k := recNat r.data 0x14 4
    let f := fun (j : Nat) => (List.range k).map (fun i => (Config.freeWord (x.2.free + j * k + i)).setWidth 32)
    let y := ({ x.2 with free := x.2.free + 4 * k }).draw
    (y.1, y.2.oxWriteBack v n c r.data x.1
      ⟨f 0, (f 1).take (oxExtent c r.data 0x30), (f 2).take (oxExtent c r.data 0x38), (f 3).take (oxExtent c r.data 0x40)⟩)

/-- OX_PASS_COMPLETE (R352, R366): an applied pass 2 writes U, U_STEP and then STEP; the command completes. -/
def execOxPassComplete (n : Fin 12) (s : State) : Host.Outcome State Fault Refusal :=
  s.onDev fun d =>
    let v := s.fuse.variant
    match (d.hub n).oxPass with
    | none => d
    | some p =>
      if !p.finished then d
      else
        let c := p.cmd
        let ev := d.evalMember n
        let d := if p.applied then
            let u := d.oxUndefined v n p
            ((u.2.virtStore v c.ctx ev (c.u 0 8 + 0x58) (toLE 8 u.1.toNat ++ toLE 8 c.step.toNat)).d.virtStore v c.ctx ev
              (c.u 0 8) (toLE 8 c.step.toNat)).d
          else d
        (d.onHub n fun h => { h with oxPass := none }).oxFinish v n c p.status p.detail p.prior

end Sys2Proof.Machine
end

