-- ==== Sys2Proof/Machine/Attention.lean ====
section
/-!
DEFINITION. Sys2Proof/Machine/Attention.lean: the attention sequencer and its key-value walker (R195 to R228): issue of ATTN,
MERGE, KVAPPEND and KVPREFIX, what each reads when it begins, and what each does when it completes.
-/

namespace Sys2Proof.Machine

open Sys2Proof

/-! ## Issue (R196, R210, R215, R218, R224) -/

def sameExtents (a b : Desc) : Bool := a.e0 == b.e0 && a.e1 == b.e1 && a.e2 == b.e2 && a.e3 == b.e3 && a.e4 == b.e4

/-- The storage operand of ATTN and KVAPPEND: a sequence-layer record in virtual memory. -/
def storageOk (ctx : Nat) (dest : Bool) (d : Desc) : Bool :=
  d.ok ctx dest [nBF16, nCB8E4, nCB8E5, nCB4] && d.space == 2 && d.ndim == 1 && !d.coded && d.base % 64 == 0

def attnOk (w : IssueView) : Bool :=
  let ctx := w.x.ctx.toNat
  w.m 1 18 == 0 && w.a.greg != 0 &&
  w.da.ok ctx false [nBF16, nCB8E4, nCB8E5] && decide (w.da.space ≤ 1) && !w.da.coded && decide (w.da.rows ≤ 64) &&
  [64, 128, 256].contains w.da.e0 && storageOk ctx false w.db && w.db.e0 == w.da.e0 &&
  w.dc.ok ctx true floatFormats && decide (w.dc.space ≤ 1) && sameExtents w.dc w.da

def mergeOk (w : IssueView) : Bool :=
  let ctx := w.x.ctx.toNat
  w.m 1 18 == 0 && (w.m 0 1 == 0 || w.a.greg != 0) &&
  w.da.ok ctx false [nFP32] && w.da.ndim == 3 && decide (w.da.space ≤ 1) && decide (w.da.e1 ≤ 64) && decide (w.da.e2 ≤ 64) &&
  decide (w.da.e0 ≤ 256) && w.db.ok ctx false [nFP32] && w.db.ndim == 3 && w.db.e0 == 2 && w.db.e1 == w.da.e1 &&
  w.db.e2 == w.da.e2 && w.dc.ok ctx true floatFormats && decide (w.dc.space ≤ 1) && w.dc.e0 == w.da.e0 &&
  w.dc.rows == w.da.e1 && w.dc.e1 == w.da.e1

def kvappendOk (w : IssueView) : Bool :=
  let ctx := w.x.ctx.toNat
  w.m 0 19 == 0 && w.a.greg != 0 &&
  w.da.ok ctx false [nFP32, nBF16] && w.da.space != 2 && decide (w.da.rows ≤ 256) &&
  w.db.ok ctx false [nFP32, nBF16] && w.db.space != 2 && sameExtents w.db w.da && storageOk ctx true w.dc

def kvprefixOk (w : IssueView) : Bool :=
  let ctx := w.x.ctx.toNat
  w.m 0 19 == 0 && w.a.greg != 0 && w.a.db == 0 &&
  w.da.ok ctx false [nI32] && w.da.ndim == 1 && w.da.e0 % 256 == 0 && decide (w.da.e0 ≤ 16384) &&
  w.dc.ok ctx true [nI32] && w.dc.total == w.da.e0 / 64

/-- An ATTN unloads both stationary buffers (R196). -/
def attnPost (_ : IssueView) (x : Tile) : Tile := { x with rec0 := none, rec1 := none }

def execAttn (t : TileRef) (a : TensorArgs) (s : State) : Host.Outcome State Fault Refusal :=
  s.onDev fun d => d.issue t (encTensor 3 0x01 a) 3 0x01 a attnOk attnPost

def execMerge (t : TileRef) (a : TensorArgs) (s : State) : Host.Outcome State Fault Refusal :=
  s.onDev fun d => d.issue t (encTensor 3 0x02 a) 3 0x02 a mergeOk noPost

def execKvappend (t : TileRef) (a : TensorArgs) (s : State) : Host.Outcome State Fault Refusal :=
  s.onDev fun d => d.issue t (encTensor 3 0x03 a) 3 0x03 a kvappendOk noPost

def execKvprefix (t : TileRef) (a : TensorArgs) (s : State) : Host.Outcome State Fault Refusal :=
  s.onDev fun d => d.issue t (encTensor 3 0x04 a) 3 0x04 a kvprefixOk noPost

/-! ## Begin (R204, R211) -/

/-- The record that GREG names in tile memory; TABLE_INVALID where it does not lie there aligned. -/
def Dev.gregRecord (v : Variant) (d : Dev) (t : TileRef) (q : Queued) (align len : Nat) : List W8 :=
  let a := q.gval.toNat
  if a % align ≠ 0 ∨ tileMemSize < a + len then sTableInvalid :: List.replicate len 0
  else
    let r := d.spaceRead v t (.walker t.sector.val) q.ctx 0 a len
    r.st :: r.data

/-- The generation word, LENGTH and the bytes beside them, read in one access, after their status. -/
def Dev.latchRecord (v : Variant) (d : Dev) (t : TileRef) (q : Queued) (rec_ : Nat) : List W8 × Dev :=
  let r := d.virtReads v (.walker t.sector.val) q.ctx rec_ 16
  (r.st :: (if r.st = 0 then r.data else List.replicate 16 0), r.d)

/-- What an instruction of engine 3 reads when it begins: for ATTN and KVAPPEND bytes 0x000 to 0x00F of the sequence-layer
record, then the record that GREG names, each after its status. -/
def Dev.attnBegin (v : Variant) (d : Dev) (t : TileRef) (q : Queued) : List W8 × Dev :=
  match q.opcode with
  | 0x01 => let r := d.latchRecord v t q q.db'.base; (r.1 ++ d.gregRecord v t q 64 64, r.2)
  | 0x03 => let r := d.latchRecord v t q q.dc'.base; (r.1 ++ d.gregRecord v t q 1 16, r.2)
  | 0x04 => (d.gregRecord v t q 1 32, d)
  | _ => ([], d)

/-! ## Statuses (R213) -/

/-- Rank of a failure in R213. -/
def attnRank (f : Fail) : Nat :=
  match f.1.toNat with
  | 0x43 => 1
  | 0x21 => 2
  | 0x20 => 3
  | 0x70 => 4
  | 0x13 => if f.2.getLsbD 31 then 5 else 8
  | 0x50 => 6
  | 0x52 => 7
  | 0x51 => 7
  | 0x10 => 8
  | 0x11 => 8
  | 0x12 => 8
  | 0x22 => 9
  | 0x02 => 10
  | _ => 11

/-- The highest-ranked failure, the first of its rank. -/
def attnWorst (fs : List Fail) : Fail :=
  fs.foldl (fun b f => if attnRank f < attnRank b then f else b) (sDone, 0)

/-- Whether a failure lets nothing be committed: ranks 1 to 5, and an uncorrectable read of a record or entry. -/
def attnBlocks (f : Fail) : Bool := decide (attnRank f ≤ 5) || (decide (attnRank f = 7) && f.2 == 0xFFFFFFFF)

/-- Whether failures let nothing be committed, where a residue error (`fatal`), of rank 6, may outrank an uncorrectable record. -/
def attnStops (fatal : Bool) (fs : List Fail) : Bool := if fatal then fs.any (fun f => decide (attnRank f ≤ 5)) else fs.any attnBlocks

/-- DETAIL of TABLE_INVALID: the kind of record and the byte offset of the field. -/
def tblDetail (kind off : Nat) : W32 := BitVec.ofNat 32 (2 ^ 31 + kind * 2 ^ 29 + off % 2 ^ 29)

/-- A walker's access to a record or entry that failed; `page` is 0xFFFF for a record. -/
def recFail (st : W8) (page : Nat) : Fail :=
  if st = sTableInvalid then (st, tblDetail 0 0)
  else if st = sFenced ∨ st = sTranslation then (st, BitVec.ofNat 32 page) else (st, 0xFFFFFFFF)

def recFails (st : W8) (page : Nat) : List Fail := if st = 0 then [] else [recFail st page]

/-- Completion of an instruction of engine 3: its outcome, with the counts of R228; `empty` says that a row of it was ROW_EMPTY. -/
def Dev.attnDone (d : Dev) (t : TileRef) (f : Fail) (waits : Nat) (empty : Bool := false) : Outcome × Dev :=
  let d := if waits = 0 then d else d.count (At.tile t 0x308) 0 32 waits
  let d := if f.1 = sTableChanged then d.count (At.tile t 0x300) 16 16 1
           else if f.1 = sPageAbsent then d.count (At.tile t 0x300) 0 16 1 else d
  (⟨f.1, f.2, none, { rowEmpty := empty }⟩, d)

/-! ## Residue (R162, R213) -/

/-- Counts mismatches whose unit of commitment is a block or an output line (R162, R244): the unit on which a second one fell,
where one did. `mark` says whether the tile is marked for repair. -/
def Dev.residueBlocks (d : Dev) (t : TileRef) (q : Queued) (r : EngineReport) (mark : Bool) : Option Nat × Dev :=
  let x := d.hitsOf t r
  let y := x.1.foldl (fun (s : Option Nat × Option Nat × Dev) h =>
    if s.2.1.isSome then s
    else if s.1 = some h.at_ then
      let d1 := (s.2.2.count (At.tile t 0x100) 0 16 1).resLast t q h
      (s.1, some h.at_, if mark then d1.setFld (At.tile t 0x108) 1 2 (d1.repairOf t h.unit) else d1)
    else
      (some h.at_, none, (if s.1.isSome then s.2.2.count (At.tile t 0x100) 16 16 1 else s.2.2).resLast t q h))
    (none, none, x.2)
  (y.2.1, if y.1.isSome && y.2.1.isNone then y.2.2.count (At.tile t 0x100) 16 16 1 else y.2.2)

/-! ## The sequence-layer record (R201) -/

/-- The fields of a sequence-layer record that this file uses, from its first 64 bytes. -/
structure SeqRec where
  gen : W64
  length : Nat
  hkv : Nat
  dim : Nat
  fmt : Nat
  coded : Bool
  table : Nat
  slot : Nat
  rope : Nat
  ropeTable : Nat
  deriving DecidableEq, Repr

def seqRecOf (r : List W8) : SeqRec :=
  { gen := BitVec.ofNat 64 (recNat r 0 8), length := recNat r 8 4, hkv := recNat r 0x0C 1, dim := 32 * recNat r 0x0D 1,
    fmt := recNat r 0x0E 1, coded := decide (128 ≤ recNat r 0x0F 1), table := recNat r 0x0F 1 % 16, slot := recNat r 0x10 4,
    rope := recNat r 0x14 1, ropeTable := recNat r 0x20 8 }

/-- Elements of a token row. -/
def SeqRec.rowElems (s : SeqRec) : Nat := 2 * s.dim * s.hkv

/-- Bytes of a token row (R202). -/
def SeqRec.rowSize (s : SeqRec) : Nat :=
  if s.coded then codedRowSize s.fmt (s.rowElems / 256) else rowBytes s.fmt s.rowElems

/-- The first field of a sequence-layer record out of range or reserved, for heads of `dim` elements in `fmt` (R201, R202). -/
def seqRecBad (dim fmt : Nat) (r : List W8) : Option Nat :=
  let s := seqRecOf r
  let flags := recNat r 0x0F 1
  firstBad ([(decide (2 ^ 24 < s.length), 0x008), (decide (s.hkv = 0 ∨ 16 < s.hkv), 0x00C),
    (s.dim != dim || !(s.dim == 64 || s.dim == 128 || s.dim == 256), 0x00D),
    (s.fmt != fmt, 0x00E),
    (flags / 16 % 8 != 0 || (!s.coded && s.table != 0) || (s.coded && (s.fmt == nBF16 || !(dim == 128 || dim == 256))), 0x00F),
    (s.slot % 64 != 0 || decide (s.slot < s.rowSize), 0x010), (decide (2 < s.rope), 0x014)] ++
    (List.range 11).map (fun i => (recNat r (0x15 + i) 1 != 0, 0x15 + i)) ++
    [(s.rope != 0 && s.ropeTable % 64 != 0, 0x020)] ++
    (List.range 24).map (fun i => (recNat r (0x28 + i) 1 != 0, 0x28 + i)))

/-! ## Positions and rotation (R198 to R200) -/

def posIndex (p : W64) : Nat := p.toNat % 2 ^ 24
def posT (p : W64) : Nat := p.toNat / 2 ^ 24 % 2 ^ 16
def posY (p : W64) : Nat := p.toNat / 2 ^ 40 % 2 ^ 8
def posX (p : W64) : Nat := p.toNat / 2 ^ 48 % 2 ^ 8

/-- The coordinate of pair `j` of `pairs` (R199). -/
def coordOf (rope pairs : Nat) (p : W64) (j : Nat) : Nat :=
  if rope = 1 then posIndex p else if 2 * j < pairs then posT p else if 4 * j < 3 * pairs then posY p else posX p

/-- a × b + c × e rounded once to FP32, with the cause met (R200). -/
def dotTwo (a b c e : W32) : FAcc :=
  let p := (f32 a).mul (f32 b)
  let q := (f32 c).mul (f32 e)
  let s := p.1.add q.1
  fstep none (s.1, p.2 || q.2 || s.2) (!(f32 a).isInf && !(f32 c).isInf)

/-- One pair rotated (R200). -/
def rotatePair (omega : W64) (coord : Nat) (x y : W32) : List FAcc :=
  let phi := BitVec.ofNat 64 coord * omega
  let c := turns true phi
  let s := turns false phi
  [dotTwo x c (y ^^^ 0x80000000) s, dotTwo x s y c]

/-- A head's elements rotated (R200). -/
def rotateHead (rope : Nat) (omega : List W64) (p : W64) (xs : List W32) : List FAcc :=
  if rope = 0 then xs.map accConst
  else
    (List.range (xs.length / 2)).flatMap (fun j =>
      rotatePair (omega.getD j 0) (coordOf rope (xs.length / 2) p j) (xs.getD (2 * j) 0) (xs.getD (2 * j + 1) 0))

/-- The rotary table's entries (R199). -/
def Dev.readOmega (v : Variant) (d : Dev) (n ctx : Nat) (s : SeqRec) : List Fail × List W64 × Dev :=
  if s.rope = 0 then ([], [], d)
  else
    let r := d.virtReads v (.walker n) ctx s.ropeTable (4 * s.dim)
    (recFails r.st 0xFFFF, (chunks 8 r.data).map (fun b => BitVec.ofNat 64 (leNat b)), r.d)

/-! ## Page tables (R203) -/

/-- Where a page lies, by its leaf block and leaf entry. -/
inductive PageAt where
  | fail (f : Fail)
  | absent (reason : Nat)
  | found (block : Nat) (entry : W64)
  deriving DecidableEq, Repr

/-- The two-level walk of a page. -/
def Dev.pageAt (v : Variant) (d : Dev) (n ctx rec_ p : Nat) : PageAt × Dev :=
  let r := d.virtReads v (.walker n) ctx (rec_ + 0x40 + 8 * (p / 256)) 8
  let e := BitVec.ofNat 64 (leNat r.data)
  if r.st ≠ 0 then (.fail (recFail r.st p), r.d)
  else if !e.getLsbD 0 then (.absent 1, r.d)
  else if e &&& 0xFFFF00000000003E ≠ 0 then (.fail (sTableInvalid, tblDetail 1 (0x40 + 8 * (p / 256))), r.d)
  else
    let b := (e &&& 0x0000FFFFFFFFFFC0).toNat
    let x := r.d.virtReads v (.walker n) ctx (b + 8 * (p % 256)) 8
    let l := BitVec.ofNat 64 (leNat x.data)
    if x.st ≠ 0 then (.fail (recFail x.st p), x.d)
    else if !l.getLsbD 0 then (.absent 0, x.d)
    else if l &&& 0xFFFF000000000038 ≠ 0 then (.fail (sTableInvalid, tblDetail 1 (8 * (p % 256))), x.d)
    else (.found b l, x.d)

/-- The page address of a leaf entry. -/
def leafPage (l : W64) : Nat := (l &&& 0x0000FFFFFFFFFFC0).toNat

/-- DETAIL of PAGE_ABSENT, from the pages refused with their reasons, lowest first. -/
def absentFails (l : List (Nat × Nat)) : List Fail :=
  match l with
  | [] => []
  | (p, k) :: _ => [(sPageAbsent, BitVec.ofNat 32 (p + k * 2 ^ 16 + min l.length 16383 * 2 ^ 18))]

/-- The second read of the generation word (R204). -/
def Dev.reread (v : Variant) (d : Dev) (n ctx rec_ : Nat) (gen : W64) : List Fail × Dev :=
  let r := d.virtReads v (.walker n) ctx rec_ 8
  (if r.st ≠ 0 then [recFail r.st 0xFFFF]
   else if BitVec.ofNat 64 (leNat r.data) = gen then [] else [(sTableChanged, BitVec.ofNat 32 (leNat r.data))], r.d)

/-- Writes the use stamp of a page read, only where it differs (R203); a stamp that cannot be written is left. -/
def Dev.stamp (v : Variant) (d : Dev) (n ctx block p : Nat) : Dev :=
  let a := block + 2048 + 4 * (p % 256)
  let now := toLE 4 d.tick.number.toNat
  let r := d.virtReads v (.walker n) ctx a 4
  if r.st = 0 ∧ r.data = now then r.d else (r.d.virtWrites v (.walker n) ctx 0 a now).d

/-! ## ATTN: its control record (R211) -/

structure AttnCtl where
  tau : W32
  first : Nat
  count : Nat
  window : Nat
  head : Nat
  g : Nat
  qpos : Nat
  mask : Nat
  pfmt : Bool
  partial_ : Bool
  map : Nat
  stage : Nat
  stageBytes : Nat
  stats : Nat
  deriving DecidableEq, Repr

def attnCtlOf (r : List W8) : AttnCtl :=
  let f := recNat r 0x15 1
  { tau := BitVec.ofNat 32 (recNat r 0 4), first := recNat r 4 4, count := recNat r 8 4, window := recNat r 0x0C 2,
    head := recNat r 0x0E 1, g := recNat r 0x0F 1, qpos := recNat r 0x10 4, mask := recNat r 0x14 1,
    pfmt := f.testBit 0, partial_ := f.testBit 1, map := recNat r 0x18 8, stage := recNat r 0x20 4,
    stageBytes := recNat r 0x24 4, stats := recNat r 0x28 4 }

/-- One token's bytes for one head (R211). -/
def SeqRec.headBytes (s : SeqRec) : Nat :=
  if s.coded then 32 + 2 * s.dim / 256 * 300 else rowBytes s.fmt (2 * s.dim)

/-- The first field of an attention control record out of range or reserved. -/
def attnCtlBad (q : Queued) (s : SeqRec) (r : List W8) : Option Nat :=
  let c := attnCtlOf r
  let m := q.da'.rows
  let dc := q.dc'
  firstBad ([(decide (2 ^ 24 ≤ c.first), 0x04), (decide (2 ^ 24 < c.count), 0x08), (c.mask == 3 && c.window == 0, 0x0C),
    (decide (s.hkv ≤ c.head), 0x0E), (decide (c.g = 0 ∨ 64 < c.g), 0x0F),
    (c.qpos % 8 != 0 || decide (tileMemSize < c.qpos + 8 * ((m - 1) / max c.g 1 + 1)), 0x10), (decide (4 < c.mask), 0x14),
    (decide (4 ≤ recNat r 0x15 1) || (c.partial_ && (dc.fmt != nFP32 || dc.coded)), 0x15), (recNat r 0x16 2 != 0, 0x16),
    (c.mask == 4 && c.map % 64 != 0, 0x18), (c.stage % 64 != 0 || decide (tileMemSize < c.stage + c.stageBytes), 0x20),
    (decide (c.stageBytes < 512 * s.headBytes), 0x24),
    (c.partial_ && decide (spaceEnd dc.space < c.stats + 8 * m), 0x28)] ++
    (List.range 20).map (fun i => (recNat r (0x2C + i) 1 != 0, 0x2C + i)))

/-! ## ATTN: visibility (R207 to R209) -/

/-- A map record: QP0, KP0 and the bitmap. -/
structure MapRec where
  qp0 : Nat
  kp0 : Nat
  bits : List W8
  deriving DecidableEq, Repr

/-- The bit of a page pair (R208). -/
def MapRec.bit (m : MapRec) (qp kp : Nat) : Bool :=
  decide (m.qp0 ≤ qp ∧ qp - m.qp0 ≤ 255 ∧ m.kp0 ≤ kp ∧ kp - m.kp0 ≤ 255) &&
  (m.bits.getD (32 * (qp - m.qp0) + (kp - m.kp0) / 8) 0).getLsbD ((kp - m.kp0) % 8)

/-- Whether key `k`, of frame `kt`, is visible to a row with position `q` (R207), its range apart. -/
def keyVisible (c : AttnCtl) (m : MapRec) (q : W64) (k kt : Nat) : Bool :=
  match c.mask with
  | 0 => true
  | 1 => decide (k ≤ posIndex q)
  | 2 => decide (kt ≤ posT q)
  | 3 => decide ((posT q : Int) - c.window < kt ∧ kt ≤ posT q)
  | _ => m.bit (posIndex q / 256) (k / 256)

/-- Reads the map record of BLOCK_MAP. -/
def Dev.readMap (v : Variant) (d : Dev) (n ctx : Nat) (c : AttnCtl) : List Fail × MapRec × Dev :=
  if c.mask ≠ 4 then ([], ⟨0, 0, []⟩, d)
  else
    let r := d.virtReads v (.walker n) ctx c.map 8256
    let bad := firstBad ((List.range 60).map (fun i => (recNat r.data (4 + i) 1 != 0, 4 + i)))
    (if r.st ≠ 0 then [recFail r.st 0xFFFF] else match bad with
      | some o => [(sTableInvalid, tblDetail 2 o)]
      | none => [], ⟨recNat r.data 0 2, recNat r.data 2 2, r.data.drop 64⟩, r.d)

/-! ## ATTN: keys and values (R202) -/

/-- A token's keys and values of one head. -/
structure Token256 where
  slot : Nat
  pos : W64
  key : List FVal
  val : List FVal
  deriving DecidableEq, Repr

/-- The token row of a slot, for one head: failures, keys and values, and the coded blocks read. -/
def Dev.readToken (v : Variant) (d : Dev) (n ctx : Nat) (s : SeqRec) (head page p slot : Nat) (pos : W64) :
    List Fail × Token256 × List PBlock × Dev :=
  let row := page + 2048 + slot * s.slot
  let det : W32 := BitVec.ofNat 32 (slot * 2 ^ 16 + p)
  let failOf := fun (st : W8) => if st = sFenced ∨ st = sTranslation then (st, BitVec.ofNat 32 p) else ((st, det) : Fail)
  let nan := List.replicate (2 * s.dim) FVal.qnan
  let mk := fun (vs : List FVal) => (⟨slot, pos, vs.take s.dim, vs.drop s.dim⟩ : Token256)
  if s.coded then
    let per := 2 * s.dim / 256
    let r := d.virtMarked v (.walker n) ctx row s.rowSize
    let hard := (r.1.map (·.2)).filter (fun st => st == sFenced || st == sTranslation)
    let bs := ((srcOfMarked [(row, r.1)]).press s.fmt s.table (s.rowElems / 256) row (2 ^ 48) ((head + 1) * per)).drop (head * per)
    let bad := (bs.filter (fun b => b.st != 0)).map (fun b => failOf b.st)
    let ecc := bs.any (fun b => b.st == sEcc || b.st == sRetryExhausted)
    (hard.map failOf ++ bad, mk (if ecc then nan else bs.flatMap (fun b => (b.elems s.fmt 0 row).map (·.v))), bs, r.2)
  else
    let len := rowBytes s.fmt (2 * s.dim)
    let a := row + head * len
    let r := d.virtMarked v (.walker n) ctx a len
    let bad := (r.1.map (·.2)).filter (· != 0)
    let es := ((srcOfMarked [(a, r.1)]).plainRow s.fmt 0 a a (2 * s.dim)).1
    (bad.map failOf, mk (if bad.isEmpty then es.map (·.v) else nan), [], r.2)

/-! ## ATTN: one row against one block (R212) -/

/-- The state of a row: running maximum, sum and output, whether a key was seen, and the first cause of R330. -/
structure RowSt where
  m : W32 := 0xFF800000
  l : W32 := 0
  o : List W32
  seen : Bool := false
  cause : Option Nat := none
  deriving DecidableEq, Repr

/-- The probabilities of a page by slot, converted: BF16, or CB8-E4 in blocks of 32; none where not visible. -/
def convertP (pfmt : Bool) (ps : List (Option W32)) : List (Option FVal) :=
  if pfmt then
    let bs := (groupsOf ps).flatMap (fun g =>
      (encodeBlock nCB8E4 (g.map (fun p => toBf16 (match p with
        | some w => f32 w
        | none => .zero)))).1.decode nCB8E4)
    ps.mapIdx (fun i p => p.map (fun _ => bs.getD i .zero))
  else ps.map (fun p => p.map (fun w => toBf16 (f32 w)))

/-- Rescales o and l by c, where the maximum rises. -/
def RowSt.rescale (r : RowSt) (c : FAcc) (m : W32) : RowSt :=
  if c.1 = 0 then
    let z := fun (w : W32) => if (f32 w).isNan then w else 0
    { r with m := m, l := z r.l, o := r.o.map z, cause := orCause r.cause c.2 }
  else
    let o := r.o.map (fun w => accMul (accConst w) (c.1, none))
    let l := accMul (accConst r.l) (c.1, none)
    { r with m := m, l := l.1, o := o.map (·.1),
             cause := orCause r.cause (orCause c.2 ((o.foldl (fun x y => orCause x y.2) none).or l.2)) }

/-- A block's visible keys enter a row (R212). -/
def rowBlock (pfmt : Bool) (tau : W32) (q : List FVal) (vis : Token256 → Bool) (ks : List Token256) (r : RowSt) : RowSt :=
  let sc := (ks.filter vis).map (fun k => (k, accMul (accPass 0 (q.zip k.key)) (accConst tau)))
  let cs := sc.foldl (fun x e => orCause x e.2.2) r.cause
  match sc.filter (fun e => e.2.1 != 0xFF800000) with
  | [] => { r with cause := cs }
  | live =>
    let mb := reduceMax 0x41 (live.map (fun e => f32 e.2.1))
    let mn := fmax (f32 r.m) mb
    let r1 : RowSt := { r with seen := true, cause := cs }
    let r2 := if (f32 r.m).lt mn then
        r1.rescale (accFn elemExp (accAdd (accConst r.m) (accNeg (accConst (codeF mn))))) (codeF mn)
      else r1
    let ex := live.map (fun e => (e.1, accFn elemExp (accAdd (accConst e.2.1) (accNeg (accConst r2.m)))))
    let ps := convertP pfmt ((List.range 256).map (fun i => (ex.find? (fun e => e.1.slot == i)).map (fun e => e.2.1)))
    let l := accAdd (accConst r2.l) (reduceSum false (ps.map (fun p => match p with
      | some v => codeF v
      | none => 0)))
    let gs := (groupsOf (List.range 256)).map (fun g => g.filterMap (fun i =>
      match ps.getD i none, live.find? (fun e => e.1.slot == i) with
      | some p, some e => some (p, e.1.val)
      | _, _ => none))
    let o := r2.o.mapIdx (fun j w => (gs.filter (fun g => !g.isEmpty)).foldl
      (fun x g => accGroup x (g.map (fun e => (e.1, e.2.getD j .zero)))) (w, none))
    { r2 with l := l.1, o := o.map (·.1),
              cause := orCause r2.cause (orCause (ex.foldl (fun x e => orCause x e.2.2) none)
                (orCause l.2 (o.foldl (fun x e => orCause x e.2) none))) }

/-! ## ATTN: the walk over the pages -/

/-- What the walk has come to. -/
structure AttnWalk where
  rows : List RowSt
  fails : List Fail := []
  absent : List (Nat × Nat) := []
  coded : List PBlock := []

/-- What an ATTN works with: its storage, control record, map, the rows' positions and queries. -/
structure AttnJob where
  n : Nat
  ctx : Nat
  rec_ : Nat
  s : SeqRec
  c : AttnCtl
  map : MapRec
  pos : List W64
  qs : List (List FVal)
  pfmt : Bool

/-- The in-range slots of a page (R207). -/
def AttnJob.slots (j : AttnJob) (p : Nat) : List Nat :=
  (List.range 256).filter (fun i =>
    decide (j.c.first ≤ 256 * p + i ∧ 256 * p + i < j.c.first + j.c.count ∧ 256 * p + i < j.s.length))

/-- The pages that hold in-range keys, lowest first. -/
def AttnJob.pages (j : AttnJob) : List Nat :=
  let e := min (j.c.first + j.c.count) j.s.length
  if e ≤ j.c.first then []
  else (List.range ((e - 1) / 256 + 1 - j.c.first / 256)).map (· + j.c.first / 256)

/-- Whether a key is visible to some row. -/
def AttnJob.anyVisible (j : AttnJob) (k kt : Nat) : Bool := j.pos.any (fun q => keyVisible j.c j.map q k kt)

/-- Fetches the in-range tokens of a page. -/
def AttnJob.fetch (v : Variant) (j : AttnJob) (page p : Nat) (slots : List (Nat × W64)) (d : Dev) :
    List Fail × List Token256 × List PBlock × Dev :=
  slots.foldl (fun r e =>
    let x := r.2.2.2.readToken v j.n j.ctx j.s j.c.head page p e.1 e.2
    (r.1 ++ x.1, r.2.1 ++ [x.2.1], r.2.2.1 ++ x.2.2.1, x.2.2.2)) ([], [], [], d)

/-- One page of the walk (R209, R212, R221): once a page is absent or refused, the walk goes on without fetching. -/
def AttnJob.page (v : Variant) (t : TileRef) (j : AttnJob) (w : AttnWalk × Dev) (p : Nat) : AttnWalk × Dev :=
  let frames := decide (j.c.mask = 2 ∨ j.c.mask = 3)
  let slots := j.slots p
  if !frames && !slots.any (fun i => j.anyVisible (256 * p + i) 0) then w
  else
    let a := w.2.pageAt v j.n j.ctx j.rec_ p
    match a.1 with
    | .fail f => ({ w.1 with fails := w.1.fails ++ [f] }, a.2)
    | .absent k => ({ w.1 with absent := w.1.absent ++ [(p, k)] }, a.2)
    | .found b l =>
      if !w.1.absent.isEmpty || w.1.fails.any attnBlocks then (w.1, a.2)
      else
        let page := leafPage l
        let d1 := a.2.stamp v j.n j.ctx b p
        let ps := if frames then d1.virtReads v (.walker j.n) j.ctx page 2048 else ⟨0, [], d1⟩
        if ps.st ≠ 0 then ({ w.1 with fails := w.1.fails ++ [recFail ps.st p] }, ps.d)
        else
          let at_ := slots.map (fun i => (i, BitVec.ofNat 64 (recNat ps.data (8 * i) 8)))
          if !at_.any (fun e => j.anyVisible (256 * p + e.1) (posT e.2)) then (w.1, ps.d)
          else
            let x := j.fetch v page p at_ (ps.d.count (At.tile t 0x304) 0 32 1)
            let rows := if x.1.any attnBlocks then w.1.rows else
              w.1.rows.mapIdx (fun r st =>
                let q := j.pos.getD (r / j.c.g) 0
                rowBlock j.pfmt j.c.tau (j.qs.getD r []) (fun k => keyVisible j.c j.map q (256 * p + k.slot) (posT k.pos))
                  x.2.1 st)
            ({ w.1 with rows := rows, fails := w.1.fails ++ x.1, coded := w.1.coded ++ x.2.2.1 }, x.2.2.2)

/-! ## ATTN: completion -/

/-- The largest magnitude converted, as SECT.NUM_OVF_MAX records it (R330). -/
def valMax (vs : List FVal) : W32 :=
  (toF32 (vs.foldl (fun (m : FVal) x => if m.lt x.abs then x.abs else m) .zero)).1

/-- A stationary buffer that holds values which the manual does not define, in the shape it had (log 1). -/
def Dev.freeBuffer (d : Dev) (t : TileRef) (b : Nat) : Dev :=
  match (d.tile t).buffer b with
  | none => d
  | some u =>
    let n := u.vals.length
    let vs := (List.range n).map (fun i => f32 ((Config.freeWord (d.free + i)).setWidth 32))
    { d.onTile t fun x => x.setBuffer b (some { u with vals := vs }) with free := d.free + n }

/-- Both banks of the pair that an ATTN uses, and both stationary buffers, come to hold values that the manual does not define
(R196). -/
def Dev.freePair (d : Dev) (t : TileRef) (q : Queued) : Dev :=
  (((d.blur t ⟨3, 2 * q.mod 0 1, 0, 65536⟩).blur t ⟨3, 2 * q.mod 0 1 + 1, 0, 65536⟩).freeBuffer t 0).freeBuffer t 1

/-- Staging after the walker has used it: which fetched bytes lie where the manual does not say (R197, log 1). Where it overlaps an
operand or the record of an ATTN, the results are not defined either (R211). -/
def Dev.stageUsed (d : Dev) (t : TileRef) (stage bytes : Nat) (operands results : List Span) : Dev :=
  let g : Span := ⟨0, 0, stage, bytes⟩
  (if meets [g] operands then results.foldl (fun y s => y.blur t s) d else d).blur t g

/-- Whether a CB block of values turns finite ones into infinities (R119, R125); values that could not be read make no such event
(R331), nor do those rotated together with them. -/
def blockOverflows (vs : List FVal) (failed : List Bool) : Bool :=
  let gone := fun (i : Nat) => failed.getD (i / 2 * 2) false || failed.getD (i / 2 * 2 + 1) false
  let live := (vs.zipIdx.filter (fun e => !gone e.2)).map (·.1)
  live.any (fun v => (toBf16 v).isNan || (toBf16 v).isInf) && live.any (fun v => !v.isNan && !v.isInf)

/-- A query row: rotated, then rounded to BF16 or to DA's CB format along D (R212), with the first cause met and the largest magnitude
converted (R330). -/
def queryRow (fmt rope : Nat) (omega : List W64) (p : W64) (xs : List Elem) : List FVal × Option Nat × W32 :=
  let r := rotateHead rope omega p (xs.map (fun e => codeF e.v))
  let vs := r.map (fun a => f32 a.1)
  let cause := r.foldl (fun c a => orCause c a.2) none
  if isBlockFmt fmt then
    ((groupsOf vs).flatMap (fun g => (encodeBlock fmt (g.map toBf16)).1.decode fmt),
     orCause cause (if ((groupsOf vs).zip (groupsOf (xs.map (fun e => e.st != 0)))).any (fun g => blockOverflows g.1 g.2) then some 0
       else none), valMax vs)
  else
    (vs.map toBf16, orCause cause (if vs.any (fun v => !v.isInf && (toBf16 v).isInf) then some 0 else none), valMax vs)

/-- A row's results (R212): o, or o / l where PARTIAL is 0. -/
def RowSt.out (r : RowSt) (partial_ : Bool) : List FAcc :=
  if !r.seen then r.o.map (fun _ => accConst 0)
  else if partial_ then r.o.map accConst
  else r.o.map (fun w =>
    let x := (f32 w).div (f32 r.l)
    fstep none x (!(f32 w).isInf && !(f32 r.l).isInf))

/-- Whether the instruction's PFMT is taken as CB8-E4: R334 takes it as 0 inside a repeated bracket with a table. -/
def Tile.attnPfmt (x : Tile) (pfmt : Bool) : Bool := match x.bracket with
  | none => pfmt
  | some b => pfmt && !(b.table && decide (1 ≤ b.level))

/-- Writes the pairs (m, l) of a partial result. -/
def Dev.putPairs (d : Dev) (t : TileRef) (space a : Nat) (ps : List (W32 × W32)) : List Fail × Dev :=
  let w := d.applyPatch t space 0 (Patch.put [] a (ps.flatMap (fun p => toLE 4 p.1.toNat ++ toLE 4 p.2.toNat)))
  (if w.1 = 0 then [] else [(w.1, failDetail 2 0)], w.2.2)

/-- The first cause met, recorded for the instruction with the record of its destination and, for a conversion, the largest magnitude
converted (R330, R344). -/
def Dev.attnCause (d : Dev) (t : TileRef) (q : Queued) (c : Option Nat) (max_ : W32) : Dev := match c with
  | none => d
  | some k => d.overflow t k 3 q.opcode q.dc'.scaleRec max_

/-- ATTN's rows are written (R212, R213): failures, and whether a row was ROW_EMPTY. -/
def Dev.attnCommit (d : Dev) (t : TileRef) (q : Queued) (c : AttnCtl) (w : AttnWalk) (fatal : Bool) : List Fail × Bool × Dev :=
  let rows := w.rows.map (fun r => r.out c.partial_)
  let d := if fatal then d else
    d.attnCause t q (orCause (w.rows.foldl (fun x r => orCause x r.cause) none) (rows.flatten.foldl (fun x e => orCause x e.2) none)) 0
  let vs := rows.flatten.map (fun e => if fatal then DVal.err else DVal.f (f32 e.1))
  let x := d.writeDest t q q.dc' (q.scale 2) (fun _ => none) vs
  let y := if c.partial_ then
      x.2.putPairs t q.dc'.space c.stats (w.rows.map (fun r => if fatal then (qnan32, qnan32) else (r.m, r.l)))
    else ([], x.2)
  let empty := if fatal then none else (w.rows.zipIdx.find? (fun e => !e.1.seen)).map (·.2)
  (x.1 ++ y.1 ++ (match empty with
    | some i => [(sDoneFlagged, BitVec.ofNat 32 i)]
    | none => []), empty.isSome, y.2)

/-- The records and tables an ATTN needs before it walks: failures, what it then works with, and the first cause that its queries met with
the largest magnitude they convert. -/
def Dev.attnPrepare (v : Variant) (d : Dev) (t : TileRef) (q : Queued) : List Fail × Option AttnJob × (Option Nat × W32) × Dev :=
  let n := t.sector.val
  let rec_ := q.db'.base
  let st0 := q.begun.headD 0
  let st1 := q.begun.getD 17 0
  let more := d.virtReads v (.walker n) q.ctx (rec_ + 16) 48
  let f0 := recFails st0 0xFFFF ++ recFails more.st 0xFFFF ++ recFails st1 0xFFFF
  let sb := (q.begun.drop 1).take 16 ++ more.data
  let s := seqRecOf sb
  let cb := q.begun.drop 18
  let c := attnCtlOf cb
  if !f0.isEmpty then (f0, none, (none, 0), more.d)
  else
    match seqRecBad q.da'.e0 q.db'.fmt sb, attnCtlBad q s cb with
    | some o, _ => ([(sTableInvalid, tblDetail 1 o)], none, (none, 0), more.d)
    | none, some o => ([(sTableInvalid, tblDetail 0 o)], none, (none, 0), more.d)
    | none, none =>
      let pr := more.d.spaceRead v t (.walker t.sector.val) q.ctx 0 c.qpos (8 * ((q.da'.rows - 1) / c.g + 1))
      let om := pr.d.readOmega v n q.ctx s
      let mp := om.2.2.readMap v n q.ctx c
      let f1 := recFails pr.st 0xFFFF ++ om.1 ++ mp.1
      if !f1.isEmpty then (f1, none, (none, 0), mp.2.2)
      else
        let pos := (chunks 8 pr.data).map (fun b => BitVec.ofNat 64 (leNat b))
        let da := (d.src t q.da'.space 0).operand q.da' 0 q.da'.total
        let rows := (List.range q.da'.rows).map (fun r =>
          queryRow q.da'.fmt s.rope om.2.1 (pos.getD (r / c.g) 0)
            ((da.elems.drop (r * s.dim)).take s.dim))
        (da.fails 0,
         some ⟨n, q.ctx, rec_, s, c, mp.2.1, pos, rows.map (·.1), (d.tile t).attnPfmt c.pfmt⟩,
         (rows.foldl (fun x r => orCause x r.2.1) none, valMax (rows.map (fun r => f32 r.2.2))), mp.2.2)

/-- ATTN completes (R204, R212, R213). -/
def Dev.doAttn (v : Variant) (d : Dev) (t : TileRef) (q : Queued) (r : EngineReport) : Outcome × Dev :=
  let a := d.attnPrepare v t q
  let rs := fun (d : Dev) => if q.begun.headD 0 = 0 then
      d.reread v t.sector.val q.ctx q.db'.base (BitVec.ofNat 64 (leNat ((q.begun.drop 1).take 8)))
    else ([], d)
  match a.2.1 with
  | none =>
    let z := rs a.2.2.2
    (z.2.freePair t q).attnDone t (attnWorst (a.1 ++ z.1)) r.waits
  | some j =>
    let w := j.pages.foldl (AttnJob.page v t j)
      ({ rows := j.qs.map (fun _ => { o := List.replicate j.s.dim 0 }), fails := a.1 }, a.2.2.2)
    let z := rs w.2
    let fs := w.1.fails ++ absentFails w.1.absent ++ z.1
    let x0 := z.2.residueBlocks t q r true
    let x := (x0.1.isSome, x0.2)
    let d2 := (x.2.pressCount t w.1.coded).freePair t q
    let dst := q.dc'.spans q.dc'.total
    let stats : List Span := if j.c.partial_ then [⟨q.dc'.space, 0, j.c.stats, 8 * q.dc'.rows⟩] else []
    if attnStops x.1 fs then (d2.stageUsed t j.c.stage j.c.stageBytes [] []).attnDone t (attnWorst fs) r.waits
    else
      let e := (if x.1 then d2 else d2.attnCause t q a.2.2.1.1 a.2.2.1.2).attnCommit t q j.c w.1 x.1
      let fs := fs ++ e.1 ++ (if x.1 then [(sResidue, e.2.2.reg (At.tile t 0x104))] else [])
      (e.2.2.stageUsed t j.c.stage j.c.stageBytes (⟨0, 0, q.gval.toNat, 64⟩ :: q.da'.spans q.da'.total ++ dst) (dst ++ stats)).attnDone t
        (attnWorst fs) r.waits e.2.1

/-! ## MERGE (R215, R216) -/

/-- One row of MERGE from its partials (m, l, o), in order. -/
def mergeRow (dim : Nat) (ps : List (W32 × W32 × List W32)) : RowSt :=
  let mx := ps.foldl (fun m p => fmax m (f32 p.1)) (.inf true)
  if mx = .inf true then { m := 0xFF800000, l := 0, o := List.replicate dim 0, seen := false }
  else
    ps.foldl (fun (r : RowSt) p =>
      if p.1 = 0xFF800000 then r
      else
        let c := accFn elemExp (accAdd (accConst p.1) (accNeg (accConst (codeF mx))))
        let o := r.o.mapIdx (fun j w =>
          let x := p.2.2.getD j 0
          if c.1 = 0 ∧ !(f32 x).isNan then accConst w else accAdd (accConst w) (accMul (accConst x) (c.1, none)))
        let l := if c.1 = 0 then accConst r.l else accAdd (accConst r.l) (accMul (accConst p.2.1) (c.1, none))
        { r with o := o.map (·.1), l := l.1,
                 cause := orCause r.cause (orCause c.2 (orCause (o.foldl (fun x e => orCause x e.2) none) l.2)) })
      { m := codeF mx, o := List.replicate dim 0, seen := true }

/-- A plain operand's space as a source, virtual memory included. -/
def Dev.anySrc (v : Variant) (d : Dev) (t : TileRef) (ctx : Nat) (dn : Desc) : Src × Dev :=
  if dn.space = 2 then
    let r := d.virtMarked v (.walker t.sector.val) ctx dn.origin (dn.reach - dn.origin)
    (srcOfMarked [(dn.origin, r.1)], r.2)
  else (d.src t dn.space dn.bank, d)

/-- MERGE completes (R216). -/
def Dev.doMerge (v : Variant) (d : Dev) (t : TileRef) (q : Queued) (r : EngineReport) : Outcome × Dev :=
  let da := q.da'
  let part := decide (q.mod 0 1 = 1)
  if part && decide (tileMemSize < q.gval.toNat + 8 * da.e1) then d.attnDone t (sTableInvalid, tblDetail 0 0) r.waits
  else
    let oa := (d.src t da.space 0).operand da 0 da.total
    let sb := d.anySrc v t q.ctx q.db'
    let ob := sb.1.operand q.db' 0 q.db'.total
    let a := oa.elems.map (fun e => codeF e.v)
    let b := ob.elems.map (fun e => codeF e.v)
    let rows := (List.range da.e1).map (fun m => mergeRow da.e0 ((List.range da.e2).map (fun i =>
      let k := m + da.e1 * i
      (b.getD (2 * k) 0, b.getD (2 * k + 1) 0, (a.drop (da.e0 * k)).take da.e0))))
    let x0 := sb.2.residueBlocks t q r true
    let x := (x0.1.isSome, x0.2)
    let hard := ob.fails 1
    if (hard.any (fun f => f.1 == sFenced || f.1 == sTranslation)) then x.2.attnDone t (attnWorst (hard.map (fun f => (f.1, 0xFFFF)))) r.waits
    else
      let outs := rows.map (fun w => w.out part)
      let d1 := if x.1 then x.2 else
        x.2.attnCause t q (orCause (rows.foldl (fun c w => orCause c w.cause) none) (outs.flatten.foldl (fun c e => orCause c e.2) none)) 0
      let y := d1.writeDest t q q.dc' (q.scale 2) (fun _ => none)
        (outs.flatten.map (fun e => if x.1 then DVal.err else DVal.f (f32 e.1)))
      let z := if part then y.2.putPairs t 0 q.gval.toNat (rows.map (fun w => if x.1 then (qnan32, qnan32) else (w.m, w.l)))
               else ([], y.2)
      let empty := if x.1 then none else (rows.zipIdx.find? (fun e => !e.1.seen)).map (·.2)
      let fs := oa.fails 0 ++ hard ++ y.1 ++ z.1 ++ (match empty with
        | some i => [(sDoneFlagged, BitVec.ofNat 32 i)]
        | none => []) ++ (if x.1 then [(sResidue, z.2.reg (At.tile t 0x104))] else [])
      z.2.attnDone t (attnWorst fs) r.waits empty.isSome

/-! ## KVAPPEND (R218, R219) -/

/-- The append record (R218). -/
structure AppendRec where
  pos : Nat
  stage : Nat
  stageBytes : Nat
  deriving DecidableEq, Repr

def appendBad (T : Nat) (s : SeqRec) (r : List W8) : Option Nat :=
  firstBad [(decide (tileMemSize < recNat r 0 4 + 8 * T), 0), (decide (tileMemSize < recNat r 4 4 + recNat r 8 4), 4),
    (decide (recNat r 8 4 < T * s.slot), 8), (recNat r 12 4 != 0, 12)]

/-- Why a KVAPPEND refuses a target page, if it does: 2 not pinned, 3 shared. -/
def appendRefuses (l : W64) : Option Nat := if !l.getLsbD 1 then some 2 else if l.getLsbD 2 then some 3 else none

/-- A token row's bytes (R202, R219) from its elements, per head the keys and then the values: bytes, whether a block is an
overflow block, a conversion overflows, and coded blocks that the raw fallback made raw. -/
def tokenRow (s : SeqRec) (fallback : Bool) (free : Nat → Nat) (vs : List FVal) : List W8 × Bool × Bool × Nat :=
  if isBlockFmt s.fmt then
    let bs := (groupsOf vs).map (fun g => let xs := g.map toBf16; (encodeBlock s.fmt xs, xs.any (fun x => x.isNan || x.isInf)))
    let over_ := bs.any (fun b => b.1.2 && b.2)
    if s.coded then
      let cbs := (List.range (bs.length / 8)).map (fun j => ((bs.drop (8 * j)).take 8).map (·.1.1))
      let ks := cbs.map (fun c => codeBlock s.fmt s.table fallback (c.flatMap (·.codes)) c)
      (codedRow (s.rowElems / 256) free (ks.map (·.1)), over_, false, (ks.filter (·.2)).length)
    else (bs.flatMap (fun b => writeBlock s.fmt b.1.1), over_, false, 0)
  else
    let cs := vs.map (fun v => fBF16.encode v)
    (packCodes nBF16 (cs.map (·.1)), false, cs.any (·.2), 0)

/-- The walk of the target pages: failures, pages refused, and the page of each row. -/
def Dev.appendWalk (v : Variant) (d : Dev) (n ctx rec_ : Nat) (ps : List Nat) :
    List Fail × List (Nat × Nat) × List (Nat × Nat) × Dev :=
  ps.foldl (fun r p =>
    let a := r.2.2.2.pageAt v n ctx rec_ p
    match a.1 with
    | .fail f => (r.1 ++ [f], r.2.1, r.2.2.1, a.2)
    | .absent k => (r.1, r.2.1 ++ [(p, k)], r.2.2.1, a.2)
    | .found _ l => match appendRefuses l with
      | some k => (r.1, r.2.1 ++ [(p, k)], r.2.2.1, a.2)
      | none => (r.1, r.2.1, r.2.2.1 ++ [(p, leafPage l)], a.2)) ([], [], [], d)

/-- Raises a 32-bit word of virtual memory to at least `x` (R219): the shared-cache maximum. -/
def Dev.virtMax32 (v : Variant) (d : Dev) (n ctx va x : Nat) : W8 × Dev :=
  let r := d.translate v (.walker n) ctx va true (d.evalMember n)
  if r.1 ≠ 0 then (r.1, r.2.2)
  else if isWindow r.2.1 then
    let y := r.2.2.windowAtomic v (some n) r.2.1 (atomicPayload 0x14 true (BitVec.ofNat 64 x) 0) 0
    let z := y.2.draw
    if y.1 ≠ 0 then y else (windowOutcome z.1, z.2)
  else
    let y := (r.2.2.chargeFor (some n) true false 0 r.2.1 64).localAtomic v r.2.1 .max true (BitVec.ofNat 64 x) 0
    (y.1, y.2.2)

/-- Writes slots and position records in row order (R219): page, slot, position and bytes of each. -/
def Dev.appendRows (v : Variant) (d : Dev) (n ctx : Nat) (s : SeqRec) (rows : List (Nat × Nat × Nat × W64 × List W8)) :
    List Fail × Dev :=
  rows.foldl (fun r e =>
    let a := r.2.virtWrites v (.walker n) ctx 0 (e.2.1 + 2048 + e.2.2.1 * s.slot) e.2.2.2.2
    let b := a.d.virtWrites v (.walker n) ctx 0 (e.2.1 + 8 * e.2.2.1) (toLE 8 e.2.2.2.1.toNat)
    let f := fun (st : W8) => if st = 0 then ([] : List Fail)
      else if st = sFenced ∨ st = sTranslation then [(st, BitVec.ofNat 32 e.1)]
      else [(st, BitVec.ofNat 32 (e.2.2.1 * 2 ^ 16 + e.1))]
    (r.1 ++ f a.st ++ f b.st, b.d)) ([], d)

/-- An element as it stands in FP32, a NaN with its sign (R125). -/
def Elem.kept (e : Elem) : FVal :=
  match e.v with
  | .nan s => .nan s
  | v => f32 (codeF v)

/-- The heads of a token row before it is quantised: keys, rotated where the record has a rotary mode, and values, and the first cause
met (R200, R219). -/
def appendHeads (s : SeqRec) (omega : List W64) (pos : W64) (ks vs : List Elem) : List (List FVal × Option Nat) :=
  (List.range s.hkv).map (fun h =>
    let es := (ks.drop (h * s.dim)).take s.dim
    let k := rotateHead s.rope omega pos (es.map (fun e => codeF e.v))
    ((if s.rope = 0 then es.map Elem.kept else k.map (fun a => f32 a.1)) ++ ((vs.drop (h * s.dim)).take s.dim).map Elem.kept,
     k.foldl (fun c a => orCause c a.2) none))

/-- The rows of a KVAPPEND once its pages are known: each formed from its keys and values (R200, R219). -/
def appendForm (s : SeqRec) (omega : List W64) (fallback fatal : Bool) (free : Nat → Nat) (pos : W64) (ks vs : List Elem) :
    (List W8 × Bool × Bool × Nat) × Option Nat :=
  let bad := fatal || ks.any (fun e => e.st != 0) || vs.any (fun e => e.st != 0)
  let heads := appendHeads s omega pos ks vs
  if bad then (tokenRow s fallback free (List.replicate s.rowElems .qnan), none)
  else (tokenRow s fallback free (heads.flatMap (·.1)), heads.foldl (fun c h => orCause c h.2) none)

/-- KVAPPEND completes (R204, R219). -/
def Dev.doKvappend (v : Variant) (d : Dev) (t : TileRef) (q : Queued) (r : EngineReport) : Outcome × Dev :=
  let n := t.sector.val
  let rec_ := q.dc'.base
  let T := q.da'.rows
  let more := d.virtReads v (.walker n) q.ctx (rec_ + 16) 48
  let f0 := recFails (q.begun.headD 0) 0xFFFF ++ recFails more.st 0xFFFF ++ recFails (q.begun.getD 17 0) 0xFFFF
  let sb := (q.begun.drop 1).take 16 ++ more.data
  let s := seqRecOf sb
  let cb := q.begun.drop 18
  let again := fun (d : Dev) => if q.begun.headD 0 = 0 then d.reread v n q.ctx rec_ s.gen else (([], d) : List Fail × Dev)
  let stop := fun (fs : List Fail) (d : Dev) => let z := again d; z.2.attnDone t (attnWorst (fs ++ z.1)) r.waits
  if !f0.isEmpty then stop f0 more.d
  else
    match seqRecBad q.dc'.e0 q.dc'.fmt sb, appendBad T s cb with
    | some o, _ => stop [(sTableInvalid, tblDetail 1 o)] more.d
    | none, some o => stop [(sTableInvalid, tblDetail 0 o)] more.d
    | none, none =>
      if s.dim * s.hkv ≠ q.da'.e0 then stop [(sTableInvalid, tblDetail 1 0x00C)] more.d
      else
        let pr := more.d.spaceRead v t (.walker t.sector.val) q.ctx 0 (recNat cb 0 4) (8 * T)
        let om := pr.d.readOmega v n q.ctx s
        let f1 := recFails pr.st 0xFFFF ++ om.1
        if !f1.isEmpty then stop f1 om.2.2
        else
          let pos := (chunks 8 pr.data).map (fun b => BitVec.ofNat 64 (leNat b))
          let ps := ((pos.map (fun p => posIndex p / 256)).mergeSort (· ≤ ·)).dedup
          let w := om.2.2.appendWalk v n q.ctx rec_ ps
          let z := again w.2.2.2
          let ready := !(w.1 ++ absentFails w.2.1).any attnBlocks
          let fs := w.1 ++ absentFails w.2.1 ++ z.1
          let x0 := z.2.residueBlocks t q r true
          let x := (x0.1.isSome, x0.2)
          let staged := fun (d : Dev) => if ready then d.stageUsed t (recNat cb 4 4) (recNat cb 8 4) [] [] else d
          if attnStops (x.1 && ready) fs then (staged x.2).attnDone t (attnWorst fs) r.waits
          else
            let ka := ((d.src t q.da'.space q.da'.bank).operand q.da' 0 q.da'.total).elems
            let va := ((d.src t q.db'.space q.db'.bank).operand q.db' 0 q.db'.total).elems
            let es := if s.coded then indexEntries (s.rowElems / 256) else 0
            let rows := (List.range T).map (fun i =>
              let p := pos.getD i 0
              let k := (ka.drop (i * q.da'.e0)).take q.da'.e0
              let u := (va.drop (i * q.da'.e0)).take q.da'.e0
              let page := posIndex p / 256
              (page, ((w.2.2.1.find? (fun e => e.1 == page)).map (·.2)).getD 0, posIndex p % 256, p,
               appendForm s om.2.1 (x.2.bit (At.tile t 0x200) 0) x.1 (fun j => (Config.freeWord (x.2.free + i * es + j)).toNat) p k u,
               k.any (fun e => e.st != 0) || u.any (fun e => e.st != 0)))
            let mag := valMax ((List.range T).flatMap (fun i =>
              (appendHeads s om.2.1 (pos.getD i 0) ((ka.drop (i * q.da'.e0)).take q.da'.e0) ((va.drop (i * q.da'.e0)).take q.da'.e0)).flatMap (·.1)))
            let c3 := rows.any (fun e => !e.2.2.2.2.2 && e.2.2.2.2.1.1.2.1)
            let c0 := rows.any (fun e => e.2.2.2.2.1.1.2.2.1)
            let raws := (rows.map (fun e => e.2.2.2.2.1.1.2.2.2)).sum
            let d1 := if x.1 then x.2 else x.2.attnCause t q (rows.foldl (fun c e => orCause c e.2.2.2.2.1.2) none) mag
            let d2 := if !x.1 && c0 then d1.attnCause t q (some 0) mag else d1
            let d3 := if !x.1 && c3 then d2.attnCause t q (some 3) mag else d2
            let d4 := if raws = 0 then d3 else d3.count (At.tile t 0x20C) 0 32 raws
            let y := ({ d4 with free := d4.free + T * es }).appendRows v n q.ctx s
              (rows.map (fun (e : Nat × Nat × Nat × W64 × ((List W8 × Bool × Bool × Nat) × Option Nat) × Bool) =>
                (e.1, e.2.1, e.2.2.1, e.2.2.2.1, e.2.2.2.2.1.1.1)))
            let top := pos.foldl (fun m p => max m (posIndex p + 1)) 0
            let g := y.2.virtMax32 v n q.ctx (rec_ + 8) top
            let ecc := (rows.filter (fun e => e.2.2.2.2.2)).map
              (fun e => ((sEcc, BitVec.ofNat 32 (e.2.2.1 * 2 ^ 16 + e.1)) : Fail))
            let fs := fs ++ ecc ++ y.1 ++ recFails g.1 0xFFFF ++ (if x.1 then [(sResidue, g.2.reg (At.tile t 0x104))] else [])
            (staged g.2).attnDone t (attnWorst fs) r.waits

/-! ## KVPREFIX (R222 to R225) -/

/-- The hash of a chunk (R222). -/
def chunkHash (h : W64) (ids : List W32) : W64 :=
  ids.foldl (fun h i =>
    let x := (h ^^^ i.setWidth 64) * 0x9E3779B97F4A7C15
    x ^^^ (x >>> 29)) h

/-- A 64-bit add at an address of virtual memory (R273): status, old value, device. -/
def Dev.virtAdd64 (v : Variant) (d : Dev) (n ctx va : Nat) (x : W64) : W8 × W64 × Dev :=
  let r := d.translate v (.walker n) ctx va true (d.evalMember n)
  if r.1 ≠ 0 then (r.1, 0, r.2.2)
  else if isWindow r.2.1 then
    let y := r.2.2.windowAtomic v (some n) r.2.1 (atomicPayload 0x11 false x 0) 0
    let z := y.2.draw
    let u := z.2.draw
    if y.1 ≠ 0 then (y.1, 0, y.2) else (windowOutcome z.1, u.1, u.2)
  else (r.2.2.chargeFor (some n) true false 0 r.2.1 64).localAtomic v r.2.1 .add false x 0

/-- What a lookup of a chunk meets: nothing, a node, or a failure. -/
inductive Bucket where
  | miss
  | node (a : Nat)
  | fail (f : Fail)
  deriving DecidableEq, Repr

/-- The first of the eight buckets with NODE 0, or with the hash and a node (R225). -/
def Dev.findBucket (v : Variant) (n ctx table log2 : Nat) (h : W64) : Nat → Nat → Dev → Bucket × Dev
  | 0, _, d => (.miss, d)
  | k + 1, j, d =>
    let b := (h.toNat + j) % 2 ^ log2
    let r := d.virtReads v (.walker n) ctx (table + 16 * b) 16
    let node := leNat (r.data.drop 8)
    if r.st ≠ 0 then (.fail (recFail r.st 0), r.d)
    else if node = 0 then (.miss, r.d)
    else if 1 < node ∧ leNat (r.data.take 8) = h.toNat then
      (if node % 64 ≠ 0 then .fail (sTableInvalid, tblDetail 3 (16 * b + 8)) else .node node, r.d)
    else Dev.findBucket v n ctx table log2 h k (j + 1) r.d

/-- What a lookup has come to: the records, chunks hit, the parent, how it missed (1 plain, 2 mismatch) and a failure. -/
structure Lookup where
  recs : List (W64 × W64) := []
  hits : Nat := 0
  h : W64
  parent : W64
  missed : Nat := 0
  fail : Option Fail := none

/-- One chunk of KVPREFIX (R225). A node whose reserved bytes are not 0 is refused before it is compared, and its reference is given back
(R213, log 33). -/
def Dev.lookChunk (v : Variant) (n ctx table log2 : Nat) (s : Lookup × Dev) (ids : List W32) : Lookup × Dev :=
  let h := chunkHash s.1.h ids
  let s1 : Lookup := { s.1 with h := h, recs := s.1.recs ++ [(h, 0)] }
  if s.1.fail.isSome then s
  else if s.1.missed ≠ 0 then (s1, s.2)
  else
    let b := s.2.findBucket v n ctx table log2 h 8 0
    match b.1 with
    | .fail f => ({ s1 with fail := some f }, b.2)
    | .miss => ({ s1 with missed := 1 }, b.2)
    | .node a =>
      let o := b.2.virtAdd64 v n ctx (a + 0x10) 1
      if o.1 ≠ 0 then ({ s1 with fail := some (recFail o.1 0) }, o.2.2)
      else if o.2.1.getLsbD 63 then
        let u := o.2.2.virtAdd64 v n ctx (a + 0x10) (-1)
        ({ s1 with missed := 1, fail := if u.1 = 0 then none else some (recFail u.1 0) }, u.2.2)
      else
        let x := o.2.2.virtReads v (.walker n) ctx a 0x440
        if x.st ≠ 0 then ({ s1 with fail := some (recFail x.st 0) }, x.d)
        else if let some o := firstBad ((List.range 38).map (fun i => (recNat x.data (0x1A + i) 1 != 0, 0x1A + i))) then
          let u := x.d.virtAdd64 v n ctx (a + 0x10) (-1)
          ({ s1 with fail := some (sTableInvalid, tblDetail 3 o) }, u.2.2)
        else if recNat x.data 0 8 ≠ h.toNat ∨ recNat x.data 8 8 ≠ s.1.parent.toNat ∨
            x.data.drop 0x40 ≠ ids.flatMap (fun i => toLE 4 i.toNat) then
          let u := x.d.virtAdd64 v n ctx (a + 0x10) (-1)
          ({ s1 with missed := 2, fail := if u.1 = 0 then none else some (recFail u.1 0) }, u.2.2)
        else
          ({ s1 with recs := s.1.recs ++ [(h, BitVec.ofNat 64 a)], hits := s.1.hits + 1, parent := BitVec.ofNat 64 a }, x.d)

/-- The first field of a prefix record out of range or reserved (R224). -/
def prefixBad (r : List W8) : Option Nat :=
  firstBad ([(recNat r 0 8 % 64 != 0, 0), (decide (recNat r 8 1 < 4 ∨ 24 < recNat r 8 1), 8)] ++
    (List.range 7).map (fun i => (recNat r (9 + i) 1 != 0, 9 + i)))

/-- Writes a destination of I32 codes in any space, element by element in walk order. -/
def Dev.putInts (v : Variant) (d : Dev) (t : TileRef) (ctx : Nat) (dn : Desc) (cs : List W32) : List Fail × Dev :=
  let at_ := fun (i : Nat) => dn.rowAddr (i / dn.e0) + 4 * (i % dn.e0)
  let p := cs.zipIdx.foldl (fun (p : Patch) e => p.put (at_ e.2) (toLE 4 e.1.toNat)) []
  if dn.space = 2 then
    (Patch.runs p).foldl (fun r e =>
      let x := r.2.virtWrite v (.walker t.sector.val) ctx 0 e.1 e.2
      (r.1 ++ recFails x.st 0, x.d)) ([], d)
  else
    let w := d.applyPatch t dn.space dn.bank p
    (if w.1 = 0 then [] else [(w.1, failDetail 2 (w.2.1 - dn.origin))], w.2.2)

/-- KVPREFIX completes (R225). -/
def Dev.doKvprefix (v : Variant) (d : Dev) (t : TileRef) (q : Queued) (r : EngineReport) : Outcome × Dev :=
  let n := t.sector.val
  let rb := q.begun.drop 1
  match recFails (q.begun.headD 0) 0xFFFF, prefixBad rb with
  | f :: _, _ => d.attnDone t f r.waits
  | [], some o => d.attnDone t (sTableInvalid, tblDetail 0 o) r.waits
  | [], none =>
    let sa := d.anySrc v t q.ctx q.da'
    let es := (sa.1.operand q.da' 0 q.da'.total).elems
    match (es.filter (fun e => e.st != 0)).map (·.st) with
    | st :: _ => sa.2.attnDone t (recFail st 0) r.waits
    | [] =>
      let cs := (List.range (q.da'.e0 / 256)).map (fun c => ((es.drop (256 * c)).take 256).map (fun e => BitVec.ofNat 32 e.code))
      let l := cs.foldl (Dev.lookChunk v n q.ctx (recNat rb 0 8) (recNat rb 8 1))
        ({ h := BitVec.ofNat 64 (recNat rb 0x10 8), parent := BitVec.ofNat 64 (recNat rb 0x18 8) }, sa.2)
      let hits : W32 := BitVec.ofNat 32 l.1.hits
      let d1 := l.2.count (At.tile t 0x30C) 16 16 l.1.hits
      let d2 := if l.1.missed = 1 then d1.count (At.tile t 0x30C) 8 8 1
                else if l.1.missed = 2 then d1.count (At.tile t 0x30C) 0 8 1 else d1
      match l.1.fail with
      | some f => d2.attnDone t (if f.1 = sFenced ∨ f.1 = sTranslation then (f.1, hits) else f) r.waits
      | none =>
        let w := d2.putInts v t q.ctx q.dc' (l.1.recs.flatMap (fun (e : W64 × W64) =>
          [e.1.setWidth 32, (e.1 >>> 32).setWidth 32, e.2.setWidth 32, (e.2 >>> 32).setWidth 32]))
        let f : Fail := (if l.1.missed = 0 then sDone else if l.1.missed = 2 then sPrefixMismatch else sDoneFlagged, hits)
        let hard := w.1.map (fun (e : Fail) => if e.1 = sFenced ∨ e.1 = sTranslation then (e.1, hits) else e)
        w.2.attnDone t (attnWorst (hard ++ [f])) r.waits

/-- What an instruction of engine 3 does when it completes. -/
def Dev.doAttention (v : Variant) (d : Dev) (t : TileRef) (q : Queued) (r : EngineReport) : Outcome × Dev :=
  match q.opcode with
  | 0x01 => d.doAttn v t q r
  | 0x02 => d.doMerge v t q r
  | 0x03 => d.doKvappend v t q r
  | _ => d.doKvprefix v t q r

end Sys2Proof.Machine
end

