-- ==== Sys2Proof/Machine/Convolution.lean ====
section
/-!
DEFINITION. Sys2Proof/Machine/Convolution.lean: the Crosshatch and Stipple engines (R229 to R246): issue of CONV2, CONV3 and
STIP, and what each does when it completes.
-/

namespace Sys2Proof.Machine

open Sys2Proof

/-! ## Shapes and geometry (R231 to R233) -/

/-- How a tensor lays out its channels: without frames, planar with frames, or with the channel innermost (R231). -/
inductive Shape where
  | flat | planar | inner
  deriving DecidableEq, Repr

/-- A place in a tensor: batch, channel, frame, row, column. -/
structure Place where
  n : Nat
  c : Nat
  t : Nat
  y : Nat
  x : Nat
  deriving DecidableEq, Repr

/-- The extents of a tensor, as a place beyond its last. -/
def Shape.extents (s : Shape) (d : Desc) : Place := match s with
  | .flat => ⟨d.e3, d.e2, 1, d.e1, d.e0⟩
  | .planar => ⟨d.e4, d.e3, d.e2, d.e1, d.e0⟩
  | .inner => ⟨d.e4, d.e0, d.e3, d.e2, d.e1⟩

/-- The numbers of dimensions that a tensor may have. -/
def Shape.ndims (s : Shape) : List Nat := match s with
  | .flat => [3, 4]
  | _ => [4, 5]

/-- The indices of a place, innermost dimension first. -/
def Shape.index (s : Shape) (p : Place) : Nat × Nat × Nat × Nat × Nat := match s with
  | .flat => (p.x, p.y, p.c, p.n, 0)
  | .planar => (p.x, p.y, p.t, p.c, p.n)
  | .inner => (p.c, p.x, p.y, p.t, p.n)

/-- The byte address of the element at a place. -/
def Desc.placeAddr (d : Desc) (s : Shape) (p : Place) : Nat :=
  let i := s.index p
  d.rowAt i.2.1 i.2.2.1 i.2.2.2.1 i.2.2.2.2 + i.1 * (fmtBits d.fmt / 8)

/-- The number of a place in walk order. -/
def Desc.placeWalk (d : Desc) (s : Shape) (p : Place) : Nat :=
  let i := s.index p
  i.1 + d.e0 * (i.2.1 + d.e1 * (i.2.2.1 + d.e2 * (i.2.2.2.1 + d.e3 * i.2.2.2.2)))

/-- One dimension's geometry: stride, dilation, padding. -/
structure Axis where
  stride : Nat
  dil : Nat
  pad : Nat
  deriving DecidableEq, Repr

/-- The extent of R233. -/
def Axis.out (a : Axis) (x k : Nat) : Int :=
  ((x : Int) + 2 * a.pad - a.dil * ((k : Int) - 1) - 1) / (a.stride : Int) + 1

/-- Where tap `k` of output `o` reads, none where it lies in padding. -/
def Axis.tap (a : Axis) (x o k : Nat) : Option Nat :=
  let z : Int := (o * a.stride + k * a.dil : Nat) - (a.pad : Int)
  if 0 ≤ z ∧ z < x then some z.toNat else none

/-- The inputs that an output touches (R235). -/
def Axis.touched (a : Axis) (x k o : Nat) : List Nat := ((List.range k).filterMap (fun i => a.tap x o i)).dedup

/-- A geometry word (R232). -/
structure Geo where
  w : Axis
  h : Axis
  t : Axis
  qzero : W8
  qscale : W16
  rsv : Nat
  deriving DecidableEq, Repr

def geoOf (g : W64) : Geo :=
  let f := fun lo n => g.toNat / 2 ^ lo % 2 ^ n
  { w := ⟨f 12 3 + 1, f 21 2 + 1, f 0 4⟩, h := ⟨f 15 3 + 1, f 23 2 + 1, f 4 4⟩, t := ⟨f 18 3 + 1, f 25 2 + 1, f 8 4⟩,
    qzero := BitVec.ofNat 8 (f 56 8), qscale := BitVec.ofNat 16 (f 40 16), rsv := f 27 13 }

/-- A convolution: which engine, its opcode and MOD, its descriptors and geometry. -/
structure Conv where
  stip : Bool
  flat : Bool
  acc : Bool
  func : Nat
  out : Bool
  inter : Bool
  da : Desc
  db : Desc
  dc : Desc
  geo : Geo

def convOf (engine opcode : Nat) (a : TensorArgs) (da db dc : Desc) (g : W64) : Conv :=
  let stip := decide (engine = 5)
  { stip := stip, flat := decide (engine = 4 ∧ opcode = 1), acc := !stip && modOf a 0 1 == 1, func := modOf a 2 3,
    out := stip && modOf a 1 1 == 1, inter := stip && modOf a 5 1 == 1, da := da, db := db, dc := dc, geo := geoOf g }

def Conv.inShape (c : Conv) : Shape := if c.flat then .flat else if c.inter && !c.out then .inner else .planar
def Conv.outShape (c : Conv) : Shape := if c.flat then .flat else if c.inter && c.out then .inner else .planar

/-- The input's extents. -/
def Conv.dims (c : Conv) : Place := c.inShape.extents c.da

/-- The weights' extents: kW, kH, kT, Cw and Cout. -/
def Conv.kW (c : Conv) : Nat := c.db.e0
def Conv.kH (c : Conv) : Nat := c.db.e1
def Conv.kT (c : Conv) : Nat := if c.flat then 1 else c.db.e2
def Conv.cw (c : Conv) : Nat := if c.flat then c.db.e2 else c.db.e3
def Conv.cout (c : Conv) : Nat := if c.flat then c.db.e3 else c.db.e4

def Conv.wOut (c : Conv) : Int := c.geo.w.out c.dims.x c.kW
def Conv.hOut (c : Conv) : Int := c.geo.h.out c.dims.y c.kH
def Conv.tOut (c : Conv) : Int := c.geo.t.out c.dims.t c.kT

/-- Whether an output extent is 0 or less (R233). -/
def Conv.empty (c : Conv) : Bool := decide (c.wOut ≤ 0) || decide (c.hOut ≤ 0) || decide (c.tOut ≤ 0)

/-! ## Issue (R230, R234, R237, R239) -/

/-- The formats that may stand together (R237, R239). -/
def Conv.formats (c : Conv) : Bool :=
  let has := fun (l : List Nat) (f : Nat) => l.contains f
  if c.stip then
    (if c.out then has [nFP32, nBF16] c.da.fmt && has [nINT8, nUINT8] c.dc.fmt && decide (c.cout ≤ 16)
     else has [nINT8, nUINT8] c.da.fmt && has [nFP32, nBF16] c.dc.fmt && decide (c.dims.c ≤ 16)) && has [nFP32, nBF16] c.db.fmt
  else
    ((has [nBF16, nFP16] c.da.fmt && has [nBF16, nFP16] c.db.fmt) || (has [nE4, nE5] c.da.fmt && has [nE4, nE5] c.db.fmt)) &&
    has [nFP32, nFP16, nBF16, nE4, nE5] c.dc.fmt && (!c.acc || c.dc.fmt == nFP32)

/-- An operand of a sector engine: plain, in SPACE 1 or 2 (R230). -/
def convOperand (ctx : Nat) (dest : Bool) (d : Desc) : Bool :=
  d.ok ctx dest [nFP32, nFP16, nBF16, nE4, nE5, nINT8, nUINT8] && (d.space == 1 || d.space == 2) && !d.coded

def convOk (engine opcode : Nat) (w : IssueView) : Bool :=
  let c := convOf engine opcode w.a w.da w.db w.dc w.g
  let ctx := w.x.ctx.toNat
  let i := c.dims
  let o := c.outShape.extents w.dc
  (if c.stip then w.m 6 13 == 0 && w.m 0 1 == 0 && w.a.greg != 0
   else w.m 5 14 == 0 && w.m 1 1 == 0 && c.geo.qzero == 0 && c.geo.qscale == 0) &&
  c.geo.rsv == 0 && c.func != 7 &&
  convOperand ctx false w.da && convOperand ctx false w.db && convOperand ctx true w.dc && !w.dc.watchEn &&
  c.inShape.ndims.contains w.da.ndim && c.outShape.ndims.contains w.dc.ndim && w.db.ndim == (if c.flat then 4 else 5) &&
  decide (c.kW ≤ 7) && decide (c.kH ≤ 7) && decide (c.kT ≤ 7) && decide (i.x ≤ 4096) &&
  (c.cw == i.c || (c.cw == 1 && c.cout == i.c)) &&
  (!c.flat || (c.geo.t.dil == 1 && c.geo.t.stride == 1 && c.geo.t.pad == 0)) &&
  (c.empty || (decide ((o.x : Int) = c.wOut ∧ (o.y : Int) = c.hOut ∧ (o.t : Int) = c.tOut) && o.c == c.cout && o.n == i.n)) &&
  c.formats

def execConv2 (t : TileRef) (a : TensorArgs) (s : State) : Host.Outcome State Fault Refusal :=
  s.onDev fun d => d.issue t (encTensor 4 0x01 a) 4 0x01 a (convOk 4 0x01) noPost

def execConv3 (t : TileRef) (a : TensorArgs) (s : State) : Host.Outcome State Fault Refusal :=
  s.onDev fun d => d.issue t (encTensor 4 0x02 a) 4 0x02 a (convOk 4 0x02) noPost

def execStip (t : TileRef) (a : TensorArgs) (s : State) : Host.Outcome State Fault Refusal :=
  s.onDev fun d => d.issue t (encTensor 5 0x01 a) 5 0x01 a (convOk 5 0x01) noPost

/-! ## Reading (R235) -/

/-- A byte range of SPACE 1 or 2 as a source; each 64-byte line with its own status. -/
def Dev.convSrc (v : Variant) (d : Dev) (t : TileRef) (ctx space : Nat) (rs : List (Nat × Nat)) : Src × Dev :=
  if space = 1 then (d.src t 1 0, d)
  else
    let r := rs.foldl (fun (r : List (Nat × List (W8 × W8)) × Dev) e =>
      let x := r.2.virtMarked v (.engine t.sector.val) ctx e.1 e.2
      (r.1 ++ [(e.1, x.1)], x.2)) ([], d)
    (srcOfMarked r.1, r.2)

/-- The input channels that a group of 16 output channels uses. -/
def Conv.channels (c : Conv) (g : Nat) : List Nat :=
  if c.cw = c.dims.c then List.range c.dims.c else (List.range 16).filterMap (fun i => if 16 * g + i < c.cout then some (16 * g + i) else none)

/-- The first byte and the length of an input line. -/
def Conv.lineRange (c : Conv) (n ch t y : Nat) : Nat × Nat :=
  let b := fmtBits c.da.fmt / 8
  let first := c.da.placeAddr c.inShape ⟨n, ch, t, y, 0⟩
  (first, c.da.placeAddr c.inShape ⟨n, ch, t, y, c.dims.x - 1⟩ + b - first)

/-- The input lines that the instruction reads: those whose frame and row some output touches (R235). -/
def Conv.inputs (c : Conv) : List (Nat × Nat × Nat × Nat) :=
  let ts := (List.range c.dims.t).filter fun t => (List.range c.tOut.toNat).any fun o => (c.geo.t.touched c.dims.t c.kT o).contains t
  let ys := (List.range c.dims.y).filter fun y => (List.range c.hOut.toNat).any fun o => (c.geo.h.touched c.dims.y c.kH o).contains y
  (List.range c.dims.n).flatMap (fun n => (List.range c.dims.c).flatMap (fun ch => ts.flatMap (fun t => ys.map (fun y => (n, ch, t, y)))))

/-- The input lines that an output line of a group reads (R235). -/
def Conv.lines (c : Conv) (n g to_ yo : Nat) : List (Nat × Nat × Nat × Nat) :=
  (c.channels g).flatMap (fun ch => (c.geo.t.touched c.dims.t c.kT to_).flatMap (fun t =>
    (c.geo.h.touched c.dims.y c.kH yo).map (fun y => (n, ch, t, y))))

/-- An element of an operand at a place; an input pixel enters as p − QZERO (R240). -/
def Conv.elem (_c : Conv) (s : Src) (d : Desc) (sh : Shape) (sigma : Int) (zero : Int) (p : Place) : Elem :=
  let a := d.placeAddr sh p
  let b := fmtBits d.fmt / 8
  let st := s.fault a b
  let k := s.nat a b
  if st ≠ 0 then ⟨.qnan, 0, st, a - d.origin⟩
  else
    let x := codeValue d.fmt sigma k
    ⟨if zero = 0 then x else (x.sub (.ofInt zero)).1, k, 0, a - d.origin⟩

/-- QZERO as a number: u8 for UINT8, i8 for INT8 (R232). -/
def Conv.zero (c : Conv) : Int :=
  let f := if c.out then c.dc.fmt else c.da.fmt
  if c.stip then (if f = nUINT8 then (c.geo.qzero.toNat : Int) else c.geo.qzero.toInt) else 0

/-- The failing element first in walk order among those of some lines. -/
def firstFail (operand : Nat) (l : List (Nat × Elem)) : List Fail :=
  match (l.filter (fun e => e.2.st != 0)).foldl (fun (b : Option (Nat × Elem)) e => match b with
      | none => some e
      | some x => if e.1 < x.1 then some e else some x) none with
  | none => []
  | some e => [(e.2.st, failDetail operand e.2.off)]

/-! ## Arithmetic (R236, R240) -/

/-- The present products of an output element, by K index (R236). -/
def Conv.products (c : Conv) (at_ : Place → FVal) (wt : Nat → FVal) (o : Place) : List (Option (FVal × FVal)) :=
  let base := if c.cw = c.dims.c then 0 else o.c
  (List.range (c.cw * c.kT * c.kH * c.kW)).map (fun k =>
    let kx := k % c.kW
    let ky := k / c.kW % c.kH
    let kt := k / (c.kW * c.kH) % c.kT
    let cw := k / (c.kW * c.kH * c.kT)
    match c.geo.t.tap c.dims.t o.t kt, c.geo.h.tap c.dims.y o.y ky, c.geo.w.tap c.dims.x o.x kx with
    | some t, some y, some x => some (at_ ⟨o.n, base + cw, t, y, x⟩, wt (k + c.cw * c.kT * c.kH * c.kW * o.c))
    | _, _, _ => none)

/-- The groups of 32 K indices, each with its present products; an empty one adds +0.0 (R131, R236). -/
def convSum (init : W32) (ps : List (Option (FVal × FVal))) : FAcc :=
  (groupsOf ps).foldl (fun r g => accGroup r (g.filterMap id)) (init, none)

/-- A value of R236 after its activation. -/
def Conv.value (c : Conv) (init : W32) (ps : List (Option (FVal × FVal))) : FAcc :=
  let s := convSum init ps
  let s := if c.stip && !c.out then accMul s (accConst (codeF (bf16 c.geo.qscale))) else s
  activate c.func s

/-- A pixel from a value, and whether it is flagged (R240). -/
def Conv.pixel (c : Conv) (x : FAcc) : Nat × Bool × Option Nat :=
  let q := accMul x (accConst (codeF (bf16 c.geo.qscale)))
  let v := f32 q.1
  let z := rneInt v + c.zero
  let lo : Int := if c.dc.fmt = nUINT8 then 0 else -128
  let hi : Int := if c.dc.fmt = nUINT8 then 255 else 127
  if v.isNan then (0, true, q.2)
  else ((BitVec.ofInt 8 (max lo (min hi z))).toNat, decide (z < lo ∨ hi < z), q.2)

/-! ## Completion (R243, R244) -/

/-- What a convolution has come to, output line by output line. -/
structure ConvRun where
  hard : Option W8 := none
  committed : Nat := 0
  lines : Nat := 0
  bad : List (Nat × Elem) := []
  /-- the lines of DC that could not be read or written: status and address -/
  badOut : List (W8 × Nat) := []
  flagged : Option Nat := none
  cause : Option Nat := none
  over_ : Bool := false
  vals : List DVal := []

/-- Writes an output line: the first hard status, and the lines that were left unchanged, each with its status (R243). -/
def Dev.convWrite (v : Variant) (d : Dev) (t : TileRef) (ctx : Nat) (dc : Desc) (p : Patch) : Option W8 × List (W8 × Nat) × Dev :=
  if dc.space = 1 then
    let w := d.applyLines t 1 0 p
    (none, w.1, w.2)
  else
    (Patch.runs p).foldl (fun r e =>
      if r.1.isSome then r
      else
        let x := r.2.2.virtWrite v (.engine t.sector.val) ctx 0 e.1 e.2
        if x.st = sFenced ∨ x.st = sTranslation then (some x.st, r.2.1, x.d)
        else (none, r.2.1 ++ (if x.st = 0 then [] else [(x.st, e.1)]), x.d)) (none, [], d)

/-- DETAIL of the lines of DC that failed: the first element, in walk order, that lies in one of them (R243). -/
def Conv.lineFail (c : Conv) (bad : List (W8 × Nat)) : List Fail :=
  match bad with
  | [] => []
  | b :: _ => [(b.1, failDetail 2 (c.dc.firstIn c.dc.total (bad.map (fun e => e.2 / 64))))]

/-- One output line: the elements of channel `co` at (n, to, yo) (R236, R240, R243); `nan` says that a residue error has ended
the instruction here or before. What R328 notes of an output is its value before any conversion, a pixel's v of R236 too: DEDUCED
(log 34). -/
def Dev.convLine (v : Variant) (t : TileRef) (ctx : Nat) (c : Conv) (sg : Nat → Int) (src : Src) (wt : Nat → FVal)
    (nan : Option Nat) (n to_ yo : Nat) (r : ConvRun × Dev) (co : Nat) : ConvRun × Dev :=
  if r.1.hard.isSome then r
  else
    let place := fun xo => (⟨n, co, to_, yo, xo⟩ : Place)
    let osh := c.outShape
    let wide := fmtBits c.dc.fmt / 8
    let first := c.dc.placeAddr osh (place 0)
    let acc := if c.acc then r.2.convSrc v t ctx c.dc.space
        [(first, c.dc.placeAddr osh (place (c.wOut.toNat - 1)) + wide - first)] else (⟨fun _ => 0, fun _ => 0⟩, r.2)
    let olds := (List.range c.wOut.toNat).map (fun xo =>
      if c.acc then (c.dc.placeWalk osh (place xo), c.elem acc.1 c.dc osh 0 0 (place xo)) else (0, ⟨.zero, 0, 0, 0⟩))
    let stop := olds.find? (fun e => e.2.st == sFenced || e.2.st == sTranslation)
    match stop with
    | some e => ({ r.1 with hard := some e.2.st }, acc.2)
    | none =>
      let dead := match nan with
        | none => false
        | some k => decide (k ≤ r.1.committed)
      let outs := (List.range c.wOut.toNat).map (fun xo =>
        let x := c.value (codeF (olds.getD xo (0, ⟨.zero, 0, 0, 0⟩)).2.v)
          (c.products (fun p => (c.elem src c.da c.inShape (sg 0) (if c.out then 0 else c.zero) p).v) wt (place xo))
        if dead then ((if c.out then DVal.raw 0 else DVal.err), DVal.err, (none : Option Nat), false)
        else if c.out then let z := c.pixel x; (DVal.raw z.1, DVal.f (f32 x.1), orCause x.2 z.2.2, z.2.1)
        else (DVal.f (f32 x.1), DVal.f (f32 x.1), x.2, false))
      let codes := outs.map (fun o => o.1.code c.dc.fmt (sg 2))
      let p := codes.zipIdx.foldl (fun (p : Patch) e => p.put (c.dc.placeAddr osh (place e.2)) (toLE wide e.1.1)) []
      let w := acc.2.convWrite v t ctx c.dc p
      let fl := (outs.zipIdx.find? (fun e => e.1.2.2.2)).map (fun e => c.dc.placeWalk osh (place e.2))
      let r1 : ConvRun :=
        { r.1 with
            badOut := r.1.badOut ++ (olds.filter (fun e => e.2.st != 0)).map (fun e => (e.2.st, c.dc.origin + e.2.off)) ++ w.2.1
            cause := orCause r.1.cause (outs.foldl (fun x o => orCause x o.2.2.1) none)
            over_ := r.1.over_ || codes.any (·.2)
            flagged := match r.1.flagged, fl with
              | some a, some b => some (min a b)
              | some a, none => some a
              | none, b => b
            vals := r.1.vals ++ outs.map (·.2.1) }
      match w.1 with
      | some st => ({ r1 with hard := some st }, w.2.2)
      | none => ({ r1 with committed := r1.committed + 1 }, w.2.2)

/-- One output line of a group of 16 channels: its input lines are read, then each channel's line is committed. -/
def Dev.convGroup (v : Variant) (t : TileRef) (ctx : Nat) (c : Conv) (sg : Nat → Int) (wt : Nat → FVal) (nan : Option Nat)
    (r : ConvRun × Dev) (o : Nat × Nat × Nat × Nat) : ConvRun × Dev :=
  if r.1.hard.isSome then r
  else
    let ls := c.lines o.1 o.2.1 o.2.2.1 o.2.2.2
    let s := r.2.convSrc v t ctx c.da.space (ls.map (fun l => c.lineRange l.1 l.2.1 l.2.2.1 l.2.2.2))
    let es := ls.flatMap (fun l => (List.range c.dims.x).map (fun x =>
      let p : Place := ⟨l.1, l.2.1, l.2.2.1, l.2.2.2, x⟩
      (c.da.placeWalk c.inShape p, c.elem s.1 c.da c.inShape (sg 0) 0 p)))
    let bad := es.filter (fun e => e.2.st != 0)
    let r1 : ConvRun := { r.1 with lines := r.1.lines + ls.length, bad := r.1.bad ++ bad }
    match bad.find? (fun e => e.2.st == sFenced || e.2.st == sTranslation) with
    | some e => ({ r1 with hard := some e.2.st }, s.2)
    | none =>
      ((List.range 16).filterMap (fun i => if 16 * o.2.1 + i < c.cout then some (16 * o.2.1 + i) else none)).foldl
        (Dev.convLine v t ctx c sg s.1 wt nan o.1 o.2.2.1 o.2.2.2) (r1, s.2)

/-- The output lines of groups, in the order of R243. -/
def Conv.order (c : Conv) : List (Nat × Nat × Nat × Nat) :=
  (List.range c.dims.n).flatMap (fun n => (List.range ((c.cout + 15) / 16)).flatMap (fun g =>
    (List.range c.tOut.toNat).flatMap (fun to_ => (List.range c.hOut.toNat).map (fun yo => (n, g, to_, yo)))))

/-- The weights in the order of K within an output channel: failures, values, and the device after reading them. -/
def Dev.convWeights (v : Variant) (d : Dev) (t : TileRef) (ctx : Nat) (c : Conv) (sigma : Int) : List Elem × Dev :=
  let b := rowBytes c.db.fmt c.db.e0
  let s := d.convSrc v t ctx c.db.space ((List.range c.db.rows).map (fun r => (c.db.rowAddr r, b)))
  ((s.1.operand c.db sigma c.db.total).elems, s.2)

/-- A convolution completes (R233, R236, R243, R244). -/
def Dev.doConv (v : Variant) (d : Dev) (t : TileRef) (q : Queued) (r : EngineReport) : Outcome × Dev :=
  let c := convOf q.engine q.opcode q.args q.da' q.db' q.dc' q.gval
  let base := if q.engine = 4 then 0x400 else 0x410
  if c.empty then (⟨sDoneEmpty, 0, none, {}⟩, d)
  else
    let x := d.residueBlocks t q r false
    let w := x.2.convWeights v t q.ctx c (q.scale 1)
    let hardW := w.1.find? (fun e => e.st == sFenced || e.st == sTranslation)
    let wv := w.1.map (·.v)
    let z := match hardW with
      | some e => (({ hard := some e.st } : ConvRun), w.2)
      | none => c.order.foldl (Dev.convGroup v t q.ctx c q.scale (fun i => wv.getD i .zero) x.1) ({}, w.2)
    let o := z.1
    let d1 := (z.2.count (At.tile t (base + 4)) 0 32 o.lines).count (At.tile t (base + 8)) 0 32 r.waits
    let mag := notedMax c.dc.fmt (q.scale 2) o.vals
    let d2 := match o.cause with
      | none => d1
      | some k => d1.overflow t k q.engine q.opcode c.dc.scaleRec 0
    let d3 := if o.over_ then d2.overflow t 0 q.engine q.opcode c.dc.scaleRec mag else d2
    let d4 := d3.note t q c.dc mag
    let d5 := if x.1.isSome then d4.onSector t.sector.val fun s =>
        if q.engine = 4 then { s with xh := { s.xh with repair := true } } else { s with st := { s.st with repair := true } }
      else d4
    let fs := (match o.hard with
        | some st => [((st, BitVec.ofNat 32 o.committed) : Fail)]
        | none => []) ++
      (if x.1.isSome then [(sResidue, d5.reg (At.tile t 0x104))] else []) ++
      firstFail 0 o.bad ++ ((w.1.filter (fun e => e.st != 0)).take 1).map (fun e => (e.st, failDetail 1 e.off)) ++
      c.lineFail o.badOut ++
      (match o.flagged with
       | some i => [(sDoneFlagged, BitVec.ofNat 32 i)]
       | none => [])
    match worstOf fs with
    | some f => (⟨f.1, f.2, none, {}⟩, d5)
    | none => (⟨sDone, 0, none, {}⟩, d5)

end Sys2Proof.Machine
end

