-- ==== Sys2Proof/Machine/Streams.lean ====
section
/-!
DEFINITION. Sys2Proof/Machine/Streams.lean: the Drover's streams (R290 to R307): issue, begin, one line of a stream, completion
and cancel. Deadlines order nothing here: which stream moves next is the order in which the lines arrive (R300: timing only).
-/

namespace Sys2Proof.Machine

open Sys2Proof

/-! ## Issue (R291, R304) -/

/-- What R291 asks of the block list's descriptor. -/
def drvListOk (w : IssueView) : Bool :=
  w.a.db == 0 && w.a.dc == 0 && w.a.mod == 0 && w.a.greg == 0 && w.da.ok w.x.ctx.toNat false [nI32] &&
    decide (w.da.ndim = 1) && decide (w.da.space ≤ 2) && decide (w.da.base % 32 = 0)

/-- What R304 asks of DRV.CANCEL. -/
def drvCancelOk (w : IssueView) : Bool := w.a.da == 0 && w.a.db == 0 && w.a.dc == 0 && decide (w.m 7 12 = 0)

def execDrvGo (t : TileRef) (a : TensorArgs) (s : State) : Host.Outcome State Fault Refusal :=
  s.onDev fun d => d.issue t (encTensor 2 0x01 a) 2 0x01 a drvListOk noPost

def execDrvCancel (t : TileRef) (a : TensorArgs) (s : State) : Host.Outcome State Fault Refusal :=
  s.onDev fun d => d.issue t (encTensor 2 0x02 a) 2 0x02 a drvCancelOk noPost

def execDrvPut (t : TileRef) (a : TensorArgs) (s : State) : Host.Outcome State Fault Refusal :=
  s.onDev fun d => d.issue t (encTensor 2 0x03 a) 2 0x03 a drvListOk noPost

/-! ## Status (R297, R303) -/

/-- Rank of a stream's status (R303). -/
def streamRank (s : W8) : Nat :=
  match s.toNat with
  | 0x43 => 1
  | 0x71 => 2
  | 0x42 => 3
  | 0x70 => 4
  | 0x7F => 5
  | 0x13 => 6
  | 0x52 => 7
  | 0x51 => 8
  | _ => 9

/-- Whether a status of a data line lets the stream run on (R303). -/
def streamGoesOn (s : W8) : Bool := s = 0 || s = sEcc || s = sRetryExhausted

/-- Notes a status at the entry and row in progress: the highest-ranked stands (R303). -/
def Stream.note (x : Stream) (st : W8) : Stream :=
  if streamRank st < streamRank x.status then
    { x with status := st, detail := BitVec.ofNat 32 (min x.entry 0xFFFF * 65536 + x.row % 65536) }
  else x

/-- A status that stops the stream. -/
def Stream.stop (x : Stream) (st : W8) : Stream := { x.note st with stopped := true, done := true }

/-- Sets token and SREG of an instruction that has left its queue (R97, R303). -/
def Dev.finishArgs (d : Dev) (t : TileRef) (args : TensorArgs) (src st : W8) (detail : W32) : Dev :=
  d.onTile t fun x =>
    let r := if args.te then
        x.regs.wt args.token { state := .set, status := st, suppressed := false, origin := args.token, detail := detail, src := src }
      else x.regs
    x.setRegs (if args.se then r.ws args.sreg { kind := .int, val := statusWord st detail {} } else r)

/-- The end of a stream: token and SREG (R303), DRV_LAST, the replay trace (R382) and, where it is
detached, an event record (R297). -/
def Dev.endStream (v : Variant) (d : Dev) (t : TileRef) (args : TensorArgs) (put : Bool) (ctx : Nat) (tag : W16) (st : W8) (detail : W32) : Dev :=
  let d := d.finishArgs t args (BitVec.ofNat 8 (2 * 16 + (if put then 3 else 1))) st detail
  if st = 0 then d
  else
    let d := d.trace v t 2 (if put then 3 else 1) (d.tile t).pc st detail
    let d := d.setReg (At.tile t 0x524) (st ++ detail.extractLsb' 16 16 ++ tag.setWidth 8)
    if args.te then d
    else d.raise 0x0D { status := st.toNat, ctx := ctx, partition := t.sector.val, tile := t.tile.val, engine := 2,
                        unit := (unitNo 0x03 t.sector.val).toNat,
                        arg := toLE 2 tag.toNat ++ toLE 2 (detail.toNat / 65536) ++ toLE 2 detail.toNat }

/-! ## Slots and buffers (R302) -/

/-- First fit: the lowest place at which `size` bytes of the pool are free; `used` in rising order. -/
def firstFit (size : Nat) : Nat → List (Nat × Nat) → Option Nat
  | pos, [] => if pos + size ≤ sectBufSize then some pos else none
  | pos, (a, n) :: r => if pos + size ≤ a then some pos else firstFit size (max pos (a + n)) r

/-- Inserts a buffer in rising order. -/
def insertBuf (e : Nat × Nat) : List (Nat × Nat) → List (Nat × Nat)
  | [] => [e]
  | x :: r => if e.1 ≤ x.1 then e :: x :: r else x :: insertBuf e r

/-- Where a buffer of `size` bytes would go. -/
def Dev.placeBuffer (d : Dev) (n size : Nat) : Option Nat :=
  firstFit size (d.poolStart n) (((d.sector n).streams.map (fun x => (x.place, x.buffer))).foldl (fun l e => insertBuf e l) [])

/-! ## Block lists (R292 to R295) -/

/-- A block-list entry. -/
structure DrvEntry where
  sk : Nat
  sa : Nat
  dk : Nat
  da : Nat
  size : Nat
  cfmt : Nat
  table : Nat
  rows : Nat
  endMark : Bool
  mode : Nat
  deadline : Nat
  ss : Nat
  ds : Nat
  rsv : Bool
  deriving DecidableEq, Repr

def drvEntryOf (b : List W8) : DrvEntry :=
  let src := recNat b 0 8
  let dst := recNat b 8 8
  let len := recNat b 0x10 4
  let fl := recNat b 0x16 1
  { sk := src / 2 ^ 48 % 8, sa := src % 2 ^ 48, dk := dst / 2 ^ 48 % 8, da := dst % 2 ^ 48, size := len % 2 ^ 24,
    cfmt := len / 2 ^ 28 % 4, table := len / 2 ^ 24 % 16, rows := recNat b 0x14 2 + 1, endMark := fl / 4 % 2 == 1, mode := fl % 4,
    deadline := recNat b 0x17 1, ss := recNat b 0x18 4, ds := recNat b 0x1C 4,
    rsv := src / 2 ^ 51 != 0 || dst / 2 ^ 51 != 0 || len / 2 ^ 30 != 0 || fl / 8 != 0 }

/-- The coded format that CFMT names (R294). -/
def cfmtFmt (c : Nat) : Nat :=
  match c with
  | 0 => nE4
  | 1 => nCF4
  | 2 => nCB8E4
  | _ => nCB4

/-- Bytes of 256 plain elements of a coded format (R114, R122). -/
def plain256 (c : Nat) : Nat :=
  match c with
  | 0 => 256
  | 1 => 128
  | 2 => 288
  | _ => 160

/-- Coded blocks of a row of the entry. -/
def DrvEntry.nb (e : DrvEntry) : Nat := if e.mode = 1 then e.size / plain256 e.cfmt else e.size / 256

/-- Reserved size of a coded row of the entry (R171). -/
def DrvEntry.w (e : DrvEntry) : Nat := codedRowSize (cfmtFmt e.cfmt) e.nb

/-- The KINDs of R294 for a mode. -/
def kindsOk (mode sk dk : Nat) : Bool :=
  match mode with
  | 0 => decide (sk ≤ 3 ∧ dk ≤ 3)
  | 1 => decide (sk ≤ 2 ∧ dk ≤ 2)
  | 2 => decide (sk ≤ 1 ∧ dk = 2)
  | _ => decide (sk = 2 ∧ dk ≤ 1)

/-- Row sizes of R294. -/
def DrvEntry.sizeOk (e : DrvEntry) : Bool :=
  match e.mode with
  | 0 => decide (e.size % 64 = 0 ∧ 64 ≤ e.size)
  | 1 => decide (e.size % 64 = 0 ∧ e.size ≠ 0 ∧ e.size % plain256 e.cfmt = 0)
  | _ => decide (e.size ≠ 0 ∧ e.size % 256 = 0)

/-- Bytes that a row of the entry takes at its source, and at its destination. -/
def DrvEntry.srcSpan (e : DrvEntry) : Nat := if e.mode = 2 then e.w else e.size
def DrvEntry.dstSpan (e : DrvEntry) : Nat := if e.mode = 1 ∨ e.mode = 3 then e.w else e.size

/-- Whether a range stays inside tile memory, or below the pool (R295). -/
def rangeOk (pool kind a rows stride span : Nat) : Bool :=
  match kind with
  | 0 => decide (a + (rows - 1) * stride + span ≤ tileMemSize)
  | 1 => decide (a + (rows - 1) * stride + span ≤ pool)
  | 3 => decide (a < 32)
  | _ => true

/-- The checks of R295 on an entry; `prev` is the DEADLINE before it. -/
def DrvEntry.ok (e : DrvEntry) (put : Bool) (pool prev : Nat) : Bool :=
  !e.rsv && kindsOk e.mode e.sk e.dk && (if put then decide (e.dk = 2) else decide (e.dk ≠ 2)) && e.sizeOk &&
    decide (e.ss % 64 = 0 ∧ e.ds % 64 = 0) && decide (prev ≤ e.deadline) &&
    (decide (e.mode = 0 ∨ e.mode = 2) || decide (e.w ≤ e.ds)) && rangeOk pool e.sk e.sa e.rows e.ss e.srcSpan &&
    rangeOk pool e.dk e.da e.rows e.ds e.dstSpan

/-- The checks of R292 and R295 on a header. -/
def headerOk (b : List W8) (e0 pool : Nat) : Bool :=
  let entries := recNat b 0 4
  let buffer := recNat b 4 4
  decide (1 ≤ entries ∧ entries ≤ 65535) && decide (buffer % 4096 = 0 ∧ 4096 ≤ buffer ∧ buffer ≤ 0x100000) &&
    decide (buffer ≤ sectBufSize - pool) && decide (recNat b 0x0B 1 = 0 ∧ recNat b 0x0E 2 = 0 ∧ recNat b 0x18 8 = 0) &&
    decide (recNat b 0x10 8 % 8 = 0) && decide (e0 = 8 * (entries + 1))

/-- The stream with its next entry read and checked (R295), or done where every entry has been delivered. -/
def Dev.loadEntry (v : Variant) (d : Dev) (n : Nat) (x : Stream) : Stream × Dev :=
  if x.entries ≤ x.entry then ({ x with done := true }, d)
  else
    let prev := x.deadline
    let r := d.listBytes v (x.ref n) x.ctx x.list (32 + 32 * x.entry)
    if r.st ≠ 0 then (({ x with row := 0, off := 0 }).stop r.st, r.d)
    else
      let e := drvEntryOf r.data
      let y := { x with cur := r.data, row := 0, off := 0, packAt := BitVec.ofNat 64 e.da }
      if e.ok x.put (d.poolStart n) prev then (y, r.d) else (({ y with cur := x.cur }).stop sTableInvalid, r.d)

/-! ## Begin (R290, R302) -/

/-- Takes a stream instruction out of its queue. -/
def Dev.unqueue (d : Dev) (t : TileRef) (q : Queued) : Dev := (d.onTile t fun x => x.dequeue q).reachHead t

/-- The stream instruction at the head of a tile's Drover queue, once its WAIT is met there (R290, R96). -/
def Dev.drvReady (d : Dev) (t : TileRef) : Option Queued :=
  match (d.tile t).head 2 with
  | none => none
  | some q => if q.waited then some q else none

/-- STREAM_BEGIN (R290, R295, R302): of the sector's heads that are ready the one that reached its queue head first begins, once a slot and its whole buffer are
free; it leaves its queue. A header that cannot be read or fails its checks completes it, and nothing moves. -/
def Dev.beginStream (v : Variant) (d : Dev) (t : TileRef) : Dev :=
  let n := t.sector.val
  match d.drvReady t with
  | none => d
  | some q =>
    if (List.range 16).any (fun k => (d.drvReady (tileOf (16 * n + k))).any (fun y => decide (y.reached.getD 0 < q.reached.getD 0))) then d
    else
      let put := decide (q.opcode = 3)
      let h := d.listBytes v t q.ctx q.da 0
      let tag : W16 := BitVec.ofNat 16 (recNat h.data 0x0C 2)
      if h.st ≠ 0 then (h.d.unqueue t q).endStream v t q.args put q.ctx 0 h.st 0
      else if !headerOk h.data (descOf q.da).e0 (d.poolStart n) then
        (h.d.unqueue t q).endStream v t q.args put q.ctx tag sTableInvalid 0
      else if 64 ≤ (d.sector n).streams.length then d
      else
        match d.placeBuffer n (recNat h.data 4 4) with
        | none => d
        | some place =>
          let d := h.d.unqueue t q
          let x : Stream :=
            { id := (d.sector n).nextStream, tile := t.tile, put := put, ctx := q.ctx, list := q.da, args := q.args,
              entries := recNat h.data 0 4, buffer := recNat h.data 4 4, rate := recNat h.data 8 2,
              priority := recNat h.data 0x0A 1, tag := tag, starts := BitVec.ofNat 64 (recNat h.data 0x10 8), place := place,
              startTick := d.tick.number, step := d.stepOf n }
          let r := d.loadEntry v n x
          r.2.onSector n fun s => { s with streams := s.streams ++ [r.1], nextStream := s.nextStream + 1 }

def execStreamBegin (t : TileRef) (s : State) : Host.Outcome State Fault Refusal :=
  s.onDev fun d => (d.beginStream s.fuse.variant t).settled s.fuse.variant t

/-! ## Troughs as ends of a stream (R308, R311, R317) -/

def Trough.full (x : Trough) : Bool := decide (64 ≤ x.fill.length)

/-- When a streaming trough swaps on its own (R311). -/
def Trough.canSwap (x : Trough) : Bool :=
  x.producer != 0xFF && !x.ticked && x.drain.isEmpty && (x.full || x.fill.getLast?.any (·.endMark))

/-- Writes a word into the fill bank; a swap that is due comes first (R311). -/
def Trough.push (x : Trough) (w : TWord) : Trough :=
  let x := if x.canSwap then x.swap else x
  { x with fill := x.fill ++ [w] }

/-- Takes the oldest unread word of the drain bank: LAST is that word (R308, R314). -/
def Trough.pop (x : Trough) : Option (TWord × Trough) :=
  match x.drain with
  | [] => none
  | w :: r => some (w, { x with drain := r, last := w.data })

/-- What a stream's line brings to its destination: where an operand has written into the stream's buffer, values that the manual
does not define (R302, log 1). -/
def Stream.delivers (x : Stream) (a : Acc) : Acc :=
  if x.spoiled ∧ a.st = 0 then let r := a.d.drawBytes a.data.length; ⟨0, r.1, r.2⟩ else a

/-! ## One line (R294, R298, R300, R303) -/

/-- A word of 64 bytes as a number, little-endian (R8). -/
def wordOfBytes (b : List W8) : BitVec 512 := BitVec.ofNat 512 (leNat b)

/-- A poisoned trough word: its value is stated nowhere (log 1). -/
def Dev.badWord (d : Dev) (endMark : Bool) : TWord × Dev :=
  let r := d.drawBytes 64
  (⟨wordOfBytes r.1, endMark, true⟩, r.2)

/-- Reads bytes of a KIND of R293. -/
def Dev.kindRead (v : Variant) (t : TileRef) (ctx kind : Nat) (d : Dev) (a len : Nat) : Acc := d.spaceRead v t (.drover t.sector.val) ctx kind a len

/-- The higher-ranked of two statuses (R303). -/
def worseStatus (a b : W8) : W8 := if streamRank b < streamRank a then b else a

/-- Writes bytes line by line: a line that fails with a status under which a stream runs on is left as it was and the next ones
are written; any other failure ends the write (R303). The status is the highest-ranked one. -/
def writeLines (wr : Dev → Nat → List W8 → Acc) : List (Nat × Nat) → List W8 → Dev → Acc
  | [], _, d => ⟨0, [], d⟩
  | (a, n) :: r, bytes, d =>
    let x := wr d a (bytes.take n)
    if !streamGoesOn x.st then ⟨x.st, [], x.d⟩
    else
      let y := writeLines wr r (bytes.drop n) x.d
      ⟨worseStatus x.st y.st, [], y.d⟩

/-- Writes bytes to a KIND 0, 1 or 2 (R293), line by line; lines of the reduction aperture carry `step` (R370). -/
def Dev.kindWrite (v : Variant) (t : TileRef) (ctx kind : Nat) (step : W64) (d : Dev) (a : Nat) (bytes : List W8) : Acc :=
  match kind with
  | 0 => writeLines (fun x b bs => x.tileWrite t b bs) (pieces a bytes.length) bytes d
  | 1 => writeLines (fun x b bs => x.bufWrite t.sector.val b bs) (pieces a bytes.length) bytes d
  | _ => writeLines (fun x b bs => x.virtWrite v (.drover t.sector.val) ctx step b bs) (pieces a bytes.length) bytes d

/-- Poisons one line of a destination (R303): an aperture line is not written. -/
def Dev.kindPoisonLine (v : Variant) (t : TileRef) (ctx kind : Nat) (d : Dev) (a : Nat) : Acc :=
  match kind with
  | 0 => ⟨0, [], d.tilePoison t (a / 64)⟩
  | 1 => ⟨0, [], d.bufPoison t.sector.val (a / 64)⟩
  | _ =>
    let ev := d.evalMember t.sector.val
    let r := d.translate v (.drover t.sector.val) ctx a true ev
    if r.1 ≠ 0 then ⟨r.1, [], r.2.2⟩
    else
      match regionOf r.2.1 with
      | .quire n off =>
        if v.sectors ≤ n ∨ v.stackGiB * 2 ^ 30 ≤ off then ⟨sTranslation, [], r.2.2⟩
        else if (r.2.2.hub n).fenced then ⟨sFenced, [], r.2.2⟩
        else if (r.2.2.hub n).lost (off / 64) then ⟨sRetryExhausted, [], r.2.2⟩
        else ⟨0, [], r.2.2.virtPoison v ctx a ev⟩
      | .scratch n off =>
        if v.sectors ≤ n ∨ (r.2.2.hub n).scratchWays * 0x200000 ≤ off then ⟨sTranslation, [], r.2.2⟩
        else if (r.2.2.hub n).fenced then ⟨sFenced, [], r.2.2⟩
        else ⟨0, [], r.2.2.onHub n fun h => { h with scratchBad := h.scratchBad.add (off / 64) }⟩
      | _ => ⟨0, [], r.2.2⟩

/-- Poisons every line that a range touches; the first status that is not DONE. -/
def Dev.kindPoison (v : Variant) (t : TileRef) (ctx kind : Nat) (d : Dev) (a len : Nat) : Acc :=
  (pieces a len).foldl (fun r p =>
    let x := r.d.kindPoisonLine v t ctx kind p.1
    ⟨if r.st = 0 then x.st else r.st, [], x.d⟩) ⟨0, [], d⟩

/-- The row in progress moves on; after the last row the next entry is read (R293, R295). -/
def Dev.nextRow (v : Variant) (d : Dev) (n : Nat) (x : Stream) : Stream × Dev :=
  if x.row + 1 < (drvEntryOf x.cur).rows then ({ x with row := x.row + 1, off := 0 }, d)
  else d.loadEntry v n { x with entry := x.entry + 1 }

/-- Notes the statuses of a read and of a write that follows it, and moves on unless one of them stops the stream (R303). -/
def Dev.moveOn (v : Variant) (d : Dev) (n : Nat) (x : Stream) (rd wr : W8) (on_ : Stream → Stream × Bool) : Stream × Dev :=
  let y := { (x.note rd).note wr with waited := false, moved := x.moved + 1 }
  if !streamGoesOn rd || !streamGoesOn wr then (y.stop (if streamGoesOn rd then wr else rd), d)
  else
    let r := on_ y
    if r.2 then d.nextRow v n r.1 else (r.1, d)

/-- Whether the end of a trough that a stream uses is the Drover (R317). -/
def Trough.drover (x : Trough) (asProducer : Bool) : Bool :=
  x.producer != 0xFF && (if asProducer then x.producer == 0x10 else x.consumer == 0x10)

/-- What a COPY line waits for: an empty trough at its source, a full one at its destination (R300). -/
def Dev.copyBlocked (d : Dev) (n : Nat) (e : DrvEntry) : Bool :=
  (decide (e.sk = 3) && (d.trough n e.sa).drain.isEmpty) || (decide (e.dk = 3) && (d.trough n e.da).full)

/-- One line of a COPY entry (R294, R300, R303). -/
def Dev.copyLine (v : Variant) (d : Dev) (n : Nat) (x : Stream) : Stream × Dev :=
  let e := drvEntryOf x.cur
  let t := x.ref n
  let on_ := fun (y : Stream) => ({ y with off := y.off + 64 }, decide (e.size ≤ y.off + 64))
  let last := e.endMark && decide (e.size ≤ x.off + 64)
  if (e.sk = 3 ∧ !(d.trough n e.sa).drover false) ∨ (e.dk = 3 ∧ !(d.trough n e.da).drover true) then (x.stop sTranslation, d)
  else if d.copyBlocked n e then (x, d)
  else
    let src : Acc :=
      if e.sk = 3 then
        match (d.trough n e.sa).pop with
        | none => ⟨0, [], d⟩
        | some r => x.delivers ⟨if r.1.bad then sEcc else 0, toLE 64 r.1.data.toNat, d.onTrough n e.sa fun _ => r.2⟩
      else x.delivers (d.kindRead v t x.ctx e.sk (e.sa + x.row * e.ss + x.off) 64)
    let b := e.da + x.row * e.ds + x.off
    if !streamGoesOn src.st then src.d.moveOn v n x src.st 0 on_
    else if e.dk = 3 then
      let w : TWord × Dev := if src.st = 0 then (⟨wordOfBytes src.data, last, false⟩, src.d) else src.d.badWord last
      (w.2.onTrough n e.da (·.push w.1)).moveOn v n x src.st 0 on_
    else
      let r := if src.st = 0 then src.d.kindWrite v t x.ctx e.dk x.step b src.data else src.d.kindPoison v t x.ctx e.dk b 64
      r.d.moveOn v n x src.st r.st on_

/-- The elements of a plain row as a coded row (R184, R307). -/
def encodeRow (e : DrvEntry) (fallback : Bool) (bytes : List W8) : List W8 :=
  let fmt := cfmtFmt e.cfmt
  let p := plain256 e.cfmt
  codedRow e.nb (fun _ => 0) ((List.range e.nb).map (fun j =>
    let part := (bytes.drop (j * p)).take p
    if isBlockFmt fmt then
      let bs := (List.range 8).map (fun i => readBlock fmt ((part.drop (i * (p / 8))).take (p / 8)))
      (codeBlock fmt e.table fallback (bs.flatMap (·.codes)) bs).1
    else (codeBlock fmt e.table fallback ((List.range 256).map (packedCode (if fmt = nCF4 then nCF4 else nE4) part)) []).1))

/-- A row of an ENCODE entry (R303, R307). -/
def Dev.encodeLine (v : Variant) (d : Dev) (n : Nat) (x : Stream) : Stream × Dev :=
  let e := drvEntryOf x.cur
  let t := x.ref n
  let on_ := fun (y : Stream) => (y, true)
  let b := e.da + x.row * e.ds
  let src := x.delivers (d.kindRead v t x.ctx e.sk (e.sa + x.row * e.ss) e.size)
  if !streamGoesOn src.st then src.d.moveOn v n x src.st 0 on_
  else
    let r := if src.st = 0 then src.d.kindWrite v t x.ctx e.dk x.step b (encodeRow e (src.d.bit (At.tile t 0x200) 0) src.data)
      else src.d.kindPoison v t x.ctx e.dk b e.w
    r.d.moveOn v n x src.st r.st on_

/-- A row of a PACK entry (R303, R306): its written length from the last index entry, its lines to the packing pointer, and its
word in the start table. -/
def Dev.packLine (v : Variant) (d : Dev) (n : Nat) (x : Stream) : Stream × Dev :=
  let e := drvEntryOf x.cur
  let t := x.ref n
  let a := e.sa + x.row * e.ss
  let idx := d.kindRead v t x.ctx e.sk (a + 4 * (indexEntries e.nb - 1)) 4
  let units := ((if idx.st = 0 then leNat idx.data else e.w) + 63) / 64
  let on_ := fun (y : Stream) => ({ y with packed := y.packed + 1, packAt := y.packAt + BitVec.ofNat 64 (64 * units) }, true)
  if 65535 < units then (x.stop sTableInvalid, idx.d)
  else
    let src : Acc := if idx.st = 0 then x.delivers (idx.d.kindRead v t x.ctx e.sk a (64 * units)) else idx
    if !streamGoesOn src.st then src.d.moveOn v n x src.st 0 on_
    else
      let r := if src.st = 0 then src.d.kindWrite v t x.ctx 2 x.step x.packAt.toNat src.data
        else src.d.kindPoison v t x.ctx 2 x.packAt.toNat (64 * units)
      if !streamGoesOn r.st then r.d.moveOn v n (x.note src.st) r.st 0 on_
      else
        let w := r.d.kindWrite v t x.ctx 2 x.step (x.starts.toNat + 8 * x.packed)
          (toLE 8 (x.packAt.toNat % 2 ^ 48 + units * 2 ^ 48))
        w.d.moveOn v n ((x.note src.st).note r.st) w.st 0 on_

/-- A row of an UNPACK entry (R303, R306); a row whose length takes it out of the range that R295 checks stops the stream as a list that
fails R295. DEDUCED (log 30). -/
def Dev.unpackLine (v : Variant) (d : Dev) (n : Nat) (x : Stream) : Stream × Dev :=
  let e := drvEntryOf x.cur
  let t := x.ref n
  let b := e.da + x.row * e.ds
  let on_ := fun (y : Stream) => ({ y with packed := y.packed + 1 }, true)
  let w := d.kindRead v t x.ctx 2 (x.starts.toNat + 8 * x.packed) 8
  let units := leNat (w.data.drop 6)
  if !streamGoesOn w.st then w.d.moveOn v n x w.st 0 on_
  else if w.st = 0 ∧ !rangeOk (w.d.poolStart n) e.dk b 1 0 (64 * units) then (x.stop sTableInvalid, w.d)
  else
    let src : Acc := if w.st = 0 then x.delivers (w.d.kindRead v t x.ctx 2 (leNat (w.data.take 6)) (64 * units)) else w
    if !streamGoesOn src.st then src.d.moveOn v n x src.st 0 on_
    else
      let r := if src.st = 0 then src.d.kindWrite v t x.ctx e.dk x.step b src.data else src.d.kindPoison v t x.ctx e.dk b e.w
      r.d.moveOn v n x src.st r.st on_

/-- Whether the regulators let a stream's next line through (R281, R300). -/
def Dev.streamMayPass (v : Variant) (d : Dev) (n : Nat) (x : Stream) : Bool :=
  let e := drvEntryOf x.cur
  let ok := fun (write : Bool) (va : Nat) =>
    let r := d.translate v (.drover n) x.ctx va write (d.evalMember n)
    decide (r.1 ≠ 0) || d.mayPass v n false write r.2.1
  (decide (e.sk ≠ 2) || ok false (if e.mode = 3 then x.starts.toNat + 8 * x.packed else e.sa + x.row * e.ss + x.off)) &&
    (decide (e.dk ≠ 2) || ok true (if e.mode = 2 then x.packAt.toNat else e.da + x.row * e.ds + x.off))

/-- Whether the next line of a stream may be requested (R298, R300). -/
def Dev.eligible (v : Variant) (d : Dev) (n : Nat) (x : Stream) : Bool :=
  !x.done && (x.put || decide (x.startTick.toNat + x.deadline ≤ d.tick.number.toNat + 2)) && d.streamMayPass v n x

/-- The next line of a stream, or the next row of a coded entry. -/
def Dev.streamStep (v : Variant) (d : Dev) (n : Nat) (x : Stream) : Stream × Dev :=
  match (drvEntryOf x.cur).mode with
  | 0 => d.copyLine v n x
  | 1 => d.encodeLine v n x
  | 2 => d.packLine v n x
  | _ => d.unpackLine v n x

def Dev.stream (d : Dev) (n id : Nat) : Option Stream := (d.sector n).streams.find? (fun x => x.id == id)

def Dev.setStream (d : Dev) (n : Nat) (x : Stream) : Dev :=
  d.onSector n fun s => { s with streams := s.streams.map (fun y => if y.id = x.id then x else y) }

/-- STREAM_LINE_RESPONSE (R298, R300, R303): the next line of an eligible stream arrives and is written to its destination; the cycles
that a line for tile memory waited on the tile's port are counted, and what it makes due releases holds (R296). -/
def Dev.streamLine (v : Variant) (d : Dev) (n id waits : Nat) : Dev :=
  match d.stream n id with
  | none => d
  | some x =>
    if !d.eligible v n x then d
    else
      let port := if (drvEntryOf x.cur).dk = 0 then waits else 0
      let r := d.streamStep v n x
      ((r.2.setStream n r.1).count (At.tile (x.ref n) 0x520) 0 32 port).tryStarts v n

def execStreamLineResponse (n : Fin 12) (line : LineReport) (s : State) : Host.Outcome State Fault Refusal :=
  s.onDev fun d => d.streamLine s.fuse.variant n.val line.id line.waits

/-- STREAM_COMPLETE (R303): with every entry delivered, or stopped, the stream frees its buffer and slot, releases its holds and
reports its highest-ranked status. -/
def Dev.streamComplete (v : Variant) (d : Dev) (n id : Nat) : Dev :=
  match d.stream n id with
  | none => d
  | some x =>
    if !x.done then d
    else
      let d := d.onSector n fun s => { s with streams := s.streams.filter (fun y => y.id != id) }
      (d.endStream v (x.ref n) x.args x.put x.ctx x.tag x.status x.detail).tryStarts v n

def execStreamComplete (n : Fin 12) (id : Nat) (s : State) : Host.Outcome State Fault Refusal :=
  s.onDev fun d => d.streamComplete s.fuse.variant n.val id

/-! ## Cancel (R304, R305) -/

/-- Whether a virtual address is one of plain memory: the Quire or the scratch (R267). -/
def Dev.plainDest (v : Variant) (d : Dev) (n ctx va : Nat) : Bool :=
  match regionOf (d.translate v (.drover n) ctx va true (d.evalMember n)).2.1 with
  | .quire _ _ => true
  | .scratch _ _ => true
  | _ => false

/-- Bytes of a destination of a stream become values that the manual does not define; a trough and the reduction aperture keep what
they have. -/
def Dev.mixBytes (v : Variant) (n : Nat) (x : Stream) (kind a len : Nat) (d : Dev) : Dev :=
  (pieces a len).foldl (fun d p =>
    if kind = 3 ∨ (kind = 2 ∧ !d.plainDest v n x.ctx p.1) then d
    else
      let g := d.drawBytes p.2
      (g.2.kindWrite v (x.ref n) x.ctx kind x.step p.1 g.1).d) d

/-- The written length of a row that a PACK entry copies, in bytes (R306). -/
def Dev.packedLen (v : Variant) (d : Dev) (t : TileRef) (ctx : Nat) (e : DrvEntry) (row : Nat) : Nat :=
  let idx := d.kindRead v t ctx e.sk (e.sa + row * e.ss + 4 * (indexEntries e.nb - 1)) 4
  64 * (((if idx.st = 0 then leNat idx.data else e.w) + 63) / 64)

/-- The destination of the entry in progress when a stream is cancelled: lines old or new, which is not defined (R304): free values
(log 1), over every row of the entry; of a PACK entry, what it packs from DST on and its words in the start table. -/
def Dev.mixEntry (v : Variant) (d : Dev) (n : Nat) (x : Stream) : Dev :=
  let e := drvEntryOf x.cur
  if x.done ∨ x.entries ≤ x.entry then d
  else if e.mode = 2 then
    let total := ((List.range e.rows).map (d.packedLen v (x.ref n) x.ctx e)).sum
    Dev.mixBytes v n x 2 (x.starts.toNat + 8 * (x.packed - x.row)) (8 * e.rows) (Dev.mixBytes v n x 2 e.da total d)
  else (List.range e.rows).foldl (fun d k => Dev.mixBytes v n x e.dk (e.da + k * e.ds) e.dstSpan d) d

/-- Cancels a stream with a status (R304, R321). -/
def Dev.cancelStream (v : Variant) (d : Dev) (n : Nat) (st : W8) (x : Stream) : Dev :=
  (d.mixEntry v n x).setStream n { x.stop st with cancelled := true }

/-- Cancels every stream of a tile, as DRV.CANCEL with ALL does (R305). -/
def Dev.cancelAll (v : Variant) (d : Dev) (t : TileRef) : Dev :=
  ((d.sector t.sector.val).streams.filter (fun x => decide (x.tile = t.tile))).foldl
    (fun d x => d.cancelStream v t.sector.val sCancelled x) d

/-- DRV.CANCEL begins (R304): its targets are cancelled; how many they are is kept for its completion. -/
def Dev.beginCancel (v : Variant) (d : Dev) (t : TileRef) (q : Queued) : Dev :=
  let n := t.sector.val
  let hit := fun (x : Stream) => decide (x.tile = t.tile) &&
    (modOf q.args 6 1 == 1 || (x.args.te && decide (x.args.token.toNat = modOf q.args 0 6)))
  let xs := (d.sector n).streams.filter hit
  let d := xs.foldl (fun d x => d.cancelStream v n sCancelled { x with target := true }) d
  d.requeue t q { q with running := true, moved := xs.length }

/-- DRV_CANCEL_COMPLETE (R304): once the last of its targets has freed its buffer; DONE where it found one, else DONE_EMPTY. -/
def Dev.cancelComplete (d : Dev) (t : TileRef) : Dev :=
  match (d.tile t).active 2 with
  | none => d
  | some q =>
    if q.opcode ≠ 2 ∨ (d.sector t.sector.val).streams.any (fun x => decide (x.tile = t.tile) && x.target) then d
    else d.finish t q { st := if q.moved = 0 then sDoneEmpty else sDone }

def execDrvCancelComplete (t : TileRef) (s : State) : Host.Outcome State Fault Refusal :=
  s.onDev fun d => (d.cancelComplete t).settled s.fuse.variant t

/-! ## Lateness (R296) -/

/-- How many entries of a stream from the one in progress on have a DEADLINE, read without effect: DEADLINEs rise (R295). -/
def Dev.lateEntries (v : Variant) (d : Dev) (n : Nat) (x : Stream) (dl : Nat) : Nat → Nat → Nat
  | 0, _ => 0
  | fuel + 1, i =>
    let b := if i = x.entry then x.cur else (d.listBytes v (x.ref n) x.ctx x.list (32 + 32 * i)).data
    let e := (b.getD 0x17 0).toNat
    if b.length < 32 ∨ dl < e then 0
    else nat01 (decide (e = dl)) + d.lateEntries v n x dl fuel (i + 1)

/-- Entries that fall due now and are undelivered count in DRV_LATE: at the edge of tick `now` those with S + d = now, d ≥ 1; at
its guard start those with d = 0 (R296). -/
def Dev.countLateEntries (v : Variant) (d : Dev) (n now : Nat) (guard : Bool) : Dev :=
  d.count (At.sector n 0x508) 0 32 (((d.sector n).streams.map (fun x =>
    let dl := now - x.startTick.toNat
    if x.done ∨ now < x.startTick.toNat ∨ (guard ∧ dl ≠ 0) ∨ (!guard ∧ dl = 0) then 0
    else d.lateEntries v n x dl (x.entries - x.entry) x.entry)).sum)

end Sys2Proof.Machine
end

