-- ==== Sys2Proof/Machine/Open.lean ====
section
/-!
DEFINITION. Sys2Proof/Machine/Open.lean: the bytes that an instruction reads and writes, and the values that the manual leaves
undefined where instructions overlap (R140, R141, R229, R302, R445).
-/

namespace Sys2Proof.Machine

open Sys2Proof

/-! ## What an instruction reads and writes -/

/-- The accumulator rows of an MMA: N elements of each (R144). -/
def Queued.accRows (q : Queued) (x : Tile) : List Span :=
  let n := ((x.buffer (q.mod 10 1)).map (·.n)).getD 0
  (List.range q.da'.rows).map fun m => ⟨3, q.mod 0 2, 256 * (q.mod 2 8 + m), 4 * n⟩

/-- Every byte of an operand; rows that a stride of 0 repeats are named once. -/
def Desc.whole (d : Desc) : List Span :=
  let f := { d with e1 := if d.s1 = 0 then 1 else d.e1, e2 := if d.s2 = 0 then 1 else d.e2, e3 := if d.s3 = 0 then 1 else d.e3,
                    e4 := if d.s4 = 0 then 1 else d.e4 }
  f.spans f.total

/-- The elements that a vector instruction processes (R150). -/
def Queued.vecN (q : Queued) : Nat := min (vecCount q) (min 4096 (vecTotal q))

/-- A vector instruction's sources but the one that VGATHER reads by index: each operand with how many of its elements are read. -/
def Queued.vecSources (q : Queued) : List (Desc × Nat) :=
  let n := q.vecN
  let form := vecForm q.opcode
  (if q.opcode = 0x39 then [] else [(q.da', n)]) ++
    (if form = .binary ∨ (form = .acc ∧ q.mod 16 1 = 1) then [(q.db', n)] else []) ++
    (if q.opcode = 0x04 ∨ (q.opcode = 0x0A ∧ (isBlockFmt q.dc'.fmt ∨ q.dc'.coded)) then [(q.dc', n)] else [])

/-- The bytes that a VGATHER may read of DA (R156). -/
def Queued.gathered (q : Queued) : List Span := if q.opcode = 0x39 ∧ q.vecN ≠ 0 then q.da'.whole else []

/-- The convolution that an instruction of engine 4 or 5 is. -/
def Queued.conv (q : Queued) : Conv := convOf q.engine q.opcode q.args q.da' q.db' q.dc' q.gval

/-- The bytes that a convolution reads: the input lines that its outputs touch, the weights, and with ACC its destination; none where
it is empty (R233, R235). -/
def Queued.convSources (q : Queued) : List Span :=
  let c := q.conv
  if c.empty then []
  else
    c.inputs.map (fun l => let r := c.lineRange l.1 l.2.1 l.2.2.1 l.2.2.2; ⟨c.da.space, 0, r.1, r.2⟩) ++ q.db'.whole ++
      (if c.acc then q.dc'.whole else [])

/-- The bytes of its operands that an instruction reads. -/
def Queued.sources (q : Queued) (x : Tile) : List Span :=
  match q.engine with
  | 0 =>
    if q.opcode = 2 then []
    else q.da'.spans q.da'.total ++ (if q.opcode ≠ 1 ∧ q.mod 13 1 = 0 then q.accRows x else [])
  | 1 => q.gathered ++ q.vecSources.flatMap fun e => e.1.spans e.2
  | 2 => []
  | 7 => []
  | 8 => []
  | 4 | 5 => q.convSources
  | _ => (if q.da = 0 then [] else q.da'.whole) ++ (if q.db = 0 then [] else q.db'.whole)

/-- The bytes of its destination that an instruction writes. -/
def Queued.writes (q : Queued) (x : Tile) : List Span :=
  match q.engine with
  | 0 =>
    if q.opcode = 1 then []
    else if q.opcode = 2 then [⟨3, q.mod 0 2, 256 * q.mod 2 8, 256 * (q.mod 10 8 + 1)⟩]
    else q.accRows x
  | 1 =>
    if vecForm q.opcode = .reduce then []
    else q.dc'.spans q.vecN ++ (if q.opcode = 0x50 ∧ q.mod 15 1 = 1 then q.da'.spans q.vecN else [])
  | 2 => []
  | 7 => []
  | 8 => []
  | 4 | 5 => if q.conv.empty then [] else q.dc'.whole
  | _ => if q.dc = 0 ∨ (q.engine = 3 ∧ q.opcode = 3) then [] else q.dc'.whole

/-- What an instruction of engine 3 writes beside its destination: the accumulators, staging and the pairs of a partial result
(R196, R197, R211, R216). -/
def Queued.attnSpans (q : Queued) : List Span :=
  let cb := q.begun.drop 18
  let ready := q.begun.headD 1 == 0 && q.begun.getD 17 1 == 0
  let stage := fun (a n : Nat) => if ready && decide (a + n ≤ tileMemSize) then [(⟨0, 0, a, n⟩ : Span)] else []
  match q.opcode with
  | 1 =>
    let c := attnCtlOf cb
    [⟨3, 2 * q.mod 0 1, 0, 65536⟩, ⟨3, 2 * q.mod 0 1 + 1, 0, 65536⟩] ++ stage c.stage c.stageBytes ++
      (if c.partial_ then [⟨q.dc'.space, 0, c.stats, 8 * q.dc'.rows⟩] else [])
  | 2 => if q.mod 0 1 = 1 then [⟨0, 0, q.gval.toNat, 8 * q.da'.e1⟩] else []
  | 3 => stage (recNat cb 4 4) (recNat cb 8 4)
  | _ => []

/-! ## Undefined results -/

/-- Whether rows of two operands that are coded or hold blocks, and start with the same element at the same address, have every element
in the same place. -/
def Desc.alike (c s : Desc) : Bool :=
  c.coded == s.coded && codedPmax c.fmt == codedPmax s.fmt && blockBytes c.fmt == blockBytes s.fmt && fmtBits c.fmt == fmtBits s.fmt &&
    (!c.coded || c.e0 == s.e0)

/-- Whether an operand's elements stand alone, each in bits of its own. -/
def Desc.loose (d : Desc) : Bool := !d.coded && !isBlockFmt d.fmt && !isMxFmt d.fmt

/-- Whether element `i` of a row from bit `a` on, its elements `w` bits wide and the first of them numbered `p`, overlaps an element of
another number in a row of `k` elements from bit `b` on, `v` bits wide and numbered from `q`. -/
def elemCrosses (a w p i b v q k : Nat) : Bool :=
  let lo := a + i * w
  let hi := lo + w
  let first := if lo ≤ b then 0 else (lo - b) / v
  let last := min (k - 1) ((hi - 1 - b) / v)
  decide (b < hi) && decide (first < k) && decide (first ≤ last) && !(first == last && q + first == p + i)

/-- Whether `n` elements of destination `c` overlap `k` elements of source `s` anywhere but element on the same element (R141): of rows
of single elements element by element, of others row by row. -/
def Desc.crosses (c : Desc) (n : Nat) (s : Desc) (k : Nat) : Bool :=
  (c.spans n).zipIdx.any fun a => (s.spans k).zipIdx.any fun b =>
    (a.1.inter b.1).isSome &&
      (if c.loose && s.loose then
        let wc := fmtBits c.fmt
        let ws := fmtBits s.fmt
        (List.range (min c.e0 (n - a.2 * c.e0))).any fun i =>
          elemCrosses (8 * a.1.addr) wc (a.2 * c.e0) i (8 * b.1.addr) ws (b.2 * s.e0) (min s.e0 (k - b.2 * s.e0))
      else !(c.alike s && decide (a.1.addr = b.1.addr ∧ a.2 * c.e0 = b.2 * s.e0)))

/-- A vector instruction whose results R141 leaves undefined; what a VGATHER reads by index is read for other elements. -/
def Queued.crossed (q : Queued) : Bool :=
  decide (q.engine = 1 ∧ vecForm q.opcode ≠ .reduce) &&
    (meets (q.dc'.spans q.vecN) q.gathered || q.vecSources.any fun e => q.dc'.crosses q.vecN e.1 e.2)

/-- Whether two convolutions of different tiles write the same byte, or one writes a byte that the other reads (R229). -/
def Queued.clashes (q y : Queued) (x z : Tile) : Bool :=
  let same := fun (a b : List Span) => meets (a.filter (fun s => s.space = 1 ∨ q.ctx = y.ctx)) b
  same (q.writes x) (y.writes z) || same (q.writes x) (y.sources z) || same (q.sources x) (y.writes z)

/-- The tiles of a sector but one. -/
def othersOf (t : TileRef) : List TileRef :=
  (List.range 16).filterMap fun k => if k = t.tile.val then none else some (tileOf (16 * t.sector.val + k))

/-- Whether an instruction of another tile, issued and not completed, makes the results of a convolution undefined (R229). -/
def Dev.convRival (d : Dev) (t : TileRef) (q : Queued) : Bool :=
  (othersOf t).any fun u => (d.tile u).queued.any fun y =>
    decide (y.engine = 4 ∨ y.engine = 5) && q.clashes y (d.tile t) (d.tile u)

/-- The instruction of the other engine that runs beside one of the matrix or vector engine. -/
def Tile.rival (x : Tile) (q : Queued) : Option Queued :=
  match q.engine with
  | 0 => x.active 1
  | 1 => x.active 0
  | _ => none

/-- The bytes of its operands that give an instruction values which are not defined: those that an unfinished instruction of the
other engine writes (R140), those of the Drover pool (R302), and its own results where R141 leaves them undefined. -/
def Dev.veiled (d : Dev) (t : TileRef) (q : Queued) : List Span :=
  let x := d.tile t
  let n := t.sector.val
  let ws := [(⟨1, 0, d.poolStart n, sectBufSize - d.poolStart n⟩ : Span)] ++ q.veils ++ ((x.rival q).map (·.writes x)).getD [] ++
    (if q.crossed then q.writes x else [])
  (q.sources x).flatMap fun s => ws.filterMap s.inter

/-- Gives the bytes of spans back the values they have in `d`, but for those that an instruction wrote. -/
def Dev.restore (e d : Dev) (t : TileRef) (hs ws : List Span) : Dev :=
  hs.foldl (fun y h =>
    let as := (List.range h.len).filter fun i => !meets [⟨h.space, h.bank, h.addr + i, 1⟩] ws
    as.foldl (fun y i =>
      let a := h.addr + i
      match h.space with
      | 0 => { y with tileMem := Tab.put 0 y.tileMem (t.ix * tileMemSize + a) (d.tileByte t a) }
      | 1 => { y with sectBuf := Tab.put 0 y.sectBuf (t.sector.val * sectBufSize + a) (Mem.byte d.sectBuf (t.sector.val * sectBufSize + a)) }
      | 3 => { y with acc := Tab.put 0 y.acc (accAddr t h.bank a) (Mem.byte d.acc (accAddr t h.bank a)) }
      | _ => y) y) e

/-- The bytes of a span become values that the manual leaves open, in virtual memory too. -/
def Dev.blurAny (v : Variant) (d : Dev) (t : TileRef) (q : Queued) (s : Span) : Dev :=
  if s.space = 2 then
    let r := d.drawBytes s.len
    (r.2.virtWrites v (if q.engine = 3 then .walker t.sector.val else .engine t.sector.val) q.ctx q.step s.addr r.1).d
  else d.blur t s

/-- The results of an instruction become values that the manual leaves open. -/
def Dev.blurResults (v : Variant) (d : Dev) (t : TileRef) (q : Queued) : Dev :=
  (q.writes (d.tile t)).foldl (fun d s => d.blurAny v t q s) d

/-- What an instruction's completion means for others: the running instruction of the other engine has read bytes that this one was
writing (R140), a stream whose buffer it wrote into is corrupt (R302), and a convolution that it clashed with gives undefined
results (R229). -/
def Dev.markOthers (d : Dev) (t : TileRef) (q : Queued) : Dev :=
  let x := d.tile t
  let ws := q.writes x
  let d := match x.rival q with
    | none => d
    | some y => if ws.isEmpty then d else d.requeue t y { y with veils := y.veils ++ ws }
  let hit := fun (z : Stream) => !z.done && meets [⟨1, 0, z.place, z.buffer⟩] ws
  let d := if (d.sector t.sector.val).streams.any hit then
      d.onSector t.sector.val fun s => { s with streams := s.streams.map fun z => if hit z then { z with spoiled := true } else z }
    else d
  if q.engine = 4 ∨ q.engine = 5 then
    (othersOf t).foldl (fun d u =>
      (d.tile u).queued.foldl (fun d y =>
        if decide (y.engine = 4 ∨ y.engine = 5) && q.clashes y x (d.tile u) then d.requeue u y { y with open_ := true } else d) d) d
  else d

/-- Runs an instruction's work with the values that the manual leaves undefined in place of those it does not define: in what the
instruction reads, and in its results (R140, R141, R229, R302). -/
def Dev.withOpen (v : Variant) (d : Dev) (t : TileRef) (q : Queued) (work : Dev → Option Outcome × Dev) : Option Outcome × Dev :=
  let hs := d.veiled t q
  let z := if hs.isEmpty then work d
    else
      let z := work (hs.foldl (fun d s => d.blur t s) d)
      (z.1, z.2.restore d t hs (q.writes (d.tile t)))
  if z.1.isNone then z
  else
    let rival := decide (q.engine = 4 ∨ q.engine = 5) && (q.open_ || d.convRival t q)
    let e := if q.crossed || rival then z.2.blurResults v t q else z.2
    (z.1, e.markOthers t q)

/-- The bytes that an instruction which a reset ends was writing are not defined (R445); one in which nothing has begun has
written none. -/
def Dev.mixDest (v : Variant) (d : Dev) (t : TileRef) (q : Queued) : Dev :=
  (q.writes (d.tile t) ++ (if q.engine = 3 then q.attnSpans else [])).foldl (fun d s => d.blurAny v t q s) d

end Sys2Proof.Machine
end

