-- ==== Sys2Proof/Machine/Troughs.lean ====
section
/-!
DEFINITION. Sys2Proof/Machine/Troughs.lean: the troughs (R308 to R321): their instructions, swaps, the stale counter, messages
of the host that enter them, routes, and deadlock detection.
-/

namespace Sys2Proof.Machine

open Sys2Proof

/-! ## Banks -/

/-- TRG.FLUSH (R316). -/
def Trough.flush (x : Trough) : Trough := { x with fill := [], drain := [], dropPending := false, last := 0 }

/-- TROUGH_AUTO_SWAP (R311). -/
def execTroughAutoSwap (n : Fin 12) (k : Fin 32) (s : State) : Host.Outcome State Fault Refusal :=
  s.onDev fun d =>
    let x := d.trough n.val k.val
    if x.canSwap then d.onTrough n.val k.val (·.swap) else d

/-! ## Routes (R309) -/

/-- Whether a plan holds a tile: it gives it a slice that is not IDLE. -/
def Dev.planHolds (v : Variant) (d : Dev) (p : Plan) (ix : Nat) : Bool × Dev :=
  (List.range p.count).foldl (fun (r : Bool × Dev) k =>
    if r.1 then r else
      let e := r.2.sliceEntry v p (p.first.toNat + k) ix
      (!isIdle e.1, e.2)) (false, d)

/-- A route of a plan takes effect where the plan holds the tiles it names, or with no tile named logical tile 0 of the sector;
any other entry is ignored (R309). -/
def Dev.applyRoute (v : Variant) (p : Plan) (d : Dev) (n k : Nat) : Dev :=
  let r := d.virtLoad v p.ctx false (p.troughs.toNat + 16 * (32 * n + k)) 16
  let prod := recNat r.data 0 1
  let cons := recNat r.data 1 1
  let mode := recNat r.data 2 1
  if r.st ≠ 0 ∨ (0x11 < prod ∧ prod ≠ 0xFF) ∨ 0x10 < cons ∨ 4 ≤ mode ∨ recNat r.data 3 1 ≠ 0 ∨ recNat r.data 7 1 ≠ 0 ∨
      recNat r.data 10 6 ≠ 0 then r.d
  else
    let tiles := (if prod < 16 then [prod] else []) ++ (if cons < 16 then [cons] else [])
    let need := if tiles.isEmpty then [0] else tiles
    let h := need.foldl (fun (x : Bool × Dev) t =>
      if x.1 then x.2.planHolds v p (16 * n + t) else x) (true, r.d)
    if !h.1 then h.2
    else h.2.onTrough n k fun x =>
      { x.flush with producer := BitVec.ofNat 8 prod, consumer := BitVec.ofNat 8 cons, ticked := mode % 2 == 1,
                     force := mode / 2 == 1, stale := recNat r.data 4 3, hostq := recNat r.data 8 2, swapPlanned := 0 }

/-- TROUGH_ROUTE_EFFECT of a plan whose first tick begins (R309). -/
def Dev.applyRoutes (v : Variant) (d : Dev) (p : Plan) : Dev :=
  if p.troughs = 0 then d
  else (List.range (32 * v.sectors)).foldl (fun d i => d.applyRoute v p (i / 32) (i % 32)) d

/-- The planned swaps that a plan asks for at the edge of tick `now` (R309, R310). -/
def Dev.askSwaps (v : Variant) (d : Dev) (p : Plan) (now : Nat) : Dev :=
  if p.troughs = 0 then d
  else (List.range v.sectors).foldl (fun d n =>
    let r := d.virtLoad v p.ctx false
      (p.troughs.toNat + 512 * v.sectors + 4 * ((now - p.first.toNat) * v.sectors + n)) 4
    let m := if r.st = 0 then leNat r.data else 0
    r.d.onSector n fun s => { s with troughs := (List.range 32).foldl (fun ts k =>
      if m.testBit k then Tab.alter {} ts k (fun x => { x with swapPlanned := x.swapPlanned + 1 }) else ts) s.troughs }) d

/-! ## Issue (R312) -/

/-- Bytes of a row of a plain operand, whole bytes. -/
def troughRow (x : Desc) : Nat :=
  if isBlockFmt x.fmt || isMxFmt x.fmt then x.e0 / 32 * blockBytes x.fmt else (x.e0 * fmtBits x.fmt + 7) / 8

/-- Words of a trough operand (R312). -/
def troughWords (x : Desc) : Nat := troughRow x * x.rows / 64

/-- A trough operand (R312): plain, SPACE 0 or 1, a multiple of 64 bytes, 1 to 65,536 words. -/
def troughDesc (x : Desc) (ctx : Nat) (dest : Bool) : Bool :=
  x.ok ctx dest (List.range 16) && !x.coded && decide (x.space ≤ 1) && decide (troughRow x * x.rows % 64 = 0) &&
    decide (1 ≤ troughWords x ∧ troughWords x ≤ 65536)

def trgPushOk (w : IssueView) : Bool :=
  w.a.db == 0 && w.a.dc == 0 && decide (w.m 15 4 = 0) && decide (w.m 6 1 = 0) && troughDesc w.da w.x.ctx.toNat false

def trgPopOk (w : IssueView) : Bool :=
  w.a.da == 0 && w.a.db == 0 && decide (w.m 15 4 = 0) && decide (w.m 5 1 = 0) && troughDesc w.dc w.x.ctx.toNat true

def trgPlainOk (w : IssueView) : Bool := w.a.da == 0 && w.a.db == 0 && w.a.dc == 0 && decide (w.m 5 14 = 0)

def execTrgPush (t : TileRef) (a : TensorArgs) (s : State) : Host.Outcome State Fault Refusal :=
  s.onDev fun d => d.issue t (encTensor 6 0x01 a) 6 0x01 a trgPushOk noPost

def execTrgPop (t : TileRef) (a : TensorArgs) (s : State) : Host.Outcome State Fault Refusal :=
  s.onDev fun d => d.issue t (encTensor 6 0x02 a) 6 0x02 a trgPopOk noPost

def execTrgDrop (t : TileRef) (a : TensorArgs) (s : State) : Host.Outcome State Fault Refusal :=
  s.onDev fun d => d.issue t (encTensor 6 0x03 a) 6 0x03 a trgPlainOk noPost

def execTrgFlush (t : TileRef) (a : TensorArgs) (s : State) : Host.Outcome State Fault Refusal :=
  s.onDev fun d => d.issue t (encTensor 6 0x04 a) 6 0x04 a trgPlainOk noPost

/-! ## The trough engine (R313 to R317) -/

/-- The trough that an instruction names. -/
def Queued.troughNo (q : Queued) : Nat := modOf q.args 0 5

/-- Whether the tile is the end of the trough that the instruction needs (R317). -/
def Dev.troughEnd (d : Dev) (t : TileRef) (q : Queued) : Bool :=
  let x := d.trough t.sector.val q.troughNo
  x.producer != 0xFF && decide ((if q.opcode = 1 then x.producer else x.consumer).toNat = t.tile.val)

/-- What the instruction keeps when it begins: the words in the drain bank (R314), and how many streams of the sector began before
it (R321). -/
def Dev.troughBegun (d : Dev) (t : TileRef) (q : Queued) : List W8 :=
  BitVec.ofNat 8 (d.trough t.sector.val q.troughNo).drain.length :: toLE 8 (d.sector t.sector.val).nextStream

/-- The address of byte `i` of an operand, in walk order. -/
def troughAddr (x : Desc) (i : Nat) : Nat := x.rowAddr (i / troughRow x) + i % troughRow x

/-- Reads 64 bytes of an operand from byte `i` on, byte by byte: the first status that is not DONE, and the bytes. -/
def Dev.troughRead (d : Dev) (t : TileRef) (x : Desc) (i : Nat) : W8 × List W8 :=
  let s := d.src t x.space 0
  let as := (List.range 64).map (fun k => troughAddr x (i + k))
  (as.foldl (fun st a => if st = 0 then s.st a else st) 0, as.map s.byte)

/-- Writes 64 bytes of an operand from byte `i` on. -/
def Dev.troughWrite (d : Dev) (t : TileRef) (x : Desc) (i : Nat) (bytes : List W8) : W8 × Dev :=
  let p := (List.range 64).foldl (fun (p : Patch) k => p.put (troughAddr x (i + k)) [bytes.getD k 0]) []
  let r := d.applyPatch t x.space 0 p
  (r.1, r.2.2)

/-- Pushes words while the fill bank has room (R313): how many in all, the status so far, and the device. -/
def Dev.pushWords (t : TileRef) (q : Queued) (k total : Nat) : Nat → Dev → Nat → W8 → Nat × W8 × Dev
  | 0, d, i, st => (i, st, d)
  | fuel + 1, d, i, st =>
    if total ≤ i ∨ (d.trough t.sector.val k).full then (i, st, d)
    else
      let r := d.troughRead t q.da' (64 * i)
      let mark := decide (i + 1 = total) && modOf q.args 5 1 == 1
      let w : TWord × Dev := if r.1 = 0 then (⟨wordOfBytes r.2, mark, false⟩, d) else d.badWord mark
      Dev.pushWords t q k total fuel (w.2.onTrough t.sector.val k (·.push w.1)) (i + 1) (if r.1 = 0 then st else sEcc)

/-- TRG.PUSH goes on as far as the fill bank has room (R313): none where it still waits. The status so far stands in `begun`. -/
def Dev.doPush (d : Dev) (t : TileRef) (q : Queued) : Option Outcome × Dev :=
  let total := troughWords q.da'
  let r := Dev.pushWords t q q.troughNo total total d q.moved (q.begun.getD 9 0)
  if r.1 = total then (some { st := r.2.1, detail := BitVec.ofNat 32 total }, r.2.2)
  else
    (none, r.2.2.requeue t q { q with moved := r.1, begun := q.begun.take 9 ++ [r.2.1],
                                      waited := q.waited && decide (r.1 = q.moved) })

/-- Pops up to `n` words in order (R314), to an end mark where `stop`: how many, whether the last was end-marked, the status. -/
def Dev.popWords (t : TileRef) (q : Queued) (k : Nat) (stop : Bool) : Nat → Dev → Nat → W8 → Nat × Bool × W8 × Dev
  | 0, d, i, st => (i, false, st, d)
  | n + 1, d, i, st =>
    match (d.trough t.sector.val k).pop with
    | none => (i, false, st, d)
    | some r =>
      let w := (d.onTrough t.sector.val k fun _ => r.2).troughWrite t q.dc' (64 * i) (toLE 64 r.1.data.toNat)
      let st := if r.1.bad ∨ w.1 ≠ 0 then sEcc else st
      if stop && r.1.endMark then (i + 1, true, st, w.2) else Dev.popWords t q k stop n w.2 (i + 1) st

/-- TRG.POP (R314): none while it waits. -/
def Dev.doPop (d : Dev) (t : TileRef) (q : Queued) : Option Outcome × Dev :=
  let k := q.troughNo
  let x := d.trough t.sector.val k
  let total := troughWords q.dc'
  if modOf q.args 6 1 = 1 then
    if x.drain.any (·.endMark) || decide (64 ≤ x.drain.length) then
      let r := Dev.popWords t q k true total d 0 0
      (some { st := r.2.2.1, detail := BitVec.ofNat 32 (r.1 + (if r.2.1 then 2 ^ 31 else 0)) }, r.2.2.2)
    else (none, d)
  else
    let r := Dev.popWords t q k false (min total (q.begun.getD 0 0).toNat) d 0 0
    if r.1 = total then (some { st := r.2.2.1 }, r.2.2.2)
    else
      let last := toLE 64 (r.2.2.2.trough t.sector.val k).last.toNat
      let y := (List.range (total - r.1)).foldl (fun (y : W8 × Dev) j =>
        let w := y.2.troughWrite t q.dc' (64 * (r.1 + j)) last
        (if w.1 ≠ 0 then sEcc else y.1, w.2)) (r.2.2.1, r.2.2.2)
      (some { st := if y.1 = 0 then sDoneFlagged else y.1, detail := BitVec.ofNat 32 r.1, sticky := { underrun := true } }, y.2)

/-- TRG.DROP (R315). -/
def Dev.doDrop (d : Dev) (t : TileRef) (q : Queued) : Outcome × Dev :=
  let x := d.trough t.sector.val q.troughNo
  let r := dropPacket x.drain
  ({ st := sDone, detail := BitVec.ofNat 32 (x.drain.length - r.1.length) },
   d.onTrough t.sector.val q.troughNo fun y => { y with drain := r.1, dropPending := y.dropPending || !r.2 })

/-- TRG.FLUSH (R316). -/
def Dev.doFlush (d : Dev) (t : TileRef) (q : Queued) : Outcome × Dev :=
  let x := d.trough t.sector.val q.troughNo
  ({ st := sDone, detail := BitVec.ofNat 32 (x.drain.length + x.fill.length) }, d.onTrough t.sector.val q.troughNo (·.flush))

/-- A running trough instruction (R313 to R317): its outcome, none while it waits. -/
def Dev.doTrough (d : Dev) (t : TileRef) (q : Queued) : Option Outcome × Dev :=
  if !d.troughEnd t q then (some { st := sTranslation }, d)
  else
    match q.opcode with
    | 1 => d.doPush t q
    | 2 => d.doPop t q
    | 3 => let r := d.doDrop t q; (some r.1, r.2)
    | _ => let r := d.doFlush t q; (some r.1, r.2)

/-! ## Stale words (R319) and messages of the host (R399) -/

/-- TROUGH_STALE_TIMEOUT (R319): the event, once a tick; a forced swap where FORCE_SWAP is 1 and the drain bank is empty. -/
def execTroughStaleTimeout (n : Fin 12) (k : Fin 32) (s : State) : Host.Outcome State Fault Refusal :=
  s.onDev fun d =>
    let x := d.trough n.val k.val
    if x.stale = 0 ∨ (x.fill.isEmpty ∧ x.drain.isEmpty) then d
    else
      let d := if x.staleRaised then d
        else (((d.count (At.sector n.val 0x510) 0 32 1).onTrough n.val k.val fun y => { y with staleRaised := true }).raise 0x0B
          { partition := n.val, arg := [BitVec.ofNat 8 k.val, BitVec.ofNat 8 x.fill.length, BitVec.ofNat 8 x.drain.length] })
      if x.force && x.drain.isEmpty then d.onTrough n.val k.val (·.swap) else d

/-- The trough that a host queue feeds (R309, R399). -/
def Dev.hostTrough (d : Dev) (q : Nat) : Option (Nat × Nat) :=
  (List.range (12 * 32)).findSome? (fun i =>
    let x := d.trough (i / 32) (i % 32)
    if x.producer = 0x11 ∧ x.hostq = q then some (i / 32, i % 32) else none)

/-- The words that a host queue holds in the receive buffer. -/
def Dev.hostWords (d : Dev) (q : Nat) : List TWord :=
  match d.links.hostBuf.find? (fun e => e.1 == q) with
  | none => []
  | some e => e.2

def Dev.setHostWords (d : Dev) (q : Nat) (ws : List TWord) : Dev :=
  d.onLinks fun l => { l with hostBuf := Tab.put [] l.hostBuf q ws }

/-- Words enter a trough while there is room, the bank swapping where it is due (R311): what is left of them, and the trough. -/
def Trough.fillFrom : List TWord → Trough → List TWord × Trough
  | [], x => ([], x)
  | w :: ws, x => if x.full && !x.canSwap then (w :: ws, x) else Trough.fillFrom ws (x.push w)

/-- HOST_MESSAGE_DRAIN (R311, R399): words of a queue enter the fill bank of its trough while there is room. -/
def Dev.drainHost (d : Dev) (q : Nat) : Dev :=
  match d.hostTrough q with
  | none => d
  | some k =>
    let r := Trough.fillFrom (d.hostWords q) (d.trough k.1 k.2)
    (d.setHostWords q r.1).onTrough k.1 k.2 fun _ => r.2

def execHostMessageDrain (q : Fin 64) (s : State) : Host.Outcome State Fault Refusal :=
  s.onDev fun d => d.drainHost q.val

/-! ## Deadlock (R320, R321) -/

/-- A credit waiter: the trough engine of a tile, or a stream. -/
inductive Waiter where
  | engine (tile : Nat)
  | stream (id : Nat)
  deriving DecidableEq, Repr

/-- The trough that a tile's trough engine waits on, and whether as its producer (R320). -/
def Dev.engineWaits (d : Dev) (n tile : Nat) : Option (Nat × Bool) :=
  match (d.tile (tileOf (16 * n + tile))).active 6 with
  | none => none
  | some q =>
    let x := d.trough n q.troughNo
    if q.opcode = 1 then (if x.full && !x.canSwap then some (q.troughNo, true) else none)
    else if q.opcode = 2 ∧ modOf q.args 6 1 = 1 then
      (if x.drain.any (·.endMark) || decide (64 ≤ x.drain.length) || x.canSwap then none else some (q.troughNo, false))
    else none

/-- The trough that a stream waits on, and whether as its producer (R320). -/
def Dev.streamWaits (d : Dev) (n : Nat) (x : Stream) : Option (Nat × Bool) :=
  let e := drvEntryOf x.cur
  if x.done ∨ e.mode ≠ 0 then none
  else if e.sk = 3 ∧ (d.trough n e.sa).drain.isEmpty ∧ !(d.trough n e.sa).canSwap then some (e.sa, false)
  else if e.dk = 3 ∧ (d.trough n e.da).full ∧ !(d.trough n e.da).canSwap then some (e.da, true)
  else none

def Dev.waits (d : Dev) (n : Nat) : Waiter → Option (Nat × Bool)
  | .engine t => d.engineWaits n t
  | .stream id => (d.stream n id).bind (d.streamWaits n)

/-- Whether a member was waiting at the previous sample and has moved no word since. -/
def Dev.waitedBefore (d : Dev) (n : Nat) : Waiter → Bool
  | .engine t => ((d.tile (tileOf (16 * n + t))).active 6).any (·.waited)
  | .stream id => (d.stream n id).any (·.waited)

/-- The other end of the trough that a member waits on (R320). -/
def Dev.waitsOn (d : Dev) (n : Nat) (w : Waiter) : Option Waiter :=
  match d.waits n w with
  | none => none
  | some (k, asProducer) =>
    let e := if asProducer then (d.trough n k).consumer else (d.trough n k).producer
    if e.toNat < 16 then some (.engine e.toNat)
    else if e = 0x10 then
      ((d.sector n).streams.find? (fun x =>
        let y := drvEntryOf x.cur
        !x.done && decide (y.mode = 0) && (if asProducer then decide (y.sk = 3 ∧ y.sa = k) else decide (y.dk = 3 ∧ y.da = k)))).map
        (fun x => .stream x.id)
    else none

/-- The cycle that a member lies on, none where it lies on none. -/
def Dev.cycleFrom (d : Dev) (n : Nat) (w0 : Waiter) : Nat → Waiter → List Waiter → Option (List Waiter)
  | 0, _, _ => none
  | fuel + 1, w, seen =>
    match d.waitsOn n w with
    | none => none
    | some y => if y = w0 then some (w :: seen) else d.cycleFrom n w0 fuel y (w :: seen)

/-- What orders members: PRIORITY, logical tile, and when the member began: streams of the sector that began before it, and
whether it is a trough instruction. -/
def Dev.waiterKey (d : Dev) (n : Nat) : Waiter → Nat × Nat × Nat
  | .engine t =>
    match (d.tile (tileOf (16 * n + t))).active 6 with
    | none => (0, t, 0)
    | some q => (modOf q.args 7 8, t, 2 * leNat ((q.begun.drop 1).take 8))
  | .stream id =>
    match d.stream n id with
    | none => (0, 0, 0)
    | some x => (x.priority, x.tile.val, 2 * x.id + 1)

/-- Whether the first member is the one to cancel rather than the second (R321). -/
def keyLess (a b : Nat × Nat × Nat) : Bool :=
  decide (a.1 < b.1) || (a.1 == b.1 && (decide (b.2.1 < a.2.1) || (a.2.1 == b.2.1 && decide (b.2.2 < a.2.2))))

/-- A member as the event names it (R551): TILE, KIND, TOKEN or TAG. -/
def Dev.waiterName (d : Dev) (n : Nat) : Waiter → List W8
  | .engine t => [BitVec.ofNat 8 t, 1, match (d.tile (tileOf (16 * n + t))).active 6 with
      | none => 0
      | some q => q.args.token.setWidth 8]
  | .stream id => match d.stream n id with
      | none => [0, 0, 0]
      | some x => [BitVec.ofNat 8 x.tile.val, 0, x.tag.setWidth 8]

/-- Cancels a member with STREAM_DEADLOCK (R321). -/
def Dev.cancelWaiter (v : Variant) (d : Dev) (n : Nat) : Waiter → Dev
  | .engine t =>
    match (d.tile (tileOf (16 * n + t))).active 6 with
    | none => d
    | some q => d.finish (tileOf (16 * n + t)) q { st := sDeadlock, detail := BitVec.ofNat 32 q.moved }
  | .stream id =>
    match d.stream n id with
    | none => d
    | some x => d.cancelStream v n sDeadlock x

/-- A deadlock (R321): one member is cancelled, the counter counts it, and one event names up to 8 members. -/
def Dev.breakDeadlock (v : Variant) (d : Dev) (n : Nat) (c : List Waiter) : Dev :=
  match c with
  | [] => d
  | w :: r =>
    let m := r.foldl (fun m y => if keyLess (d.waiterKey n y) (d.waiterKey n m) then y else m) w
    let names := (c.take 8).flatMap (d.waiterName n)
    let d := (d.cancelWaiter v n m).count (At.sector n 0x50C) 0 16 1
    d.raise 0x0C { status := 0x71, partition := n, arg := names ++ List.replicate (24 - names.length) 0xFF }

/-- Every possible member of a sector. -/
def Dev.waiters (d : Dev) (n : Nat) : List Waiter :=
  (List.range 16).map .engine ++ (d.sector n).streams.map (fun x => .stream x.id)

/-- DEADLOCK: the sample of a sector's Gander agent (R321): every cycle whose members all waited at the previous sample too and
moved nothing is broken; then who waits now is kept for the next sample. -/
def Dev.sampleDeadlock (v : Variant) (d : Dev) (n : Nat) : Dev :=
  let ws := d.waiters n
  let cycles := ws.filterMap (fun w => d.cycleFrom n w 96 w [])
  let dead := cycles.filter (fun c => c.all (d.waitedBefore n))
  let once := dead.foldl (fun (l : List (List Waiter)) c => if l.any (fun x => x.any (c.contains ·)) then l else l ++ [c]) []
  let d := once.foldl (fun d c => d.breakDeadlock v n c) d
  let d := d.onSector n fun s => { s with streams := s.streams.map (fun x => { x with waited := (d.streamWaits n x).isSome }) }
  (List.range 16).foldl (fun (d : Dev) t =>
    match (d.tile (tileOf (16 * n + t))).active 6 with
    | none => d
    | some q => d.requeue (tileOf (16 * n + t)) q { q with waited := (d.engineWaits n t).isSome }) d

end Sys2Proof.Machine
end

