-- ==== Sys2Proof/Machine/Sync.lean ====
section
/-!
DEFINITION. Sys2Proof/Machine/Sync.lean: SYNC.TICK and the end of a slice (R101, R54, R305), SYNC.JOIN (R102), layer brackets
and their votes (R103 to R105, R332 to R337).
-/

namespace Sys2Proof.Machine

open Sys2Proof

/-! ## The end of a slice -/

/-- Whether the slice that runs is its tile's last of its plan. -/
def Dev.curIsLast (v : Variant) (d : Dev) (t : TileRef) : Bool × Dev :=
  match (d.tile t).cur with
  | none => (true, d)
  | some s => d.lastSlice v s.serial s.tick.toNat t.ix

/-- Whether an instruction of engine 7 names a descriptor or, but for LAYER.OPEN, a MOD bit. -/
def syncNames (a : TensorArgs) (mod : BitVec 19) : Bool := a.da != 0 || a.db != 0 || a.dc != 0 || mod != 0

/-- SYNC.TICK (R78, R96, R101): it waits until every queue is empty and no token is PENDING; an open bracket at the last slice and
a failing token trap; otherwise the slice ends. -/
def Dev.syncTick (v : Variant) (d : Dev) (t : TileRef) (a : TensorArgs) : Dev :=
  d.runInstr t (encTensor 7 0x01 a) fun d =>
    let x := d.tile t
    if a.te || a.se then d.trap t cIllegal 0
    else if syncNames a a.mod then d.trap t cDescInvalid 0
    else if x.regs.waitsOnClear a.wait then d.trap t cTokenIdle 0
    else if !x.quiet then d
    else
      let l := d.curIsLast v t
      if x.bracket.isSome && l.1 then l.2.trap t cBracket 0
      else
        match x.regs.failing x.trapEn 0xFFFFFFFFFFFFFFFF with
        | some k => l.2.trap t cTensorStatus (x.regs.tensorInfo k)
        | none => l.2.setTile t { l.2.tile t with run := .ending }

def execSyncTick (t : TileRef) (a : TensorArgs) (s : State) : Host.Outcome State Fault Refusal :=
  s.onDev fun d => d.syncTick s.fuse.variant t a

/-- SLICE_END (R49, R54, R61, R101, R305): the tile is at a slice boundary; after the last slice of its plan the streams of the
tile are cancelled; planned swaps that waited take place, and then a slice that waits starts. -/
def Dev.sliceEnd (v : Variant) (d : Dev) (t : TileRef) : Dev :=
  if (d.tile t).run ≠ .ending then d
  else
    let l := d.curIsLast v t
    let d := l.2.onTile t fun x => { x with run := .idle, late := false }
    let d := if l.1 then d.cancelAll v t else d
    (d.plannedSwaps t.sector.val).tryStart v t

def execSliceEnd (t : TileRef) (s : State) : Host.Outcome State Fault Refusal :=
  s.onDev fun d => d.sliceEnd s.fuse.variant t

/-! ## SYNC.JOIN (R102) -/

def syncJoinOk (w : IssueView) : Bool := !syncNames w.a w.a.mod

def execSyncJoin (t : TileRef) (a : TensorArgs) (s : State) : Host.Outcome State Fault Refusal :=
  s.onDev fun d => d.issue t (encTensor 7 0x04 a) 7 0x04 a syncJoinOk noPost

/-! ## LAYER.OPEN (R103, R332) -/

/-- An entry of a promotion table, `b` its 96 bytes. -/
def promoOf (b : List W8) : Promo :=
  { dreg := BitVec.ofNat 5 (recNat b 0 1), level1 := BitVec.ofNat 256 (recNat b 0x20 32), level2 := BitVec.ofNat 256 (recNat b 0x40 32) }

/-- What R332 asks of a promotion table: `h` its first 32 bytes, `es` its entries' bytes. -/
def promoTableOk (v : Variant) (ix : Nat) (h : List W8) (es : List (List W8)) : Bool :=
  let group := recNat h 0 24
  let regs := es.map (fun e => recNat e 0 1)
  group.testBit ix && decide (group / 2 ^ (16 * v.sectors) = 0) && decide (recNat h 0x18 1 ≤ 16) && decide (recNat h 0x19 7 = 0) &&
    es.all (fun e => decide (recNat e 0 1 < 32) && decide (recNat e 1 31 = 0)) && decide regs.Nodup

/-- The promotion table that LAYER.OPEN reads from tile memory (R332): the group and entries, or what the read raises. -/
def Dev.promoTable (v : Variant) (d : Dev) (t : TileRef) (at_ : W64) : Except (Nat × W64) (BitVec 192 × List Promo) :=
  let a := at_.toNat
  let s := d.src t 0 0
  if a % 32 ≠ 0 ∨ tileMemSize < a + 32 then .error (cBracket, 0)
  else
    let h := s.bytes a 32
    let n := recNat h 0x18 1
    if s.fault a 32 ≠ 0 then .error (cDataEcc, at_)
    else if 16 < n ∨ tileMemSize < a + 32 + 96 * n then .error (cBracket, 0)
    else if s.fault (a + 32) (96 * n) ≠ 0 then .error (cDataEcc, at_)
    else
      let es := (List.range n).map (fun i => s.bytes (a + 32 + 96 * i) 96)
      if promoTableOk v t.ix h es then .ok (BitVec.ofNat 192 (recNat h 0 24), es.map promoOf) else .error (cBracket, 0)

/-- Sets the token of an instruction that the core executed itself. -/
def CoreRegs.setTok (r : CoreRegs) (a : TensorArgs) (st src : W8) : CoreRegs :=
  if a.te then r.wt a.token { state := .set, status := st, origin := a.token, src := src } else r

/-- An instruction that the core executes itself is suppressed (R99). -/
def CoreRegs.suppressed (r : CoreRegs) (a : TensorArgs) (k : BitVec 6) : CoreRegs :=
  if a.te then r.wt a.token { r.rt k with state := .set, suppressed := true } else r

/-- How many LAYER.OPENs of a layer the tile has issued in a step (R333). -/
def Tile.occurrences (x : Tile) (key : Nat × Nat × Nat) : Nat :=
  match x.opens.find? (fun e => decide (e.1 = key)) with
  | none => 0
  | some e => e.2

/-- Counts a LAYER.OPEN; counts of other steps are no longer needed. -/
def Tile.countOpen (x : Tile) (key : Nat × Nat × Nat) : Tile :=
  { x with opens := (key, x.occurrences key + 1) :: x.opens.filter (fun e => decide (e.1 ≠ key) && decide (e.1.2.2 = key.2.2)) }

/-- LAYER.OPEN (R69, R95, R96, R99, R103, R332). It begins in its turn: after every SYNC.JOIN of engine 7's queue, with its WAIT met.
Until then the core issues nothing more, since what LAYER.OPEN saves and where a repeat resumes is the core as it stands at this
instruction (DEDUCED, log 32). -/
def Dev.layerOpen (v : Variant) (d : Dev) (t : TileRef) (a : TensorArgs) : Dev :=
  d.runInstr t (encTensor 7 0x02 a) fun d =>
    let x := d.tile t
    let own : BitVec 192 := 1 <<< t.ix
    let table := if a.greg = 0 then .ok (own, []) else d.promoTable v t (x.regs.greg a)
    let bad := match table with
      | .error c => c.1 == cBracket
      | .ok _ => false
    if (a.te && x.hasWaiter a.token) || decide (8 ≤ ((x.queue 7).filter (fun q => !q.running)).length) then d
    else if syncNames a 0 || !a.se || modOf a 16 3 != 0 then d.trap t cDescInvalid 0
    else if x.bracket.isSome || bad then d.trap t cBracket 0
    else if a.te && decide ((x.regs.rt a.token).state = .pending) then d.trap t cTokenBusy 0
    else if x.regs.waitsOnClear a.wait then d.trap t cTokenIdle 0
    else
      match table with
      | .error c => d.trap t c.1 c.2
      | .ok tbl =>
        if (x.head 7).isSome || !x.regs.waitMet a.wait then d
        else
          let step := (d.stepOf t.sector.val).toNat
          let layer := modOf a 0 16
          let key := (x.ctx.toNat, layer, step)
          let y := (x.countOpen key).skip4 16
          match x.regs.failing x.trapEn a.wait with
          | some k => d.setTile t (y.setRegs (x.regs.suppressed a k))
          | none =>
            let regs := x.regs.setTok a sDone 0x72
            let b : Bracket :=
              { layer := layer, occurrence := x.occurrences key, step := step, level := 0, sreg := a.sreg, saved := regs,
                resume := y.pc.toNat, group := tbl.1, promo := tbl.2, table := a.greg != 0, voted := false, close := none }
            (d.setTile t { y.setRegs (regs.ws a.sreg { kind := .int, val := 0 }) with bracket := some b }).clearOverflow t

def execLayerOpen (t : TileRef) (a : TensorArgs) (s : State) : Host.Outcome State Fault Refusal :=
  s.onDev fun d => d.layerOpen s.fuse.variant t a

/-! ## LAYER.CLOSE and the vote (R104, R333) -/

/-- The key of a bracket's vote (R333). -/
def Bracket.key (b : Bracket) (ctx : Nat) : VoteKey :=
  { ctx := ctx, step := b.step, layer := b.layer, occurrence := b.occurrence, level := b.level }

/-- A tile's vote reaches the active sequencer core (R333). -/
def Dev.castVote (d : Dev) (k : VoteKey) (group : BitVec 192) (ix : Nat) (set_ : Bool) : Dev :=
  d.onSeq fun q =>
    match q.votes.find? (fun x => decide (x.key = k)) with
    | none => { q with votes := q.votes ++ [{ key := k, group := group, cast := [(ix, set_)] }] }
    | some _ =>
      { q with votes := q.votes.map (fun x => if x.key = k then { x with group := x.group ||| group, cast := x.cast ++ [(ix, set_)] } else x) }

/-- LAYER.CLOSE (R95, R96, R99, R104): once the tile is quiet its vote goes out, and the core issues nothing until the vote
closes. -/
def Dev.layerClose (d : Dev) (t : TileRef) (a : TensorArgs) : Dev :=
  d.runInstr t (encTensor 7 0x03 a) fun d =>
    let x := d.tile t
    if a.te && x.hasWaiter a.token then d
    else if syncNames a a.mod then d.trap t cDescInvalid 0
    else
      match x.bracket with
      | none => d.trap t cBracket 0
      | some b =>
        if a.te && decide ((x.regs.rt a.token).state = .pending) then d.trap t cTokenBusy 0
        else if x.regs.waitsOnClear a.wait then d.trap t cTokenIdle 0
        else if !x.quiet then d
        else
          match x.regs.failing x.trapEn a.wait with
          | some k => d.setTile t ((x.setRegs (x.regs.suppressed a k)).skip4 16)
          | none =>
            (d.setTile t { x with bracket := some { b with voted := true, close := some a } }).castVote
              (b.key x.ctx.toNat) b.group t.ix (x.sticky.getLsbD 3)

def execLayerClose (t : TileRef) (a : TensorArgs) (s : State) : Host.Outcome State Fault Refusal :=
  s.onDev fun d => d.layerClose t a

/-- Whether a tile of a group has voted, or counts as having voted clear: halted or DISABLED (R333). -/
def Dev.hasVoted (v : Variant) (d : Dev) (x : Vote) (ix : Nat) : Bool :=
  let t := tileOf ix
  x.cast.any (fun c => c.1 == ix) || decide ((d.tile t).run = .halted) || decide ((d.entry v (d.tileUnit t)).state = stDisabled)

/-- The tiles of a group. -/
def groupTiles (g : BitVec 192) : List Nat := (List.range 192).filter (fun i => g.getLsbD i)

/-- What the journal of a replayed step holds of a bracket (R379, R382): its entry's number and OUTCOME. The occurrences of a
layer of one group follow each other, each beginning with its entry at level 0. The entries are those of the bracket's context; where
there are none, since the replay context stands for another, those of the context that the first one names (DEDUCED, log 40). -/
def Dev.expectBracket (v : Variant) (d : Dev) (base : Nat) (k : VoteKey) (group : BitVec 192) : Option (Nat × Nat) × Dev :=
  let hits := (d.seq.jrnIndex.reverse.filter (fun e => decide (base ≤ e.1))).foldl
    (fun (r : List (Nat × List W8) × Dev) e =>
      let x := r.2.jrnEntry v e.2
      if x.st = 0 ∧ (x.data.getD 1 0).getLsbD 0 = false ∧ jrnIs jBracket (BitVec.ofNat 64 k.step) x.data ∧
          jrnField x.data 4 2 = k.layer ∧ jrnField x.data 8 24 = group.toNat then (r.1 ++ [(e.1, x.data)], x.d)
      else (r.1, x.d)) ([], d)
  let ctxOf := fun (e : Nat × List W8) => jrnField e.2 0 1
  let ctx := if hits.1.any (fun e => ctxOf e == k.ctx) then k.ctx else (hits.1.head?.map ctxOf).getD 0
  let r := (hits.1.filter (fun e => ctxOf e == ctx)).foldl (fun (r : Nat × Option (Nat × Nat)) e =>
    let level := jrnField e.2 1 1
    let occ := if level = 0 then r.1 + 1 else r.1
    (occ, if r.2.isNone ∧ occ = k.occurrence + 1 ∧ level = k.level then some (e.1, jrnField e.2 2 1) else r.2)) (0, none)
  (r.2, hits.2)

/-- The descriptors of a level in a promotion table (R334). -/
def promote (ps : List Promo) (level : Nat) (r : CoreRegs) : CoreRegs :=
  ps.foldl (fun r p => r.wd p.dreg (if level = 2 ∧ p.level2 ≠ 0 then p.level2 else p.level1)) r

/-- Outcomes of a vote, as the journal numbers them (R377): 0 commit, 1 repeat, 2 commit at level 2. -/
def Dev.actOnVote (d : Dev) (t : TileRef) (k : VoteKey) (outcome : Nat) : Dev :=
  let x := d.tile t
  match x.bracket with
  | none => d
  | some b =>
    match b.close with
    | none => d
    | some a =>
      if b.key x.ctx.toNat ≠ k then d
      else if outcome = 1 then
        let regs := promote b.promo (b.level + 1) (b.saved.ws b.sreg { kind := .int, val := BitVec.ofNat 64 (b.level + 1) })
        ((d.setTile t { x.setRegs regs with
            pc := BitVec.ofNat 16 b.resume, past := decide (65532 < b.resume), repeating := true,
            bracket := some { b with level := b.level + 1, voted := false, close := none } }).clearOverflow t).count
          (At.tile t 0x788) 16 16 1
      else
        let st := if outcome = 2 then sDoneFlagged else sDone
        let r := x.regs.setTok a st 0x73
        let r := if a.se then r.ws a.sreg { kind := .int, val := statusWord st 0 {} } else r
        let d := d.setTile t ({ x.setRegs r with bracket := none, repeating := false }.skip4 16)
        if outcome = 2 then d.count (At.tile t 0x788) 0 16 1 else d

/-- Reports a repeat or a forced commit (R337): the event, and the REPEATS of the scale record that the first cause names. -/
def Dev.reportVote (v : Variant) (d : Dev) (k : VoteKey) (outcome : Nat) (sets : List Nat) : Dev :=
  let ix := sets.headD 0
  let t := tileOf ix
  let ovf := d.reg (At.tile t 0x780)
  let max_ := d.reg (At.tile t 0x784)
  let d := d.raise (if outcome = 1 then 0x06 else 0x07)
    { status := if outcome = 1 then 0 else 0x02, ctx := k.ctx, partition := ix / 16, tile := ix % 16,
      arg := toLE 2 k.layer ++ [BitVec.ofNat 8 (if outcome = 1 then k.level + 1 else 2), BitVec.ofNat 8 sets.length,
        BitVec.ofNat 8 ix, 0, 0, 0] ++ toLE 4 ovf.toNat ++ toLE 4 max_.toNat }
  if ovf.getLsbD 31 && decide (ovf.toNat / 2 ^ 28 % 8 ≠ 4) then d.countRepeat v t k.ctx (ovf.toNat % 0x1000) else d

/-- BRACKET_VOTE_CLOSE (R104, R333, R334, R337, R382): once every tile of the union of the groups has voted, each acts on the OR
of the votes; in a replay the journal's outcome takes its place, and a difference is a DIVERGE entry. -/
def Dev.closeVote (v : Variant) (d : Dev) (k : VoteKey) : Dev :=
  match d.seq.votes.find? (fun x => decide (x.key = k)) with
  | none => d
  | some x =>
    let tiles := groupTiles x.group
    if !tiles.all (d.hasVoted v x) then d
    else
      let sets := tiles.filter (fun i => x.cast.any (fun c => c.1 == i && c.2))
      let voted := if sets.isEmpty then 0 else if k.level < 2 then 1 else 2
      let part := tiles.headD 0 / 16
      let rep := d.replaying part
      let e : Option (Nat × Nat) × Dev := if rep then
          d.expectBracket v (match d.seq.replay with | none => 0 | some r => r.base) k x.group
        else (none, d)
      let outcome := match e.1 with
        | none => voted
        | some y => y.2
      let d := match e.1 with
        | none => e.2
        | some y => if y.2 = voted then e.2
            else e.2.diverge v jBracket y.1 (BitVec.ofNat 64 y.2) (BitVec.ofNat 64 voted)
      let d := d.onSeq fun q => { q with votes := q.votes.filter (fun y => decide (y.key ≠ k)) }
      let d := if outcome = 0 then d else d.reportVote v k outcome sets
      let d := d.journal v jBracket 1 (BitVec.ofNat 64 k.step) rep
        ([BitVec.ofNat 8 k.ctx, BitVec.ofNat 8 k.level, BitVec.ofNat 8 outcome, 0] ++ toLE 2 k.layer ++ toLE 2 sets.length ++
          toLE 24 x.group.toNat ++ toLE 8 d.tick.number.toNat)
      tiles.foldl (fun d i => d.actOnVote (tileOf i) k outcome) d

def execBracketVoteClose (k : VoteKey) (s : State) : Host.Outcome State Fault Refusal :=
  s.onDev fun d => d.closeVote s.fuse.variant k

end Sys2Proof.Machine
end

