-- ==== Sys2Proof/Machine/Engine.lean ====
section
/-!
DEFINITION. Sys2Proof/Machine/Engine.lean: a tensor instruction at the head of its engine queue begins or is suppressed (R96,
R99, R195, R229, R290), fetches its scales (R327), and completes (R97); the notes of R328.
-/

namespace Sys2Proof.Machine

open Sys2Proof

/-! ## Begin -/

/-- Whether an instruction is one that R195 orders against the matrix and vector engines. -/
def Queued.usesBoth (q : Queued) : Bool := decide (q.engine = 3) && decide (q.opcode ≠ 4)

/-- Whether an earlier instruction of the tile keeps this one from beginning (R195). -/
def Tile.ordered (x : Tile) (q : Queued) : Bool :=
  x.queued.any fun y => decide (y.order < q.order) &&
    ((q.usesBoth && decide (y.engine ≤ 1)) || (decide (q.engine ≤ 1) && y.usesBoth))

/-- The head of a queue with its WAIT met and none of its tokens failing (R96, R99). -/
def Dev.headReady (d : Dev) (t : TileRef) (e : Nat) : Bool :=
  let x := d.tile t
  match x.head e with
  | none => false
  | some q => x.regs.waitMet q.args.wait && (x.regs.failing x.trapEn q.args.wait).isNone

/-- The tile that a convolution engine serves next: the lowest above the one it served last, wrapping (R229). -/
def Dev.convNext (d : Dev) (n e : Nat) (c : ConvEngine) : Option Nat :=
  ((List.range 16).map (fun k => (c.last.val + 1 + k) % 16)).find? (fun k => d.headReady (tileOf (16 * n + k)) e)

def Sector.conv (s : Sector) (e : Nat) : ConvEngine := if e = 4 then s.xh else s.st

def Sector.setConv (s : Sector) (e : Nat) (c : ConvEngine) : Sector := if e = 4 then { s with xh := c } else { s with st := c }

/-- Marks an instruction as begun, with the step it latches (R327). -/
def Dev.beginPlain (d : Dev) (t : TileRef) (q : Queued) (begun : List W8) : Dev :=
  d.requeue t q { q with running := true, step := d.stepOf t.sector.val, begun := begun, moved := 0, waited := false }

/-- An instruction that its engine accepts begins. -/
def Dev.beginEngine (v : Variant) (d : Dev) (t : TileRef) (q : Queued) : Dev :=
  let n := t.sector.val
  match q.engine with
  | 2 =>
    if q.opcode = 2 then d.beginCancel v t q
    else d.requeue t q { q with waited := true }
  | 3 =>
    let r := d.attnBegin v t q
    r.2.beginPlain t q r.1
  | 4 | 5 =>
    let c := (d.sector n).conv q.engine
    if c.busy.isSome ∨ d.convNext n q.engine c ≠ some t.tile.val then d
    else (d.beginPlain t q []).onSector n fun s => s.setConv q.engine { c with busy := some t.tile, last := t.tile }
  | 6 => d.beginPlain t q (d.troughBegun t q)
  | _ => d.beginPlain t q []

/-- ENGINE_HEAD_BEGIN (R96, R99, R6, R91, R440): the head of an engine's queue, once every token of its WAIT is SET and no
instruction of the queue runs, is suppressed, refused by its engine, or begins. A command of engine 8 goes to its Ox unit by
OX_COMMAND_ENQUEUE; here it is suppressed or waits. -/
def Dev.headBegin (v : Variant) (d : Dev) (t : TileRef) (e : Nat) : Dev :=
  let x := d.tile t
  match x.head e with
  | none => d
  | some q =>
    if (x.active e).isSome ∨ !x.regs.waitMet q.args.wait then d
    else
      match x.regs.failing x.trapEn q.args.wait with
      | some k => d.suppress t q k
      | none =>
        if e = 8 ∨ x.ordered q then d
        else
          let st := d.engineRefuses v t e
          if st ≠ 0 then (d.finish t q { st := st }).trace v t e q.opcode x.pc st 0 else d.beginEngine v t q

def execEngineHeadBegin (t : TileRef) (e : Fin 9) (s : State) : Host.Outcome State Fault Refusal :=
  s.onDev fun d => (d.headBegin s.fuse.variant t e.val).settled s.fuse.variant t

/-! ## Scales (R327) -/

/-- The operands that an instruction reads or writes as tensors: 0 DA, 1 DB, 2 DC. -/
def Queued.tensors (q : Queued) : List Nat :=
  match q.engine with
  | 0 => if q.opcode = 2 then [] else [0]
  | 1 =>
    match vecForm q.opcode with
    | .binary => [0, 1, 2]
    | .unary => [0, 2]
    | .reduce => [0]
    | .acc => if q.mod 16 1 = 1 then [0, 1, 2] else [0, 2]
  | 3 =>
    match q.opcode with
    | 0x01 => [0, 2]
    | 0x02 => [0, 2]
    | 0x03 => [0]
    | _ => []
  | 4 => [0, 1, 2]
  | 5 => [0, 1, 2]
  | _ => []

/-- The operands whose scale an instruction fetches (R327). -/
def Queued.scaled (q : Queued) : List Nat := q.tensors.filter (fun k => isScaledFmt (q.operand k).fmt)

/-- Whether every scale of an instruction has been fetched. -/
def Queued.scalesIn (q : Queued) : Bool := q.scaled.all (fun k => q.sigma.any (fun e => e.1 == k))

/-- SCALE_FETCH (R327, R330): the scale of one operand of the instruction that runs; LOST at level 0 sets the overflow sticky. -/
def Dev.scaleIn (v : Variant) (d : Dev) (t : TileRef) (e k : Nat) : Dev :=
  match (d.tile t).active e with
  | none => d
  | some q =>
    if !q.scaled.contains k || q.sigma.any (fun y => y.1 == k) then d
    else
      let o := q.operand k
      let r := d.fetchScale v t q.ctx o.scaleRec o.fmt q.step
      let d := r.2.requeue t q { q with sigma := q.sigma ++ [(k, r.1)] }
      if r.1.isNone ∧ (d.tile t).level = 0 then d.overflow t 4 q.engine q.opcode o.scaleRec 0 else d

def execScaleFetch (t : TileRef) (e : Fin 9) (operand : Fin 3) (s : State) : Host.Outcome State Fault Refusal :=
  s.onDev fun d => d.scaleIn s.fuse.variant t e.val operand.val

/-- SCALE_NOTE (R328): the oldest note that waits reaches its record. -/
def Dev.noteIn (v : Variant) (d : Dev) : Dev :=
  match d.notes with
  | [] => d
  | n :: r => ({ d with notes := r }).applyNote v n

def execScaleNote (s : State) : Host.Outcome State Fault Refusal := s.onDev fun d => d.noteIn s.fuse.variant

/-! ## Completion (R97) -/

/-- What the engine does with the instruction that runs: its outcome, none while it waits. -/
def Dev.engineWork (v : Variant) (d : Dev) (t : TileRef) (q : Queued) (r : EngineReport) : Option Outcome × Dev :=
  match q.engine with
  | 0 => let x := d.doMatrix t q r; (some x.1, x.2)
  | 1 => let x := d.doVector t q r; (some x.1, x.2)
  | 3 => let x := d.doAttention v t q r; (some x.1, x.2)
  | 4 | 5 => let x := d.doConv v t q r; (some x.1, x.2)
  | 6 => d.doTrough t q
  | 7 => (some { st := sDone }, d)
  | _ => (none, d)

/-- What the instruction that runs does: its engine's work, with values that are not defined where instructions overlap. -/
def Dev.engineOutcome (v : Variant) (d : Dev) (t : TileRef) (q : Queued) (r : EngineReport) : Option Outcome × Dev :=
  d.withOpen v t q fun d => d.engineWork v t q r

/-- TENSOR_COMPLETE (R97): the instruction that an engine runs for a tile takes its effect, and then its token and SREG are
written; one that still waits for a trough goes on waiting. -/
def Dev.tensorComplete (v : Variant) (d : Dev) (t : TileRef) (e : Nat) (r : EngineReport) : Dev :=
  match (d.tile t).active e with
  | none => d
  | some q =>
    if !q.scalesIn then d
    else
      let pc := (d.tile t).pc
      let x := d.engineOutcome v t q r
      match x.1 with
      | none => x.2
      | some o =>
        let d := if e = 4 ∨ e = 5 then x.2.onSector t.sector.val fun s => s.setConv e { s.conv e with busy := none } else x.2
        (d.finish t q o).trace v t e q.opcode pc o.st o.detail

def execTensorComplete (t : TileRef) (e : Fin 9) (r : EngineReport) (s : State) : Host.Outcome State Fault Refusal :=
  s.onDev fun d => (d.tensorComplete s.fuse.variant t e.val r).settled s.fuse.variant t

end Sys2Proof.Machine
end

