-- ==== Sys2Proof/Machine/Reach.lean ====
section
/-!
DEFINITION. Sys2Proof/Machine/Reach.lean: the bytes of tile memory and of virtual memory that an issued tensor instruction reads or
writes: its operands, and what its records, tables and lists name (R85). A scalar access to them has no defined value until the program
has waited on the instruction's token.
-/

namespace Sys2Proof.Machine

open Sys2Proof

/-- Rows of a memory, each `len` bytes. -/
def rowSpans (space a rows stride len : Nat) : List Span := (List.range rows).map fun r => ⟨space, 0, a + r * stride, len⟩

/-! ## The Drover (R291 to R294, R306) -/

/-- What an entry of a block list reads and writes, but for troughs; `k` rows of the list were packed before it. -/
def Dev.entryReach (v : Variant) (d : Dev) (t : TileRef) (ctx starts k : Nat) (e : DrvEntry) : List Span :=
  let src := if e.sk ≤ 2 then rowSpans e.sk e.sa e.rows e.ss e.srcSpan else []
  let dst := if e.dk ≤ 2 then rowSpans e.dk e.da e.rows e.ds e.dstSpan else []
  match e.mode with
  | 0 => src ++ dst
  | 1 => src ++ dst
  | 2 => src ++ [⟨2, 0, e.da, ((List.range e.rows).map (d.packedLen v t ctx e)).sum⟩, ⟨2, 0, starts + 8 * k, 8 * e.rows⟩]
  | _ =>
    let word := fun (r : Nat) => let w := d.kindRead v t ctx 2 (starts + 8 * (k + r)) 8
      (leNat (w.data.take 6), 64 * leNat (w.data.drop 6))
    dst ++ [⟨2, 0, starts + 8 * k, 8 * e.rows⟩] ++
      (List.range e.rows).flatMap (fun r => let w := word r; [⟨2, 0, w.1, w.2⟩, ⟨e.dk, 0, e.da + r * e.ds, w.2⟩])

/-- What a stream reads and writes: its list, and what the entries name. -/
def Dev.streamReach (v : Variant) (d : Dev) (t : TileRef) (q : Queued) : List Span :=
  let h := (d.listBytes v t q.ctx q.da 0).data
  ((List.range (min (recNat h 0 4) (q.da'.e0 / 8 - 1))).foldl (fun (r : List Span × Nat) i =>
    let e := drvEntryOf (d.listBytes v t q.ctx q.da (32 + 32 * i)).data
    (r.1 ++ d.entryReach v t q.ctx (recNat h 0x10 8) r.2 e, r.2 + (if 2 ≤ e.mode then e.rows else 0))) (q.da'.whole, 0)).1

/-! ## The walker (R201 to R225) -/

/-- The directory word and the leaf words of a page: with the page's address where it is found; the use stamp where `stamp` is set. -/
def Dev.pageReach (v : Variant) (d : Dev) (n ctx rec_ p : Nat) (stamp : Bool) : List Span × Option Nat :=
  let dir : Span := ⟨2, 0, rec_ + 0x40 + 8 * (p / 256), 8⟩
  match (d.pageAt v n ctx rec_ p).1 with
  | .found b l =>
    (dir :: ⟨2, 0, b + 8 * (p % 256), 8⟩ :: (if stamp then [⟨2, 0, b + 2048 + 4 * (p % 256), 4⟩] else []), some (leafPage l))
  | _ => ([dir], none)

/-- The bytes of a token row that an ATTN reads for its head (R202). -/
def SeqRec.tokenSpan (s : SeqRec) (head page slot : Nat) : Span :=
  let row := page + 2048 + slot * s.slot
  if s.coded then ⟨2, 0, row, s.rowSize⟩ else ⟨2, 0, row + head * rowBytes s.fmt (2 * s.dim), rowBytes s.fmt (2 * s.dim)⟩

/-- What an ATTN reads of a page that it looks at (R209, R212). -/
def AttnJob.pageReach (v : Variant) (j : AttnJob) (d : Dev) (p : Nat) : List Span :=
  let frames := decide (j.c.mask = 2 ∨ j.c.mask = 3)
  let slots := j.slots p
  if !frames && !slots.any (fun i => j.anyVisible (256 * p + i) 0) then []
  else
    let r := d.pageReach v j.n j.ctx j.rec_ p true
    match r.2 with
    | none => r.1
    | some a =>
      let ps := if frames then (d.virtReads v (.walker j.n) j.ctx a 2048).data else []
      let seen := slots.any (fun i => j.anyVisible (256 * p + i) (posT (BitVec.ofNat 64 (recNat ps (8 * i) 8))))
      r.1 ++ (if frames then [⟨2, 0, a, 2048⟩] else []) ++ (if seen then slots.map (j.s.tokenSpan j.c.head a) else [])

/-- The tables that a sequence-layer record and an attention control record name. -/
def SeqRec.tables (s : SeqRec) (map : Option Nat) : List Span :=
  (if s.rope = 0 then [] else [⟨2, 0, s.ropeTable, 4 * s.dim⟩]) ++ (match map with
    | none => []
    | some a => [⟨2, 0, a, 8256⟩])

/-- What a KVAPPEND reads and writes of the pages that its positions name (R219). -/
def Dev.appendReach (v : Variant) (d : Dev) (t : TileRef) (q : Queued) : List Span :=
  let n := t.sector.val
  let rec_ := q.dc'.base
  let s := seqRecOf (d.virtReads v (.walker n) q.ctx rec_ 64).data
  let at_ := recNat (d.spaceRead v t (.walker n) q.ctx 0 q.gval.toNat 16).data 0 4
  let pos := (chunks 8 (d.spaceRead v t (.walker n) q.ctx 0 at_ (8 * q.da'.rows)).data).map leNat
  ⟨0, 0, at_, 8 * q.da'.rows⟩ :: s.tables none ++ pos.flatMap fun p =>
    let i := posIndex (BitVec.ofNat 64 p)
    let r := d.pageReach v n q.ctx rec_ (i / 256) false
    r.1 ++ (match r.2 with
      | none => []
      | some a => [⟨2, 0, a + 8 * (i % 256), 8⟩, ⟨2, 0, a + 2048 + i % 256 * s.slot, s.rowSize⟩])

/-- The buckets that a lookup reads, and the node it finds (R225). -/
def Dev.bucketReach (v : Variant) (d : Dev) (n ctx table log2 : Nat) (h : W64) : Nat → Nat → List Span × Option Nat
  | 0, _ => ([], none)
  | k + 1, j =>
    let a := table + 16 * ((h.toNat + j) % 2 ^ log2)
    let r := (d.virtReads v (.walker n) ctx a 16).data
    let node := leNat (r.drop 8)
    if node = 0 then ([⟨2, 0, a, 16⟩], none)
    else if 1 < node ∧ leNat (r.take 8) = h.toNat then ([⟨2, 0, a, 16⟩], some node)
    else
      let y := d.bucketReach v n ctx table log2 h k (j + 1)
      (⟨2, 0, a, 16⟩ :: y.1, y.2)

/-- What a KVPREFIX reads and writes of its table and nodes (R222, R225). -/
def Dev.prefixReach (v : Variant) (d : Dev) (t : TileRef) (q : Queued) : List Span :=
  let n := t.sector.val
  let rb := (d.spaceRead v t (.walker n) q.ctx 0 q.gval.toNat 32).data
  let es := ((d.anySrc v t q.ctx q.da').1.operand q.da' 0 q.da'.total).elems
  ((List.range (q.da'.e0 / 256)).foldl (fun (r : List Span × W64 × Bool) c =>
    let h := chunkHash r.2.1 (((es.drop (256 * c)).take 256).map (fun e => BitVec.ofNat 32 e.code))
    if r.2.2 then r
    else
      let b := d.bucketReach v n q.ctx (recNat rb 0 8) (recNat rb 8 1) h 8 0
      match b.2 with
      | none => (r.1 ++ b.1, h, true)
      | some a => (r.1 ++ b.1 ++ [⟨2, 0, a, 0x440⟩], h, false)) ([], BitVec.ofNat 64 (recNat rb 0x10 8), false)).1

/-- What an instruction of engine 3 reads and writes beside its operands. -/
def Dev.walkerReach (v : Variant) (d : Dev) (t : TileRef) (q : Queued) : List Span :=
  let n := t.sector.val
  let b := d.attnBegin v t q
  let q := { q with begun := b.1 }
  match q.opcode with
  | 1 =>
    let c := attnCtlOf (q.begun.drop 18)
    let s := seqRecOf (d.virtReads v (.walker n) q.ctx q.db'.base 64).data
    [⟨0, 0, q.gval.toNat, 64⟩, ⟨2, 0, q.db'.base, 64⟩, ⟨0, 0, c.qpos, 8 * ((q.da'.rows - 1) / c.g + 1)⟩] ++
      s.tables (if c.mask = 4 then some c.map else none) ++ q.attnSpans ++
      (match (d.attnPrepare v t q).2.1 with
       | none => []
       | some j => j.pages.flatMap (j.pageReach v d))
  | 2 => q.attnSpans
  | 3 => [⟨0, 0, q.gval.toNat, 16⟩, ⟨2, 0, q.dc'.base, 64⟩] ++ q.attnSpans ++ d.appendReach v t q
  | _ => ⟨0, 0, q.gval.toNat, 32⟩ :: d.prefixReach v t q

/-- The operands of an instruction of engine 3 that are tensors: ATTN's DB and KVAPPEND's DC name a sequence-layer record. -/
def Queued.walkerOperands (q : Queued) : List Span :=
  match q.opcode with
  | 1 => q.da'.whole ++ q.dc'.whole
  | 2 => q.da'.whole ++ q.db'.whole ++ q.dc'.whole
  | 3 => q.da'.whole ++ q.db'.whole
  | _ => q.da'.whole ++ q.dc'.whole

/-! ## The Ox units (R346 to R364) -/

/-- What an Ox command reads and writes: its record, the shard's state record and tensors, and in a pass 2 the version lock and the
results of its windows. -/
def Dev.oxReach (v : Variant) (d : Dev) (t : TileRef) (q : Queued) : List Span :=
  let n := t.sector.val
  let rec_ := (d.operandRead v t (.ox n) q.ctx q.da' 0 128).data
  let c : OxCmd := { tile := t, prog := decide (q.opcode = 2), pass2 := decide (q.mod 0 1 = 1), args := q.args, ctx := q.ctx,
                     step := 0, record := rec_, recStatus := 0 }
  let r := (d.virtReads v (.ox n) q.ctx (c.u 0 8) 128).data
  q.da'.whole ++ [⟨2, 0, c.u 0 8, 128⟩] ++ (oxTensorList c r).map (fun e => ⟨2, 0, recNat r e.1 8, e.2.1⟩) ++
    (if c.prog then [⟨2, 0, c.u 0x30 8, 16 * (c.u 0x38 2 + c.u 0x3A 2)⟩] else []) ++
    (if c.pass2 then
      [⟨2, 0, c.u 8 8, 64⟩] ++ (if c.u 0x10 8 = 0 then [] else [⟨2, 0, c.u 0x20 8, 4 * oxLayerN r + 64⟩]) ++
        (if c.u 0x18 8 = 0 then [] else [⟨2, 0, c.u 0x28 8, 128⟩])
     else [])

/-! ## What an issued instruction reads and writes (R85) -/

/-- The scale records that an instruction fetches or notes (R324, R327, R328). -/
def Dev.scaleReach (d : Dev) (t : TileRef) (q : Queued) : List Span :=
  let recs := (q.scaled.map fun k => (q.operand k).scaleRec) ++ (if q.tensors.contains 2 then [q.dc'.scaleRec] else [])
  (recs.filter (· < 0xFFF)).map fun r => ⟨2, 0, (d.reg64 (At.tile t (0x700 + 8 * q.ctx))).toNat + 64 * r, 64⟩

/-- Every byte that an issued instruction reads or writes, by space. -/
def Dev.touched (v : Variant) (d : Dev) (t : TileRef) (q : Queued) : List Span :=
  d.scaleReach t q ++
    match q.engine with
    | 2 => if q.opcode = 2 then [] else d.streamReach v t q
    | 3 => q.walkerOperands ++ d.walkerReach v t q
    | 8 => d.oxReach v t q
    | _ => q.sources (d.tile t) ++ q.writes (d.tile t)

/-- Whether a scalar access to `n` bytes has no defined value: a tensor instruction on whose token the program has not waited reads or
writes one of them (R85). -/
def Dev.unsettled (v : Variant) (d : Dev) (t : TileRef) (space a n : Nat) : Bool :=
  let x := d.tile t
  x.unwaited.any fun q => (space == 0 || q.ctx == x.ctx.toNat) && meets [⟨space, 0, a, n⟩] (d.touched v t q)

end Sys2Proof.Machine
end

