-- ==== Sys2Proof/Machine/Access.lean ====
section
/-!
DEFINITION. Sys2Proof/Machine/Access.lean: the accesses of the control core to memory (R82, R83, R85): loads, stores and atomics, and
the answer of an access to virtual space.
-/

namespace Sys2Proof.Machine

open Sys2Proof

/-! ## Begin (R83, R281) -/

/-- Sends the request of an access to a window; its status where it cannot be sent, else it is outstanding under a name of its own. -/
def Dev.sendWindow (v : Variant) (d : Dev) (t : TileRef) (q : ScalarReq) : W8 × Dev :=
  let g := d.newTag
  let n := memSize q.op q.w
  let src := some t.sector.val
  let y := if 0x11 ≤ q.op then g.2.windowAtomic v src q.phys (atomicPayload q.op q.w q.operand q.compare) g.1
           else if 8 ≤ q.op ∧ q.op ≠ 12 then g.2.windowWrite v src q.phys q.data g.1
           else g.2.windowRead v src q.phys n g.1
  (y.1, if y.1 = 0 then y.2.onTile t fun x => { x with outstanding := some { q with tag := g.1 } } else y.2)

/-- Begins an access to the context's virtual space: translated at once, then outstanding until its answer; the core
stalls (R83, log 6). A request to a window that its regulator holds is sent later (R281). -/
def Dev.beginVirtual (v : Variant) (d : Dev) (t : TileRef) (q : ScalarReq) (write amo : Bool) : Dev :=
  let x := d.tile t
  let n := t.sector.val
  let r := d.translate v (.tile t.ix) x.ctx.toNat q.addr.toNat write (d.evalMember n)
  match memCause r.1 with
  | some c => r.2.2.trap t c q.addr
  | none =>
    let d := r.2.2
    let q := { q with phys := r.2.1, tag := 0 }
    if isWindow r.2.1 && d.mayPass v n amo (write && !amo) r.2.1 then
      let y := d.sendWindow v t q
      match memCause y.1 with
      | some c => y.2.trap t c q.addr
      | none => y.2
    else d.onTile t fun x => { x with outstanding := some q }

/-- Bytes, or as many free values where they are not defined (log 1). -/
def Dev.settle (d : Dev) (open_ : Bool) (bytes : List W8) : List W8 × Dev := if open_ then d.drawBytes bytes.length else (bytes, d)

/-- A load or DLD of `n` bytes (R82, R83). -/
def Dev.load (v : Variant) (d : Dev) (t : TileRef) (op n : Nat) (a : MemArgs) : Dev :=
  d.runInstr t (encMem (BitVec.ofNat 5 op) a) fun d =>
    let x := d.tile t
    let ad := x.regs.memAddr a
    if ad.toNat % n ≠ 0 then d.trap t cMisaligned ad
    else if a.v then
      d.beginVirtual v t { op := op, addr := ad, phys := 0, rd := a.rd, data := [], w := false, operand := 0, compare := 0,
                           open_ := d.unsettled v t 2 ad.toNat n, tag := 0 } false false
    else if tileMemSize ≤ ad.toNat then d.trap t cTileRange ad
    else
      let r := d.tileRead t ad.toNat n
      match memCause r.st with
      | some c => d.trap t c ad
      | none =>
        let b := d.settle (d.unsettled v t 0 ad.toNat n) r.data
        b.2.setTile t ((x.setRegs (x.regs.deliver op a.rd b.1)).skip4 4)

/-- A store or DST of `n` bytes (R82, R83). -/
def Dev.store (v : Variant) (d : Dev) (t : TileRef) (op n : Nat) (a : MemArgs) : Dev :=
  d.runInstr t (encMem (BitVec.ofNat 5 op) a) fun d =>
    let x := d.tile t
    let ad := x.regs.memAddr a
    let b := d.settle (d.unsettled v t (if a.v then 2 else 0) ad.toNat n) (x.regs.storeBytes op n a.rd)
    let bytes := b.1
    if ad.toNat % n ≠ 0 then d.trap t cMisaligned ad
    else if a.v then
      b.2.beginVirtual v t { op := op, addr := ad, phys := 0, rd := a.rd, data := bytes, w := false, operand := 0, compare := 0,
                             tag := 0 } true false
    else if tileMemSize ≤ ad.toNat then d.trap t cTileRange ad
    else
      let r := b.2.tileWrite t ad.toNat bytes
      match memCause r.st with
      | some c => d.trap t c ad
      | none => r.d.setTile t (x.skip4 4)

/-- LDB (R82). -/
def execLdb (t : TileRef) (a : MemArgs) (s : State) : Host.Outcome State Fault Refusal :=
  s.onDev fun d => d.load s.fuse.variant t 1 1 a

/-- LDH (R82). -/
def execLdh (t : TileRef) (a : MemArgs) (s : State) : Host.Outcome State Fault Refusal :=
  s.onDev fun d => d.load s.fuse.variant t 2 2 a

/-- LDW (R82). -/
def execLdw (t : TileRef) (a : MemArgs) (s : State) : Host.Outcome State Fault Refusal :=
  s.onDev fun d => d.load s.fuse.variant t 3 4 a

/-- LDD (R82). -/
def execLdd (t : TileRef) (a : MemArgs) (s : State) : Host.Outcome State Fault Refusal :=
  s.onDev fun d => d.load s.fuse.variant t 4 8 a

/-- LDBU (R82). -/
def execLdbu (t : TileRef) (a : MemArgs) (s : State) : Host.Outcome State Fault Refusal :=
  s.onDev fun d => d.load s.fuse.variant t 5 1 a

/-- LDHU (R82). -/
def execLdhu (t : TileRef) (a : MemArgs) (s : State) : Host.Outcome State Fault Refusal :=
  s.onDev fun d => d.load s.fuse.variant t 6 2 a

/-- LDWU (R82). -/
def execLdwu (t : TileRef) (a : MemArgs) (s : State) : Host.Outcome State Fault Refusal :=
  s.onDev fun d => d.load s.fuse.variant t 7 4 a

/-- STB (R82). -/
def execStb (t : TileRef) (a : MemArgs) (s : State) : Host.Outcome State Fault Refusal :=
  s.onDev fun d => d.store s.fuse.variant t 8 1 a

/-- STH (R82). -/
def execSth (t : TileRef) (a : MemArgs) (s : State) : Host.Outcome State Fault Refusal :=
  s.onDev fun d => d.store s.fuse.variant t 9 2 a

/-- STW (R82). -/
def execStw (t : TileRef) (a : MemArgs) (s : State) : Host.Outcome State Fault Refusal :=
  s.onDev fun d => d.store s.fuse.variant t 10 4 a

/-- STD (R82). -/
def execStd (t : TileRef) (a : MemArgs) (s : State) : Host.Outcome State Fault Refusal :=
  s.onDev fun d => d.store s.fuse.variant t 11 8 a

/-- DLD (R82). -/
def execDld (t : TileRef) (a : MemArgs) (s : State) : Host.Outcome State Fault Refusal :=
  s.onDev fun d => d.load s.fuse.variant t 12 32 a

/-- DST (R82). -/
def execDst (t : TileRef) (a : MemArgs) (s : State) : Host.Outcome State Fault Refusal :=
  s.onDev fun d => d.store s.fuse.variant t 13 32 a

/-- An atomic (R82, R83): a non-zero RSV bit, bit 17 at 0 or AMO.FADD on 64 bits is ILLEGAL. -/
def Dev.atomic (v : Variant) (d : Dev) (t : TileRef) (op : Nat) (fadd : Bool) (a : AmoArgs) : Dev :=
  d.runInstr t (encAmo (BitVec.ofNat 5 op) a) fun d =>
    let x := d.tile t
    let ad := x.regs.rg a.rs1
    if a.rsv ≠ 0 ∨ !a.bit17 ∨ (fadd ∧ !a.w) then d.trap t cIllegal 0
    else if ad.toNat % (if a.w then 4 else 8) ≠ 0 then d.trap t cMisaligned ad
    else
      d.beginVirtual v t { op := op, addr := ad, phys := 0, rd := a.rd, data := [], w := a.w, operand := x.regs.rg a.rs2,
                           compare := x.regs.rg a.rs3, open_ := d.unsettled v t 2 ad.toNat (if a.w then 4 else 8), tag := 0 }
        true true

/-- AMO.ADD (R82, R273). -/
def execAmoAdd (t : TileRef) (a : AmoArgs) (s : State) : Host.Outcome State Fault Refusal :=
  s.onDev fun d => d.atomic s.fuse.variant t 17 false a

/-- AMO.FADD (R82, R273). -/
def execAmoFadd (t : TileRef) (a : AmoArgs) (s : State) : Host.Outcome State Fault Refusal :=
  s.onDev fun d => d.atomic s.fuse.variant t 18 true a

/-- AMO.MIN (R82, R273). -/
def execAmoMin (t : TileRef) (a : AmoArgs) (s : State) : Host.Outcome State Fault Refusal :=
  s.onDev fun d => d.atomic s.fuse.variant t 19 false a

/-- AMO.MAX (R82, R273). -/
def execAmoMax (t : TileRef) (a : AmoArgs) (s : State) : Host.Outcome State Fault Refusal :=
  s.onDev fun d => d.atomic s.fuse.variant t 20 false a

/-- AMO.AND (R82, R273). -/
def execAmoAnd (t : TileRef) (a : AmoArgs) (s : State) : Host.Outcome State Fault Refusal :=
  s.onDev fun d => d.atomic s.fuse.variant t 21 false a

/-- AMO.OR (R82, R273). -/
def execAmoOr (t : TileRef) (a : AmoArgs) (s : State) : Host.Outcome State Fault Refusal :=
  s.onDev fun d => d.atomic s.fuse.variant t 22 false a

/-- AMO.XOR (R82, R273). -/
def execAmoXor (t : TileRef) (a : AmoArgs) (s : State) : Host.Outcome State Fault Refusal :=
  s.onDev fun d => d.atomic s.fuse.variant t 23 false a

/-- AMO.SWAP (R82, R273). -/
def execAmoSwap (t : TileRef) (a : AmoArgs) (s : State) : Host.Outcome State Fault Refusal :=
  s.onDev fun d => d.atomic s.fuse.variant t 24 false a

/-- AMO.CAS (R82, R273). -/
def execAmoCas (t : TileRef) (a : AmoArgs) (s : State) : Host.Outcome State Fault Refusal :=
  s.onDev fun d => d.atomic s.fuse.variant t 25 false a

/-! ## The answer (R83, R440) -/

/-- An outstanding scalar access performed at its home: status, bytes delivered, and the device after it; none while its regulator
holds it or a window's answer has not come. -/
def Dev.performScalar (v : Variant) (d : Dev) (t : TileRef) (q : ScalarReq) : Option Acc :=
  let n := t.sector.val
  let amo := decide (0x11 ≤ q.op)
  let write := decide (8 ≤ q.op ∧ q.op ≤ 13 ∧ q.op ≠ 12)
  if q.tag ≠ 0 then
    match d.answered q.tag with
    | none => none
    | some r => some ⟨r.1, r.2.take (memSize q.op q.w), d.takeAnswer q.tag⟩
  else if !d.mayPass v n amo write q.phys then none
  else if amo then
    let r := (d.chargeFor (some n) true false 0 q.phys 64).localAtomic v q.phys (amoOf q.op) q.w q.operand q.compare
    some ⟨r.1, toLE (memSize q.op q.w) r.2.1.toNat, r.2.2⟩
  else if write then some ((d.chargeFor (some n) false true 0 q.phys q.data.length).localWrite v q.phys q.data)
  else
    let r := (d.chargeFor (some n) false false 0 q.phys (memSize q.op q.w)).localRead v q.phys
    some ⟨r.st, (r.data.drop (q.phys % 64)).take (memSize q.op q.w), r.d⟩

/-- A request to a window that its regulator held goes out once it may pass (R281). -/
def Dev.retryWindow (v : Variant) (d : Dev) (t : TileRef) (q : ScalarReq) : Dev :=
  let amo := decide (0x11 ≤ q.op)
  if !d.mayPass v t.sector.val amo (decide (8 ≤ q.op ∧ q.op ≤ 13 ∧ q.op ≠ 12)) q.phys then d
  else
    let y := d.sendWindow v t q
    match memCause y.1 with
    | some c => (y.2.onTile t fun x => { x with outstanding := none }).trap t c q.addr
    | none => y.2

/-- Whether the answer of a request is dropped: its partition is being recovered, and the request went to another slice (R440). -/
def Dev.dropsAnswer (d : Dev) (t : TileRef) (q : ScalarReq) : Bool :=
  d.cutOff t.sector.val && homeSlice q.phys != some t.sector.val

/-- The answer of an access arrives: its value is delivered and the core goes on, or its cause is raised (R83). -/
def Dev.deliver (d : Dev) (t : TileRef) (q : ScalarReq) (st : W8) (data : List W8) : Dev :=
  let d := d.onTile t fun x => { x with outstanding := none }
  match memCause st with
  | some c => d.trap t c q.addr
  | none =>
    let b := d.settle q.open_ data
    b.2.onTile t fun x =>
      if 8 ≤ q.op ∧ q.op ≤ 13 ∧ q.op ≠ 12 then x.skip4 4
      else (x.setRegs (x.regs.deliver q.op q.rd b.1)).skip4 4

/-- SCALAR_MEM_COMPLETE (R83): the answer of the outstanding access, precisely. An answer that R440 drops leaves the access
outstanding. -/
def execScalarMemComplete (t : TileRef) (s : State) : Host.Outcome State Fault Refusal :=
  s.onDev fun d =>
    match (d.tile t).outstanding with
    | none => d
    | some q =>
      if q.tag = 0 ∧ isWindow q.phys then d.retryWindow s.fuse.variant t q
      else
        match d.performScalar s.fuse.variant t q with
        | none => d
        | some r =>
          if d.dropsAnswer t q then
            let k := r.d.newTag
            k.2.onTile t fun x => { x with outstanding := some { q with tag := k.1 } }
          else r.d.deliver t q r.st r.data

end Sys2Proof.Machine
end

