-- ==== Sys2Proof/Machine/Spares.lean ====
section
/-!
DEFINITION. Sys2Proof/Machine/Spares.lean: the units of a partition (R24, R535), registers at a reset of their block (R10, R11),
the repair map and the spares of a partition (R165, R244, R259, R260, R268, R454).
-/

namespace Sys2Proof.Machine

open Sys2Proof

/-! ## Units of partitions -/

/-- The partitions present in the variant, as a mask (R3, R4). -/
def Variant.parts (v : Variant) : BitVec 12 := BitVec.ofNat 12 (2 ^ v.sectors - 1)

/-- The partitions of a mask, lowest first. -/
def partsOf (m : BitVec 12) : List Nat := (List.range 12).filter (fun n => m.getLsbD n)

/-- A mask of one partition. -/
def partBit (n : Nat) : BitVec 12 := BitVec.ofNat 12 (2 ^ n)

def unitKind (u : BitVec 16) : Nat := u.toNat / 2048
def unitIndex (u : BitVec 16) : Nat := u.toNat % 2048

/-- The partition that a unit belongs to (R24, R535), none for a unit of no partition. -/
def unitPart (u : BitVec 16) : Option Nat :=
  let i := unitIndex u
  match unitKind u with
  | 0x01 => some (i / 17)
  | 0x02 => some (i / 85)
  | 0x03 => some i
  | 0x04 => some i
  | 0x05 => some i
  | 0x06 => some i
  | 0x07 => some i
  | 0x08 => some i
  | 0x09 => some i
  | 0x0A => some i
  | 0x0B => some i
  | 0x0C => some i
  | 0x0D => some (i / 136)
  | 0x0E => some (i / 18)
  | _ => none

/-- The units that a fence, a reset and a return of partition `n` move in the ledger (R24, R441): the partition, its tiles and
their engines, its sector engines, its slice, controller, Ox unit and stack. -/
def partitionUnits (n : Nat) : List (BitVec 16) :=
  unitNo 0x08 n :: (List.range 17).map (fun k => unitNo 0x01 (17 * n + k)) ++
    (List.range 85).map (fun k => unitNo 0x02 (85 * n + k)) ++
    [0x03, 0x04, 0x05, 0x06, 0x07, 0x09, 0x0A, 0x0B, 0x0C].map (fun k => unitNo k n)

/-- Moves the units of a partition that are in one state to another. -/
def Dev.moveMembers (v : Variant) (d : Dev) (n : Nat) (from_ to_ : BitVec 4) : Dev :=
  (partitionUnits n).foldl (fun d u => if (d.entry v u).state = from_ then d.moveUnit v u to_ else d) d

/-- The logical tile that a physical tile serves, none for a tile out of service (R26). -/
def Dev.logicalTile (d : Dev) (n phys : Nat) : Option TileRef :=
  ((List.range 16).map (fun k => tileOf (16 * n + k))).find? (fun t => d.physicalTile t == phys)

/-! ## Registers at a reset of their block -/

/-- Offsets of registers whose RW fields are Retained (R10, R518). -/
def Block.retained : Block → List Nat
  | .dev => [0x100, 0x104, 0x108, 0x110, 0x114, 0x124]
  | .tick => [0x000, 0x00C, 0x010]
  | .seq => [0x000, 0x004, 0x008, 0x400, 0x404, 0x408, 0x40C, 0x430]
  | .sect => [0x500]
  | .hub => [0x028, 0x030, 0x034, 0x038, 0x03C, 0x100, 0x104, 0x108, 0x10C]
  | .link => [0x200, 0x204, 0x208, 0x20C, 0x210, 0x220, 0x224, 0x230, 0x234, 0x238] ++
      (List.range 8).flatMap (fun q => [0x20 * q, 0x20 * q + 0x10, 0x20 * q + 0x14])
  | .host => [0x000, 0x008, 0x00C, 0x010, 0x014, 0x018, 0x01C, 0x020, 0x024, 0x028, 0x030, 0x034, 0x038, 0x03C]
  | .gander => [0x000]
  | .pwr => [0x000, 0x004, 0x008]
  | .sec => []
  | .ledger => []
  | .retain => []

/-- The bits of a register that the settings record keeps: its RW fields where they are Retained, but for TICK.CTRL.RUN (R40). -/
def CsrLoc.retainMask (l : CsrLoc) : W32 :=
  if l.block.retained.contains l.off then
    match l.desc with
    | none => 0
    | some r => r.mask (fun a => decide (a = .rw)) &&& ~~~(if l.block = .tick ∧ l.off = 0 then 1#32 else 0#32)
  else 0

/-- A register after a reset of its block: Retained fields keep the value of the settings record, the others take their value at
reset (R10). -/
def Dev.resetReg (d : Dev) (l : CsrLoc) : Dev :=
  match l.desc with
  | none => d
  | some r => d.setReg l ((d.reg l &&& l.retainMask) ||| (r.resetValue &&& ~~~l.retainMask))

/-- The held halves of a block's registers are discarded (R10). -/
def Dev.discardHeld (d : Dev) (b : Block) (n : Nat) : Dev :=
  let lo := b.base n
  let mine := fun (k : Nat) => decide (lo ≤ k) && decide (k < lo + 0x100000)
  { d with halves := (d.halves.map (fun h => { h with readHi := h.readHi.filter (fun e => !mine e.1),
                                                      writeLo := h.writeLo.filter (fun e => !mine e.1) })).filter
             (fun h => !(h.readHi.isEmpty && h.writeLo.isEmpty)) }

/-- The registers of a block after its reset, shared registers of the device (scope 2) excepted unless `all`; held halves of the
block are discarded (R10). -/
def Dev.resetBlock (d : Dev) (b : Block) (n : Nat) (all : Bool) : Dev :=
  let lo := b.base n
  let mine := fun (k : Nat) => decide (lo ≤ k) && decide (k < lo + 0x100000)
  let d := (d.csr.filter (fun e => mine e.1)).foldl (fun d e =>
    match locate e.1 with
    | none => d
    | some l => if all || (l.desc.map (·.scope)) != some 2 then d.resetReg l else d) d
  d.discardHeld b n

/-! ## The repair map -/

/-- A repair recorded in the repair map, with its SPARE_ENGAGED (R442, R454, R518); the write of the record is due. -/
def Dev.engage (d : Dev) (u : BitVec 16) (kind from_ to_ : Nat) : Dev :=
  (d.onRetain fun r => { r with repairs := r.repairs ++ [(u, kind, from_, to_)], changed := true }).raise 0x12
    { partition := (unitPart u).getD 0xFF, unit := u.toNat,
      arg := toLE 4 u.toNat ++ [BitVec.ofNat 8 kind, BitVec.ofNat 8 from_, BitVec.ofNat 8 to_, 0] }

/-- A spare takes the place of a unit (R537). -/
def Dev.spareFor (v : Variant) (d : Dev) (u spare : BitVec 16) : Dev :=
  ((d.moveUnit v u stSpared).moveUnit v spare stBringup).moveUnit v spare stReady

/-! ## Quire channels (R250, R259, R260, R266) -/

/-- The physical channel behind a logical one; an unmapped one is its own. -/
def Hub.physical (h : Hub) (c : Nat) : Nat := let p := Tab.look 0 h.chanMap c; if p = 0 then c else p

def channelUnit (n p : Nat) : BitVec 16 := unitNo 0x0D (136 * n + p)

/-- The spare channels of a stack that no repair has used, lowest first. -/
def Dev.spareChannels (v : Variant) (d : Dev) (n : Nat) : List Nat :=
  ((List.range 8).map (128 + ·)).filter (fun p => (d.entry v (channelUnit n p)).state == stOff)

/-- Maps a logical channel to a spare (R259). -/
def Dev.mapChannel (v : Variant) (d : Dev) (n c p : Nat) : Dev :=
  let old := (d.hub n).physical c
  let d := (d.spareFor v (channelUnit n old) (channelUnit n p)).onHub n fun h =>
    { h with chanMap := Tab.put 0 h.chanMap c p, failed := h.failed.filter (· != c) }
  d.engage (channelUnit n old) 4 old p

/-- A newly mapped or repaired channel: its lines are poison until the fill has passed them (R259). -/
def Dev.startFill (d : Dev) (n c : Nat) : Dev :=
  d.onHub n fun h => { h with unfilled := (c, []) :: h.unfilled.filter (fun e => e.1 != c) }

/-- The repair of one failed channel at a reset: a spare via where its fault was traced to one (R454), else the next spare
channel, else the stack is FAULTED (R259, R260). -/
def Dev.repairChannel (v : Variant) (vias : List (Fin 128)) (n : Nat) (d : Dev) (c : Nat) : Dev :=
  if vias.any (fun k => decide (k.val = c)) then
    ((d.onHub n fun h => { h with failed := h.failed.filter (· != c) }).startFill n c).engage
      (channelUnit n ((d.hub n).physical c)) 5 ((d.hub n).physical c) ((d.hub n).physical c)
  else
    match d.spareChannels v n with
    | p :: _ => (d.mapChannel v n c p).startFill n c
    | [] =>
      let d := d.onHub n fun h => { h with faulted := true, lostChannels := c :: h.lostChannels.filter (· != c) }
      if (d.entry v (unitNo 0x0C n)).state = stFaulted then d else (d.moveUnit v (unitNo 0x0C n) stFaulted).engage (unitNo 0x0C n) 10 0 0

/-! ## Cache ways (R268) -/

def wayUnit (n w : Nat) : BitVec 16 := unitNo 0x0E (18 * n + w)

/-- The repair of the ways that failed the test at a reset: each in service is replaced by a spare that passed, while one is left
(R268, R454). -/
def Dev.repairWays (v : Variant) (d : Dev) (n : Nat) (bad : List (Fin 18)) : Dev :=
  let isBad := fun (w : Nat) => bad.any (fun k => decide (k.val = w))
  let d := (List.range 18).foldl (fun d w =>
    if isBad w && (d.entry v (wayUnit n w)).state == stReady then
      match [16, 17].find? (fun s => !isBad s && (d.entry v (wayUnit n s)).state == stOff) with
      | some s => (d.spareFor v (wayUnit n w) (wayUnit n s)).engage (wayUnit n w) 6 w s
      | none => (d.moveUnit v (wayUnit n w) stFaulted).engage (wayUnit n w) 10 0 0
    else if isBad w && (d.entry v (wayUnit n w)).state == stOff then
      (d.moveUnit v (wayUnit n w) stBringup).moveUnit v (wayUnit n w) stFaulted
    else d) d
  d.onHub n fun h => { h with waysBad := 18 - ((List.range 18).filter (fun w =>
    let s := (d.entry v (wayUnit n w)).state
    s == stReady || s == stOff)).length }

/-! ## Tiles and sector engines (R165, R244) -/

/-- The unit numbers of a physical tile's engines. -/
def tileEngines (n p : Nat) : List (BitVec 16) := (List.range 5).map (fun e => unitNo 0x02 (5 * (17 * n + p) + e))

/-- The repair that RES_CTRL shows pending for a tile (R165). -/
def Dev.repairTile (v : Variant) (d : Dev) (t : TileRef) : Dev :=
  let n := t.sector.val
  let want := d.fld (At.tile t 0x108) 1 2
  if want = 0 then d
  else
    let x := d.tile t
    let last := (d.reg (At.tile t 0x104)).toNat
    let unit := last / 2 ^ 28
    let old := d.physicalTile t
    if want = 1 ∧ (unit = 2 ∨ unit = 3) ∧ x.rowsUsed < 2 then
      (d.setTile t { x with rowsUsed := x.rowsUsed + 1 }).engage (d.tileUnit t) 1 (last % 256) x.rowsUsed
    else if want = 1 ∧ (unit = 2 ∨ unit = 3) ∧ x.colsUsed < 2 then
      (d.setTile t { x with colsUsed := x.colsUsed + 1 }).engage (d.tileUnit t) 2 (last / 256 % 256) x.colsUsed
    else if !d.spareInUse t.sector && (d.entry v (unitNo 0x01 (17 * n + 16))).state == stOff then
      let u := d.tileUnit t
      let d := d.spareFor v u (unitNo 0x01 (17 * n + 16))
      let d := ((tileEngines n old).zip (tileEngines n 16)).foldl (fun d e => d.spareFor v e.1 e.2) d
      (d.onTile t fun x => { x with spared := true, rowsUsed := 0, colsUsed := 0 }).engage u 3 old 16
    else (d.moveUnit v (d.tileUnit t) stDisabled).engage (d.tileUnit t) 9 0 0

/-- A convolution engine whose REPAIR is set is DISABLED (R244). -/
def Dev.repairConv (v : Variant) (d : Dev) (n e : Nat) : Dev :=
  let u := unitNo e n
  if ((d.sector n).conv e).repair then
    ((d.moveUnit v u stDisabled).engage u 9 0 0).onSector n fun s => s.setConv e { s.conv e with repair := false }
  else d

/-- Every repair that is pending in a partition (R442). -/
def Dev.repairPartition (v : Variant) (d : Dev) (n : Nat) (ways : List (Fin 18)) (vias : List (Fin 128)) : Dev :=
  let d := (List.range 16).foldl (fun d k => d.repairTile v (tileOf (16 * n + k))) d
  let h := d.hub n
  let d := (h.failed.filter (fun c => !h.lostChannels.contains c)).foldl (fun d c => d.repairChannel v vias n c) d
  ((d.repairWays v n ways).repairConv v n 4).repairConv v n 5

end Sys2Proof.Machine
end

