-- ==== Sys2Proof/Machine/Faults.lean ====
section
/-!
DEFINITION. Sys2Proof/Machine/Faults.lean: hangs and the reset ladder (R433 to R439, R445), fences (R440), the recovery of
partitions and the device warm reset (R441 to R446, R553), sequencer failover (R67, R68), dumps (R448 to R451), owner resets and
the disabling of units (R452, R453), residue injection (R167).
-/

namespace Sys2Proof.Machine

open Sys2Proof

/-! ## Recoveries in progress -/

def Dev.setRecovery (d : Dev) (k : Nat) (r : Recovery) : Dev :=
  d.onGander fun g => { g with recoveries := Tab.put {} g.recoveries k r }

/-- The partitions that no recovery covers. -/
def Dev.unrecovered (d : Dev) (m : BitVec 12) : BitVec 12 :=
  (partsOf m).foldl (fun x n => if (d.gander.recovery n).isSome then x else x ||| partBit n) 0

/-! ## Fences (R440) -/

/-- The remaining slices of every accepted plan on a sector are skipped, as for a halted tile (R109, R440). -/
def Dev.skipSector (d : Dev) (n : Nat) : Dev :=
  let ps := d.seq.plans.map (·.serial)
  (List.range 16).foldl (fun d k => d.onTile (tileOf (16 * n + k)) fun x => { x with skip := ps ++ x.skip, waiting := [] }) d

/-- Every command of a slice's Ox unit completes with a status (R440, R453). -/
def Dev.stopOx (v : Variant) (d : Dev) (n : Nat) (st : W8) : Dev :=
  let h := d.hub n
  let cs := (match h.oxPass with | none => [] | some p => [p.cmd]) ++ h.oxQueue
  cs.foldl (fun d c => d.oxFinish v n c st 0 0) (d.onHub n fun h => { h with oxPass := none, oxQueue := [] })

/-- The fence of a partition begins: its slice answers FENCED, its windows are abandoned, its Ox commands end with FENCED, the
streams of its sector are discarded without status, and its slices are skipped. -/
def Dev.fence (v : Variant) (d : Dev) (n : Nat) : Dev :=
  let d := (d.onHub n fun h => { h with fenced := true }).abandonWindows v n
  let d := (d.stopOx v n sFenced).onSector n fun s => { s with streams := [] }
  (d.skipSector n).moveMembers v n stReady stFenced

/-! ## The start of a recovery -/

/-- The contexts that used a resource in the last HANG_TICKS + 1 ticks (R433). -/
def Dev.usedBy (d : Dev) (res : Nat) : W16 :=
  (List.range 16).foldl (fun (m : W16) c =>
    let at_ := Tab.look 0 d.gander.active (16 * res + c)
    if at_ ≠ 0 ∧ d.tick.number.toNat < at_ + d.fld (At.gander 0x000) 0 4 then m ||| BitVec.ofNat 16 (2 ^ c) else m) 0

/-- The suspects of a fault in a resource that serves several contexts: a slice, its controller, an Ox unit, a crossbar (R433). -/
def Dev.suspects (d : Dev) (u : BitVec 16) : Option W16 :=
  let i := unitIndex u
  match unitKind u with
  | 0x09 => some (d.usedBy i)
  | 0x0A => some (d.usedBy i)
  | 0x0B => some (d.usedBy (12 + i))
  | 0x0F => some (d.usedBy (3 * i) ||| d.usedBy (3 * i + 1) ||| d.usedBy (3 * i + 2))
  | _ => none

/-- Writes GANDER.SUSPECTS where the unit serves several contexts (R433). -/
def Dev.noteSuspects (d : Dev) (u : BitVec 16) : Dev :=
  match d.suspects u with
  | none => d
  | some m => d.onGander fun g => { g with suspectCtx := m }

/-- Recovery of partitions that no recovery covers: the fence begins (R440, R441 step 1). -/
def Dev.recover (v : Variant) (d : Dev) (parts : BitVec 12) (cause : W8) (u : BitVec 16) (esc : Bool) : Dev :=
  let ps := d.unrecovered (parts &&& v.parts)
  match partsOf ps with
  | [] => d
  | n :: _ =>
    let d := d.noteSuspects u
    let r : Recovery := { parts := ps, cause := cause, unit := u, escalated := esc, tick := d.tick.number, fstep := d.tick.step,
                          suspects := (d.suspects u).getD 0 }
    let d := (d.setRecovery n r).onGander fun g => { g with held := g.held.filter (fun e => !ps.getLsbD e.1) }
    (partsOf ps).foldl (fun d m => d.fence v m) d

/-- Device warm reset: every partition is fenced; a recovery in progress is taken over by it (R446). FAULT_N is low until READY;
the debug level closes, the nonce is replaced and an armed return ends (R489, R490). -/
def Dev.warmReset (v : Variant) (d : Dev) (cause : W8) (u : BitVec 16) (esc : Bool) : Dev :=
  if d.dev.inWarm then d
  else
    let d := d.noteSuspects u
    let r : Recovery := { parts := v.parts, cause := cause, warm := true, unit := u, escalated := esc, tick := d.tick.number,
                          fstep := d.tick.step, suspects := (d.suspects u).getD 0,
                          dirty := d.gander.recoveries.flatMap (fun e => e.2.dirty),
                          wholeStack := d.gander.recoveries.any (fun e => e.2.wholeStack),
                          unreadable := d.gander.recoveries.flatMap (fun e => e.2.unreadable) }
    let d := d.onGander fun g => { g with recoveries := [(0, r)], held := [] }
    let d := (partsOf v.parts).foldl (fun d m => d.fence v m) d
    let n := d.drawBytes 32
    let d := n.2.onSec fun s =>
      { s with debugLevel := 0, ticksLeft := 0, armed := false, armedLeft := 0, nonce := BitVec.ofNat 256 (leNat n.1) }
    { d with
      dev := { d.dev with ready := false, inWarm := true, warm := cause, warmCount := if d.dev.warmCount = 255 then 255 else d.dev.warmCount + 1 }
      pins := { d.pins with faultN := false } }

/-- Counts an escalation (R439, R456). -/
def Dev.escalate (d : Dev) : Dev := d.count (At.gander 0x008) 0 8 1

/-- Whether a mask covers every present partition for a unit that belongs to none: a hold of that kind asks for a warm reset
(R437). -/
def Dev.heldWhole (v : Variant) (d : Dev) : Option (BitVec 16) :=
  match d.gander.held with
  | [] => none
  | (_, u) :: _ =>
    if (unitPart u).isNone && (partsOf v.parts).all (fun n => d.gander.holds n) then some u else none

/-! ## Collection of the work list (R48, R52, R545) -/

/-- The PLAN event (R551). -/
def Dev.planEvent (d : Dev) (st : W8) (id first : Nat) (reason : Nat) : Dev :=
  d.raise 0x01 { status := st.toNat, arg := toLE 8 id ++ toLE 8 first ++ [BitVec.ofNat 8 reason] }

/-- Entries of the ring in order from number `k` on; the collection ends at one that cannot be read. -/
def Dev.readEntries (v : Variant) : Nat → Nat → Dev → List WlEntry × Dev
  | 0, _, d => ([], d)
  | fuel + 1, k, d =>
    let r := d.physBytes v (d.seq.wlBase + 64 + 64 * (k % 2 ^ d.seq.wlLog2)) 64
    if r.st ≠ 0 then ([], r.d)
    else
      let e : WlEntry := { type := r.data.getD 0 0, address := BitVec.ofNat 64 (recNat r.data 8 8),
                           planId := BitVec.ofNat 64 (recNat r.data 0x10 8) }
      let rest := Dev.readEntries v fuel (k + 1) r.d
      (e :: rest.1, rest.2)

/-- The ring registers written since take effect at a guard (R545). -/
def Dev.renewRing (d : Dev) : Dev :=
  if d.seq.reconf then
    d.onSeq fun q => { q with wlBase := (d.reg64 (At.seq 0x000)).toNat, wlLog2 := d.fld (At.seq 0x008) 0 5, consumed := 0,
                              stopped := false, reconf := false }
  else d

/-- WORK_LIST_COLLECT (R48): the commit counter is read once and every entry numbered below it is consumed; a counter that
runs ahead of the ring stops collection (R52). -/
def Dev.collect (v : Variant) (d : Dev) : Dev :=
  let d := d.renewRing
  let q := d.seq
  if q.wlBase = 0 ∨ q.stopped then d
  else
    let c := d.physNat v q.wlBase 8
    let ahead := c.2.1 - q.consumed.toNat
    if c.1 ≠ 0 then c.2.2
    else if 2 ^ q.wlLog2 < ahead then (c.2.2.onSeq fun q => { q with stopped := true }).planEvent sInternal 0 0 8
    else
      let r := Dev.readEntries v ahead q.consumed.toNat c.2.2
      r.2.onSeq fun q => { q with collected := q.collected ++ r.1, consumed := q.consumed + BitVec.ofNat 64 r.1.length }

/-! ## Sequencer failover (R67, R68) -/

def Dev.activeCore (d : Dev) : Nat := if d.seq.active then 1 else 0

/-- What the active core hands to the standby for the edge that begins `tick` (R17). -/
def Seq.toStandby (q : Seq) (tick : W64) : Checkpoint :=
  { tick := tick, wlBase := q.wlBase, wlLog2 := q.wlLog2, consumed := q.consumed, stopped := q.stopped, collected := q.collected,
    plans := q.plans, steps := q.steps, stepTop := q.stepTop, windows := q.windows, votes := q.votes, lateTiles := q.lateTiles,
    jrnOff := q.jrnOff, jrnHead := q.jrnHead, jrnStep := q.jrnStep, jrnEntries := q.jrnEntries, jrnLost := q.jrnLost,
    jrnIndex := q.jrnIndex, captured := q.captured, replayArmed := q.replayArmed, replay := q.replay, diverged := q.diverged,
    evalPart := q.evalPart, evalCtx := q.evalCtx, charHold := q.charHold }

/-- The standby core with a checkpoint loaded (R67): a window entry that the slices hold is as they hold it. -/
def Seq.fromStandby (q : Seq) (c : Checkpoint) : Seq :=
  let live := fun (e : WinEntry) => (q.windows.find? (fun x => x.serial == e.serial && x.index == e.index)).getD e
  { q with wlBase := c.wlBase, wlLog2 := c.wlLog2, consumed := c.consumed, stopped := c.stopped, collected := c.collected,
           plans := c.plans, steps := c.steps, stepTop := c.stepTop, windows := c.windows.map live, votes := c.votes,
           lateTiles := c.lateTiles, jrnOff := c.jrnOff, jrnHead := c.jrnHead, jrnStep := c.jrnStep, jrnEntries := c.jrnEntries,
           jrnLost := c.jrnLost, jrnIndex := c.jrnIndex, captured := c.captured, replayArmed := c.replayArmed, replay := c.replay,
           diverged := c.diverged, evalPart := c.evalPart, evalCtx := c.evalCtx, charHold := c.charHold }

/-- The active core fails: the standby takes over from the last checkpoint, or, where none is ready, a device warm reset follows. The
standby loads the checkpoint (R67 steps 1 and 3: the journal goes on at the place it names, over what the failed core wrote since) and
reads the commit counter again (step 2). The edge's duties that TICK_EDGE has done are in the checkpoint it made (log 40). -/
def Dev.takeover (v : Variant) (d : Dev) : Dev :=
  match if d.seq.standbyReady then d.seq.ckpt else none with
  | none => d.warmReset v 0x08 (unitNo 0x14 d.activeCore) true
  | some c =>
    let d := d.onSeq fun q =>
      { q.fromStandby c with active := !q.active, standbyReady := false, failedCore := true, ckpt := none }
    (d.raise 0x05 { unit := (unitNo 0x14 d.activeCore).toNat,
                    arg := [BitVec.ofNat 8 d.activeCore, 0, 0, 0, 0, 0, 0, 0] ++ toLE 8 c.tick.toNat }).collect v

/-- The standby core is reset and self-tested (R68, R539). -/
def Dev.resetStandby (d : Dev) : Dev := d.onSeq fun q => { q with standbyReady := false, failedCore := true }

/-- A fault of a sequencer core (R67, R437). -/
def Dev.coreFault (v : Variant) (d : Dev) (core : Nat) : Dev := if core = d.activeCore then d.takeover v else d.resetStandby

/-- FAILED_CORE_SELFTEST_DONE (R68): a core that passes becomes the standby, ready at its next checkpoint; one that fails is
FAULTED. -/
def execFailedCoreSelftestDone (pass : Bool) (s : State) : Host.Outcome State Fault Refusal :=
  s.onDev fun d =>
    if !d.seq.failedCore then d
    else
      let u := unitNo 0x14 (1 - d.activeCore)
      if pass then d.onSeq fun q => { q with failedCore := false }
      else (d.moveUnit s.fuse.variant u stFaulted).engage u 10 0 0

/-- SEQ_EDGE_DUTY_TIMEOUT (R67): the active core has not completed its edge duties by E + 20 µs. -/
def execSeqEdgeDutyTimeout (s : State) : Host.Outcome State Fault Refusal := s.onDev fun d => d.takeover s.fuse.variant

/-- SEQUENCER_CORE_FAULT (R67): the active core takes an uncorrectable fault. -/
def execSequencerCoreFault (s : State) : Host.Outcome State Fault Refusal := s.onDev fun d => d.takeover s.fuse.variant

/-! ## Engine and tile resets (R445) -/

/-- Completes an instruction that a reset ends. -/
def Dev.endByReset (v : Variant) (d : Dev) (t : TileRef) (st : W8) (q : Queued) : Dev :=
  (d.finish t q { st := st }).trace v t q.engine q.opcode (d.tile t).pc st 0

/-- An engine's queue and what it runs end with a status; a Drover queue first ends the begun streams of the tile and the head
that waits for its slot and buffer with CANCELLED. -/
def Dev.endQueue (v : Variant) (d : Dev) (t : TileRef) (e : Nat) (st : W8) : Dev :=
  let d := if e = 2 then
      let d := d.cancelAll v t
      match d.drvReady t with
      | none => d
      | some q =>
        let h := d.listBytes v t q.ctx q.da 0
        (h.d.unqueue t q).endStream v t q.args (q.opcode == 3) q.ctx (if h.st = 0 then BitVec.ofNat 16 (recNat h.data 0x0C 2) else 0)
          sCancelled 0
    else match (d.tile t).active e with
      | none => d
      | some q => d.mixDest v t q
  let d := ((d.tile t).queue e).foldl (fun d q => d.endByReset v t st q) d
  if e = 4 ∨ e = 5 then d.onSector t.sector.val fun s =>
    let c := s.conv e
    if c.busy = some t.tile then s.setConv e { c with busy := none } else s
  else d

/-- An engine reset: the engine's queue completes with INTERNAL and its internal state is cleared. -/
def Dev.resetEngine (v : Variant) (d : Dev) (t : TileRef) (e : Nat) : Dev :=
  let d := d.endQueue v t e sInternal
  if e = 0 then d.onTile t fun x => { x with sb0 := none, sb1 := none, rec0 := none, rec1 := none } else d

/-- A core's values at tile reset (R70, R111). -/
def Tile.resetCore (x : Tile) : Tile :=
  { x.fresh with pc := 0, past := false, run := .idle, late := false, ctx := 0, trapPc := 0, cause := 0, info := 0, stall := 0 }

/-- A tile reset: every engine's queue and then the core; the remaining slices of the plan are skipped. -/
def Dev.resetTile (v : Variant) (d : Dev) (t : TileRef) : Dev :=
  let d := (List.range 9).foldl (fun d e => d.resetEngine v t e) d
  d.onTile t fun x => { x.resetCore with skip := (x.cur.map (·.serial)).toList ++ x.skip }

/-- GANDER.LAST (R456): the most recent recovery. -/
def Dev.setLast (d : Dev) (cause : W8) (part level slot dur : Nat) : Dev :=
  d.setReg (At.gander 0x00C) (cause ++ BitVec.ofNat 4 part ++ BitVec.ofNat 2 level ++ BitVec.ofNat 2 slot ++ BitVec.ofNat 16 dur)

/-- Runs an engine or tile reset and remembers it (R439). -/
def Dev.localReset (v : Variant) (d : Dev) (l : LevelRef) (cause : W8) : Dev :=
  let d := match l with
    | .engine t e => (d.resetEngine v t e.val).setLast cause t.sector.val 0 0 0
    | .tile t => (d.resetTile v t).setLast cause t.sector.val 1 0 0
    | .partition _ => d
    | .warm => d
  d.onGander fun g => { g with lastReset := some (l, cause) }

/-! ## Hangs (R436, R437) -/

/-- Where the reset ladder starts for a unit (R437). -/
inductive FirstLevel where
  | local_ (l : LevelRef)
  | parts (m : BitVec 12)
  | warm
  | core (k : Nat)
  | none_
  deriving DecidableEq, Repr

def Dev.firstLevel (d : Dev) (u : BitVec 16) : FirstLevel :=
  let i := unitIndex u
  let part := FirstLevel.parts (partBit ((unitPart u).getD 0))
  match unitKind u with
  | 0x00 => .warm
  | 0x01 => match d.logicalTile (i / 17) (i % 17) with
    | none => .none_
    | some t => .local_ (.tile t)
  | 0x02 => match d.logicalTile (i / 85) (i / 5 % 17) with
    | none => .none_
    | some t => .local_ (.engine t (match i % 5 with | 0 => 0 | 1 => 1 | 2 => 3 | 3 => 6 | _ => 7))
  | 0x03 => part
  | 0x04 => part
  | 0x05 => part
  | 0x06 => part
  | 0x07 => part
  | 0x09 => part
  | 0x0A => part
  | 0x0B => part
  | 0x0F => .parts (partBit (3 * i) ||| partBit (3 * i + 1) ||| partBit (3 * i + 2))
  | 0x10 => .warm
  | 0x14 => .core i
  | 0x15 => .warm
  | 0x16 => .warm
  | 0x18 => .warm
  | _ => .none_

/-- Whether the slice that runs on a tile has overrun: late by more than one tick period and the root's LIMIT_US (R62), counted from the
guard start at which it became late to the latest time told. -/
def Dev.overrun (d : Dev) (t : TileRef) : Bool :=
  let x := d.tile t
  match x.cur with
  | some s => decide (x.run = .running ∨ x.run = .ending) && x.late && s.late &&
      decide (s.lateAt + 1000 * (d.tick.periodUs + d.limitUs) < d.tick.clock)
  | none => false

/-- A unit's record of samples: its counter and at how many samples in a row it had pending work and that counter (R436). -/
def Dev.sampled (d : Dev) (u : BitVec 16) : W32 × Nat := Tab.look (0, 0) d.gander.samples u.toNat

/-- Whether a unit is hung at the sample taken last (R436). -/
def Dev.isHung (d : Dev) (u : BitVec 16) : Bool := decide (d.fld (At.gander 0x000) 0 4 + 1 ≤ (d.sampled u).2)

/-- The event record of a hang (R437). -/
def Dev.hangEvent (d : Dev) (u : BitVec 16) (level : Nat) : Dev :=
  let t := match d.firstLevel u with
    | .local_ (.engine t _) => some t
    | .local_ (.tile t) => some t
    | _ => none
  let e := match d.firstLevel u with
    | .local_ (.engine _ e) => e.val
    | _ => 0xFF
  d.raise 0x10 { ctx := (t.map (fun t => (d.tile t).ctx.toNat)).getD 0xFF, partition := (unitPart u).getD 0xFF,
                 tile := (t.map (·.tile.val)).getD 0xFF, engine := e, unit := u.toNat,
                 arg := [BitVec.ofNat 8 level, 0, 0, 0] ++ toLE 4 (d.sampled u).1.toNat }

/-- Partitions fenced and held for the owner, with the hung unit left as it stands (R437). -/
def Dev.hold (v : Variant) (d : Dev) (m : BitVec 12) (u : BitVec 16) : Dev :=
  (partsOf (m &&& v.parts)).foldl (fun d n => (d.fence v n).onGander fun g => { g with held := Tab.ins n u (Tab.drop n g.held) })
    ((d.hangEvent u 4).noteSuspects u)

/-- The cause that a hang gives a recovery (R449). -/
def Dev.hangCause (d : Dev) (u : BitVec 16) : W8 :=
  match d.firstLevel u with
  | .local_ (.tile t) => if d.overrun t then 0x02 else 0x01
  | .parts _ => if unitKind u = 0x0F then 0x06 else 0x01
  | _ => 0x01

/-- A unit found hung (R437). -/
def Dev.hang (v : Variant) (d : Dev) (u : BitVec 16) : Dev :=
  let auto := d.bit (At.gander 0x000) 4
  let cause := d.hangCause u
  match d.firstLevel u with
  | .core k => (d.hangEvent u 0xFF).coreFault v k
  | .local_ l =>
    if auto then ((d.hangEvent u (match l with | .engine _ _ => 0 | _ => 1))).localReset v l cause
    else d.hold v (partBit ((unitPart u).getD 0)) u
  | .parts m => if auto then (d.hangEvent u 2).recover v m cause u false else d.hold v m u
  | .warm => if auto then (d.hangEvent u 3).warmReset v cause u false else d.hold v v.parts u
  | .none_ => d

/-- HANG (R436, R437): a unit that the sample taken last shows hung, or a tile whose slice has overrun; a unit of a partition that
is being treated is not treated again (R444). -/
def execHang (u : BitVec 16) (s : State) : Host.Outcome State Fault Refusal :=
  s.onDev fun d =>
    let late := match d.firstLevel u with
      | .local_ (.tile t) => d.overrun t
      | _ => false
    let treated := d.dev.inWarm || ((unitPart u).map (fun n => d.cutOff n)).getD false
    if treated || !(d.isHung u || late) then d
    else (d.hang s.fuse.variant u).onGander fun g => { g with samples := Tab.put (0, 0) g.samples u.toNat (0, 0) }

/-- CONTROL_STATE_PARITY_ERROR (R449): recovery with cause LOGIC; a sequencer core fails over (R67), a unit of no partition takes
a device warm reset. In a recovery of its partition it is part of the dump, or, after the snapshot, waits for the return (R444). -/
def execControlStateParityError (u : BitVec 16) (s : State) : Host.Outcome State Fault Refusal :=
  s.onDev fun d =>
    let v := s.fuse.variant
    match unitPart u with
    | some n =>
      match d.gander.recovery n with
      | some (_, r) =>
        if r.warm ∨ r.step = .fence ∨ r.step = .snapshot then d else d.onGander fun g => { g with later := g.later.filter (· != u) ++ [u] }
      | none => d.recover v (partBit n) 0x05 u false
    | none =>
      if unitKind u = 0x14 then d.coreFault v (unitIndex u)
      else if unitKind u = 0x0F then
        d.recover v (partBit (3 * unitIndex u) ||| partBit (3 * unitIndex u + 1) ||| partBit (3 * unitIndex u + 2)) 0x05 u false
      else d.warmReset v 0x05 u false

/-- GANDER_LOST (R438): four heartbeats of the device-level Gander are missed. -/
def execGanderLost (s : State) : Host.Outcome State Fault Refusal :=
  s.onDev fun d => d.warmReset s.fuse.variant 0x07 (unitNo 0x16 0) false

/-- CUSTODY_WATCHDOG_EXPIRY (R438, R447): FAULT_N is held low for a cold reset. -/
def execCustodyWatchdogExpiry (s : State) : Host.Outcome State Fault Refusal :=
  s.onDev fun d => { d with pins := { d.pins with faultN := false }, retain := { d.retain with ending := 5 } }

/-! ## The fence's end and the snapshot (R440, R443) -/

/-- Whether the slice and the controller of a partition answer in a recovery: neither is the hung unit. -/
def Recovery.answers (r : Recovery) (n : Nat) : Bool :=
  !(r.cause == 0x01 && (r.unit == unitNo 0x09 n || r.unit == unitNo 0x0A n))

/-- The fence of one partition ends: what waits on a fill is answered FENCED, dirty lines are written back where the slice and
controller answer, and named as lost where they do not (R440, R442). -/
def Dev.endFence (d : Dev) (r : Recovery) (n : Nat) : Recovery × Dev :=
  let h := d.hub n
  let d := (h.fills.flatMap (·.waiters)).foldl (fun (d : Dev) j => d.send (.sliceResp j.req.tag sFenced [])) d
  let d := d.onHub n fun h => { h with fills := [] }
  if r.answers n then (r, d.flushCache n)
  else
    ({ r with dirty := r.dirty ++ (h.cache.filter (fun e => e.2.dirty)).map (fun e => lineAddr n e.1) },
     d.onHub n fun h => { h with cache := [] })

/-- FENCE_END (R440, R441): its requests are drained or answered, or one tick period has passed; the snapshot starts. -/
def execFenceEnd (n : Fin 12) (s : State) : Host.Outcome State Fault Refusal :=
  s.onDev fun d =>
    match d.gander.recovery n.val with
    | none => d
    | some (k, r) =>
      if r.step ≠ .fence then d
      else
        let x := (partsOf r.parts).foldl (fun (x : Recovery × Dev) m => x.2.endFence x.1 m) (r, d)
        x.2.setRecovery k { x.1 with step := .snapshot }

/-- SIDE_PATH_READ_TIMEOUT (R442, R443): a unit that misses a read is UNREADABLE; where it holds the tag arrays of a slice, the
whole stack is treated as lost. -/
def execSidePathReadTimeout (n : Fin 12) (u : BitVec 16) (s : State) : Host.Outcome State Fault Refusal :=
  s.onDev fun d =>
    match d.gander.recovery n.val with
    | none => d
    | some (k, r) =>
      if r.step ≠ .snapshot ∨ r.unreadable.contains u then d
      else d.setRecovery k { r with unreadable := r.unreadable ++ [u], wholeStack := r.wholeStack || unitKind u == 0x09 }

/-! ## The dump (R448 to R450) -/

/-- A section of a dump. -/
structure DumpPart where
  unit : BitVec 16
  kind : Nat
  size : Nat
  deriving DecidableEq, Repr

def dumpSlotSize : Nat := 0x100000

/-- The sections of one partition (R450), but for the dirty list. -/
def dumpParts (n : Nat) : List DumpPart :=
  ⟨unitNo 0x08 n, 0x01, 8192⟩ :: (List.range 17).map (fun k => ⟨unitNo 0x01 (17 * n + k), 0x02, 2048⟩) ++
    (List.range 17).flatMap (fun k =>
      (tileEngines n k ++ [unitNo 0x03 n, unitNo 0x04 n, unitNo 0x05 n]).map (fun u => ⟨u, 0x03, 256⟩)) ++
    [⟨unitNo 0x03 n, 0x04, 4096⟩, ⟨unitNo 0x06 n, 0x05, 256⟩, ⟨unitNo 0x09 n, 0x06, 16384⟩, ⟨unitNo 0x0A n, 0x08, 2176⟩,
     ⟨unitNo 0x0B n, 0x09, 1280⟩, ⟨unitNo 0x04 n, 0x0A, 512⟩, ⟨unitNo 0x07 n, 0x0B, 1088⟩]

/-- The dirty-list section of a partition: the first 4,096 lost lines (R450). -/
def Recovery.dirtyOf (r : Recovery) (n : Nat) : List Nat := (r.dirty.filter (fun a => decide (a / quireStride = n))).take 4096

/-- The sections of a dump with their bytes: a dirty list as R450 gives it, every other body free values (log 1), an UNREADABLE
unit's section its 64 shadow bytes. -/
def Dev.dumpBodies (d : Dev) (r : Recovery) : List (DumpPart × List W8) × Dev :=
  let ps := partsOf r.parts
  let first := (unitPart r.unit).getD 12
  let order := ps.filter (· == first) ++ ps.filter (· != first)
  order.foldl (fun (x : List (DumpPart × List W8) × Dev) n =>
    let bodies := (dumpParts n).foldl (fun (y : List (DumpPart × List W8) × Dev) p =>
      let p := if r.unreadable.contains p.unit then { p with kind := 0x0C, size := 64 } else p
      let b := y.2.drawBytes p.size
      (y.1 ++ [(p, b.1)], b.2)) (x.1, x.2)
    let dirty := r.dirtyOf n
    if dirty.isEmpty then bodies
    else (bodies.1 ++ [(⟨unitNo 0x09 n, 0x07, 8 * dirty.length⟩, dirty.flatMap (toLE 8))], bodies.2)) ([], d)

/-- The sections that fit in a slot. -/
def dumpFit : List (DumpPart × List W8) → Nat → List (DumpPart × List W8)
  | [], _ => []
  | p :: r, room => if 32 + p.1.size ≤ room then p :: dumpFit r (room - 32 - p.1.size) else []

/-- FLAGS of the dump header (R449). -/
def Recovery.flags (r : Recovery) : Nat :=
  (if r.truncated then 1 else 0) + (if r.escalated then 2 else 0) + (if r.wholeStack then 4 else 0)

/-- The slot that a dump fills: the lowest free one, else the oldest (R448). -/
def Gander.slot (g : Gander) : Nat :=
  match (List.range 4).find? (fun k => !g.dumpValid.getLsbD k) with
  | some k => k
  | none => g.dumpOrder.headD 0

/-- The section headers of a dump from a first body offset on (R450). -/
def Dev.dumpHeads (v : Variant) (late : Bool) : List (DumpPart × List W8) → Nat → List (BitVec 16) → Dev → List W8 × Dev
  | [], _, _, d => ([], d)
  | (p, b) :: r, off, bad, d =>
    let ns := d.drawBytes 8
    let fl := ns.2.draw
    let partial_ := if late then (fl.1.toNat % 2) * 2 else 0
    let unread := if bad.contains p.unit then 1 else 0
    let h := toLE 4 p.unit.toNat ++
      [BitVec.ofNat 8 p.kind, (d.entry v p.unit).state.setWidth 8, BitVec.ofNat 8 (unread + partial_), 0] ++
      toLE 4 off ++ toLE 4 b.length ++ ns.1 ++ toLE 8 0
    let x := Dev.dumpHeads v late r (off + b.length) bad fl.2
    (h ++ x.1, x.2)

/-- Writes the dump of a recovery (R448 to R450): the recovery with its slot and flags. The times it states are free values
(log 1). -/
def Dev.writeDump (v : Variant) (d : Dev) (r : Recovery) (late : Bool) : Recovery × Dev :=
  let x := d.dumpBodies r
  let fit := dumpFit x.1 (dumpSlotSize - 64)
  let r := { r with truncated := r.truncated || late || decide (fit.length < x.1.length) }
  let h := Dev.dumpHeads v late fit (64 + 32 * fit.length) r.unreadable x.2
  let us := if late then (toLE 4 1000, h.2) else h.2.drawBytes 4
  let body := fit.flatMap (·.2)
  let head := toLE 2 1 ++ [r.cause, if r.warm then 3 else 2] ++ toLE 2 r.parts.toNat ++ toLE 2 r.suspects.toNat ++
    toLE 8 r.tick.toNat ++ toLE 8 r.fstep.toNat ++ toLE 4 r.unit.toNat ++ toLE 4 fit.length ++
    toLE 4 (64 + h.1.length + body.length) ++ toLE 4 (fit.filter (fun p => r.unreadable.contains p.1.unit)).length ++
    toLE 4 r.dirty.length ++ toLE 4 r.flags ++ us.1 ++ List.replicate 12 0
  let d := us.2
  let k := d.gander.slot
  let d := if d.gander.dumpValid.getLsbD k then d.count (At.gander 0x020) 8 4 1 else d
  ({ r with slot := some k }, d.onGander fun g =>
    { g with dumps := Tab.put [] g.dumps k (head ++ h.1 ++ body), dumpValid := g.dumpValid ||| BitVec.ofNat 4 (2 ^ k),
             dumpOrder := g.dumpOrder.filter (· != k) ++ [k] })

/-! ## The reset of a partition (R441 step 3, R553) -/

/-- A unit that waits to be enabled comes to bring-up, at the reset of its partition or the retrain of its port (R453). -/
def Dev.beginEnable (v : Variant) (d : Dev) (mine : BitVec 16 → Bool) : Dev :=
  match d.gander.disabling with
  | none => d
  | some x =>
    if x.phase = 2 ∧ mine x.unit then
      (d.moveUnit v x.unit stBringup).onGander fun g => { g with disabling := some { x with phase := 3 } }
    else d

/-- The bring-up of a unit being enabled is complete: it is READY, and the request is done (R453, R551). -/
def Dev.endEnable (v : Variant) (d : Dev) (mine : BitVec 16 → Bool) : Dev :=
  match d.gander.disabling with
  | none => d
  | some x =>
    if x.phase = 3 ∧ mine x.unit then
      ((d.moveUnit v x.unit stReady).onGander fun g => { g with disabling := none, result := 1 }).raise 0x14
        { unit := x.unit.toNat, arg := [stBringup.setWidth 8, stReady.setWidth 8] }
    else d

/-- Whether a unit belongs to a partition. -/
def inPart (n : Nat) (u : BitVec 16) : Bool := unitPart u == some n

/-- Tile state, tile memory, instruction memory and sector buffer of a sector after its reset (R553). -/
def Dev.resetSector (d : Dev) (n : Nat) : Dev :=
  let d := (List.range 16).foldl (fun d k =>
    let t := tileOf (16 * n + k)
    let x := d.tile t
    let d := d.setTile t { rowsUsed := x.rowsUsed, colsUsed := x.colsUsed, spared := x.spared, skip := x.skip, cur := x.cur }
    let d := d.zeroAcc t
    { d with tileBad := Tab.put {} d.tileBad t.ix { all := true },
             imem := Mem.clear d.imem (t.ix * 65536) 65536,
             imemBad := d.imemBad.filter (fun w => decide (w / 16384 ≠ t.ix)) }) d
  d.onSector n fun s => { pool := s.pool, bad := { all := true }, nextStream := s.nextStream,
                          xh := { repair := s.xh.repair }, st := { repair := s.st.repair } }

/-- The slice and controller of a partition after their reset, the stack in self-refresh (R264, R371). -/
def Dev.resetSlice (d : Dev) (n : Nat) : Dev :=
  let d := d.onHub n fun h =>
    { h with cache := [], fills := [], waiting := [], balance := [], budgets := [], windows := [], oxQueue := [], oxPass := none, oxLast := 0,
             marginArmed := false, marginOn := false, marginDone := false, marginFail := false, selfRefresh := true }
  d.onSeq fun q => { q with windows := q.windows.map (fun e => if e.slice = n then { e with deferred := [] } else e) }

/-- Step 3 of R441 for one partition. -/
def Dev.resetPartition (v : Variant) (d : Dev) (n : Nat) : Dev :=
  (((d.resetSector n).resetSlice n).moveMembers v n stFenced stResetting).beginEnable v (inPart n)

/-- A link die after its reset (R439): its ports start afresh, its registers take their values at reset; link die 0 carries the host
port. -/
def Dev.resetLink (d : Dev) (k : Nat) : Dev :=
  let d := (d.resetBlock .link k false).onLinks fun l =>
    { l with ports := l.ports.filter (fun e => !(decide (e.1 / 8 = k ∧ e.1 < 16) || decide (e.1 = 16 ∧ k = 0))) }
  if k = 0 then d.resetBlock .host 0 true else d

/-- The shared units of R24 after a device warm reset (R446): the custody die saves the tick numbers of a root before (R60); the ticks
stop until boot firmware sets RUN again, the sequencer holds no plan, the controller's clock is 950 MHz; Gander's registers, which tell
of the recovery and hold the requests that wait for it (R444), stay (DEDUCED, log 41); the journal's entry numbers go on (R376). A link die is reset where it is the cause. -/
def Dev.resetShared (d : Dev) (u : BitVec 16) : Dev :=
  let d := (((d.resetBlock .tick 0 true).resetBlock .seq 0 true).resetBlock .pwr 0 true).discardHeld .gander 0
  let root := d.isRoot
  let d := d.onTick fun t =>
    { number := t.number, step := t.step, prevStep := t.prevStep, periodUs := t.periodUs, nextAt := t.nextAt, lastEdge := t.lastEdge,
      clock := t.clock, saved := if root && t.begun then some (t.number, t.lastEdge) else t.saved }
  let d := d.onSeq fun q =>
    { jrnOff := q.jrnOff, jrnHead := q.jrnHead, jrnStep := q.jrnStep, jrnEntries := q.jrnEntries, jrnLost := q.jrnLost,
      jrnIndex := q.jrnIndex, captured := q.captured, uncaptured := q.uncaptured, nextSerial := q.nextSerial, evalPart := q.evalPart, evalCtx := q.evalCtx,
      wlBase := q.wlBase, wlLog2 := q.wlLog2, failedCore := q.failedCore, active := q.active && q.failedCore }
  let d := d.onPower fun p => { p with clock := 950, next := 950, limit := 0, trip := false, tripHold := false, emergency := false,
                                       emergencies := 0, charArmed := false, charPhase := 0 }
  if unitKind u = 0x10 then d.resetLink (unitIndex u) else d

/-- The reset that follows the snapshot (R441 step 3, R446). -/
def Dev.resetRecovered (v : Variant) (d : Dev) (k : Nat) (r : Recovery) : Dev :=
  let d := (partsOf r.parts).foldl (fun d n => d.resetPartition v n) d
  let d := if r.warm then d.resetShared r.unit else d
  d.setRecovery k { r with step := .reset }

/-- SNAPSHOT_COMPLETE (R441): the dump is complete, and the reset begins. -/
def execSnapshotComplete (n : Fin 12) (s : State) : Host.Outcome State Fault Refusal :=
  s.onDev fun d =>
    match d.gander.recovery n.val with
    | none => d
    | some (k, r) =>
      if r.step ≠ .snapshot then d
      else
        let x := d.writeDump s.fuse.variant r false
        x.2.resetRecovered s.fuse.variant k x.1

/-- SNAPSHOT_TIMEOUT (R443): sections not read within 1 ms are PARTIAL and the dump TRUNCATED; the recovery goes on. Which
sections those are the manual leaves to the moment (log 1). -/
def execSnapshotTimeout (n : Fin 12) (s : State) : Host.Outcome State Fault Refusal :=
  s.onDev fun d =>
    match d.gander.recovery n.val with
    | none => d
    | some (k, r) =>
      if r.step ≠ .snapshot then d
      else
        let x := d.writeDump s.fuse.variant r true
        x.2.resetRecovered s.fuse.variant k x.1

/-! ## Restore and return (R441 steps 4 and 5, R442, R446) -/

/-- The restore of one partition (R442), after its registers take the values of the record: scratch ways and pool in force,
repairs, poison over the lost lines, or over the whole stack where its tags were UNREADABLE, and over the scratch. -/
def Dev.restorePartition (v : Variant) (d : Dev) (n : Nat) (r : Recovery) (ways : List (Fin 18)) (vias : List (Fin 128)) : Dev :=
  let d := d.repairPartition v n ways vias
  let d := (d.resetBlock .sect n false).resetBlock .hub n false
  let d := d.onSector n fun s => { s with pool := d.fld (At.sector n 0x500) 0 5 }
  let d := d.onHub n fun h => { h with scratchWays := d.fld (At.hub n 0x028) 0 4, scratchBad := { all := true } }
  let d := if r.unreadable.contains (unitNo 0x09 n) then (List.range 128).foldl (fun d c => d.startFill n c) d
    else (r.dirty.filter (fun a => decide (a / quireStride = n))).foldl (fun (d : Dev) a => d.poisonLine n (a % quireStride / 64)) d
  d.onHub n fun h => { h with selfRefresh := false }

/-- Faults that arose in a recovery after its snapshot are handled once the partition has returned (R444). -/
def Dev.faultsAfter (v : Variant) (d : Dev) (parts : BitVec 12) : Dev :=
  let mine := fun (u : BitVec 16) => (partsOf parts).any (fun n => inPart n u)
  let d1 := d.onGander fun g => { g with later := g.later.filter (fun u => !mine u) }
  (d.gander.later.filter mine).foldl (fun d u => d.recover v (partBit ((unitPart u).getD 0)) 0x05 u false) d1

/-- The return of the partitions of a recovery: READY, requests accepted again, PARTITION_RECOVERED. The duration is a free value
(log 1). -/
def Dev.returnParts (v : Variant) (d : Dev) (k : Nat) (r : Recovery) : Dev :=
  let d := (partsOf r.parts).foldl (fun d n =>
    ((d.onHub n fun h => { h with fenced := decide ((d.entry v (unitNo 0x08 n)).state = stDisabled) }).moveMembers v n stResetting stReady
      ).endEnable v (inPart n)) d
  let dur := d.draw
  let d := dur.2.onGander fun g => { g with recoveries := Tab.drop k g.recoveries }
  let d := if r.warm then d.count (At.gander 0x008) 8 8 1 else d.count (At.gander 0x008) 16 16 1
  let low := (partsOf r.parts).headD 0
  let d := d.setLast r.cause low (if r.warm then 3 else 2) (r.slot.getD 0) (dur.1.toNat % 2 ^ 32 / 10)
  let d := d.raise 0x11
    { partition := low, unit := r.unit.toNat,
      arg := [r.cause, if r.warm then 3 else 2, match r.slot with | none => 0xFF | some s => BitVec.ofNat 8 s,
              BitVec.ofNat 8 r.flags] ++ toLE 2 r.parts.toNat ++ [0, 0] ++ toLE 4 r.dirty.length ++ toLE 4 (dur.1.toNat % 2 ^ 32) }
  d.faultsAfter v r.parts

/-- The reason of a copy (R519), 0 where it is valid. The record key follows from UID and life-cycle state (R516), so a copy of
another state fails its signature. -/
def Record.check (f : Fuses) (r : Record) : BitVec 4 :=
  if !r.valid && decide (r.reason = 1) then 1
  else if r.lc ≠ f.lc ∨ r.uid ≠ f.uid then 3
  else if r.variant ≠ f.variant then 5
  else if r.stepping ≠ f.stepping then 6
  else if !r.valid then 7
  else if r.factory then 8
  else 0

/-- Whether the custody die holds a copy of the settings record that passes checks 1 to 7 (R442, R519). -/
def Retain.intact (r : Retain) (f : Fuses) : Bool := [r.copy0, r.copy1].any (fun x => decide (x.check f = 0 ∨ x.check f = 8))

/-- READY after a device warm reset: FAULT_N is released (R446). -/
def Dev.warmReady (d : Dev) : Dev :=
  let d := { d with dev := { d.dev with ready := true, inWarm := false }, pins := { d.pins with faultN := true } }
  d.raise 0x1A { arg := [if d.retain.fallback then 1 else 0, d.retain.reason.setWidth 8, 1] }

/-- PARTITION_RESET_DONE (R442, R446): the reset of a partition is complete and its restore runs; a device warm reset is over once
that of every partition is. Without a settings record that passes its checks a partition's restore escalates to one. -/
def execPartitionResetDone (n : Fin 12) (badWays : List (Fin 18)) (viaChannels : List (Fin 128)) (s : State) :
    Host.Outcome State Fault Refusal :=
  s.onDev fun d =>
    let v := s.fuse.variant
    match d.gander.recovery n.val with
    | none => d
    | some (k, r) =>
      if r.step ≠ .reset ∨ r.restored.getLsbD n.val then d
      else if !r.warm && !d.retain.intact s.fuse then d.escalate.warmReset v r.cause r.unit true
      else
        let d := d.restorePartition v n.val r badWays viaChannels
        let r := { r with restored := r.restored ||| partBit n.val }
        if r.restored ≠ r.parts then d.setRecovery k r
        else if r.warm then (d.returnParts v k r).warmReady
        else d.setRecovery k { r with step := .restored }

/-- At a tick edge, partitions whose restore is done return (R441 step 5). -/
def Dev.returns (v : Variant) (d : Dev) : Dev :=
  (d.gander.recoveries.filter (fun e => decide (e.2.step = .restored))).foldl (fun d e => d.returnParts v e.1 e.2) d

/-- RESET_LEVEL_TIMEOUT (R439): a level in progress is abandoned and the next starts in its place: engine, tile, partition, device
warm reset; after the last the custody die holds FAULT_N low for a cold reset (R447). -/
def execResetLevelTimeout (l : LevelRef) (s : State) : Host.Outcome State Fault Refusal :=
  s.onDev fun d =>
    let v := s.fuse.variant
    match l with
    | .engine t e =>
      match d.gander.lastReset with
      | some (.engine t' e', c) => if t = t' ∧ e = e' then (d.escalate.hangEvent (d.tileUnit t) 1).localReset v (.tile t) c else d
      | _ => d
    | .tile t =>
      match d.gander.lastReset with
      | some (.tile t', c) =>
        if t = t' then
          (d.escalate.onGander fun g => { g with lastReset := none }).recover v (partBit t.sector.val) c (d.tileUnit t) true
        else d
      | _ => d
    | .partition n =>
      match d.gander.recovery n.val with
      | none => d
      | some (_, r) => if r.step = .reset ∧ !r.warm then d.escalate.warmReset v r.cause r.unit true else d
    | .warm => if d.dev.inWarm then { d.escalate with pins := { d.pins with faultN := false } } else d

/-! ## Dump slots (R448, R451, R456) -/

/-- DUMP_SLOT_FREE (R448): writing 1 to a bit of DUMP_STATUS.VALID frees its slot. -/
def execDumpSlotFree (mask : BitVec 4) (s : State) : Host.Outcome State Fault Refusal :=
  s.onDev fun d => d.onGander fun g =>
    { g with dumpValid := g.dumpValid &&& ~~~mask, dumpOrder := g.dumpOrder.filter (fun k => !mask.getLsbD k) }

/-- The debug level in force; in BLANK every level is open (R451, R486). -/
def Dev.debugOpen (d : Dev) (lc : BitVec 4) : Nat := if lc = 0 then 3 else d.sec.debugLevel.toNat

/-- Whether a byte of a dump is readable at any time: header, section headers and summaries (R451). -/
def dumpPublic (b : List W8) (off : Nat) : Bool :=
  let n := recNat b 0x1C 4
  decide (off < 64 + 32 * n) || (List.range n).any (fun i =>
    let h := 64 + 32 * i
    recNat b (h + 4) 1 == 1 && decide (recNat b (h + 8) 4 ≤ off) && decide (off < recNat b (h + 8) 4 + recNat b (h + 12) 4))

/-- Bytes of a dump slot, zero where R451 withholds them. -/
def Dev.dumpBytes (d : Dev) (lc : BitVec 4) (slot off len : Nat) : List W8 :=
  let b := Tab.look [] d.gander.dumps slot
  (List.range len).map fun i =>
    if 1 ≤ d.debugOpen lc ∨ dumpPublic b (off + i) then b.getD (off + i) 0 else 0

/-- A read of DUMP_DATA: the selected word; WORD advances (R456). -/
def Dev.dumpWord (d : Dev) (lc : BitVec 4) : W32 × Dev :=
  let word := d.fld (At.gander 0x024) 2 18
  let v := BitVec.ofNat 32 (leNat (d.dumpBytes lc (d.fld (At.gander 0x024) 20 2) (4 * word) 4))
  (v, d.setFld (At.gander 0x024) 2 18 ((word + 1) % 2 ^ 18))

/-- DUMP_DATA_READ (R456). -/
def execDumpDataRead (r : Requester) (s : State) : Host.Outcome State Fault Refusal :=
  s.onDev fun d =>
    let x := d.dumpWord s.fuse.lc
    x.2.send (.csr r 0 x.1)

/-! ## Owner resets (R452) -/

/-- OWNER_RESET_REQUEST (R452): a recovery of the partitions that RESET_REQ.PART names is armed. -/
def Dev.armReset (v : Variant) (d : Dev) : Dev :=
  d.onGander fun g => { g with resetArmed := true, resetParts := BitVec.ofNat 12 (d.fld (At.gander 0x014) 0 12) &&& v.parts }

def execOwnerResetRequest (s : State) : Host.Outcome State Fault Refusal := s.onDev fun d => d.armReset s.fuse.variant

/-- At a guard start, an armed reset whose tick has come begins, unless a partition it names is recovering; it resolves a hold
(R437, R444, R452). -/
def Dev.ownerReset (v : Variant) (d : Dev) : Dev :=
  let g := d.gander
  if !g.resetArmed || decide (d.tick.number.toNat < (d.reg64 (At.gander 0x018)).toNat) ||
      (partsOf g.resetParts).any (fun n => (g.recovery n).isSome) then d
  else
    let d' := d.onGander fun g => { g with resetArmed := false }
    match d.heldWhole v with
    | some u => d'.warmReset v 0x04 u false
    | none => d'.recover v g.resetParts 0x04 (unitNo 0x08 ((partsOf g.resetParts).headD 0)) false

/-! ## Disabling and enabling units (R453) -/

/-- Whether a unit may be disabled: a tile in service, a Crosshatch or Stipple engine, an Ox unit, a peer port, a partition. -/
def mayDisable (u : BitVec 16) : Bool :=
  unitKind u == 0x01 || unitKind u == 0x04 || unitKind u == 0x05 || unitKind u == 0x0B || unitKind u == 0x11 || unitKind u == 0x08

/-- DISABLE.REQ for the unit that DISABLE.UNIT names; one request is in progress at a time. -/
def Dev.requestDisable (v : Variant) (d : Dev) (enable : Bool) : Dev :=
  let u := BitVec.ofNat 16 (d.fld (At.gander 0x02C) 0 16)
  let st := (d.entry v u).state
  if d.gander.disabling.isSome then d
  else if mayDisable u && decide (st = if enable then stDisabled else stReady) then
    d.onGander fun g => { g with disabling := some { unit := u, phase := if enable then 2 else 0 }, result := 0 }
  else if !enable && mayDisable u && ((unitPart u).map (fun n => d.cutOff n)).getD false then
    d.onGander fun g => { g with disabling := some { unit := u, phase := 0 }, result := 0 }
  else d.onGander fun g => { g with result := 2 }

def execUnitDisableRequest (s : State) : Host.Outcome State Fault Refusal := s.onDev fun d => d.requestDisable s.fuse.variant false

def execUnitEnableRequest (s : State) : Host.Outcome State Fault Refusal := s.onDev fun d => d.requestDisable s.fuse.variant true

/-- A port whose link starts afresh: sequence numbers from 0, every credit held, nothing queued or unacknowledged (R411 to R414). -/
def Port.cleared (x : Port) : Port :=
  { x with up := false, lanes := 0, used := 0, mode := 0, paused := 0, rxSeq := 0, rxNak := false, rxUnacked := 0, txSeq := 0, spent := [], txQueue := [],
           replayBuf := [], replays := 0, assembling := [] }

/-- A port goes down (R392): PORT_STATE with UP 0. -/
def Dev.portDown (d : Dev) (p : Nat) : Dev :=
  let x := d.port p
  let d := d.onTick fun t => { t with upstream := t.upstream.filter (fun u => u.1 != p) }
  (d.onPort p (·.cleared)).raise
    0x15 { unit := (if p = 16 then unitNo 0x13 0 else unitNo 0x11 p).toNat, arg := [BitVec.ofNat 8 p, 0, 0, x.spared] }

/-- The work of a tile still in flight ends with UNIT_DISABLED, and its core stops (R453). -/
def Dev.stopTile (v : Variant) (d : Dev) (t : TileRef) : Dev :=
  let n := t.sector.val
  let d := ((d.sector n).streams.filter (fun x => decide (x.tile = t.tile))).foldl (fun d x => d.cancelStream v n sUnitDisabled x) d
  let d := (List.range 9).foldl (fun d e => d.endQueue v t e sUnitDisabled) d
  d.onTile t fun x => { x.resetCore with skip := (x.cur.map (·.serial)).toList ++ x.skip }

/-- What ends when a unit becomes DISABLED (R453 step 3). -/
def Dev.stopUnit (v : Variant) (d : Dev) (u : BitVec 16) : Dev :=
  let i := unitIndex u
  let tiles := fun (n : Nat) => (List.range 16).map (fun k => tileOf (16 * n + k))
  match unitKind u with
  | 0x01 => match d.logicalTile (i / 17) (i % 17) with
    | none => d
    | some t => d.stopTile v t
  | 0x04 => (tiles i).foldl (fun d t => match (d.tile t).active 4 with
      | none => d
      | some q => (d.endByReset v t sUnitDisabled q).onSector i fun s => { s with xh := { s.xh with busy := none } }) d
  | 0x05 => (tiles i).foldl (fun d t => match (d.tile t).active 5 with
      | none => d
      | some q => (d.endByReset v t sUnitDisabled q).onSector i fun s => { s with st := { s.st with busy := none } }) d
  | 0x0B => d.stopOx v i sUnitDisabled
  | 0x08 => ((tiles i).foldl (fun d t => d.stopTile v t) d).stopOx v i sUnitDisabled
  | _ => d

/-- The edges of a disable (R453): DRAINING with new work refused, then DISABLED with the work ended; one that waits for a
recovery of its partition starts after it (R444). -/
def Dev.disableEdge (v : Variant) (d : Dev) : Dev :=
  match d.gander.disabling with
  | none => d
  | some x =>
    if x.phase = 0 then
      if ((unitPart x.unit).map (fun n => d.cutOff n)).getD false then d
      else
        let d := (d.moveUnit v x.unit stDraining).onGander fun g => { g with disabling := some { x with phase := 1 } }
        if unitKind x.unit = 0x08 then (d.onHub (unitIndex x.unit) fun h => { h with fenced := true }).abandonWindows v (unitIndex x.unit)
        else if unitKind x.unit = 0x11 then d.portDown (unitIndex x.unit)
        else d
    else if x.phase = 1 then
      ((d.stopUnit v x.unit).moveUnit v x.unit stDisabled).onGander fun g => { g with disabling := none, result := 1 }
    else d

/-- Whether a tile takes no slice: it or its partition is DRAINING or DISABLED, or its partition is fenced (R109, R440, R453). -/
def Dev.noSlice (v : Variant) (d : Dev) (t : TileRef) : Bool :=
  d.cutOff t.sector.val || [d.tileUnit t, unitNo 0x08 t.sector.val].any (fun u =>
    let st := (d.entry v u).state
    st == stDisabled || st == stDraining)

/-! ## Residue injection (R167) -/

/-- RES_INJECT (R167, R486): accepted at debug level TRACE or above, ignored otherwise. -/
def Dev.resInject (d : Dev) (lc : BitVec 4) (t : TileRef) : Dev :=
  if 2 ≤ d.debugOpen lc then d.setFld (At.tile t 0x108) 0 1 1 else d

def execResInject (_ : Requester) (t : TileRef) (s : State) : Host.Outcome State Fault Refusal :=
  s.onDev fun d => d.resInject s.fuse.lc t

end Sys2Proof.Machine
end

