-- ==== Sys2Proof/Machine/MemRows.lean ====
section
/-!
DEFINITION. Sys2Proof/Machine/MemRows.lean: requests at a hub slice with the fills they wait for (R249, R255, R270 to R274, R281),
bursts and scrubbing (R253, R256, R257), the fill of spare channels (R259), margining (R265, R266) and the invalidation of
translations (R286).
-/

namespace Sys2Proof.Machine

open Sys2Proof

/-! ## Requests at a slice -/

/-- The partition whose sector port a request comes through. -/
def portOf : Source → Option Nat
  | .sector n => some n.val
  | .ox _ => none
  | .peer _ => none
  | .host => none

def SliceOp.isAtomic : SliceOp → Bool
  | .read => false
  | .write _ => false
  | .atomic _ _ _ _ => true

def SliceOp.isWrite : SliceOp → Bool
  | .read => false
  | .write _ => true
  | .atomic _ _ _ _ => false

/-- Errors that the arrays of a slice hold of the line of a request (R271): of a cached line they stay with it until the code judges it; a
scratch line is judged here, corrected and counted, or lost. Whether the line is lost. A request that writes the whole line reads no
array. -/
def Dev.upsetLine (v : Variant) (d : Dev) (j : SliceJob) : Bool × Dev :=
  let u := j.req.upset
  if u.isEmpty ∨ j.wholeLine then (false, d)
  else
    match regionOf j.req.addr with
    | .quire n off =>
      (false, d.onHub n fun h =>
        { h with cache := h.cache.map (fun e => if e.1 = off / 64 then (e.1, { e.2 with upset := e.2.upset ++ u }) else e) })
    | .scratch n off =>
      let line := off / 64
      if v.sectors ≤ n ∨ (d.hub n).fenced ∨ (d.hub n).scratchWays * 0x200000 ≤ off ∨ (d.hub n).scratchBad.has line then (false, d)
      else
        let data := Mem.read d.scratch (scratchLine n line) 64
        match judge (flipData u data) (flipCheck u (rsCheck data)) with
        | .clean _ => (false, d)
        | .corrected x => (false, ({ d with scratch := Mem.store d.scratch (scratchLine n line) x }).count (At.hub n 0x004) 0 32 1)
        | _ => (true, d.onHub n fun h => { h with scratchBad := h.scratchBad.add line })
    | _ => (false, d)

/-- Performs a request within one line at its home slice, and answers it (R255, R273, R276). -/
def Dev.perform1 (v : Variant) (d : Dev) (j : SliceJob) : Dev :=
  let a := j.req.addr
  match j.op with
  | .read =>
    let r := d.localRead v a
    r.d.reply j r.st ((r.data.drop (a % 64)).take j.req.len)
  | .write data =>
    match regionOf a with
    | .aperture n w slot off =>
      if n < v.sectors ∧ !(d.hub n).fenced ∧ j.wholeLine then
        let src := match j.req.from_ with
          | .sector m => (d.stepOf m.val, false)
          | .ox _ => (d.tick.step, false)
          | .peer _ => (d.tick.step, true)
          | .host => (d.tick.step, true)
        let r := d.redStore v n w slot off src.1 src.2 data
        r.2.reply j r.1 []
      else
        let r := d.localRead v a
        r.d.reply j r.st []
    | _ =>
      let r := d.localWrite v a data
      r.d.reply j r.st []
  | .atomic op w x c =>
    if op = .fadd ∧ !w then d.reply j sTranslation []
    else
      let r := d.localAtomic v a op w x c
      r.2.2.reply j r.1 (if r.1 = 0 then toLE (if w then 4 else 8) r.2.1.toNat else [])

/-- A request at its home slice: its context is noted as one that uses the slice (R32, R433), the line is judged, and the request is
performed; on a line that is lost it completes with ECC_UNCORRECTABLE (R271). -/
def Dev.serve (v : Variant) (d : Dev) (j : SliceJob) : Dev :=
  let r := (d.touch j.req.ctx.val j.req.addr).upsetLine v j
  if r.1 then r.2.reply j sEcc [] else r.2.perform1 v j

/-- The bytes a request covers. -/
def SliceJob.bytes (j : SliceJob) : Nat :=
  match j.op with
  | .read => j.req.len
  | .write data => data.length
  | .atomic _ w _ _ => if w then 4 else 8

/-- Whether a request must wait for a Quire fill: it misses in the cache of its slice and is no whole-line write, or its line is
being filled (R270). A line of a group not yet filled with poison, and one of a failed channel, is answered at once (R258, R259). -/
def Dev.misses (v : Variant) (d : Dev) (j : SliceJob) : Option (Nat × Nat) :=
  match regionOf j.req.addr with
  | .quire n off =>
    let h := d.hub n
    let line := off / 64
    if !(decide (n < v.sectors) && decide (off < v.stackGiB * 2 ^ 30)) || h.fenced || h.lost line || h.unfilledAt line ||
        (h.cached line).isSome then none
    else if j.wholeLine && !(h.fills.any (fun f => f.line == line)) then none
    else some (n, line)
  | _ => none

/-- A request accepted by its slice: served, or waiting for the one fill of its line (R270). -/
def Dev.accept (v : Variant) (d : Dev) (j : SliceJob) : Dev :=
  if j.bytes = 0 ∨ 64 < j.req.addr % 64 + j.bytes then d.reply j sTranslation []
  else
    match d.misses v j with
    | none => d.serve v j
    | some (n, line) =>
      d.onHub n fun h =>
        if h.fills.any (fun f => f.line == line) then
          { h with fills := h.fills.map (fun f => if f.line = line then { f with waiters := f.waiters ++ [j] } else f) }
        else { h with fills := h.fills ++ [{ line := line, waiters := [j] }] }

/-- The regulator class of a request at its sector port (R280). -/
def SliceJob.cls (j : SliceJob) : Option Nat :=
  match portOf j.req.from_ with
  | none => none
  | some m => classOf m j.op.isAtomic j.op.isWrite (fun _ => 2) (regionOf j.req.addr)

/-- Charges a request to its partition and hands it to its slice. -/
def Dev.charged (v : Variant) (d : Dev) (j : SliceJob) : Dev :=
  (d.chargeFor (portOf j.req.from_) j.op.isAtomic j.op.isWrite 2 j.req.addr (if j.op.isAtomic then 64 else j.bytes)).accept v j

/-- A request to slice `n`: it waits at its sector port behind the others of its class while its regulator is closed (R281). -/
def Dev.request (v : Variant) (d : Dev) (n : Nat) (j : SliceJob) : Dev :=
  if homeSlice j.req.addr ≠ some n ∨ v.sectors ≤ n then d.reply j sTranslation []
  else
    match (portOf j.req.from_), j.cls with
    | some m, some k =>
      if d.regOpen m k && !((d.hub m).waiting.any (fun e => e.1 == k)) then d.charged v j
      else d.onHub m fun h => { h with waiting := h.waiting ++ [(k, j)] }
    | _, _ => d.charged v j

/-- After a refill, the requests that wait at a sector port proceed in order, each class until its balance is used up (R281). -/
def Dev.releasePort (v : Variant) (d : Dev) (n : Nat) : Dev :=
  let ws := (d.hub n).waiting
  let r := ws.foldl (fun (x : List (Nat × SliceJob) × Dev) e =>
    if x.2.regOpen n e.1 && !(x.1.any (fun y => y.1 == e.1)) then (x.1, x.2.charged v e.2) else (x.1 ++ [e], x.2)) ([], d)
  r.2.onHub n fun h => { h with waiting := r.1 }

/-- SLICE_READ (R270). -/
def execSliceRead (n : Fin 12) (q : SliceReq) (s : State) : Host.Outcome State Fault Refusal :=
  s.onDev fun d => d.request s.fuse.variant n.val ⟨q, .read⟩

/-- SLICE_WRITE (R255). -/
def execSliceWrite (n : Fin 12) (q : SliceReq) (data : List W8) (s : State) : Host.Outcome State Fault Refusal :=
  s.onDev fun d => d.request s.fuse.variant n.val ⟨q, .write data⟩

/-- SLICE_ATOMIC (R273, R274). -/
def execSliceAtomic (n : Fin 12) (q : SliceReq) (op : AmoOp) (w : Bool) (x c : W64) (s : State) : Host.Outcome State Fault Refusal :=
  s.onDev fun d => d.request s.fuse.variant n.val ⟨q, .atomic op w x c⟩

/-- CACHE_FILL_COMPLETE (R270): the line enters the cache, and every request that waits on it is served, on a fenced slice too: they were
accepted before (R440). -/
def execCacheFillComplete (n : Fin 12) (line : Nat) (s : State) : Host.Outcome State Fault Refusal :=
  s.onDev fun d =>
    match (d.hub n.val).fills.find? (fun f => f.line == line) with
    | none => d
    | some f =>
      match f.outcome with
      | none => d
      | some o => d.endLineFill n.val line f o.1 o.2

/-! ## Bursts (R253, R257) -/

/-- A logical channel is marked failed (R258). -/
def Dev.failChannel (d : Dev) (n c : Nat) : Dev :=
  d.onHub n fun h => if h.failed.contains c then h else { h with failed := h.failed ++ [c] }

/-- The parity of an access (R257): each failure is retried, three times at most; the fourth exhausts it. Whether it got
through. -/
def Dev.parity (d : Dev) (n line fails : Nat) : Bool × Dev :=
  let d := d.count (At.hub n 0x018) 16 16 (min fails 3)
  if fails < 4 then (true, d) else (false, (d.count (At.hub n 0x018) 0 16 1).failChannel n (channelOf line))

/-- A read of a line of the stack (R251, R253, R257): what is stored as the burst that passes its parity checks brings it; how many
transfers failed theirs. -/
def Dev.readBurst (d : Dev) (n line : Nat) (b : Burst) : Nat × Acc :=
  let h := d.hub n
  let x := burstArrives b (d.storedData n line) (d.storedCheck n line)
  if h.lost line then (0, ⟨sRetryExhausted, [], d⟩)
  else
    let p := d.parity n line x.1
    (x.1,
      if !p.1 then ⟨sRetryExhausted, [], p.2⟩
      else if h.unfilledAt line then ⟨sEcc, [], p.2.count (At.hub n 0x00C) 0 32 1⟩
      else
        match judge x.2.1 x.2.2 with
        | .clean data => ⟨0, data, p.2⟩
        | .poison => ⟨sEcc, [], p.2.count (At.hub n 0x00C) 0 32 1⟩
        | .corrected data => ⟨0, data, (p.2.storeLine n line data).count (At.hub n 0x004) 0 32 1⟩
        | .uncorrectable =>
          ⟨sEcc, [], (p.2.count (At.hub n 0x008) 0 32 1).setReg64 (At.hub n 0x010) (BitVec.ofNat 64 (lineAddr n line))⟩)

/-- A write burst (R251, R257): the stack stores what the transfer that passes its parity checks brings; one whose retries are exhausted
leaves the line in an unknown state, free values (log 1). -/
def Dev.writeBurst (d : Dev) (n line : Nat) (b : Burst) : Dev :=
  if (d.hub n).lost line then d
  else
    let x := burstArrives b (d.storedData n line) (d.storedCheck n line)
    let p := d.parity n line x.1
    if p.1 then p.2.storeRaw n line x.2.1 x.2.2
    else
      let y := p.2.drawBytes 72
      y.2.storeRaw n line (y.1.take 64) (y.1.drop 64)

/-- QUIRE_BURST_COMPLETE (R253, R257): the read that a fill waits for, or else a write of the line, reaches its end. -/
def execQuireBurstComplete (n : Fin 12) (line : Nat) (b : Burst) (s : State) : Host.Outcome State Fault Refusal :=
  s.onDev fun d =>
    let lines := s.fuse.variant.stackGiB * 2 ^ 30 / 64
    if s.fuse.variant.sectors ≤ n.val ∨ lines ≤ line then d
    else
      match (d.hub n.val).fills.find? (fun f => f.line == line) with
      | none => d.writeBurst n.val line b
      | some f =>
        if f.outcome.isSome then d
        else
          let r := d.readBurst n.val line b
          r.2.d.onHub n.val fun h =>
            { h with fills := h.fills.map (fun f => if f.line = line then { f with tries := r.1, outcome := some (r.2.st, r.2.data) } else f) }

/-- SCRUB_READ (R256): a read of the line in the background, with the outcomes of R253. -/
def execScrubRead (n : Fin 12) (line : Nat) (b : Burst) (s : State) : Host.Outcome State Fault Refusal :=
  s.onDev fun d =>
    if s.fuse.variant.sectors ≤ n.val ∨ s.fuse.variant.stackGiB * 2 ^ 30 / 64 ≤ line then d else (d.readBurst n.val line b).2.d

/-- POISON_FILL_GROUP (R259): one 4 KiB group of a newly mapped channel is filled; groups are numbered channel by channel within
a stack's 8 KiB stripes: group g is group g / 128 of channel g mod 128. -/
def execPoisonFillGroup (n : Fin 12) (group : Nat) (s : State) : Host.Outcome State Fault Refusal :=
  s.onDev fun d => (d.fillGroup n.val (group % 128) (group / 128)).endFill s.fuse.variant n.val

/-! ## Margining (R265, R266) -/

/-- MARGIN_START (R265): the window opens at the next edge; a slice that is absent, or that has one open, opens none. -/
def Dev.armMargin (v : Variant) (d : Dev) (n : Nat) : Dev :=
  if v.sectors ≤ n ∨ (d.hub n).marginOn then d else d.onHub n fun h => { h with marginArmed := true }

def execMarginStart (n : Fin 12) (s : State) : Host.Outcome State Fault Refusal :=
  s.onDev fun d => d.armMargin s.fuse.variant n.val

/-- A channel's margins under which it is marked failed (R266). -/
def marginBad (m : W16 × W16) : Bool := decide (2 * m.1.toNat < 125) || decide (m.2.toNat < 30)

/-- The end of a sweep (R265 step 5, R266): margins stored; a weak spare that no repair has used is FAULTED in the ledger; each weak
channel in use is copied to a spare with good margins, and stays failed where none is left (R260). -/
def Dev.marginDone (v : Variant) (d : Dev) (n : Nat) (margins : List (W16 × W16)) : Dev :=
  let h := d.hub n
  if !h.marginOn || h.marginDone then d
  else
    let good := fun (p : Nat) => !marginBad (margins.getD p (0, 0))
    let bad := (List.range 128).filter (fun c => !h.failed.contains c && !good (h.physical c))
    let weak := (d.spareChannels v n).filter (fun p => !good p)
    let d := d.onHub n fun h =>
      { h with margins := (margins.zipIdx.filter (fun e => decide (e.2 < 136))).map (fun e => (e.2, e.1)), marginDone := true,
               marginFail := !(bad.isEmpty && weak.isEmpty), marginAt := d.power.aged }
    let d := weak.foldl (fun d p => (d.moveUnit v (channelUnit n p) stBringup).moveUnit v (channelUnit n p) stFaulted) d
    let d := bad.foldl (fun d c =>
      match (d.spareChannels v n).filter good with
      | p :: _ => d.mapChannel v n c p
      | [] =>
        let d := (d.failChannel n c).onHub n fun h => { h with faulted := true, lostChannels := c :: h.lostChannels }
        if (d.entry v (unitNo 0x0C n)).state = stFaulted then d
        else (d.moveUnit v (unitNo 0x0C n) stFaulted).engage (unitNo 0x0C n) 10 0 0) d
    d.onRetain fun r => { r with changed := true }

def execMarginSweepDone (n : Fin 12) (margins : List (W16 × W16)) (s : State) : Host.Outcome State Fault Refusal :=
  s.onDev fun d => d.marginDone s.fuse.variant n.val margins

/-- The margining of a slice at a tick edge: an armed window begins with its fence, a finished one returns (R265 steps 3 and 6). -/
def Dev.marginEdge (v : Variant) (d : Dev) (n : Nat) : Dev :=
  let h := d.hub n
  if h.marginOn && h.marginDone then
    (d.onHub n fun h => { h with marginOn := false, marginDone := false,
                                 fenced := d.cutOff n || decide ((d.entry v (unitNo 0x08 n)).state = stDisabled) }).moveUnit v
      (unitNo 0x09 n) stReady
  else if h.marginArmed && !h.fenced then
    ((d.flushCache n).onHub n fun h =>
      { h with marginArmed := false, marginOn := true, marginFail := false, fenced := true }).abandonWindows v n |>.moveUnit v
      (unitNo 0x09 n) stFenced
  else d

/-! ## Invalidation of translations (R10, R286) -/

/-- The low half that a write of an `_HI` register joins: the one its requester holds, else the one in force (R10). -/
def Dev.takeLow (d : Dev) (r : Requester) (l : CsrLoc) : W32 × Dev :=
  let h := d.held r
  let k := l.home ((l.desc.map (·.scope)).getD 0)
  match h.writeLo.find? (fun e => e.1 == k) with
  | some e => (e.2, d.setHeld { h with writeLo := Tab.drop k h.writeLo })
  | none => (d.reg l, d)

/-- A register written by its field map (R11, R13). -/
def Dev.writeBits (d : Dev) (l : CsrLoc) (w : W32) : Dev :=
  match l.desc with
  | none => d
  | some r => d.setReg l (r.write (d.reg l) w)

/-- Whether an invalidation names a cached translation. -/
def xlNames (lo hi : W32) (e : XlUnit × Nat × Nat × W64) : Bool :=
  lo.getLsbD 15 || (decide (e.2.1 = lo.toNat / 2 ^ 17 % 16) &&
    (lo.getLsbD 16 || decide (e.2.2.1 = hi.toNat % 2 ^ 16 * 2 ^ 11 + lo.toNat / 2 ^ 21)))

/-- Drops the translations that an invalidation in progress names. -/
def Dev.dropNamed (d : Dev) : Dev :=
  match d.xlDropping with
  | none => d
  | some (lo, hi) => { d with xlCache := d.xlCache.filter (fun e => !xlNames lo hi e), xlDropping := none }

/-- A write of HUB.XL_INVAL_HI: the joined value starts the invalidation; one in progress completes first. Programs may not write
it (R86). -/
def Dev.xlInval (d : Dev) (r : Requester) (v : W32) : Dev :=
  match r with
  | .core _ => d
  | _ =>
    let lo := d.takeLow r (At.hub 0 0x110)
    let d := (lo.2.writeBits (At.hub 0 0x110) lo.1).writeBits (At.hub 0 0x114) v
    { d.dropNamed with xlDropping := some (d.reg (At.hub 0 0x110), d.reg (At.hub 0 0x114)) }

def execXlInvalHiWrite (r : Requester) (v : W32) (s : State) : Host.Outcome State Fault Refusal := s.onDev fun d => d.xlInval r v

/-- XL_INVAL_DONE (R286): every cached translation of the named pages has been dropped; BUSY reads 0. -/
def execXlInvalDone (s : State) : Host.Outcome State Fault Refusal := s.onDev fun d => d.dropNamed

end Sys2Proof.Machine
end

