-- ==== Sys2Proof/Machine/Power.lean ====
section
/-!
DEFINITION. Sys2Proof/Machine/Power.lean: the power controller (R457 to R479, R505, R511) and the refresh steps of the stacks
(R261 to R263): the clock decision and its forecast, timing emergencies and trips, the thermal model and its characterisation,
the ageing model and what it repairs. The times that commands carry are in ns.
-/

namespace Sys2Proof.Machine

open Sys2Proof

/-! ## Refresh steps (R261 to R263) -/

/-- The refresh step a reading calls for (R261). -/
def refreshFor (c : Nat) : Nat := if c ≤ 85 then 0 else if c ≤ 95 then 1 else if c ≤ 105 then 2 else 3

/-- The threshold above which a step begins (R261). -/
def refreshThreshold (step : Nat) : Nat := match step with
  | 0 => 0
  | 1 => 85
  | 2 => 95
  | _ => 105

/-- The share of channel time that refresh takes, in thousandths (R261). -/
def refreshShare (step : Nat) : Nat := match step with
  | 0 => 32
  | 1 => 64
  | _ => 128

/-- The step after an edge: it falls only while the reading lies 3 °C below the threshold of the higher step (R261). -/
def refreshFall (temp : Nat) : Nat → Nat
  | 0 => 0
  | k + 1 => if temp + 3 ≤ refreshThreshold (k + 1) then refreshFall temp k else k + 1

/-- Whether every stack of the variant is below a refresh step. -/
def Dev.stacksBelow (v : Variant) (d : Dev) (step : Nat) : Bool :=
  (List.range v.sectors).all fun n => decide ((d.hub n).refresh < step)

/-- The refresh cost of the ending tick and the fall of the step, at an edge (R261, R262). -/
def Dev.refreshEdge (d : Dev) (n now : Nat) (ended : Bool) : Dev :=
  let h := d.hub n
  let spent := ((h.refresh, now - h.refreshSince) :: h.parts).foldl (fun t p => t + refreshShare p.1 * p.2) 0
  let d := d.onHub n fun h => { h with refresh := refreshFall h.temp.toNat h.refresh, refreshSince := now, parts := [] }
  if ended then d.setReg (At.hub n 0x01C) (BitVec.ofNat 32 (spent * 16384 / 640000)) else d

/-! ## Policy, clock and voltages (R457, R458, R505) -/

/-- The compute clock in force within a tick (R462, R463). -/
def Power.running (p : Power) : Nat :=
  let base := if p.emergency then p.clock / 2 else p.clock
  if p.trip then min base 950 else base

/-- The committed clocks (R458), the highest first. -/
def clockSteps : List Nat := (List.range 20).map (fun i => 1900 - 50 * i)

/-- V of a sector at a clock, in mV (R458); never above 835 mV. -/
def Power.volts (p : Power) (s f : Nat) : Nat := min 835 (Config.vFuse s f + p.guard.toList.getD s 0)

/-- VDD_CORE for a clock: the highest sector voltage plus 15 mV (R458). -/
def Power.rail (v : Variant) (p : Power) (f : Nat) : Nat :=
  (List.range v.sectors).foldl (fun m s => max m (p.volts s f)) 0 + 15

/-- A voltage in V, as f32. -/
def voltsF32 (mv : Nat) : W32 := f32Div (f32OfNat mv) (f32OfNat 1000)

/-- The highest voltage in force. -/
def Power.highest (v : Variant) (p : Power) : Nat := p.rail v p.clock - 15

/-! ## The prediction (R459) -/

/-- exp(−t / tau), t in µs and tau in s. -/
def decay (us : Nat) (tau : W32) : W32 :=
  let x := f32Div (f32Div (f32OfNat us) (f32OfNat 1000000)) tau ^^^ 0x80000000
  match f32 x with
  | .fin s m e => if m = 0 then 0x3F800000 else (nearResult 0x20 x.toNat false (expVal s m e)).1
  | .inf s => if s then 0 else 0x7F800000
  | .nan _ => qnan32

/-- a ≤ b between two values. -/
def fvalLe (a b : FVal) : Bool := !a.isNan && !b.isNan && !b.lt a

/-- The poles one tick on at a power (R459, R466). -/
def Power.poles (p : Power) (us : Nat) (w : W32) : W32 × W32 :=
  let af := decay us p.tauF
  let as := decay us p.tauS
  (f32Add (f32Mul af p.xf) (f32Mul (f32Mul (f32Sub 0x3F800000 af) p.thetaF) w),
   f32Add (f32Mul as p.xs) (f32Mul (f32Mul (f32Sub 0x3F800000 as) p.thetaS) w))

/-- P and Thot2 of R459 for a clock. -/
def Power.predict (v : Variant) (p : Power) (tel : Telemetry) (us f : Nat) : W32 × W32 :=
  let dyn := fun (s : Nat) =>
    let r := f32Div (voltsF32 (p.volts s f)) (voltsF32 (p.volts s p.clock))
    f32Mul (f32Mul (tel.pd.getD s 0) (f32Div (f32OfNat f) (f32OfNat p.clock))) (f32Mul r r)
  let sum := (List.range v.sectors).foldl (fun t s => f32Add t (dyn s)) 0
  let w := f32Add (f32Add tel.pu (Config.leakage tel.thot)) sum
  let x := p.poles us w
  let temp := fun (s : Nat) => f32Add (f32Add (f32Add p.tc x.1) x.2) (f32Mul (p.thetaLoc.toList.getD s 0) (dyn s))
  (w, (List.range v.sectors).foldl (fun t s => if (f32 t).lt (f32 (temp s)) then temp s else t) (temp 0))

/-- Why a candidate does not qualify, as PWR.STATUS.LIMIT codes it: 0 where it does. `held`: a trip is in force; `top`: the
highest clock that timing allows (R462). -/
def Power.obstacle (v : Variant) (p : Power) (tel : Telemetry) (us top : Nat) (held : Bool) (f : Nat) : Nat :=
  let x := p.predict v tel us f
  let rising := decide (p.clock < f)
  let cap := FVal.ofInt p.capW
  if top < f then 1
  else if held && decide (950 < f) then 2
  else if p.fAge < f then 3
  else if !fvalLe (f32 x.1) cap || (rising && !fvalLe ((f32 x.1).mul (.ofInt 100)).1 (.ofInt (99 * p.capW))) then 4
  else if !fvalLe (f32 x.2) (.ofInt (if rising then (p.targetC : Int) - 1 else p.targetC)) then 5
  else 0

/-- The clock R459 chooses, and its LIMIT code: the obstacle of the next higher step, or 6 where 950 MHz misses the cap. -/
def Power.choose (v : Variant) (p : Power) (tel : Telemetry) (us top : Nat) (held : Bool) : Nat × Nat :=
  let ok := fun (f : Nat) => decide (f ≤ p.clock + 100) && decide (p.obstacle v tel us top held f = 0)
  let f := (clockSteps.find? ok).getD 950
  let unmet := decide (f = 950) && !fvalLe (f32 (p.predict v tel us 950).1) (FVal.ofInt p.capW)
  (f, if unmet then 6 else if f = 1900 ∨ p.clock + 100 < f + 50 then 0 else p.obstacle v tel us top held (f + 50))

/-- The highest clock that timing allows in the next tick: one step below the clock of a tick with more than 8 emergencies
(R462). -/
def Power.timingTop (p : Power) : Nat := if 8 < p.emergencies then max 950 (p.clock - 50) else 1900

/-- The clock that holds a stated power during characterisation (R467): rows 1 and 2 of R461 apply. -/
def Power.holding (v : Variant) (p : Power) (tel : Telemetry) (us top : Nat) (held : Bool) (watts : Nat) : Nat :=
  (clockSteps.find? fun f => decide (f ≤ top) && decide (f ≤ p.fAge) && !(held && decide (950 < f)) &&
    fvalLe ((f32 (p.predict v tel us f).1).mul (.ofInt 2)).1 (.ofInt watts)).getD 950

/-- Pi, and twice the power of each heating step (R467). -/
def Power.heatTwice (p : Power) : Nat :=
  let ph := min p.capW 1100
  if p.charPhase = 2 then 2 * ph else p.charIdle + ph

/-- Writes VDD_CORE (R505). -/
def Power.writeCore (p : Power) (mv : Nat) : Power :=
  if p.vCoreWritten = mv then p else { p with vCoreWritten := mv, confirmedCore := decide (p.vCore ≤ mv + 10 ∧ mv ≤ p.vCore + 10) }

/-- The period of a tick (R42) and the reserve in force in it (R65). -/
def Dev.periodOf (d : Dev) (n : Nat) : Nat :=
  if d.tick.pending && decide (d.tick.nextAt.toNat ≤ n) then d.tick.armedUs else d.tick.periodUs

def Dev.reserveOf (d : Dev) (n : Nat) : Nat :=
  if d.maintains n then reserveInForce (d.reserveAsked n) (d.periodOf n) else 0

/-- Whether a trip still holds the clock down (R463). -/
def Dev.stillTripped (v : Variant) (d : Dev) (tel : Telemetry) : Bool :=
  let p := d.power
  (p.trip || p.tripHold) &&
    !(fvalLe ((f32 tel.thot).add (.ofInt 5)).1 (.ofInt p.targetC) && d.stacksBelow v 3)

/-- CLOCK_DECISION (R459): the policy last written takes effect, the clock of the next tick is chosen, and a higher voltage is
written before it (R457, R505). -/
def Dev.decideClock (v : Variant) (d : Dev) (tel : Telemetry) : Dev :=
  let p := { d.power with capW := d.fld (At.pwr 0x000) 0 11, targetC := d.fld (At.pwr 0x004) 0 8,
                          floorMhz := d.fld (At.pwr 0x008) 0 12, tripHold := d.stillTripped v tel }
  let us := d.periodOf (d.tick.number.toNat + 1)
  let r := if p.charPhase = 1 ∨ p.charPhase = 4 then (950, 0)
    else if p.charPhase = 2 ∨ p.charPhase = 3 then (p.holding v tel us p.timingTop p.tripHold p.heatTwice, 0)
    else p.choose v tel us p.timingTop p.tripHold
  let p := { p with next := r.1, nextLimit := r.2 }
  let mv := p.rail v p.next
  { d with power := if p.vCoreWritten < mv then p.writeCore mv else p }

/-- The committed clock comes into force (R53, R55): a rise waits for the rails, and a lower voltage is written only now
(R505). -/
def Dev.commitClock (v : Variant) (d : Dev) : Dev :=
  let p := d.power
  let blocked := decide (p.clock < p.next) && !(p.confirmedCore && p.confirmedSram)
  let p := { p with clock := if blocked then p.clock else p.next, limit := if blocked then 1 else p.nextLimit,
                    trip := false, emergencies := 0 }
  let mv := p.rail v p.clock
  let p := if mv < p.vCoreWritten then p.writeCore mv else p
  let d := { d with power := p }
  if blocked then d.count (At.pwr 0x018) 0 16 1 else d

/-! ## Forecast (R460, R64) -/

/-- The largest planned cycles of a tick among the plans in force (R49, R64). -/
def Dev.plannedCycles (v : Variant) (d : Dev) (n : Nat) : Nat × Dev :=
  (d.seq.plans.filter (fun p => p.covers n && decide (p.budgets ≠ 0))).foldl (fun (r : Nat × Dev) p =>
    let x := r.2.virtLoad v p.ctx false (p.budgets.toNat + (n - p.first.toNat) * 4) 4
    (if x.st = 0 then max r.1 (leNat x.data) else r.1, x.d)) (0, d)

/-- CLOCK_FORECAST (R460). -/
def execClockForecast (tel : Telemetry) (s : State) : Host.Outcome State Fault Refusal :=
  s.onDev fun d =>
    let v := s.fuse.variant
    let n := d.tick.number.toNat + 1
    let p := d.power
    let f := (p.choose v tel (d.periodOf n) p.timingTop (d.stillTripped v tel)).1
    if !d.tick.begun || decide (p.floorMhz ≤ f) then d
    else
      let b := d.plannedCycles v n
      let d := b.2
      let want := (b.1 + f - 1) / f - (d.periodOf n - guardUs - d.reserveOf n)
      let sent := if d.bit (At.tick 0) 4 then want else 0
      let d := (d.onTick fun t => { t with floorWarn := true }).raise 0x04
        { arg := toLE 2 f ++ toLE 2 p.floorMhz ++ toLE 4 sent }
      if want = 0 then d else d.requestStretch (BitVec.ofNat 64 n) want

/-! ## Emergencies and trips (R462 to R464) -/

/-- TIMING_EMERGENCY (R462). -/
def execTimingEmergency (_n : Fin 12) (s : State) : Host.Outcome State Fault Refusal :=
  s.onDev fun d =>
    if d.power.emergency then d
    else (d.onPower fun p => { p with emergency := true, emergencies := p.emergencies + 1 }).count (At.pwr 0x018) 0 16 1

/-- TIMING_EMERGENCY_END (R462). -/
def execTimingEmergencyEnd (s : State) : Host.Outcome State Fault Refusal :=
  s.onDev fun d => d.onPower fun p => { p with emergency := false }

/-- A thermal trip (R463), once in a tick. -/
def Dev.thermalTrip (d : Dev) (source index c : Nat) : Dev :=
  if d.power.trip then d
  else
    ((d.onPower fun p => { p with trip := true, tripHold := true }).count (At.pwr 0x018) 16 16 1).raise 0x16
      { arg := [BitVec.ofNat 8 source, BitVec.ofNat 8 index, BitVec.ofNat 8 c] }

/-- THERMAL_TRIP (R463): a sensor of the compute die or a hub die at 110 °C or more, or a stack at refresh step 3. -/
def execThermalTrip (source : Fin 3) (index : W8) (c : W8) (s : State) : Host.Outcome State Fault Refusal :=
  s.onDev fun d =>
    if (source.val = 2 ∧ (d.hub index.toNat).refresh = 3) ∨ (source.val ≠ 2 ∧ 110 ≤ c.toNat) then
      d.thermalTrip source.val index.toNat c.toNat
    else d

/-- THERM_ALERT_N by a reading (R464). -/
def Dev.alertBy (v : Variant) (d : Dev) (c : Nat) : Dev :=
  d.onPower fun p =>
    if p.targetC < c ∨ !d.stacksBelow v 2 then { p with alert := true }
    else if c + 3 ≤ p.targetC then { p with alert := false } else p

/-- THERM_ALERT_N (R464): the hottest reading comes. -/
def execThermAlertN (c : W8) (s : State) : Host.Outcome State Fault Refusal :=
  s.onDev fun d => d.alertBy s.fuse.variant c.toNat

/-- THERM_TRIP_N (R464): latched; every clock of the compute die and hub dies stops, and each stack enters self-refresh. -/
def execThermTripN (s : State) : Host.Outcome State Fault Refusal :=
  s.onDev fun d =>
    let d := (d.onPower fun p => { p with thermTrip := true, clocksOn := false }).onRetain fun r => { r with ending := 3 }
    (List.range s.fuse.variant.sectors).foldl (fun d n => d.onHub n fun h => { h with selfRefresh := true }) d

/-- STACK_TEMP_READING (R261, R263): the step rises at once; at step 3 it is a thermal trip. -/
def execStackTempReading (n : Fin 12) (c : W8) (now : Nat) (s : State) : Host.Outcome State Fault Refusal :=
  s.onDev fun d =>
    let h := d.hub n.val
    let step := max h.refresh (refreshFor c.toNat)
    let d := d.onHub n.val fun h =>
      if h.refresh < step then
        { h with temp := c, refresh := step, parts := (h.refresh, now - h.refreshSince) :: h.parts, refreshSince := now }
      else { h with temp := c }
    let d := if 2 ≤ step then d.onPower fun p => { p with alert := true } else d
    if step = 3 then d.thermalTrip 2 n.val c.toNat else d

/-- REFCLK_LOST (R511): every other clock stops, FAULT_N is low, and the device waits for a cold reset. -/
def execRefclkLost (s : State) : Host.Outcome State Fault Refusal :=
  s.onDev fun d =>
    let d := (d.onPower fun p => { p with clocksOn := false }).onRetain fun r => { r with reasonRun := 1, ending := 4 }
    { d with pins := { d.pins with refclk := false, faultN := false } }

/-- AVSBUS_VOLTAGE_CONFIRM (R505): a rail's read-back, which confirms it within 10 mV of the value written. `rail` is VDD_SRAM. -/
def execAvsbusVoltageConfirm (rail : Bool) (mv : Nat) (s : State) : Host.Outcome State Fault Refusal :=
  s.onDev fun d => d.onPower fun p =>
    let near := fun (w : Nat) => decide (mv ≤ w + 10) && decide (w ≤ mv + 10)
    if rail then { p with vSram := mv, confirmedSram := near p.vSramWritten }
    else { p with vCore := mv, confirmedCore := near p.vCoreWritten }

/-! ## The thermal model (R466 to R470) -/

/-- A parameter refined by a tick (R469): the manual does not state the estimate (log 1), and it moves by at most 5 % per hour. -/
def refined (old : W32) (us : Nat) (cand : W32) : W32 :=
  let share := FVal.fin false (us * 5) 0
  let whole := FVal.fin false 360000000000 0
  let o := f32 old
  let lim := f32 (toF32 ((o.abs.mul share).1.div whole).1).1
  let lo := (o.sub lim).1
  let hi := (o.add lim).1
  let c := f32 cand
  if c.isNan then old else if c.lt lo then (toF32 lo).1 else if hi.lt c then (toF32 hi).1 else cand

/-- The parameters of R466 in order. -/
def Power.params (p : Power) : List W32 := [p.thetaF, p.tauF, p.thetaS, p.tauS] ++ p.thetaLoc.toList

/-- Whether a parameter lies 2 % or more from the value written (R469). -/
def movedBy2 (old new : W32) : Bool :=
  let d := ((f32 new).sub (f32 old)).1.abs
  fvalLe ((f32 old).abs.mul (.ofInt 2)).1 (d.mul (.ofInt 100)).1 && decide (old ≠ new)

/-- Least squares, Tc's estimate and the record's update after a tick (R469). -/
def Dev.thermalUpdate (v : Variant) (d : Dev) (tel : Telemetry) (now : Nat) : Dev :=
  let us := d.tick.periodUs
  let free := fun (i : Nat) => (Config.freeWord (d.free + i)).setWidth 32
  let p := d.power
  let x := p.poles us (f32OfNat tel.totalW)
  let p := { p with xf := x.1, xs := x.2, tc := free 0, thetaF := refined p.thetaF us (free 1), tauF := refined p.tauF us (free 2),
                    thetaS := refined p.thetaS us (free 3), tauS := refined p.tauS us (free 4),
                    thetaLoc := Vector.ofFn fun (i : Fin 12) =>
                      if i.val < v.sectors then refined p.thetaLoc[i.val] us (free (5 + i.val)) else p.thetaLoc[i.val] }
  let due := decide (p.modelAt + 60000000000 ≤ now) && (p.params.zip (p.modelWritten ++ p.params.drop p.modelWritten.length)).any
    (fun (e : W32 × W32) => movedBy2 e.2 e.1)
  let d := { d with power := if due then { p with modelWritten := p.params, modelAt := now } else p, free := d.free + 17 }
  if due then d.onRetain fun r => { r with changed := true } else d

/-- What the tick that ends showed (R479). -/
def Dev.showTelemetry (d : Dev) (tel : Telemetry) : Dev :=
  (d.setReg (At.pwr 0x010) (BitVec.ofNat 32 (tel.totalW % 2048 * 65536 + tel.computeW % 2048))).setReg (At.pwr 0x014)
    (BitVec.ofNat 32 (tel.hottestC % 256 * 2 ^ 24 + tel.hotSector.val * 4096))

/-- The equivalent time of a tick (R473), by the highest sector voltage and the hottest reading. -/
def Dev.ageEdge (v : Variant) (d : Dev) (tel : Telemetry) (ns : Nat) : Dev :=
  d.onPower fun p => { p with aged := p.aged + ns * Config.stress (p.highest v) tel.thot }

/-- PWR.CHAR.START (R470): the request waits for the next edge; one made while a characterisation runs has no effect. -/
def Dev.askChar (d : Dev) : Dev := d.onPower fun p => if p.charPhase = 0 then { p with charArmed := true } else p

/-- CHAR_START (R470). -/
def execCharStart (s : State) : Host.Outcome State Fault Refusal := s.onDev (·.askChar)

/-- Whether an accepted plan holds a tile in tick `n`, by its serial numbers, or work of an accepted plan is still running. -/
def Dev.heldTiles (v : Variant) (d : Dev) (n : Nat) : Bool × Dev :=
  let busy := v.tiles.any fun t => !d.atBoundary t || !(d.tile t).waiting.isEmpty
  (d.seq.plans.filter (fun p => decide (n < p.endTick))).foldl (fun (r : Bool × Dev) p =>
    (List.range (p.endTick - max n p.first.toNat)).foldl (fun (r : Bool × Dev) k =>
      (List.range (16 * v.sectors)).foldl (fun (r : Bool × Dev) ix =>
        if r.1 then r else let e := r.2.sliceEntry v p (max n p.first.toNat + k) ix; (!isIdle e.1, e.2)) r) r) (busy, d)

/-- The start of a characterisation at the edge that begins tick `n`, or REFUSED (R470). -/
def Dev.charEdge (v : Variant) (d : Dev) (n : Nat) : Dev :=
  if !d.power.charArmed then d
  else
    let r := d.heldTiles v n
    let d := r.2.onPower fun p => { p with charArmed := false }
    if r.1 then (d.onPower fun p => { p with charResult := 3 }).onRetain fun x => { x with changed := true }
    else (d.onPower fun p => { p with charPhase := 1 }).onSeq fun q => { q with charHold := true }

/-- Whether a fit is GOOD (R468). -/
def goodFit (f : CharFit) : Bool :=
  let le := fun (a b : FVal) => fvalLe a b
  let ms := fun (n : Nat) => FVal.fin false n 0
  let th := ((f32 f.thetaF).add (f32 f.thetaS)).1
  let k := fun (w : W32) => ((f32 w).mul (.ofInt 1000)).1
  le ((f32 f.rms).mul (.ofInt 2)).1 (ms 3) && le (ms 5) (k f.tauF) && le (k f.tauF) (ms 2000) &&
    le (ms 2) (f32 f.tauS) && le (f32 f.tauS) (ms 600) &&
    le (ms 1) (th.mul (.ofInt 100)).1 && le (th.mul (.ofInt 2)).1 (ms 1)

/-- µK/W of a register as K/W. -/
def perWatt (w : W16) : W32 := f32Div (f32OfNat w.toNat) (f32OfNat 1000000)

/-- Takes over a fit, or the values of R468 for a poor one; Tc is set, the poles start again (R467, R468). -/
def Power.takeFit (p : Power) (f : CharFit) : Power :=
  let p := { p with tc := f32OfNat f.coolant.toNat, sustain := f.sustain.toNat, charResult := if goodFit f then 1 else 2,
                    thetaLoc := Vector.ofFn fun (i : Fin 12) => perWatt (f.loc.getD i.val 0) }
  if goodFit f then { p with thetaF := f.thetaF, tauF := f.tauF, thetaS := f.thetaS, tauS := f.tauS }
  else { p with thetaF := 0x3CA3D70A, tauF := 0x3CA3D70A, thetaS := 0x3E19999A, tauS := 0x42700000 }

/-- The end of a characterisation: RESULT and SUSTAIN_MHZ written, CHARACTERISED raised (R467, R470). -/
def Dev.characterised (d : Dev) (f : CharFit) : Dev :=
  let d := (d.onPower fun p => { p.takeFit f with charPhase := 0 }).onSeq fun q => { q with charHold := false }
  (d.onRetain fun r => { r with changed := true }).raise 0x17
    { arg := [BitVec.ofNat 8 d.power.charResult, 0] ++ toLE 2 f.sustain.toNat }

/-- CHAR_PHASE_END (R467): a step ends at its time. Pi is the average of the last whole tick; the fit comes at 20 s. -/
def execCharPhaseEnd (fit : CharFit) (s : State) : Host.Outcome State Fault Refusal :=
  s.onDev fun d =>
    match d.power.charPhase with
    | 0 => d
    | 1 => d.onPower fun p => { p with charPhase := 2, charIdle := d.fld (At.pwr 0x010) 16 11 }
    | 2 => d.onPower fun p => { p with charPhase := 3 }
    | 3 => d.onPower fun p => { p with charPhase := 4 }
    | _ => d.characterised fit

/-! ## The ageing model (R473 to R477) -/

/-- A day in the units of `Power.aged`. -/
def agedDay : Nat := 86400000000000 * 2 ^ 32

/-- Equivalent days as f32 (R473). -/
def daysF32 (aged : Nat) : W32 := (toF32 ((FVal.fin false aged 0).div (FVal.fin false agedDay 0)).1).1

/-- 1e6 / F − 1e6 / 1900 (R474), in ps. -/
def slower (f : Nat) : W32 :=
  f32Sub (f32Div (f32OfNat 1000000) (f32OfNat f)) (f32Div (f32OfNat 1000000) (f32OfNat 1900))

/-- p_eff of a sector (R474). -/
def pEff (sector aged : Nat) (fit : AgeFit) (g f : Nat) : W32 :=
  let d := f32Add (daysF32 aged) (f32OfNat 30)
  let p := f32Sub (Config.slack0 sector) (f32Mul fit.k (f32Sqrt (f32Sqrt d)))
  f32Add (f32Add p (f32Mul fit.sens (f32OfNat g))) (slower f)

/-- Whether a margin is below M_MIN (R474). -/
def isShort (w : W32) : Bool := !fvalLe (.ofInt 15) (f32 w)

/-- Whether the sector's spare tile is in service, in recovery or gone. -/
def Dev.noSpareTile (v : Variant) (d : Dev) (n : Nat) : Bool :=
  (d.entry v (unitNo 0x01 (17 * n + 16))).state != stOff

/-- Marks a tile for the spare (R165, R475, R477). -/
def Dev.markForSpare (d : Dev) (t : TileRef) : Dev := d.setFld (At.tile t 0x108) 1 2 2

/-- Repairs a short sector by the first action that suffices (R475). -/
def Dev.mendSector (v : Variant) (d : Dev) (n : Nat) (fit : AgeFit) : Dev :=
  let p := d.power
  let g := p.guard.toList.getD n 0
  let eff := fun (g f : Nat) => pEff n p.aged fit g f
  if !isShort (eff g p.fAge) then d
  else
    let room := (835 - Config.vFuse n p.fAge - g) / 5
    match (List.range room).find? (fun i => !isShort (eff (g + 5 * (i + 1)) p.fAge)) with
    | some i => d.onPower fun p => { p with guard := p.guard.setIfInBounds n (g + 5 * (i + 1)) }
    | none =>
      match fit.worstTile with
      | some k =>
        if !d.noSpareTile v n then d.markForSpare (tileOf (16 * n + k.val))
        else d.onPower fun p => { p with fAge := ((clockSteps.filter (· < p.fAge)).find? (fun f => !isShort (eff g f))).getD 950 }
      | none => d.onPower fun p => { p with fAge := ((clockSteps.filter (· < p.fAge)).find? (fun f => !isShort (eff g f))).getD 950 }

/-- A value as a whole number, rounded down, within bounds. -/
def floorIn (lo hi : Int) (v : FVal) : Int :=
  match v with
  | .nan _ => lo
  | .inf s => if s then lo else hi
  | .fin s m e =>
    let z : Int := if 0 ≤ e then (m * 2 ^ e.toNat : Nat) else if s then -((m + 2 ^ (-e).toNat - 1) / 2 ^ (-e).toNat : Nat)
      else (m / 2 ^ (-e).toNat : Nat)
    max lo (min hi (if s && decide (0 ≤ e) then -z else z))

/-- PWR.MARGIN of a sector at present settings (R479). -/
def Power.marginWord (p : Power) (n : Nat) (fit : AgeFit) : W32 :=
  let g := p.guard.toList.getD n 0
  let ten := floorIn (-32768) 32767 ((f32 (pEff n p.aged fit g p.fAge)).mul (.ofInt 10)).1
  let q := f32Div (f32Sub (f32Add (f32Add (Config.slack0 n) (f32Mul fit.sens (f32OfNat g))) (slower p.fAge)) (f32OfNat 15)) fit.k
  let days := f32Mul (f32Mul q q) (f32Mul q q)
  let left := if (f32 q).neg then 0 else floorIn 0 255 ((f32 days).sub (f32 (daysF32 p.aged))).1
  BitVec.ofNat 32 (left.toNat * 2 ^ 24 + g % 256 * 65536) ||| BitVec.ofInt 32 (ten % 65536)

/-- The SRAM model (R477): VDD_SRAM 30 mV above the highest projection; beyond 0.90 V the tile with the highest Vmin is marked. -/
def Dev.sramModel (v : Variant) (d : Dev) (fits : List AgeFit) : Dev :=
  let xs := fits.zipIdx.filter (fun (e : AgeFit × Nat) => decide (e.2 < v.sectors))
  match xs with
  | [] => d
  | x :: r =>
    let worst := r.foldl (fun (m : AgeFit × Nat) e => if m.1.sramProjected.toNat < e.1.sramProjected.toNat then e else m) x
    let need := worst.1.sramProjected.toNat + 30
    let d := d.onPower fun p =>
      let w := max p.vSramWritten (min 900 need)
      { p with vSramWritten := w, confirmedSram := p.confirmedSram && decide (w ≤ p.vSram + 10),
               srams := Vector.ofFn fun (i : Fin 12) =>
                 match xs.find? (fun e => decide (e.2 = i.val)) with
                 | some e => e.1.sramProjected ++ e.1.sramMeasured
                 | none => p.srams[i.val] }
    if 900 < need ∧ !d.noSpareTile v worst.2 then d.markForSpare (tileOf (16 * worst.2 + worst.1.sramTile.val)) else d

/-- AGEING_REFIT (R474 to R477), at every 1,024th maintenance tick. -/
def execAgeingRefit (fits : List AgeFit) (lanes : List (Fin 17 × Fin 8)) (s : State) : Host.Outcome State Fault Refusal :=
  s.onDev fun d =>
    let v := s.fuse.variant
    if d.power.maintCount % 1024 ≠ 0 then d
    else
      let xs := fits.zipIdx.filter (fun (e : AgeFit × Nat) => decide (e.2 < v.sectors))
      let d := xs.foldl (fun (d : Dev) e => d.mendSector v e.2 e.1) d
      let d := d.onPower fun p =>
        { p with margins := Vector.ofFn fun (i : Fin 12) =>
            match xs.find? (fun e => decide (e.2 = i.val)) with
            | some e => p.marginWord i.val e.1
            | none => p.margins[i.val] }
      let d := d.sramModel v fits
      let d := lanes.foldl (fun (d : Dev) e => d.onPort e.1.val fun p => { p with due := p.due ||| BitVec.twoPow 8 e.2.val }) d
      d.onRetain fun r => { r with changed := true }

/-- Stacks whose last margining window is more than 30 equivalent days old (R477). -/
def Dev.quireDue (v : Variant) (d : Dev) : Nat :=
  (List.range v.sectors).foldl (fun t n => if (d.hub n).marginAt + 30 * agedDay < d.power.aged then t + 2 ^ n else t) 0

end Sys2Proof.Machine
end

