-- ==== Sys2Proof/Machine/Sequencer.lean ====
section
/-!
DEFINITION. Sys2Proof/Machine/Sequencer.lean: the active sequencer core (R46 to R52, R368, R376 to R385): collection of the work
list, its entries PLAN, CANCEL, BATCH and STEP, the journal's entries at guards and edges, the begin and end of a replay, and
the evaluation slice.
-/

namespace Sys2Proof.Machine

open Sys2Proof

/-- The number of the tick that begins at the collecting edge (R50). -/
def Dev.nextTick (d : Dev) : Nat := d.tick.number.toNat + 1

/-! ## Plan tables -/

/-- The slices of a plan that are not IDLE, as (tick, tile), none where its table or its budgets cannot be read. -/
def Dev.planTable (v : Variant) (d : Dev) (p : Plan) : Option (List (Nat × Nat)) × Dev :=
  let w := 16 * v.sectors
  let b : Acc := if p.budgets = 0 then ⟨0, [], d⟩ else d.virtLoad v p.ctx false p.budgets.toNat (4 * p.count)
  if b.st ≠ 0 then (none, b.d)
  else if p.slices = 0 then (some [], b.d)
  else
    let r := b.d.virtLoad v p.ctx false p.slices.toNat (8 * w * p.count)
    if r.st ≠ 0 then (none, r.d)
    else
      (some (((List.range (w * p.count)).filter (fun i => !(recNat r.data (8 * i) 8).testBit 16)).map
        (fun i => (p.first.toNat + i / w, i % w))), r.d)

/-- The slices of a plan still to come that are not IDLE, from tick `n` on. -/
def Dev.planHolding (v : Variant) (d : Dev) (p : Plan) (n : Nat) : List (Nat × Nat) × Dev :=
  let r := d.planTable v p
  ((r.1.getD []).filter (fun e => decide (n ≤ e.1) && decide (e.1 < p.endTick)), r.2)

/-- Whether a plan assigns a tile that another accepted plan holds in a common tick (R50). -/
def Dev.tileHeld (v : Variant) (d : Dev) (held : List (Nat × Nat)) : Bool × Dev :=
  d.seq.plans.foldl (fun (r : Bool × Dev) p =>
    if r.1 then r
    else
      let x := r.2.planHolding v p 0
      (x.1.any (fun e => held.contains e), x.2)) (false, d)

/-! ## Window tables (R368) -/

/-- A window entry from its 96 bytes. -/
def winOf (serial ctx index ct : Nat) (id : W64) (b : List W8) : WinEntry :=
  let opens := recNat b 0 8
  { serial := serial, planId := id, ctx := ctx, index := index, openTick := BitVec.ofNat 64 (max opens ct),
    closeTick := BitVec.ofNat 64 (recNat b 8 8), slice := recNat b 0x10 1, window := recNat b 0x11 1, slots := recNat b 0x12 1,
    mode := b.getD 0x13 0, n := recNat b 0x14 2, grace := recNat b 0x16 2, wait := recNat b 0x18 2, next := recNat b 0x1A 2,
    nextWindow := none, slotBuf := BitVec.ofNat 64 (recNat b 0x20 8), result := BitVec.ofNat 64 (recNat b 0x28 8),
    fwd := BitVec.ofNat 64 (recNat b 0x30 8), watch := BitVec.ofNat 64 (recNat b 0x38 8),
    capture := BitVec.ofNat 64 (recNat b 0x40 8) }

/-- Whether an entry's fields follow R275 and R368: `b` its bytes, `es` the table. -/
def winOk (v : Variant) (periodUs : Nat) (es : List WinEntry) (b : List W8) (e : WinEntry) : Bool :=
  decide (e.slice < v.sectors) && decide (1 ≤ e.slots) && decide (e.slots ≤ 64) && decide (e.policy ≠ 3) &&
    decide (e.mode.toNat / 64 = 0) && decide (e.mode.toNat / 8 % 2 = 0) && !(e.mean && e.isMax) &&
    decide (16 ≤ e.n) && decide (e.n ≤ 16384) && decide (e.n % 16 = 0) &&
    decide (recNat b 0 8 < e.closeTick.toNat) && decide (e.openTick.toNat < e.closeTick.toNat) &&
    decide (e.grace ≤ periodUs - 3) && (decide (e.policy ≠ 2) || (decide (1 ≤ e.wait) && decide (e.wait ≤ 4000))) &&
    decide (recNat b 0x1C 4 = 0) && decide (recNat b 0x48 24 = 0) && decide (e.fwd.toNat % 2 ^ 24 / 2 = 0) &&
    (decide (e.next = 0xFFFF) ||
      match es[e.next]? with
      | none => false
      | some q => q.slice == e.slice && q.n == e.n && q.slots == e.slots && q.isMax == e.isMax && q.bf16 == e.bf16)

/-- The last tick of an entry's lifetime: the close of its NEXT. -/
def lifeEnd (es : List WinEntry) (e : WinEntry) : Nat :=
  match es.find? (fun q => q.serial == e.serial && q.index == e.next && e.next != 0xFFFF) with
  | none => e.closeTick.toNat
  | some q => max e.closeTick.toNat q.closeTick.toNat

/-- Whether two entries give one slice and window number overlapping lifetimes. -/
def lifeClash (xs ys : List WinEntry) (a b : WinEntry) : Bool :=
  a.slice == b.slice && a.window == b.window && decide (a.openTick.toNat ≤ lifeEnd ys b) && decide (b.openTick.toNat ≤ lifeEnd xs a)

/-- The window entries of a plan, or none where R368 refuses them. -/
def Dev.planWindows (v : Variant) (d : Dev) (p : Plan) (ct : Nat) : Option (List WinEntry) × Dev :=
  if p.windows = 0 then (some [], d)
  else
    let h := d.virtLoad v p.ctx false p.windows.toNat 16
    let count := recNat h.data 0 4
    if h.st ≠ 0 ∨ recNat h.data 4 12 ≠ 0 then (none, h.d)
    else
      let r := h.d.virtLoad v p.ctx false (p.windows.toNat + 16) (96 * count)
      if r.st ≠ 0 then (none, r.d)
      else
        let at_ := fun (i : Nat) => (r.data.drop (96 * i)).take 96
        let es := (List.range count).map (fun i => winOf p.serial p.ctx i ct p.id (at_ i))
        let es := es.map (fun e => { e with nextWindow := (es[e.next]?).map (·.window) })
        let good := es.all (fun e => winOk v r.d.tick.periodUs es (at_ e.index) e) &&
          es.all (fun a => es.all (fun b => a.index == b.index || !lifeClash es es a b)) &&
          es.all (fun a => r.d.seq.windows.all (fun b => !lifeClash es r.d.seq.windows a b))
        (if good then some es else none, r.d)

/-! ## PLAN (R49, R50, R368, R385, R470) -/

/-- Whether the evaluation slice or a replay refuses a plan (R385): `parts` are the partitions of its tiles and windows. A plan in the
replay context runs on the replaying partitions alone (R381). -/
def Dev.evalRefuses (d : Dev) (ctx : Nat) (parts : List Nat) : Bool :=
  parts.any (fun n => decide (d.seq.evalPart.getLsbD n ≠ d.seq.evalCtx.getLsbD ctx)) ||
    match d.seq.replay with
    | none => false
    | some r => r.ctx == ctx && parts.any (fun n => !r.parts.getLsbD n)

/-- Whether an entry written for a plan's context belongs to the replay in progress. -/
def Dev.replayCtx (d : Dev) (ctx : Nat) : Bool := match d.seq.replay with
  | none => false
  | some r => r.ctx == ctx

/-- The PLAN entry of the journal (R377). -/
def Dev.journalPlan (v : Variant) (d : Dev) (id first : W64) (ctx outcome : Nat) : Dev :=
  let step := match d.seq.replay with
    | some r => if r.ctx = ctx then r.step else d.tick.step
    | none => d.tick.step
  d.journal v jPlan 1 step (d.replayCtx ctx)
    (toLE 8 id.toNat ++ toLE 8 first.toNat ++ toLE 8 d.tick.number.toNat ++ [BitVec.ofNat 8 outcome])

/-- A refused plan (R50). -/
def Dev.refusePlan (v : Variant) (d : Dev) (p : Plan) (st : W8) (reason : Nat) : Dev :=
  (d.planEvent st p.id.toNat p.first.toNat reason).journalPlan v p.id p.first p.ctx 1

/-- An accepted plan with its windows. -/
def Dev.acceptPlan (v : Variant) (d : Dev) (p : Plan) (ws : List WinEntry) : Dev :=
  let d := d.onSeq fun q =>
    { q with plans := q.plans ++ [p], windows := q.windows ++ ws, nextSerial := q.nextSerial + 1,
             replay := q.replay.map (fun r => if r.ctx = p.ctx then { r with lastTick := BitVec.ofNat 64 (max r.lastTick.toNat p.endTick) } else r) }
  d.journalPlan v p.id p.first p.ctx 0

/-- A PLAN entry (R49, R50): the plan is accepted or refused. -/
def Dev.submitPlan (v : Variant) (d : Dev) (e : WlEntry) : Dev :=
  let ct := d.nextTick
  let h := d.physBytes v e.address.toNat 128
  let d := h.d
  let w := fun (off : Nat) => BitVec.ofNat 64 (recNat h.data off 8)
  let p : Plan := { serial := d.seq.nextSerial, id := w 0, first := w 8, count := recNat h.data 0x10 4, ctx := recNat h.data 0x16 1,
                    slices := w 0x18, budgets := w 0x20, programs := w 0x28, drover := w 0x30, troughs := w 0x38, windows := w 0x40 }
  if h.st ≠ 0 then d.planEvent sInternal e.planId.toNat 0 1
  else if p.first.toNat < ct then d.refusePlan v p sLate 0
  else if recNat h.data 0x14 2 ≠ 1 ∨ p.count = 0 ∨ 1048576 < p.count ∨ 15 < p.ctx ∨ recNat h.data 0x17 1 ≠ 0 ∨ recNat h.data 0x48 56 ≠ 0 then
    d.refusePlan v p sInternal 1
  else if d.seq.charHold then d.refusePlan v p sInternal 5
  else
    let t := d.planTable v p
    match t.1 with
    | none => t.2.refusePlan v p sInternal 1
    | some held =>
      let c := t.2.tileHeld v held
      if c.1 then c.2.refusePlan v p sInternal 2
      else
        let ws := c.2.planWindows v p ct
        match ws.1 with
        | none => ws.2.refusePlan v p sInternal 3
        | some es =>
          if ws.2.evalRefuses p.ctx ((held.map (fun e => e.2 / 16)).eraseDups ++ es.map (·.slice)) then ws.2.refusePlan v p sInternal 4
          else ws.2.acceptPlan v p es

/-- A CANCEL entry (R50, R52, R369): from the next edge on the plan is removed, with its windows that have not opened. -/
def Dev.cancelPlan (v : Variant) (d : Dev) (e : WlEntry) : Dev :=
  let ct := d.nextTick
  let hit := d.seq.plans.filter (fun p => decide (p.id = e.planId) && p.cancelAt.isNone && decide (ct < p.endTick))
  if hit.isEmpty then d.planEvent sInternal e.planId.toNat 0 7
  else
    let named := fun (k : Nat) => hit.any (fun p => p.serial == k)
    let d := d.onSeq fun q =>
      { q with plans := q.plans.map (fun p => if named p.serial then { p with cancelAt := some (BitVec.ofNat 64 ct) } else p),
               windows := q.windows.filter (fun x => x.opened || !named x.serial) }
    hit.foldl (fun (d : Dev) p => d.journalPlan v p.id p.first p.ctx 2) d

/-- A BATCH entry (R378): its descriptor is journaled under its step. -/
def Dev.batchEntry (v : Variant) (d : Dev) (e : WlEntry) : Dev :=
  let r := d.physBytes v e.address.toNat 64
  if r.st ≠ 0 then r.d else r.d.journal v jBatch 1 (BitVec.ofNat 64 (recNat r.data 0 8)) false (r.data.drop 16)

/-- A STEP entry (R51). -/
def Dev.stepEntry (d : Dev) (e : WlEntry) : Dev :=
  let step := e.address
  let tick := e.planId
  if !d.isRoot then d.planEvent sInternal step.toNat tick.toNat 10
  else if tick.toNat < d.nextTick then d.planEvent sLate step.toNat tick.toNat 9
  else if step ≤ d.tick.step ∨ step ≤ d.seq.stepTop then d.planEvent sInternal step.toNat tick.toNat 9
  else d.onSeq fun q => { q with steps := q.steps ++ [(tick, step)], stepTop := step }

/-- A collected entry consumed (R48, R52). -/
def Dev.consume (v : Variant) (d : Dev) (e : WlEntry) : Dev :=
  if e.type = 1 then d.submitPlan v e
  else if e.type = 2 then d.cancelPlan v e
  else if e.type = 3 then d.batchEntry v e
  else if e.type = 4 then d.stepEntry e
  else d.planEvent sInternal e.planId.toNat 0 6

/-- Consumes the first collected entry where its TYPE is the one meant. -/
def Dev.consumeFirst (v : Variant) (d : Dev) (want : W8 → Bool) : Dev :=
  match d.seq.collected with
  | [] => d
  | e :: r => if want e.type then (d.onSeq fun q => { q with collected := r }).consume v e else d

def execPlan (s : State) : Host.Outcome State Fault Refusal := s.onDev fun d => d.consumeFirst s.fuse.variant (· == 1)

def execCancel (s : State) : Host.Outcome State Fault Refusal := s.onDev fun d => d.consumeFirst s.fuse.variant (· == 2)

def execBatch (s : State) : Host.Outcome State Fault Refusal := s.onDev fun d => d.consumeFirst s.fuse.variant (· == 3)

def execStep (s : State) : Host.Outcome State Fault Refusal := s.onDev fun d => d.consumeFirst s.fuse.variant (· == 4)

/-- An entry of a reserved TYPE (R52). -/
def execReservedWorkListType (s : State) : Host.Outcome State Fault Refusal :=
  s.onDev fun d => d.consumeFirst s.fuse.variant (fun t => !(t == 1 || t == 2 || t == 3 || t == 4))

/-- Consumes whatever has been collected. -/
def Dev.consumeAll (v : Variant) (d : Dev) : Dev :=
  d.seq.collected.foldl (fun (d : Dev) e => d.consume v e) (d.onSeq fun q => { q with collected := [] })

/-- WORK_LIST_RECONFIGURE (R52, R545): a write of WL_BASE_HI, or of WL_ENTRIES where `entries`. The ring takes effect at the next
guard, from entry 0; a reserved size changes nothing but restarts the ring all the same. Programs may not write it (R86). -/
def Dev.reconfigure (d : Dev) (r : Requester) (entries : Bool) (w : W32) : Dev :=
  match r with
  | .core _ => d
  | _ =>
    let d := if entries then d.writeBits (At.seq 0x008) w
      else let lo := d.takeLow r (At.seq 0x000); (lo.2.writeBits (At.seq 0x000) lo.1).writeBits (At.seq 0x004) w
    (d.onSeq fun q => { q with reconf := true, consumed := 0 }).onRetain fun x => { x with changed := true }

def execWorkListReconfigure (r : Requester) (entries : Bool) (v : W32) (s : State) : Host.Outcome State Fault Refusal :=
  s.onDev fun d => d.reconfigure r entries v

/-! ## The journal at guards and edges (R379) -/

/-- The TICK entry of a guard (R377, R379). -/
def Dev.journalTick (v : Variant) (d : Dev) : Dev :=
  let t := d.tick
  let late := (List.range 192).filter (fun i => d.seq.lateTiles.getLsbD i)
  d.journal v jTick 1 t.step false
    (toLE 8 t.number.toNat ++ toLE 2 d.power.clock ++ toLE 2 (Tab.look 0 t.granted t.number.toNat) ++
      [BitVec.ofNat 8 ((if t.maint then 1 else 0) + (if t.floorWarn then 2 else 0)), BitVec.ofNat 8 (min 255 late.length), 0, 0] ++
      toLE 24 d.seq.lateTiles.toNat)

/-- The firmware measurement of a bank (R493). -/
def firmwareMeasure (bank : Mem) : BitVec 512 := Config.sha512 (Mem.read bank 0 0x1C8)

/-- FW_ID: bits 31:0 of the running image's measurement (R377, R493). -/
def Dev.fwId (d : Dev) : W32 := (firmwareMeasure (if d.sec.running then d.sec.bankB else d.sec.bankA)).setWidth 32

/-- The SCALE entries of a new step: the first SNAP_RECS records of each context in SNAP_CTX (R379). -/
def Dev.journalScales (v : Variant) (d : Dev) : Dev :=
  let ctxs := (List.range 16).filter (fun c => d.bit (At.seq 0x40C) c)
  let recs := d.fld (At.seq 0x40C) 16 12
  ctxs.foldl (fun d c => (List.range recs).foldl (fun (d : Dev) i =>
    match d.scalePlace v false false (tileOf 0) c i with
    | (none, d) => d
    | (some a, d) =>
      let r := d.localRead v a
      if r.st ≠ 0 then r.d
      else r.d.journal v jScale 2 r.d.tick.step false ([BitVec.ofNat 8 c, 0] ++ toLE 2 i ++ List.replicate 44 0 ++ r.data)) d) d

/-- STEP_OPEN_JOURNAL (R379): the step in progress is closed and the new one opened. -/
def Dev.journalStep (v : Variant) (d : Dev) (stepping : W8) : Dev :=
  let d := match d.seq.jrnStep with
    | none => d
    | some s => d.journal v jStepClose 1 s false
        (toLE 8 (d.tick.number.toNat - 1) ++ toLE 4 d.seq.jrnEntries ++ toLE 4 d.seq.jrnLost)
  if !d.bit (At.seq 0x40C) 31 then d.onSeq fun q => { q with jrnStep := none, jrnEntries := 0, jrnLost := 0 }
  else
    let d := d.onSeq fun q => { q with jrnStep := some d.tick.step, jrnEntries := 0, jrnLost := 0 }
    let snaps := ((List.range 16).filter (fun c => d.bit (At.seq 0x40C) c)).length * d.fld (At.seq 0x40C) 16 12
    (d.journal v jStepOpen 1 d.tick.step false
      (toLE 8 d.tick.number.toNat ++ toLE 4 d.fwId.toNat ++ [stepping, 0] ++ toLE 2 snaps)).journalScales v

/-! ## Replay (R380, R381) -/

/-- SEQ.REPLAY_CTRL.START (R381, R389): a replay begins at the next edge; ignored while one is in progress. -/
def Dev.armReplay (d : Dev) : Dev := if d.seq.replay.isSome then d else d.onSeq fun q => { q with replayArmed := true }

/-- REPLAY_START (R381, R389). -/
def execReplayStart (s : State) : Host.Outcome State Fault Refusal := s.onDev (·.armReplay)

/-- Writes the journaled scale records of a step into the replay context's table (R381), as the first replaying partition, which lies
outside the evaluation slice, holds it. -/
def Dev.restoreScales (v : Variant) (d : Dev) (r : Replay) : Dev :=
  let t := tileOf (16 * (partsOf r.parts).headD 0)
  (d.seq.jrnIndex.reverse.filter (fun e => decide (r.base ≤ e.1))).foldl (fun (d : Dev) e =>
    let x := d.jrnEntry v e.2
    if x.st ≠ 0 ∨ (x.data.getD 1 0).getLsbD 0 ∨ !jrnIs jScale r.step x.data then x.d
    else
      match x.d.scalePlace v true false t r.ctx (jrnField x.data 2 2) with
      | (none, d) => d
      | (some a, d) => (d.localWrite v a ((x.data.drop 0x40).take 64)).d) d

/-- The step that the STEP_OPEN entry `base` opened, where R380 and R381 allow its replay. -/
def Dev.replayable (v : Variant) (d : Dev) (stepping : W8) (base parts : Nat) : Option W64 × Dev :=
  let o := d.jrnFind v base (fun x => (x.getD 0 0).toNat == jStepOpen)
  match o.1 with
  | none => (none, o.2)
  | some x =>
    let step := BitVec.ofNat 64 (recNat x.2 8 8)
    let c := o.2.jrnFind v base (jrnIs jStepClose step)
    let idle := (partsOf (BitVec.ofNat 12 parts)).all (fun n => (List.range 16).all (fun k =>
      c.2.atBoundary (tileOf (16 * n + k)) && (c.2.tile (tileOf (16 * n + k))).waiting.isEmpty))
    let good := decide (x.1 = base) && decide (jrnField x.2 8 4 = c.2.fwId.toNat) && decide (jrnField x.2 12 1 = stepping.toNat) &&
      (match c.1 with
      | none => false
      | some y => decide (jrnField y.2 12 4 = 0)) && !c.2.seq.uncaptured.contains step && idle && decide (BitVec.ofNat 12 parts &&& c.2.seq.evalPart = 0)
    (if good then some step else none, c.2)

/-- REPLAY_BEGIN at an edge (R381 step 3): BUSY is set, the scale records are written, and the bracket counts of the replaying tiles
start again. -/
def Dev.replayBegin (v : Variant) (d : Dev) (stepping : W8) (lc : BitVec 4) : Dev :=
  if !d.seq.replayArmed then d
  else
    let base := (d.reg64 (At.seq 0x420)).toNat
    let parts := d.fld (At.seq 0x428) 0 12
    let ctx := d.fld (At.seq 0x428) 24 4
    let r := (d.onSeq fun q => { q with replayArmed := false }).replayable v stepping base parts
    match r.1 with
    | none => r.2
    | some step =>
      let x : Replay :=
        { step := step, ctx := ctx, parts := BitVec.ofNat 12 parts, base := base, lastTick := 0, opened := true, blank := lc == 0 }
      let d := r.2.onSeq fun q => { q with replay := some x, diverged := false }
      let d := (partsOf x.parts).foldl (fun d n => (List.range 16).foldl (fun (d : Dev) k =>
        d.onTile (tileOf (16 * n + k)) fun y => { y with opens := [] }) d) d
      d.restoreScales v x

/-- The end of the last tick of the replay's plans (R381 step 6). -/
def Dev.replayEnd (v : Variant) (d : Dev) : Dev :=
  match d.seq.replay with
  | none => d
  | some r =>
    if r.lastTick = 0 ∨ d.tick.number < r.lastTick then d
    else
      (d.journal v jStepClose 1 r.step true (toLE 8 (r.lastTick.toNat - 1) ++ toLE 4 d.seq.jrnEntries ++ toLE 4 d.seq.jrnLost)).onSeq
        fun q => { q with replay := none }

/-! ## The evaluation slice (R384) -/

/-- EVAL_SLICE_CHANGE at the edge of tick `n`: a change of SEQ.EVAL takes effect once no accepted plan assigns a tile of a partition
whose membership changes. -/
def Dev.evalChange (v : Variant) (d : Dev) (n : Nat) : Dev :=
  let part := BitVec.ofNat 12 (d.fld (At.seq 0x430) 0 12)
  let ctx := BitVec.ofNat 16 (d.fld (At.seq 0x430) 16 16)
  if part = d.seq.evalPart ∧ ctx = d.seq.evalCtx then d
  else
    let moved := part ^^^ d.seq.evalPart
    let r := d.seq.plans.foldl (fun (r : Bool × Dev) p =>
      if r.1 then r
      else
        let x := r.2.planHolding v p n
        (x.1.any (fun e => moved.getLsbD (e.2 / 16)), x.2)) (false, d)
    if r.1 then r.2
    else (r.2.onSeq fun q => { q with evalPart := part, evalCtx := ctx }).onRetain fun x => { x with changed := true }

end Sys2Proof.Machine
end

