-- ==== Sys2Proof/Machine/Events.lean ====
section
/-!
DEFINITION. Sys2Proof/Machine/Events.lean: delivery of event records to the host ring (R400, R546 to R550).
-/

namespace Sys2Proof.Machine

open Sys2Proof

/-- A record's 64 bytes (R550). -/
def EventRec.bytes (r : EventRec) : List W8 :=
  toLE 8 r.seq.toNat ++ [r.code, r.status, if r.replay then 1 else 0, 0] ++ toLE 2 r.device.toNat ++ toLE 2 r.boot.toNat ++
    [r.ctx, r.partition, r.tile, r.engine] ++ toLE 4 r.unit.toNat ++ toLE 8 r.tick.toNat ++ toLE 8 r.step.toNat ++
    (r.arg ++ List.replicate 24 0).take 24

/-- Reads the consumed counter, where one is set (R547). -/
def Dev.readConsumed (v : Variant) (d : Dev) : Dev :=
  let a := (d.reg64 (At.dev 0x110)).toNat
  if a = 0 then d
  else
    let r := d.physNat v a 8
    if r.1 ≠ 0 then r.2.2 else { r.2.2 with events := { r.2.2.events with consumed := BitVec.ofNat 64 r.2.1 } }

/-- Slots of the event ring (R546). -/
def Dev.eventSlots (d : Dev) : Nat := 2 ^ d.fld (At.dev 0x108) 0 5

/-- Whether the ring has room for a record (R547). -/
def Dev.eventRoom (d : Dev) (q : Nat) : Bool :=
  (d.reg64 (At.dev 0x110)).toNat == 0 || decide (q - d.events.consumed.toNat ≤ d.eventSlots)

/-- The connection that carries records, where it is enabled and open (R400, R548). -/
def Dev.eventConn (d : Dev) : Option Nat :=
  let i := d.fld (At.host 0x000) 16 8
  if d.bit (At.host 0x000) 24 && decide ((d.conn i).state = 1) then some i else none

/-- Sends a record on a connection: by RDMA WRITE bytes 0x08 to 0x3F and then bytes 0x00 to 0x07 of its slot (R546), or by EVENT on a
Nimser connection (R400). -/
def Dev.sendEvent (v : Variant) (d : Dev) (i : Nat) (r : EventRec) : Dev :=
  let a := (d.reg64 (At.dev 0x100)).toNat + 64 * (r.seq.toNat % d.eventSlots)
  if (d.conn i).kind = 1 then
    ((d.roceRequest i 0x01 (BitVec.ofNat 64 (a + 8)) 56 (r.bytes.drop 8) 0).2.roceRequest i 0x01 (BitVec.ofNat 64 a) 8 (r.bytes.take 8) 0).2
  else (d.nimRequest v (.conn (BitVec.ofNat 8 i)) 0x07 0 0 r.bytes 0).2

/-- EVENTS_LOST, once room lets a record follow those dropped (R548). -/
def Dev.reportLost (d : Dev) : Dev :=
  match d.events.lostFirst with
  | none => d
  | some q =>
    if 4096 ≤ d.events.held.length then d
    else
      ({ d with events := { d.events with lostFirst := none, lostCount := 0 } }).raise 0x18
        { arg := toLE 8 q.toNat ++ toLE 4 d.events.lostCount }

/-- EVENT_RECORD_WRITE (R546 to R548): the first held record is written where enable, connection and room allow; with no room the
device reads the consumed counter again and is stalled if there is still none. -/
def Dev.writeEvent (v : Variant) (d : Dev) : Dev :=
  match d.events.held, d.eventConn with
  | r :: rest, some i =>
    let d := if d.eventRoom r.seq.toNat then d else d.readConsumed v
    if d.eventRoom r.seq.toNat then
      ({ d with events := { d.events with held := rest, stalled := false } }.sendEvent v i r).reportLost
    else { d with events := { d.events with stalled := true } }
  | _, _ => d

def execEventRecordWrite (s : State) : Host.Outcome State Fault Refusal := s.onDev fun d => d.writeEvent s.fuse.variant

end Sys2Proof.Machine
end

