-- ==== Sys2Proof/Machine/TickRows.lean ====
section
/-!
DEFINITION. Sys2Proof/Machine/TickRows.lean: the tick (R36 to R68): the edge with all that falls on it (R53), guard start, the root's
announcement, the messages of R424 to R427 at a follower, period changes, the start of the ticks and the maintenance reserve.
Times are in ns of the device's own clock.
-/

namespace Sys2Proof.Machine

open Sys2Proof

/-! ## Tick messages (R424 to R427) -/

/-- The ports that carry tick messages downstream: the up DIRECT ports but for the one they come from, and on the root of an Ethernet
fleet the port of LINK.PTP.PORT. -/
def Dev.tickPorts (d : Dev) (except : Option Nat) : List Nat :=
  let direct := (List.range 16).filter (fun p => (d.port p).up && decide ((d.port p).mode = 1) && decide (some p ≠ except))
  let q := d.links.ptpPort
  if d.isRoot && decide (q ≤ 16) && (d.port q).up && decide ((d.port q).mode = 2) then direct ++ [q] else direct

/-- Sends a tick message of a kind (1 MARKER, 2 ANNOUNCE, 3 STRETCH_REQ, 4 PERIOD). -/
def Dev.sendTick (d : Dev) (ports : List Nat) (kind : W8) (m : TickMsg) : Dev :=
  ports.foldl (fun (d : Dev) p => d.transmit p (.tick kind m)) d

/-- HOPS of the messages the device sends. -/
def Dev.hopsOut (d : Dev) : W8 :=
  if d.isRoot then 0 else match d.tick.upstream with
    | none => 1
    | some (_, h) => BitVec.ofNat 8 (h + 1)

/-- The MARKER of the edge just begun (R55, R425). In Ethernet mode a follower sends none. -/
def Dev.sendMarkers (d : Dev) : Dev :=
  d.sendTick (d.tickPorts (if d.isRoot then none else d.tick.upstream.map (·.1))) 1
    { hops := d.hopsOut, root := d.rootId, value := 0, tick := d.tick.number, step := d.tick.step, time := 0 }

/-- ANNOUNCE_LEAD (R44, R53, R58, R63): the root fixes the coming edge with the largest stretch asked for, capped at LIMIT_US, and
announces it, at the lead in force before the edge; while a period change is armed PERIOD follows. -/
def Dev.announceLead (d : Dev) (now : Nat) : Dev :=
  match d.tick.nextEdge with
  | none => d
  | some e =>
    let next := d.tick.number + 1
    let lead := leadInForce (d.fld (At.tick 0x00C) 24 8) d.tick.periodUs
    if !d.isRoot || !d.tick.begun || decide (now + 1000 * lead < e) || decide (d.tick.announced = some next) then d
    else
      let n := d.tick.number.toNat
      let grant := min (Tab.look 0 d.tick.requests n) d.limitUs
      let d := d.onTick fun t => { t with nextEdge := some (e + 1000 * grant), granted := Tab.put 0 t.granted n grant,
                                          stretched := decide (0 < grant), announced := some next }
      let m : TickMsg := { hops := 0, root := d.deviceId, value := BitVec.ofNat 32 grant, tick := next, step := d.tick.step,
                           time := BitVec.ofNat 64 (e + 1000 * grant - d.tick.lastEdge) }
      let q := d.links.ptpPort
      let send := fun (d : Dev) (kind : W8) (m : TickMsg) => (d.tickPorts none).foldl (fun (d : Dev) p =>
        d.transmit p (.tick kind (if p = q ∧ kind = 2 ∧ (d.port p).mode = 2 then { m with time := BitVec.ofNat 64 (e + 1000 * grant) } else m))) d
      let d := send d 2 m
      if d.tick.pending then send d 4 { m with value := BitVec.ofNat 32 d.tick.armedUs, tick := d.tick.nextAt, time := 0 } else d

def execAnnounceLead (now : Nat) (s : State) : Host.Outcome State Fault Refusal := s.onDev fun d => d.announceLead now

/-- Whether a follower takes tick messages from a port: its upstream DIRECT port, or in Ethernet mode the PTP port (R425, R426). -/
def Dev.fromUpstream (d : Dev) (p : Nat) : Bool :=
  if d.isRoot then false
  else if d.fld (At.tick 0) 6 2 = 1 then decide (d.tick.upstream.map (·.1) = some p)
  else d.fld (At.tick 0) 6 2 == 2 && d.links.ptpPort == p

/-- Forwards ANNOUNCE or PERIOD on the other DIRECT ports (R425). -/
def Dev.forwardTick (d : Dev) (p : Nat) (kind : W8) (m : TickMsg) : Dev :=
  if d.fld (At.tick 0) 6 2 = 1 then d.sendTick (d.tickPorts (some p)) kind { m with hops := m.hops + 1 } else d

/-- ANNOUNCE at a follower (R58, R424 to R426): it fixes the time of the coming edge; one for an edge whose guard has begun comes too
late. -/
def Dev.takeAnnounce (d : Dev) (p : Nat) (m : TickMsg) : Dev :=
  if !d.fromUpstream p || m.root != d.rootId then d
  else
    let d := d.forwardTick p 2 m
    if d.tick.announced = some m.tick ∨ m.tick ≠ d.tick.number + 1 ∨ !d.tick.begun then d
    else
      let at_ := if d.fld (At.tick 0) 6 2 = 1 then d.tick.rootEdge + m.time.toNat
        else ((m.time.toNat : Int) + d.links.ptp.offset).toNat
      d.onTick fun t => { t with nextEdge := some at_, granted := Tab.put 0 t.granted t.number.toNat m.value.toNat,
                                 stretched := decide (0 < m.value.toNat), announced := some m.tick, missed := false }

def execAnnounce (port : Fin 17) (m : TickMsg) (s : State) : Host.Outcome State Fault Refusal :=
  s.onDev fun d => d.takeAnnounce port.val m

/-- PERIOD at a follower: the fleet's change is armed (R42, R424). -/
def Dev.takePeriod (d : Dev) (p : Nat) (m : TickMsg) : Dev :=
  if !d.fromUpstream p || m.root != d.rootId then d
  else (d.onTick fun t => { t with pending := true, armedUs := m.value.toNat, nextAt := m.tick }).forwardTick p 4 m

def execPeriod (port : Fin 17) (m : TickMsg) (s : State) : Host.Outcome State Fault Refusal :=
  s.onDev fun d => d.takePeriod port.val m

/-- STRETCH_REQ (R63, R427): the root keeps the largest request that comes before the announcement; another device passes on the
largest per tick. -/
def Dev.takeStretch (d : Dev) (m : TickMsg) : Dev :=
  let n := m.tick.toNat
  let us := m.value.toNat
  if n < d.tick.number.toNat ∨ us ≤ Tab.look 0 d.tick.requests n ∨ d.tick.announced = some (m.tick + 1) then d
  else
    let d := d.onTick fun t => { t with requests := Tab.put 0 t.requests n us }
    if d.isRoot then d
    else match d.tick.upstream with
      | none => d
      | some (p, _) => d.transmit p (.tick 3 { m with hops := m.hops + 1 })

def execStretchReq (_port : Fin 17) (m : TickMsg) (s : State) : Host.Outcome State Fault Refusal := s.onDev fun d => d.takeStretch m

/-- The upstream port after a MARKER: lowest HOPS, ties to the lower port (R425). -/
def nearer (old : Option (Nat × Nat)) (p hops : Nat) : Option (Nat × Nat) :=
  match old with
  | none => some (p, hops)
  | some (q, h) => if p = q ∨ hops < h ∨ (hops = h ∧ p < q) then some (p, hops) else some (q, h)

/-- How far an edge lies from the root's, in ns. -/
def edgeError (a b : Nat) : Nat := (a - b) + (b - a)

/-- What a MARKER of the followed root, of tick `m.tick` begun at `began` by the root's time, does to the tick (R56, R58, R59, R425).
`direct` is DIRECT mode, where every marker places the edges; in Ethernet mode they follow the announcements, and the marker
places the next edge only where the device has lost its alignment.
- One for an edge not taken yet gives that edge its number and step: it falls at the root's time.
- One for the tick in progress gives the step; off by at most 1 µs, the next edge moves by the difference, otherwise it is held until
  the root's time.
- One for an earlier tick holds the next edge until the root comes to it; the number never falls. -/
def Tick.align (t : Tick) (direct : Bool) (m : TickMsg) (began : Nat) : Tick :=
  let us := 1000 * t.periodUs
  if t.takeNumber then { t with takeNumber := false, coming := some (m.tick, m.step), nextEdge := some began }
  else if t.number < m.tick then
    { t with coming := some (m.tick, m.step),
             nextEdge := if direct || decide (m.tick ≠ t.number + 1) then some began else some (t.nextEdge.getD began) }
  else if m.tick < t.number then
    { t with step := m.step, nextEdge := some (began + us * (t.number.toNat + 1 - m.tick.toNat)) }
  else if !direct then
    { t with step := m.step, nextEdge := if t.missed then some (began + us) else t.nextEdge }
  else
    { t with step := m.step, rootEdge := began,
             nextEdge := some (if edgeError began t.lastEdge ≤ 1000 then (t.nextEdge.getD (t.lastEdge + us)) + began - t.lastEdge
                               else began + us) }

/-- Whether a MARKER shows the edges within the alignment of the source (R45, R56, R425, log 39): in DIRECT mode the edge it tells of is
at most 1 µs off and the root at most 5 hops away; in Ethernet mode the PTP clock is locked and the edge was announced. -/
def Tick.within (t : Tick) (direct locked : Bool) (m : TickMsg) (began : Nat) : Bool :=
  let own := if m.tick = t.number + 1 then t.nextEdge.getD began else t.lastEdge
  (t.takeNumber || decide (m.tick = t.number) || decide (m.tick = t.number + 1)) &&
    (if direct then (t.takeNumber || decide (edgeError began own ≤ 1000)) && decide (m.hops.toNat ≤ 5) else locked && !t.missed)

/-- A root heard (R57): roots not heard for two ticks are forgotten (log 39), and the upstream port is chosen anew where the device
comes to follow another root. -/
def Dev.hearRoot (d : Dev) (root : W16) : Dev :=
  let n := d.tick.number
  let was := d.rootId
  let d := d.onTick fun t =>
    { t with roots := t.roots.filter (fun e => decide (e.1 ≠ root) && decide (n.toNat ≤ e.2.toNat + 2)) ++ [(root, n)] }
  if d.rootId = was then d else d.onTick fun t => { t with upstream := none }

/-- MARKER at a follower (R56 to R59, R425, R426). -/
def Dev.takeMarker (d : Dev) (p : Nat) (m : TickMsg) (arrival : Nat) : Dev :=
  let source := d.fld (At.tick 0) 6 2
  if d.isRoot || source == 0 then d
  else
    let d := d.hearRoot m.root
    if m.root ≠ d.rootId then d.onTick fun t => { t with aligned := false }
    else
      let direct := decide (source = 1)
      let d := if direct && (d.port p).up && decide ((d.port p).mode = 1) then
        d.onTick fun t => { t with upstream := nearer t.upstream p m.hops.toNat } else d
      if !d.fromUpstream p || !d.bit (At.tick 0) 0 then d
      else
        let began := arrival - (if direct then (d.port p).latency.toNat else 0)
        d.onTick fun t =>
          { t.align direct m began with aligned := decide (t.roots.length ≤ 1) && t.within direct d.links.ptp.locked m began }

def execMarker (port : Fin 16) (m : TickMsg) (arrival : Nat) (s : State) : Host.Outcome State Fault Refusal :=
  s.onDev fun d => d.takeMarker port.val m arrival

/-! ## Period changes and the start of the ticks (R40, R42) -/

/-- A write of TICK.NEXT_AT_HI (R42): on the root it arms a change, or replaces the armed one, where the conditions hold; a follower
ignores it, and programs may not write it (R86). -/
def Dev.armPeriod (d : Dev) (r : Requester) (hi : W32) : Dev :=
  match r with
  | .core _ => d
  | _ =>
    let lo := d.takeLow r (At.tick 0x018)
    let d := lo.2
    if !d.isRoot then d
    else
      let at_ := hi ++ lo.1
      let us := d.fld (At.tick 0x008) 0 12
      let n := d.tick.number.toNat
      if us < 64 ∨ 4000 < us ∨ at_.toNat < n + 16 ∨ (d.tick.pending ∧ d.tick.nextAt.toNat < n + 16) then d
      else (d.setReg64 (At.tick 0x018) at_).onTick fun t => { t with pending := true, armedUs := us, nextAt := at_ }

def execTickNextAtHiWrite (r : Requester) (v : W32) (s : State) : Host.Outcome State Fault Refusal := s.onDev fun d => d.armPeriod r v

/-- TICK_RUN_SET (R40, R56): a root's first edge falls at once, or on the next rise of PPS_IN; a follower waits for a MARKER. -/
def Dev.runTicks (d : Dev) (now : Nat) : Dev :=
  if d.bit (At.tick 0) 0 then d
  else
    let d := d.setFld (At.tick 0) 0 1 1
    let d := d.onTick fun t => { t with roots := [], upstream := none, coming := none, missed := false }
    if !d.isRoot then d.onTick fun t => { t with takeNumber := true }
    else if d.bit (At.tick 0) 3 then d.onTick fun t => { t with ppsWait := true }
    else d.onTick fun t => { t with nextEdge := some now, aligned := true }

def execTickRunSet (now : Nat) (s : State) : Host.Outcome State Fault Refusal := s.onDev fun d => d.runTicks now

/-- PPS_IN_RISE (R40). -/
def execPpsInRise (now : Nat) (s : State) : Host.Outcome State Fault Refusal :=
  s.onDev fun d => if d.tick.ppsWait then d.onTick fun t => { t with ppsWait := false, nextEdge := some now, aligned := true } else d

/-- The measurements of a maintenance tick, in order (R65, R471): the SRAM test of the sector whose turn it is, the replica readings of
every sector, the eye widths. -/
def measureList (v : Variant) : List Nat := 0 :: (List.range v.sectors).map (· + 1) ++ [13]

/-- A maintenance tick makes the measurements left of the one before first, then its own (R65). -/
def Power.beginMeasures (v : Variant) (p : Power) : Power :=
  { p with maintCount := p.maintCount + 1, measures := p.measures ++ (measureList v).filter (fun k => !p.measures.contains k) }

/-- The first `n` measurements are made; after an SRAM test the next sector has its turn (R471). -/
def Power.endMeasures (v : Variant) (p : Power) (n : Nat) : Power :=
  { p with measures := p.measures.drop n,
           sramTurn := if (p.measures.take n).contains 0 then (p.sramTurn + 1) % v.sectors else p.sramTurn }

/-- MAINTENANCE_RESERVE_END (R65): the reserve is over, and tile slices start. Where it was shortened, how many measurements fitted is a
free value (log 39); the others are left for the next maintenance tick. -/
def Dev.endReserve (v : Variant) (d : Dev) : Dev :=
  if !d.tick.reserve then d
  else
    let n := d.tick.number.toNat
    let whole := decide (d.reserveAsked n ≤ reserveInForce (d.reserveAsked n) d.tick.periodUs)
    let w := if whole then (BitVec.ofNat 64 d.power.measures.length, d) else d.draw
    let d := (w.2.onPower fun p => p.endMeasures v w.1.toNat).onTick fun t => { t with reserve := false }
    (List.range v.sectors).foldl (fun d n => d.tryStarts v n) d

def execMaintenanceReserveEnd (s : State) : Host.Outcome State Fault Refusal := s.onDev fun d => d.endReserve s.fuse.variant

/-! ## Guard start (R53 steps 2 to 5) -/

/-- Whether a slice is late at guard start: of this tick or earlier, with work, and not skipped (R61). -/
def lateNow (x : Tile) (n : Nat) (s : Slice) : Bool := decide (s.tick.toNat ≤ n) && !isIdle s.entry && !x.skip.contains s.serial

/-- LATE_SLICE of a tile at a guard that starts at `at_` (R61): the tile, whether it is late, and how many slices have become late. -/
def Tile.turnLate (x : Tile) (n at_ : Nat) : Tile × Bool × Nat :=
  let running := decide (x.run = .running) || decide (x.run = .ending)
  let hit := fun (s : Slice) => lateNow x n s && !s.late
  let cur := running && (x.cur.map (lateNow x n)).getD false
  let new_ := running && (x.cur.map hit).getD false
  let mark := fun (s : Slice) => if hit s then { s with late := true, lateAt := at_ } else s
  ({ x with late := x.late || cur, cur := if cur then x.cur.map mark else x.cur, waiting := x.waiting.map mark },
   cur || x.waiting.any (lateNow x n), (if new_ then 1 else 0) + (x.waiting.filter hit).length)

/-- LATE_SLICE (R61): slices that have become late are counted, and a tick in which a tile is late raises LATE_TICK. -/
def Dev.lateSlices (v : Variant) (d : Dev) : Dev :=
  let n := d.tick.number.toNat
  let r := v.tiles.foldl (fun (r : Nat × BitVec 192 × Dev) t =>
    let x := (r.2.2.tile t).turnLate n d.tick.clock
    if !x.2.1 then r else (r.1 + x.2.2, r.2.1 ||| BitVec.twoPow 192 t.ix, r.2.2.setTile t x.1)) (0, 0, d)
  let d := (r.2.2.count (At.tick 0x030) 0 32 r.1).onSeq fun q => { q with lateTiles := r.2.1 }
  if r.2.1 = 0 then d else d.raise 0x02 { status := 0x40, arg := toLE 24 r.2.1.toNat }

/-- A sample of progress counters (R435, R436): how many samples in a row a unit had pending work and one counter; a unit that the
sample does not name has no pending work. -/
def Dev.sample (d : Dev) (xs : List UnitSample) : Dev :=
  d.onGander fun g => { g with samples := xs.foldl (fun t x =>
    let old := d.sampled x.unit
    let run := if !x.pending then 0 else if old.1 = x.counter ∧ 0 < old.2 then old.2 + 1 else 1
    Tab.put (0, 0) t x.unit.toNat (x.counter, run)) [] }

/-- ANNOUNCEMENT_MISSED (R58): a follower without the announcement takes the edge at its unstretched time. -/
def Dev.missAnnouncement (d : Dev) : Dev :=
  if d.isRoot || decide (d.tick.announced = some (d.tick.number + 1)) then d
  else (d.count (At.tick 0x014) 8 8 1).onTick fun t => { t with announced := some (t.number + 1), missed := true }

/-- SEQUENCER_CHECKPOINT (R17): the standby core, where it can serve, holds the state of the coming edge. -/
def Dev.checkpoint (v : Variant) (d : Dev) : Dev :=
  let standby := unitNo 0x14 (1 - d.activeCore)
  if d.seq.failedCore || decide ((d.entry v standby).state = stFaulted) then d
  else d.onSeq fun q => { q with standbyReady := true, ckpt := some (q.toStandby (d.tick.number + 1)) }

/-- The checkpoint once the duties of its edge are done (R17, R67): what the standby holds then is the active core's state. -/
def Dev.checkpointed (d : Dev) : Dev :=
  d.onSeq fun q => { q with ckpt := q.ckpt.map (fun c => q.toStandby c.tick) }

/-- GUARD_START (R53): lateness, samples, collection, the journal's TICK entry, the checkpoint and the clock decision; an owner's reset
whose tick has come begins (R452). -/
def Dev.guardStart (v : Variant) (d : Dev) (tel : Telemetry) (samples : List UnitSample) : Dev :=
  if !d.tick.begun || d.tick.nextEdge.isNone then d
  else
    let n := d.tick.number.toNat
    let sectors := List.range v.sectors
    let d := d.onTick fun t => { t with clock := max t.clock (t.nextEdge.getD 0 - 1000 * guardUs) }
    let d := (d.missAnnouncement.lateSlices v)
    let d := sectors.foldl (fun d k => d.countLateEntries v k n true) d
    let d := (sectors.foldl (fun d k => d.sampleDeadlock v k) (d.sample samples)).ownerReset v
    ((((d.collect v).journalTick v).checkpoint v).decideClock v tel)

def execGuardStart (tel : Telemetry) (samples : List UnitSample) (s : State) : Host.Outcome State Fault Refusal :=
  s.onDev fun d => d.guardStart s.fuse.variant tel samples

/-! ## The edge (R53 steps 6 to 9) -/

/-- The number of the tick that an edge at `now` begins (R56, R60): the one that a MARKER gave it, the next, or after a warm reset of a
root N + k. -/
def Dev.edgeNumber (d : Dev) (now : Nat) : W64 :=
  match d.tick.coming with
  | some c => c.1
  | none =>
    if d.tick.begun then d.tick.number + 1
    else match d.tick.saved with
      | none => d.tick.number
      | some (n, last) => if d.isRoot then n + BitVec.ofNat 64 ((now - last + 1000 * d.tick.periodUs - 1) / (1000 * d.tick.periodUs))
          else d.tick.number

/-- TICK.STEP from this edge on: on a follower what its MARKER gave, on the root the STEP entry of the tick (R51, R59). -/
def Dev.edgeStep (d : Dev) (n : W64) : W64 :=
  match (d.seq.steps.filter (fun e => decide (e.1 = n))).getLast? with
  | some e => e.2
  | none => match d.tick.coming with
    | some c => c.2
    | none => d.tick.step

/-- What the tick that ends leaves: measured values and the thermal model (R469, R473), Press stalls (R188), the stretch applied. -/
def Dev.endTick (v : Variant) (d : Dev) (tel : Telemetry) (now : Nat) : Dev :=
  if !d.tick.begun then d
  else
    let d := ((d.showTelemetry tel).ageEdge v tel (now - d.tick.lastEdge)).thermalUpdate v tel now
    let d := (List.range v.sectors).foldl (fun (d : Dev) n =>
      let xs := (List.range 16).map (fun k => (d.tile (tileOf (16 * n + k))).stall)
      let total := xs.sum
      if total = 0 then d
      else
        let worst := (List.range 16).foldl (fun m k => if xs.getD m 0 < xs.getD k 0 then k else m) 0
        let d := (List.range 16).foldl (fun (d : Dev) k => d.onTile (tileOf (16 * n + k)) fun x => { x with stall := 0 }) d
        d.raise 0x0A { partition := n, arg := toLE 4 total ++ [BitVec.ofNat 8 worst, 0, 0, 0] ++ toLE 4 (xs.getD worst 0) }) d
    d.onTick fun t => { t with lastUs := Tab.look 0 t.granted t.number.toNat }

/-- The tick in progress after an edge, and PERIOD_CHANGE_APPLY (R42, R53, R65). -/
def Dev.beginTick (v : Variant) (d : Dev) (n step : W64) (now : Nat) : Dev :=
  let change := d.tick.pending && decide (d.tick.nextAt.toNat ≤ n.toNat)
  let us := if change then d.tick.armedUs else d.tick.periodUs
  let maint := d.maintains n.toNat
  let d := d.onTick fun t =>
    { t with number := n, step := step, periodUs := us, pending := t.pending && !change, begun := true, saved := none, coming := none,
             maint := maint, reserve := maint, stretched := false, floorWarn := false, announced := none, lastEdge := now, rootEdge := now,
             clock := max t.clock now,
             nextEdge := some (now + 1000 * us), requests := t.requests.filter (fun e => decide (n.toNat ≤ e.1)),
             granted := t.granted.filter (fun e => decide (n.toNat ≤ e.1)) }
  let d := d.onSeq fun q => { q with steps := q.steps.filter (fun e => decide (n < e.1)) }
  let d := if maint then d.onPower (·.beginMeasures v) else d
  if change then d.onRetain fun r => { r with changed := true } else d

/-- TALLY_LOG_WRITE (R341, R342): the records of the slots with a total, then every counter is clear. -/
def Dev.logTallies (v : Variant) (d : Dev) (n : Nat) : Dev :=
  let a := (d.reg64 (At.sector n 0x790)).toNat
  let c := fun (k : Nat) => (Tab.look 0 (d.sector n).tallies k).toNat
  let rec_ := fun (s : Nat) => (List.range 6).flatMap (fun k => toLE 8 (c (6 * s + k))) ++ toLE 8 d.tick.prevStep.toNat ++
    [BitVec.ofNat 8 n, BitVec.ofNat 8 s, 0, 0, 0, 0, 0, 0]
  let d := if a = 0 then d
    else (List.range 32).foldl (fun (d : Dev) s => if c (6 * s) = 0 then d else (d.physStore v (a + 64 * s) (rec_ s)).d) d
  d.onSector n fun s => { s with tallies := [] }

/-- What a new step brings at the first edge at which TICK.STEP differs from its value at the edge before (R341, R379). -/
def Dev.stepEdge (v : Variant) (d : Dev) (stepping : W8) : Dev :=
  if d.tick.step = d.tick.prevStep then d
  else (((List.range v.sectors).foldl (fun d n => d.logTallies v n) d).onTick fun t => { t with prevStep := t.step }).journalStep v stepping

/-- The memory side of an edge: refresh, margining, regulators (R261, R262, R265, R281); `ended` says that a tick ends here. -/
def Dev.memoryEdge (v : Variant) (d : Dev) (n now : Nat) (ended : Bool) : Dev :=
  let d := (((d.refreshEdge n now ended).marginEdge v n).refill n).releasePort v n
  (d.onHub n fun h => { h with oxPass := h.oxPass.map (fun p => if p.waiting then { p with left := p.left - 1 } else p) }).onSector n
    fun s => { s with troughs := s.troughs.map (fun e => (e.1, { e.2 with staleRaised := false })) }

/-- The new routing table comes into force (R421). -/
def Dev.routeEdge (d : Dev) : Dev :=
  if d.links.routeWaiting then
    (d.onLinks fun l => { l with routes := l.routeImage, routeWaiting := false, routeLoading := false }).onRetain fun r => { r with changed := true }
  else d

/-- Removes window entries that no line can name any more: closed, with a NEXT that is closed too. -/
def Seq.prune (q : Seq) : Seq :=
  let gone := fun (e : WinEntry) => e.closed && (e.next == 0xFFFF ||
    match q.windows.find? (fun x => x.serial == e.serial && x.index == e.next) with
    | none => true
    | some x => x.closed)
  { q with windows := q.windows.filter (fun e => !gone e) }

/-- The slice a plan gives a tile in the tick that begins; a tile that takes no slice skips the plan's rest (R49, R61, R109). -/
def Dev.pushSlice (v : Variant) (d : Dev) (p : Plan) (n : Nat) (t : TileRef) : Dev :=
  let e := d.sliceEntry v p n t.ix
  let d := e.2
  if isIdle e.1 && !e.1.getLsbD 17 then d
  else if d.noSlice v t then d.onTile t fun x => { x with skip := if x.skip.contains p.serial then x.skip else p.serial :: x.skip }
  else
    d.onTile t fun x => { x with waiting := x.waiting ++ [{ serial := p.serial, ctx := p.ctx, planId := p.id, tick := BitVec.ofNat 64 n, entry := e.1 }] }

/-- The plans at the edge that begins tick `n` (R49, R50, R54, R305, R309). -/
def Dev.planEdge (v : Variant) (d : Dev) (n : Nat) : Dev :=
  let ps := d.seq.plans
  let cancelled := ps.filter (fun p => decide (p.cancelAt.map (·.toNat) = some n))
  let d := cancelled.foldl (fun d p => v.tiles.foldl (fun (d : Dev) t =>
    let d := d.onTile t fun x => { x with waiting := x.waiting.filter (fun s => s.serial != p.serial) }
    let x := d.tile t
    if x.cur.map (·.serial) = some p.serial ∧ x.run ≠ .running ∧ x.run ≠ .ending then d.cancelAll v t else d) d) d
  let now := ps.filter (fun p => p.covers n)
  let d := (now.filter (fun p => decide (p.first.toNat = n))).foldl (fun d p => d.applyRoutes v p) d
  let d := now.foldl (fun d p => d.askSwaps v p n) d
  let d := now.foldl (fun d p => v.tiles.foldl (fun (d : Dev) t => d.pushSlice v p n t) d) d
  let d := v.tiles.foldl (fun (d : Dev) t => d.swapAtEdge t) d
  let d := (List.range v.sectors).foldl (fun (d : Dev) k => (d.plannedSwaps k).tryStarts v k) d
  let used := fun (k : Nat) => v.tiles.any (fun t =>
    let x := d.tile t
    (x.waiting.any (fun s => s.serial == k)) || decide (x.cur.map (·.serial) = some k ∧ (x.run = .running ∨ x.run = .ending)))
  let live := d.seq.plans.filter (fun p => decide (n < p.endTick) || used p.serial)
  let d := d.onSeq fun q => { q with plans := live }
  v.tiles.foldl (fun (d : Dev) t => d.onTile t fun x =>
    let alive := fun (k : Nat) => live.any (fun p => p.serial == k)
    { x with skip := x.skip.filter alive, begun := x.begun.filter alive }) d

/-- A debug level whose ticks have run out is closed (R490). -/
def Dev.expireDebug (d : Dev) : Dev := d.onSec fun s => if s.ticksLeft = 0 then { s with debugLevel := 0 } else s

/-- A return whose window has passed is no longer armed (R490). -/
def Dev.expireReturn (d : Dev) : Dev := d.onSec fun s => if s.armedLeft = 0 then { s with armed := false } else s

/-- The times of the security state that count tick edges (R490): a level closes, and an armed return lapses, at 0. -/
def Dev.secEdge (d : Dev) : Dev :=
  (d.onSec fun s => { s with ticksLeft := s.ticksLeft - 1, armedLeft := s.armedLeft - 1 }).expireDebug.expireReturn

/-- TICK_EDGE (R53): what happens at an edge, in the order of the steps. -/
def Dev.tickEdge (v : Variant) (d : Dev) (stepping : W8) (lc : BitVec 4) (tel : Telemetry) (now : Nat) : Dev :=
  match d.tick.nextEdge with
  | none => d
  | some e =>
    if now < e ∨ !d.bit (At.tick 0) 0 ∨ !d.power.clocksOn then d
    else
      let sectors := List.range v.sectors
      let ended := d.tick.begun
      let d := (d.consumeAll v).endTick v tel now
      let n := d.edgeNumber now
      let d := ((d.beginTick v n (d.edgeStep n) now).commitClock v).sendMarkers
      let d := sectors.foldl (fun d k => d.memoryEdge v k now ended) d
      let d := (((d.returns v).disableEdge v).routeEdge).readConsumed v
      let d := (((d.stepEdge v stepping).replayEnd v).replayBegin v stepping lc).evalChange v n.toNat
      let d := (d.openWindows v).onSeq Seq.prune
      let d := (d.charEdge v n.toNat).planEdge v n.toNat
      (sectors.foldl (fun d k => d.countLateEntries v k n.toNat false) d).secEdge.checkpointed

def execTickEdge (tel : Telemetry) (now : Nat) (s : State) : Host.Outcome State Fault Refusal :=
  s.onDev fun d => d.tickEdge s.fuse.variant s.fuse.stepping s.fuse.lc tel now

end Sys2Proof.Machine
end

