-- ==== Sys2Proof/Machine/LinkRows.lean ====
section
/-!
DEFINITION. Sys2Proof/Machine/LinkRows.lean: ports and their training (R390 to R392, R414, R415, R428), frames that are dropped
(R393, R401), address resolution (R394), priority flow control (R417), the PTP time receiver (R393), host connections opened and
closed (R395, R396) and the load of the routing table (R421).
-/

namespace Sys2Proof.Machine

open Sys2Proof

/-! ## Training -/

/-- The ledger unit of a port (R535). -/
def portUnit (p : Nat) : BitVec 16 := if p = 16 then unitNo 0x13 0 else unitNo 0x11 p

/-- Whether the link dies run: their firmware is loaded, or the device is in recovery (R494, R495). -/
def Dev.linksRun (d : Dev) : Bool := !d.dev.inReset && (decide (d.sec.bootStep = 8) || d.sec.recovery)

/-- Whether a port may train: a present peer port that is READY, or being enabled, and not OFF, or the host port enabled (R390, R431, R453). -/
def Dev.portOn (v : Variant) (d : Dev) (p : Nat) : Bool :=
  d.linksRun &&
    (if p = 16 then d.bit (At.host 0x000) 0
    else decide (p < v.ports) && (d.fld (At.port p 0) 0 2 == 1 || d.fld (At.port p 0) 0 2 == 2) &&
      ((d.entry v (unitNo 0x11 p)).state == stReady || (d.entry v (unitNo 0x11 p)).state == stBringup))

/-- PORT_STATE as a port is now (R551). -/
def Dev.portState (d : Dev) (p : Nat) : Dev :=
  let x := d.port p
  d.raise 0x15 { unit := (portUnit p).toNat, arg := [BitVec.ofNat 8 p, if x.up then 1 else 0, BitVec.ofNat 8 x.lanes, x.spared] }

/-- LINK.FLEET, LINK.PTP and HOST.MAC take effect at a retrain of the ports they concern (R431). -/
def Dev.takeIdentity (d : Dev) (p : Nat) : Dev :=
  let ptp := d.fld (At.link 0 0x238) 0 5
  d.onLinks fun l =>
    { l with devId := if p < 16 then BitVec.ofNat 16 (d.fld (At.link 0 0x200) 0 16) else l.devId
             fleetMac := if p < 16 then BitVec.ofNat 16 (d.fld (At.link 0 0x200) 16 16) else l.fleetMac
             ptpPort := if p = ptp ∨ p = l.ptpPort then ptp else l.ptpPort
             hostMac := if p = 16 then (d.reg64 (At.host 0x008)).setWidth 48 else l.hostMac }

/-- Whether a unit is peer port `p`. -/
def isPort (p : Nat) (u : BitVec 16) : Bool := decide (p < 16) && u == unitNo 0x11 p

/-- Followers lose an upstream port, and the PTP clock its source, when the port goes down (R393, R425). -/
def Dev.forgetPort (d : Dev) (p : Nat) : Dev :=
  let d := if p = d.links.ptpPort then d.onLinks fun l => { l with ptp := {} } else d
  d.onTick fun t => { t with upstream := if t.upstream.any (fun u => u.1 == p) then none else t.upstream }

/-- A port leaves its link and starts training (R392). What waits in its replay buffer is kept for the new link (R414). -/
def Dev.retrain (v : Variant) (d : Dev) (p : Nat) : Dev :=
  let was := (d.port p).up
  let d := d.beginEnable v (isPort p)
  let d := if d.portOn v p then d.onPort p fun x => { x with up := false, lanes := 0, used := 0, paused := 0 } else d.onPort p (·.cleared)
  let d := (d.forgetPort p).takeIdentity p
  if was then d.portState p else d

/-- PORT_RETRAIN (R392, R431): LINK.PORT_CTRL.RETRAIN. -/
def execPortRetrain (p : Fin 16) (s : State) : Host.Outcome State Fault Refusal :=
  s.onDev fun d => if p.val < s.fuse.variant.ports then d.retrain s.fuse.variant p.val else d

/-- HOST_RETRAIN (R392, R431): HOST.CTRL.RETRAIN. -/
def execHostRetrain (s : State) : Host.Outcome State Fault Refusal := s.onDev fun d => d.retrain s.fuse.variant 16

/-- LINK_DOWN (R392): a port that loses its link trains again. -/
def execLinkDown (p : Fin 17) (s : State) : Host.Outcome State Fault Refusal :=
  s.onDev fun d => if (d.port p.val).up then d.retrain s.fuse.variant p.val else d

/-- The width a port is set to, in lanes (R431). -/
def Dev.lanesSet (d : Dev) (p : Nat) : Nat :=
  if p = 16 then 8 / 2 ^ d.fld (At.host 0x000) 2 2 else 4 / 2 ^ d.fld (At.port p 0) 2 2

/-- The widest legal width of at most `n` lanes (R392). -/
def legalLanes (n : Nat) : Nat := if 4 ≤ n then 4 else if 2 ≤ n then 2 else n

/-- The link die of a port and the die lane of its lane `i` (R390). -/
def laneOf (p i : Nat) : Nat × Nat := if p = 16 then (0, 32 + i) else (p / 8, 4 * (p % 8) + i)

/-- A spare lane of the die takes the place of a lane of a port, while one is free (R428). -/
def Dev.spareLane (v : Variant) (p : Nat) (d : Dev) (i : Nat) : Dev :=
  let l := laneOf p i
  match (List.range 4).find? (fun k => !d.bit (At.link l.1 0x100) (8 * k + 7)) with
  | none => d
  | some k =>
    let u := unitNo 0x12 (64 * l.1 + l.2)
    let d := d.setFld (At.link l.1 0x100) (8 * k) 8 (0x80 + l.2)
    let d := d.onPort p fun x => { x with spared := x.spared ||| BitVec.ofNat 8 (2 ^ i) }
    (d.spareFor v u (unitNo 0x12 (64 * l.1 + 40 + k))).engage u 7 l.2 (40 + k)

/-- A peer stream at its start (R408): epoch 0 and PSN 0 at both ends; requests that wait on it are numbered anew. -/
def NimStream.restart (x : NimStream) : NimStream :=
  { x with epoch := 0, expected := 0, unacked := 0, atomics := [], pushed := [], pushBad := false, reqEpoch := 0, resyncing := false,
           nextPsn := BitVec.ofNat 32 x.outstanding.length,
           outstanding := x.outstanding.mapIdx fun i o => { o with psn := BitVec.ofNat 32 i, sent := false, acked := false, tries := 0 } }

/-- A port has come up that was down: the streams that had no other way start anew (R408). A port that only trained again keeps them,
since R414 and R406 recover what was on its way. DEDUCED (log 49). -/
def Dev.startStreams (v : Variant) (d : Dev) (p : Nat) : Dev :=
  let ks := (d.links.streams.map (·.1)).filter fun k =>
    decide (k < 2 ^ 20) && d.usableWays v (BitVec.ofNat 16 (k / 4)) == [p]
  ks.foldl (fun d k => (d.onNim k (·.restart)).pump v (.peer (BitVec.ofNat 16 (k / 4)) (BitVec.ofNat 2 k))) d

/-- The lanes in use: the lowest-numbered ones that passed (R392). -/
def lanesUsed (width lanes : Nat) (failed : List Nat) : BitVec 8 :=
  (((List.range width).filter (fun i => !failed.contains i)).take lanes).foldl (fun m i => m ||| BitVec.ofNat 8 (2 ^ i)) 0

/-- The end of a port's training (R392, R415, R428): bad lanes are spared where spares remain; the port is up at the width its
mode allows, with its partner and latency in direct mode, and what its replay buffer holds is sent again, or it stays down. New
equalisation is stored. On the PTP port in Ethernet mode the management core reports the tick group (R394). -/
def Dev.trained (v : Variant) (d : Dev) (p : Nat) (r : TrainReport) : Dev :=
  if !d.portOn v p || (d.port p).up then d
  else
    let width := if p = 16 then 8 else 4
    let bad := (List.range width).filter (fun i => r.badLanes.any (fun k => k.val == i) || (d.port p).due.getLsbD i)
    let d := bad.foldl (fun d i => d.spareLane v p i) d
    let mode : BitVec 2 := if p = 16 then 2 else BitVec.ofNat 2 (d.fld (At.port p 0) 0 2)
    let want := d.lanesSet p
    let lanes := if mode = 1 then legalLanes (min want r.lanes) else want
    if r.up && decide (0 < lanes) && (decide (mode = 1) || decide (want ≤ r.lanes)) then
      let fresh := decide ((d.port p).mode ≠ mode)
      let d := if r.eq.isSome then d.onRetain fun x => { x with changed := true } else d
      let d := d.onPort p fun x =>
        let x := if mode = 1 ∧ x.mode = 1 then x else x.cleared
        { x with up := true, lanes := lanes, mode := mode, latency := if mode = 1 then r.latencyNs else 0,
                 peer := if mode = 1 then r.peer else 0, peerPort := if mode = 1 then r.peerPort else 0,
                 eq := r.eq.or x.eq, due := 0, replays := 0, rxNak := false,
                 used := lanesUsed width lanes (bad.filter (fun i => !x.spared.getLsbD i)) }
      let d := (d.port p).replayBuf.foldl (fun (d : Dev) f => d.send (.flit p false f)) (d.portState p)
      let d := Dev.sendFlits p (d.port p).queuedFlits d
      let d := d.endEnable v (isPort p)
      let d := if p ≠ 16 ∧ fresh then d.startStreams v p else d
      if p = d.links.ptpPort ∧ mode = 2 then d.send (.mld p d.tickGroup ectZero) else d
    else d.onPort p (·.cleared)

/-- PORT_TRAINING_DONE (R392). -/
def execPortTrainingDone (p : Fin 17) (r : TrainReport) (s : State) : Host.Outcome State Fault Refusal :=
  s.onDev fun d => d.trained s.fuse.variant p.val r

/-! ## Frames -/

/-- Whether a port carries frames: up in Ethernet mode. -/
def Dev.frames (d : Dev) (p : Nat) : Bool := (d.port p).up && decide ((d.port p).mode = 2)

/-- The port's error counter (R393, R408): PORT_ERR.REPLAYS of a peer port, HOST.ERR.REFUSED of the host port (DEDUCED,
log 48). -/
def Dev.portError (d : Dev) (p : Nat) : Dev :=
  if p = 16 then d.count (At.host 0x044) 0 16 1 else d.count (At.port p 0x008) 16 16 1

/-- A frame, packet or flit that fails its check (R401, R431). -/
def Dev.crcError (d : Dev) (p : Nat) : Dev :=
  if p = 16 then d.count (At.host 0x044) 16 16 1 else d.count (At.port p 0x008) 0 16 1

/-- UNSUPPORTED_FRAME (R393): dropped and counted. -/
def execUnsupportedFrame (p : Fin 17) (s : State) : Host.Outcome State Fault Refusal :=
  s.onDev fun d => if d.frames p.val then d.portError p.val else d

/-- FRAME_FCS_ERROR (R401, R431): dropped and counted. -/
def execFrameFcsError (p : Fin 17) (s : State) : Host.Outcome State Fault Refusal :=
  s.onDev fun d => if d.frames p.val then d.crcError p.val else d

/-- ARP_REQUEST (R394): answered for HOST.IP4. -/
def execArpRequest (ip : W32) (_mac : BitVec 48) (senderIp : W32) (s : State) : Host.Outcome State Fault Refusal :=
  s.onDev fun d =>
    if (d.port 16).up ∧ ip ≠ 0 ∧ ip = d.reg (At.host 0x010) then d.send (.arp d.links.hostMac ip senderIp) else d

/-- NEIGHBOR_SOLICITATION (R394): answered for HOST.IP6. -/
def execNeighborSolicitation (ip : BitVec 128) (_mac : BitVec 48) (senderIp : BitVec 128) (s : State) :
    Host.Outcome State Fault Refusal :=
  s.onDev fun d => if (d.port 16).up ∧ ip ≠ 0 ∧ ip = d.hostIp6 then d.send (.nd d.links.hostMac ip senderIp ectZero) else d

/-- PFC_FRAME (R417): with PFC_EN set, the port stops sending a priority, or goes on with it. -/
def execPfcFrame (p : Fin 17) (priority : Fin 8) (stop : Bool) (s : State) : Host.Outcome State Fault Refusal :=
  s.onDev fun d =>
    let on := if p.val = 16 then d.bit (At.host 0x000) 9 else d.bit (At.port p.val 0) 7
    if d.frames p.val && on then
      let m : W8 := BitVec.ofNat 8 (2 ^ priority.val)
      let d := d.onPort p.val fun x => { x with paused := if stop then x.paused ||| m else x.paused &&& ~~~m }
      if stop then d else d.releaseHeld
    else d

/-! ## PTP (R393) -/

/-- Whether PTP runs on a port: the one LINK.PTP.PORT named at its last retrain, up in Ethernet mode. -/
def Dev.ptpOn (d : Dev) (p : Nat) : Bool := decide (p = d.links.ptpPort) && d.frames p

def Dev.onPtp (d : Dev) (f : Ptp → Ptp) : Dev := d.onLinks fun l => { l with ptp := f l.ptp }

/-- A Sync's two times are known: the offset follows from the delay measured last, and the delay is measured again. -/
def Dev.synced (d : Dev) (p origin arrival : Nat) : Dev :=
  (d.onPtp fun x => { x with awaiting := none, syncAt := some (origin, arrival),
                             offset := (arrival : Int) - origin - x.delay }).send (.ptpDelayReq p ectZero)

/-- PTP_SYNC: a one-step Sync carries its origin, a two-step one is followed by it. -/
def execPtpSync (p : Fin 17) (twoStep : Bool) (origin arrival : Nat) (s : State) : Host.Outcome State Fault Refusal :=
  s.onDev fun d =>
    if d.ptpOn p.val && d.links.ptp.master.isSome then
      if twoStep then d.onPtp fun x => { x with awaiting := some arrival } else d.synced p.val origin arrival
    else d

/-- PTP_FOLLOW_UP. -/
def execPtpFollowUp (p : Fin 17) (origin : Nat) (s : State) : Host.Outcome State Fault Refusal :=
  s.onDev fun d =>
    match d.ptpOn p.val, d.links.ptp.awaiting with
    | true, some arrival => d.synced p.val origin arrival
    | _, _ => d

/-- PTP_DELAY_RESP: the end-to-end delay and the offset; the clock follows its grandmaster. -/
def execPtpDelayResp (p : Fin 17) (sent received : Nat) (s : State) : Host.Outcome State Fault Refusal :=
  s.onDev fun d =>
    match d.ptpOn p.val, d.links.ptp.syncAt with
    | true, some (t1, t2) =>
      let delay := ((((t2 : Int) - t1) + ((received : Int) - sent)) / 2).toNat
      d.onPtp fun x => { x with delay := delay, offset := (t2 : Int) - t1 - delay, locked := true }
    | _, _ => d

/-- PTP_ANNOUNCE: best master clock selection: the lower rank, then the lower clock identity. -/
def execPtpAnnounce (p : Fin 17) (clock : W64) (rank : Nat) (s : State) : Host.Outcome State Fault Refusal :=
  s.onDev fun d =>
    if d.ptpOn p.val then
      match d.links.ptp.master with
      | none => d.onPtp fun x => { x with master := some (clock, rank) }
      | some (c, r) =>
        if c = clock then d.onPtp fun x => { x with master := some (clock, rank) }
        else if rank < r ∨ (rank = r ∧ clock.toNat < c.toNat) then d.onPtp fun _ => { master := some (clock, rank) }
        else d
    else d

/-! ## Host connections (R395, R396) -/

/-- The address of entry `i` of the host connection table (R395). -/
def Dev.connAddr (d : Dev) (i : Nat) : Nat := (d.reg64 (At.host 0x030)).toNat + 64 * i

/-- A connection opens with what its entry holds at this moment; an entry of KIND 0, a reserved KIND or one that cannot be read
leaves it closed (R396). Its addresses stand in wire order: DEDUCED (log 48). -/
def Dev.openConn (v : Variant) (d : Dev) (i : Nat) : Dev :=
  if (d.conn i).state ≠ 0 then d
  else
    let r := d.physBytes v (d.connAddr i) 64
    let kind := r.data.getD 0 0
    let nat := fun (o n : Nat) => recNat r.data o n
    let wire := fun (o n : Nat) => leNat ((r.data.drop o).take n).reverse
    if r.st ≠ 0 ∨ (kind ≠ 1 ∧ kind ≠ 2) then r.d
    else
      (r.d.onConn i fun _ =>
        { state := 1, kind := kind, prio := BitVec.ofNat 8 (nat 1 1 % 8), vlan := BitVec.ofNat 16 (nat 2 2 % 4096),
          queue := BitVec.ofNat 16 (nat 4 2), udpSrc := BitVec.ofNat 16 (nat 6 2), dmac := BitVec.ofNat 48 (wire 8 6),
          ipv := BitVec.ofNat 8 (nat 0x0E 1), dip := BitVec.ofNat 128 (if nat 0x0E 1 = 4 then wire 0x1C 4 else wire 0x10 16),
          pmtu := BitVec.ofNat 8 (nat 0x0F 1), rqpn := BitVec.ofNat 32 (nat 0x20 4),
          rkey := BitVec.ofNat 32 (nat 0x2C 4), nextPsn := psn24 (BitVec.ofNat 32 (nat 0x24 4)),
          expected := psn24 (BitVec.ofNat 32 (nat 0x28 4)) }).onNim (streamKey (.conn (BitVec.ofNat 8 i))) fun _ => {}

/-- Outstanding requests complete with INTERFACE_RETRY_EXHAUSTED (R396, R400, R407). -/
def Dev.failRequests (d : Dev) (os : List Outstanding) : Dev := os.foldl (fun (d : Dev) o => d.answer o.tag sRetryExhausted []) d

/-- A connection closes (R396). -/
def Dev.closeConn (d : Dev) (i : Nat) : Dev :=
  let k := streamKey (.conn (BitVec.ofNat 8 i))
  let d := (d.failRequests (d.conn i).outstanding).failRequests (d.nim k).outstanding
  (d.onConn i fun _ => {}).onNim k fun _ => {}

/-- CONN_OPEN (R396): HOST.CONN_OPEN with INDEX and OPEN. -/
def execConnOpen (i : W8) (s : State) : Host.Outcome State Fault Refusal :=
  s.onDev fun d => (d.setFld (At.host 0x040) 0 8 i.toNat).openConn s.fuse.variant i.toNat

/-- CONN_CLOSE (R396). -/
def execConnClose (i : W8) (s : State) : Host.Outcome State Fault Refusal :=
  s.onDev fun d => (d.setFld (At.host 0x040) 0 8 i.toNat).closeConn i.toNat

/-! ## The routing table (R421) -/

/-- LINK.ROUTE_CTRL.LOAD, ignored while a load is in progress (R431). -/
def Dev.loadRoutes (d : Dev) : Dev := d.onLinks fun l => { l with routeLoading := true }

def execRouteLoad (s : State) : Host.Outcome State Fault Refusal := s.onDev fun d => d.loadRoutes

/-- The image of the routing table, line by line; an entry that cannot be read names no way. -/
def Dev.readRoutes (v : Variant) (base : Nat) (d : Dev) : Tab W32 × Dev :=
  let r := (List.range 4096).foldl (fun (r : List (Tab W32) × Dev) i =>
    let x := r.2.localRead v (base + 64 * i)
    let es := if x.st ≠ 0 then [] else (List.range 16).filterMap (fun k =>
      let w : W32 := BitVec.ofNat 32 (recNat x.data (4 * k) 4 % 2 ^ 20)
      if w = 0 then none else some (16 * i + k, w))
    (es :: r.1, x.d)) ([], d)
  (r.1.reverse.flatten, r.2)

/-- ROUTE_LOAD_COPIED (R421): both link dies hold the image, which comes into force at the next edge. -/
def execRouteLoadCopied (s : State) : Host.Outcome State Fault Refusal :=
  s.onDev fun d =>
    if d.links.routeLoading then
      let r := d.readRoutes s.fuse.variant (d.reg64 (At.link 0 0x220)).toNat
      r.2.onLinks fun l => { l with routeImage := r.1, routeWaiting := true }
    else d

end Sys2Proof.Machine
end

