-- ==== Sys2Proof/Machine/Transport.lean ====
section
/-!
DEFINITION. Sys2Proof/Machine/Transport.lean: Nimser transport (R401 to R409): the target's order, duplicates and
acknowledgements, admission by the grant table (R397, R398) and the lend table (R422, R423), messages to host queues (R399), the
requester's retries and the handshake of epochs, and forwarding (R420).
-/

namespace Sys2Proof.Machine

open Sys2Proof

/-! ## Admission -/

/-- A grant as its entry holds it (R397). -/
structure Grant where
  key : Nat
  perm : Nat
  ctx : Nat
  conn : Nat
  base : Nat
  length : Nat
  deriving DecidableEq, Repr

/-- The grant that a key selects; an entry that cannot be read grants nothing. -/
def Dev.grant (v : Variant) (d : Dev) (key : W32) : Grant × Dev :=
  let r := d.physBytes v ((d.reg64 (At.host 0x038)).toNat + 32 * (key.toNat % 256)) 32
  let nat := fun (o n : Nat) => if r.st ≠ 0 then 0 else recNat r.data o n
  (⟨nat 0 4, nat 4 1, nat 5 1, nat 6 2, nat 8 8, nat 16 8⟩, r.d)

/-- Whether a grant admits an access of a connection, before translation (R397). -/
def Grant.admits (g : Grant) (key : W32) (conn a len : Nat) (rd wr : Bool) : Bool :=
  decide (g.key / 256 = key.toNat / 256) && (decide (g.conn = 0xFFFF) || decide (g.conn = conn)) &&
    (!rd || decide (g.perm % 2 = 1)) && (!wr || decide (g.perm / 2 % 2 = 1)) && decide (g.ctx < 16) && decide (0 < len) &&
    decide (g.base ≤ a) && decide (a + len ≤ g.base + g.length)

/-- What stands behind a physical address for a request from outside: 0, FENCED or TRANSLATION (R249, R267, R284, R440). -/
def Dev.backed (v : Variant) (d : Dev) (a : Nat) (write : Bool) : W8 × Dev :=
  let fence := fun (n : Nat) => if (d.hub n).fenced then sFenced else 0
  match regionOf a with
  | .quire n off => (if n < v.sectors ∧ off < v.stackGiB * 2 ^ 30 then fence n else sTranslation, d)
  | .scratch n off => (if n < v.sectors ∧ off < (d.hub n).scratchWays * 0x200000 then fence n else sTranslation, d)
  | .aperture n _ _ _ => (if n < v.sectors ∧ write then fence n else sTranslation, d)
  | .window _ _ =>
    let r := d.windowTarget v a
    (if r.1 = 0 then 0 else sTranslation, r.2.2.2)
  | .csr _ => (sTranslation, d)
  | .reserved => (sTranslation, d)

/-- The physical pieces of an access, by translation or as they are: TRANSLATION where one fails, else FENCED where one is
fenced, else 0 (R397). -/
def Dev.resolve (v : Variant) (phys : Bool) (ctx : Nat) (write : Bool) (ps : List (Nat × Nat)) (d : Dev) :
    W8 × List (Nat × Nat) × Dev :=
  ps.foldl (fun (r : W8 × List (Nat × Nat) × Dev) p =>
    let t := if phys then (0, p.1, r.2.2) else r.2.2.translate v .outside ctx p.1 write false
    if t.1 ≠ 0 then (sTranslation, r.2.1, t.2.2)
    else
      let b := t.2.2.backed v t.2.1 write
      (if r.1 = sTranslation ∨ b.1 = sTranslation then sTranslation else if r.1 ≠ 0 then r.1 else b.1,
        r.2.1 ++ [(t.2.1, p.2)], b.2)) (0, [], d)

/-- Admission of a host's access (R397): its status, its physical pieces and the device; a refusal is counted. -/
def Dev.admitHost (v : Variant) (d : Dev) (conn : Nat) (key : W32) (a len : Nat) (rd wr : Bool) : W8 × List (Nat × Nat) × Dev :=
  let g := d.grant v key
  let r := if g.1.admits key conn a len rd wr then
      g.2.resolve v (decide (g.1.perm / 4 % 2 = 1)) g.1.ctx wr (pieces a len)
    else (sTranslation, [], g.2)
  (r.1, r.2.1, if r.1 = 0 then r.2.2 else r.2.2.count (At.host 0x044) 0 16 1)

/-- Whether the lend table lets a device do an operation (bit `perm`) on an access (R422, R423). -/
def Dev.lent (v : Variant) (d : Dev) (dev : W16) (a len perm : Nat) : Bool × Dev :=
  let r := d.physBytes v (d.reg64 (At.link 0 0x230)).toNat 2048
  let ok := (List.range 64).any (fun i =>
    let nat := fun (o n : Nat) => recNat r.data (32 * i + o) n
    decide (nat 0 8 ≤ a) && decide (a + len ≤ nat 0 8 + nat 8 8) && decide (nat 0x10 2 ≤ dev.toNat) &&
      decide (dev.toNat ≤ nat 0x12 2) && decide (nat 0x14 1 / 2 ^ perm % 2 = 1))
  (ok && decide (0 < len), r.d)

/-- Admission of a peer's access to local memory (R423). -/
def Dev.admitPeer (v : Variant) (d : Dev) (dev : W16) (a len perm : Nat) (write : Bool) : W8 × List (Nat × Nat) × Dev :=
  let r := d.lent v dev a len perm
  if !r.1 || (pieces a len).any (fun p => isWindow p.1) then (sTranslation, [], r.2)
  else r.2.resolve v true 0 write (pieces a len)

/-! ## What a request does at its target -/

/-- Bytes of physical pieces. -/
def Dev.readOut (v : Variant) (d : Dev) (ps : List (Nat × Nat)) : Acc := readPieces (fun x a n => x.physRead v none a n) ps d

/-- Writes bytes to physical pieces; lines of the reduction aperture carry `step` (R276, R370). -/
def Dev.writeIn (v : Variant) (d : Dev) (step : W64) (ps : List (Nat × Nat)) (bytes : List W8) : Acc :=
  writePieces (fun x a bs =>
    match regionOf a with
    | .aperture h w slot off =>
      let r := x.redStore v h w slot off step true bs
      ⟨r.1, [], r.2⟩
    | _ => x.physWrite v none a bs) ps bytes d

/-- What a request asks (R403). -/
inductive NimReq where
  | write (data : List W8)
  | read
  | atomic (op : W8) (w : Bool) (v c : W64)
  | redWrite (data : List W8)
  | push (data : List W8)
  deriving DecidableEq, Repr

/-- How a target answers a request: with an ACK in time, with data, with a status, or NOT_READY. -/
inductive NimAns where
  | ack
  | data (op : W8) (bytes : List W8)
  | error (st : W8)
  | notReady
  deriving DecidableEq, Repr

/-- An ACK, or the status of what failed. -/
def ackOr (st : W8) : NimAns := if st = 0 then .ack else .error st

/-- The host connection of a stream, none for a peer. -/
def hostOf : StreamRef → Option Nat
  | .peer _ _ => none
  | .conn i => some i.toNat

/-- Admission of an access by its stream: under a grant for a host, by the lend table for a peer. -/
def Dev.allowReq (v : Variant) (d : Dev) (s : StreamRef) (h : NimHdr) (len perm : Nat) (rd wr : Bool) : W8 × List (Nat × Nat) × Dev :=
  match s with
  | .conn i => d.admitHost v i.toNat ((h.aux >>> 32).setWidth 32) h.addr.toNat len rd wr
  | .peer dev _ => d.admitPeer v dev h.addr.toNat len perm wr

/-- Bytes that all host queues hold in the receive buffer (R399). -/
def Dev.hostHeld (d : Dev) : Nat := 64 * (d.links.hostBuf.map (fun e => e.2.length)).sum

/-- A message cut into words of 64 bytes, the last one padded and marked (R399). -/
def messageWords (bytes : List W8) : List TWord :=
  let n := (bytes.length + 63) / 64
  (List.range n).map (fun i =>
    { data := BitVec.ofNat 512 (leNat ((bytes.drop (64 * i)).take 64)), endMark := decide (i + 1 = n), bad := false })

/-- The longest message, and the share of one queue (R399). -/
def messageMax : Nat := 2 ^ 20

/-- A whole message for a queue: whether it was taken (R399); none for a trough of a fenced sector (R440). -/
def Dev.takeMessage (d : Dev) (q : W16) (bytes : List W8) : Bool × Dev :=
  let ws := messageWords bytes
  let old := d.hostWords q.toNat
  if (d.hostTrough q.toNat).all (fun e => d.cutOff e.1) ∨ 63 < q.toNat ∨ messageMax < 64 * (old.length + ws.length) ∨ 4 * messageMax < d.hostHeld + 64 * ws.length
  then (false, d)
  else (true, d.setHostWords q.toNat (old ++ ws))

/-- Performs a request in its turn (R397 to R399, R403, R423). -/
def Dev.perform (v : Variant) (d : Dev) (s : StreamRef) (h : NimHdr) (q : NimReq) : NimAns × Dev :=
  match q with
  | .write data =>
    if data.isEmpty ∨ 4096 < data.length then (.error sTranslation, d)
    else
      let a := d.allowReq v s h data.length 1 false true
      if a.1 ≠ 0 then (.error a.1, a.2.2)
      else
        let r := a.2.2.writeIn v a.2.2.tick.step a.2.1 data
        (ackOr r.st, r.d)
  | .read =>
    let len := h.aux.toNat % 2 ^ 32
    if len = 0 ∨ 4096 < len then (.error sTranslation, d)
    else
      let a := d.allowReq v s h len 0 true false
      if a.1 ≠ 0 then (.error a.1, a.2.2)
      else
        let r := a.2.2.readOut v a.2.1
        (if r.st = 0 then .data 0x12 r.data else .error r.st, r.d)
  | .atomic op w x c =>
    let n := if w then 4 else 8
    if op.toNat < 0x11 ∨ 0x19 < op.toNat ∨ (op = 0x12 ∧ !w) ∨ h.addr.toNat % n ≠ 0 then (.error sTranslation, d)
    else
      let a := d.allowReq v s h n 2 true true
      if a.1 ≠ 0 then (.error a.1, a.2.2)
      else
        let at_ := (a.2.1.headD (0, 0)).1
        if isWindow at_ then
          let r := a.2.2.windowAtomic v none at_ ([op, if w then 1 else 0, 0, 0, 0, 0, 0, 0] ++ toLE 8 x.toNat ++ toLE 8 c.toNat) 0
          let y := r.2.draw
          if r.1 ≠ 0 then (.error r.1, r.2) else (.data 0x13 (toLE 8 y.1.toNat), y.2)
        else
          let r := a.2.2.localAtomic v at_ (amoOf op.toNat) w x c
          (if r.1 = 0 then .data 0x13 (toLE 8 r.2.1.toNat) else .error r.1, r.2.2)
  | .redWrite data =>
    let inAperture := fun (a : Nat) => match regionOf a with
      | .aperture _ _ _ _ => true
      | _ => false
    if data.isEmpty ∨ data.length % 64 ≠ 0 ∨ 4096 < data.length ∨ h.addr.toNat % 64 ≠ 0 ∨ (hostOf s).isSome ∨
        !(pieces h.addr.toNat data.length).all (fun p => inAperture p.1) then (.error sTranslation, d)
    else
      let a := d.allowReq v s h data.length 3 false true
      if a.1 ≠ 0 then (.error a.1, a.2.2)
      else
        let r := a.2.2.writeIn v h.aux a.2.1 data
        (ackOr r.st, r.d)
  | .push data =>
    match hostOf s with
    | none => (.error sTranslation, d)
    | some i =>
      let k := streamKey s
      let msg := (d.nim k).pushed ++ data
      let last := h.addr.getLsbD 0
      if data.isEmpty ∨ 4096 < data.length ∨ (d.nim k).pushBad ∨ messageMax < msg.length then
        (.error sTranslation, d.onNim k fun x => { x with pushed := [], pushBad := !last })
      else if !last then (.ack, d.onNim k fun x => { x with pushed := msg })
      else
        let r := d.takeMessage (d.conn i).queue msg
        if r.1 then (.ack, r.2.onNim k fun x => { x with pushed := [] }) else (.notReady, d)

/-! ## Responses and forwarding -/

/-- Sends a response to the requester of a stream (R403, R404): to a peer by the routing table, on virtual channel 1. -/
def Dev.respond (v : Variant) (d : Dev) (s : StreamRef) (op st : W8) (epoch : BitVec 4) (ackPsn : W32) (data : List W8) : Dev :=
  let hdr := fun (dst stream : W16) (host : Bool) (vc : BitVec 2) =>
    ({ epoch := epoch, retx := false, host := host, hops := 0, src := d.deviceId, dst := dst, stream := stream, vc := vc, ctx := 0,
       psn := 0, ackPsn := ackPsn, length := BitVec.ofNat 16 data.length, status := st, queue := 0, addr := 0, aux := 0,
       ce := none } : NimHdr)
  match s with
  | .conn i => d.transmit 16 (.nimser op (hdr 0 (i.setWidth 16) true 0) data)
  | .peer dev vc =>
    let w := d.pickWay v d.deviceId dev 1
    match w.1 with
    | none => w.2.count (At.link 0 0x23C) 0 16 1
    | some p => w.2.transmit p (.nimser op (hdr dev 0 false vc) data)

/-- A packet for another device goes on by the device's own table (R420). -/
def Dev.forward (v : Variant) (d : Dev) (p : Nat) (op : W8) (h : NimHdr) (bytes : List W8) : Dev :=
  if 15 ≤ h.hops.toNat then d.count (At.link (p / 8) 0x23C) 16 16 1
  else
    let w := d.pickWay v h.src h.dst (channelOfPacket op h.vc)
    match w.1 with
    | none => w.2.count (At.link (p / 8) 0x23C) 0 16 1
    | some q => w.2.transmit q (.nimser op { h with hops := h.hops + 1 } bytes)

/-- Hands a packet to its stream: forwarded where another device is its destination, dropped where no open connection or no up port
brought it. -/
def Dev.withStream (v : Variant) (d : Dev) (p : Nat) (op : W8) (h : NimHdr) (bytes : List W8) (f : StreamRef → Dev → Dev) : Dev :=
  if !(d.port p).up || h.host != decide (p = 16) then d
  else if p ≠ 16 then (if h.dst = d.deviceId then f (.peer h.src h.vc) d else d.forward v p op h bytes)
  else
    let c := d.conn h.stream.toNat
    if h.stream.toNat < 256 ∧ c.state = 1 ∧ c.kind = 2 then f (.conn (h.stream.setWidth 8)) d else d

/-! ## The target -/

/-- Sends an ACK for everything executed so far (R406). -/
def Dev.sendAck (v : Variant) (d : Dev) (s : StreamRef) : Dev :=
  let x := d.nim (streamKey s)
  (d.onNim (streamKey s) fun y => { y with unacked := 0 }).respond v s 0x10 0 x.epoch (x.expected - 1) []

/-- The least time between two notifications, or two cuts of a rate, in ns (R409). -/
def slowNs : Nat := 50000

/-- Whether so long has passed since the last time. -/
def dueAgain (last : Option Nat) (now : Nat) : Bool := match last with
  | none => true
  | some t => decide (t + slowNs ≤ now)

/-- Whether congestion control is in force for a stream that came in by port `p` (R409). -/
def Dev.ecnOn (d : Dev) (p : Nat) : Bool := if p = 16 then d.bit (At.host 0x000) 8 else decide ((d.port p).mode = 2)

/-- A request marked CE: CONGESTION to its source, at most once per 50 µs (R409); as every response it acknowledges what was executed
(R406). -/
def Dev.notify (v : Variant) (d : Dev) (p : Nat) (s : StreamRef) (ce : Option Nat) : Dev :=
  match ce with
  | none => d
  | some now =>
    let x := d.nim (streamKey s)
    if d.ecnOn p && dueAgain x.lastNotify now then
      (d.onNim (streamKey s) fun y => { y with lastNotify := some now }).respond v s 0x16 0 x.epoch (x.expected - 1) []
    else d

/-- Answers a request whose outcome is known; `psn` is acknowledged with all before it (R406). -/
def Dev.answerNim (v : Variant) (d : Dev) (s : StreamRef) (psn : W32) (a : NimAns) : Dev :=
  let e := (d.nim (streamKey s)).epoch
  match a with
  | .ack => d
  | .data op bytes => d.respond v s op 0 e psn bytes
  | .error st => d.respond v s 0x14 st e psn []
  | .notReady => d.respond v s 0x11 1 e (psn - 1) []

/-- The result of an atomic, kept for duplicates: the last 64 of the stream (R405). -/
def keepAtomic (x : NimStream) (psn : W32) (a : NimAns) : NimStream :=
  let put := fun (st : W8) (old : Nat) =>
    { x with atomics := (x.atomics ++ [(psn, st, BitVec.ofNat 64 old)]).drop (x.atomics.length + 1 - 64) }
  match a with
  | .data _ bytes => put 0 (leNat bytes)
  | .error st => put st 0
  | .ack => x
  | .notReady => x

def NimReq.isAtomic : NimReq → Bool
  | .write _ => false
  | .read => false
  | .atomic _ _ _ _ => true
  | .redWrite _ => false
  | .push _ => false

/-- A request with the expected PSN (R404, R406). -/
def Dev.executeNim (v : Variant) (d : Dev) (s : StreamRef) (h : NimHdr) (q : NimReq) : Dev :=
  let k := streamKey s
  let r := d.perform v s h q
  match r.1 with
  | .notReady => r.2.answerNim v s h.psn .notReady
  | .ack =>
    let d := r.2.onNim k fun x => { x with expected := x.expected + 1, unacked := x.unacked + 1 }
    if 16 ≤ (d.nim k).unacked then d.sendAck v s else d
  | a =>
    (r.2.onNim k fun x =>
      let x := { x with expected := x.expected + 1, unacked := 0 }
      if q.isAtomic then keepAtomic x h.psn a else x).answerNim v s h.psn a

/-- A duplicate (R405). -/
def Dev.duplicateNim (v : Variant) (d : Dev) (s : StreamRef) (h : NimHdr) (q : NimReq) : Dev :=
  match q with
  | .read =>
    let r := d.perform v s h q
    r.2.answerNim v s h.psn r.1
  | .atomic _ _ _ _ =>
    match (d.nim (streamKey s)).atomics.find? (fun e => e.1 == h.psn) with
    | none => d
    | some (_, st, old) => d.answerNim v s h.psn (if st = 0 then .data 0x13 (toLE 8 old.toNat) else .error st)
  | .write _ => d.sendAck v s
  | .redWrite _ => d.sendAck v s
  | .push _ => d.sendAck v s

/-- The target's judgement of a request by its epoch and PSN (R404, R405, R408). -/
def Dev.judgeNim (v : Variant) (d : Dev) (p : Nat) (s : StreamRef) (h : NimHdr) (q : NimReq) : Dev :=
  let x := d.nim (streamKey s)
  if h.epoch ≠ x.epoch then d
  else
    let d := d.notify v p s h.ce
    let ahead := h.psn - x.expected
    if ahead = 0 then d.executeNim v s h q
    else if ahead.toNat < 2 ^ 31 then d.respond v s 0x11 0 x.epoch (x.expected - 1) []
    else d.duplicateNim v s h q

/-- A request as it arrives (R404, R420). -/
def Dev.nimserIn (v : Variant) (d : Dev) (p : Nat) (op : W8) (h : NimHdr) (q : NimReq) (bytes : List W8) : Dev :=
  d.withStream v p op h bytes fun s d => d.judgeNim v p s h q

/-- The payload of an ATOMIC (R403). -/
def atomicBytes (op : W8) (w : Bool) (x c : W64) : List W8 :=
  [op, if w then 1 else 0, 0, 0, 0, 0, 0, 0] ++ toLE 8 x.toNat ++ toLE 8 c.toNat

/-- WRITE (R403). -/
def execWrite (p : Fin 17) (h : NimHdr) (data : List W8) (s : State) : Host.Outcome State Fault Refusal :=
  s.onDev fun d => d.nimserIn s.fuse.variant p.val 0x01 h (.write data) data

/-- READ_REQ (R403). -/
def execReadReq (p : Fin 17) (h : NimHdr) (s : State) : Host.Outcome State Fault Refusal :=
  s.onDev fun d => d.nimserIn s.fuse.variant p.val 0x02 h .read []

/-- ATOMIC (R403, R405). -/
def execAtomic (p : Fin 17) (h : NimHdr) (op : W8) (w : Bool) (x c : W64) (s : State) : Host.Outcome State Fault Refusal :=
  s.onDev fun d => d.nimserIn s.fuse.variant p.val 0x03 h (.atomic op w x c) (atomicBytes op w x c)

/-- RED_WRITE (R403, R423). -/
def execRedWrite (p : Fin 17) (h : NimHdr) (data : List W8) (s : State) : Host.Outcome State Fault Refusal :=
  s.onDev fun d => d.nimserIn s.fuse.variant p.val 0x04 h (.redWrite data) data

/-- PUSH (R399, R403). -/
def execPush (p : Fin 17) (h : NimHdr) (data : List W8) (s : State) : Host.Outcome State Fault Refusal :=
  s.onDev fun d => d.nimserIn s.fuse.variant p.val 0x05 h (.push data) data

/-- NIMSER_ACK_TIMER (R406): 1 µs after the last request executed. -/
def execNimserAckTimer (r : StreamRef) (s : State) : Host.Outcome State Fault Refusal :=
  s.onDev fun d => if 0 < (d.nim (streamKey r)).unacked then d.sendAck s.fuse.variant r else d

/-- RESYNC at the target (R408). -/
def Dev.resyncIn (v : Variant) (d : Dev) (s : StreamRef) (h : NimHdr) : Dev :=
  let x := d.nim (streamKey s)
  if h.epoch = x.epoch + 1 then
    (d.onNim (streamKey s) fun y => { y with epoch := h.epoch, expected := 0, atomics := [], unacked := 0, pushed := [], pushBad := false }).respond v s
      0x10 0 h.epoch 0xFFFFFFFF []
  else if h.epoch = x.epoch then d.respond v s 0x10 0 x.epoch 0xFFFFFFFF []
  else d

/-- RESYNC (R408). -/
def execResync (p : Fin 17) (h : NimHdr) (s : State) : Host.Outcome State Fault Refusal :=
  s.onDev fun d => d.withStream s.fuse.variant p.val 0x17 h [] fun r d => d.resyncIn s.fuse.variant r h

/-! ## The requester -/

/-- Whether a request waits for data. -/
def Outstanding.wantsData (o : Outstanding) : Bool := o.op == 0x02 || o.op == 0x03

/-- Everything up to a PSN is acknowledged: what waits for no data completes (R406). -/
def Dev.acknowledge (d : Dev) (s : StreamRef) (psn : W32) : Dev :=
  let k := streamKey s
  let covered := fun (o : Outstanding) => o.sent && decide ((psn - o.psn).toNat < 2 ^ 31)
  let os := (d.nim k).outstanding
  let d := (os.filter (fun o => covered o && !o.wantsData)).foldl (fun (d : Dev) o => d.answer o.tag 0 []) d
  d.onNim k fun x =>
    { x with outstanding := (os.filter (fun o => !(covered o && !o.wantsData))).map (fun o => if covered o then { o with acked := true } else o) }

/-- One request completes with what a response brings (R406). -/
def Dev.complete (d : Dev) (s : StreamRef) (psn : W32) (pick : Outstanding → Bool) (st : W8) (data : List W8) : Dev :=
  let k := streamKey s
  match (d.nim k).outstanding.find? (fun o => o.sent && o.psn == psn && pick o) with
  | none => d
  | some o =>
    (d.answer o.tag st data).onNim k fun x => { x with outstanding := x.outstanding.filter (fun y => y.psn != psn) }

/-- RESYNC with the epoch that the requester takes (R408). -/
def Dev.sendResync (v : Variant) (d : Dev) (s : StreamRef) : Dev :=
  let x := d.nim (streamKey s)
  match s with
  | .conn i => d.transmit 16 (.nimser 0x17 (reqHdr d.deviceId 0 true (i.setWidth 16) 0 0 x.reqEpoch 0 0 0 0 false) [])
  | .peer dev vc =>
    let w := d.pickWay v d.deviceId dev 1
    match w.1 with
    | none => w.2
    | some p => w.2.transmit p (.nimser 0x17 (reqHdr d.deviceId dev false 0 vc 0 x.reqEpoch 0 0 0 0 false) [])

/-- A stream fails (R407): every outstanding request completes, LINK_STREAM_FAILED is written, and the stream is resynchronised. -/
def Dev.failStream (v : Variant) (d : Dev) (s : StreamRef) (psn : W32) : Dev :=
  let k := streamKey s
  let d := d.failRequests (d.nim k).outstanding
  let d := d.raise 0x0F { status := sRetryExhausted.toNat, arg := (match s with
    | .peer dev vc => toLE 2 dev.toNat ++ [vc.setWidth 8, 0]
    | .conn i => [i, 0, 0, 1]) ++ toLE 4 psn.toNat }
  (d.onNim k fun x => { x with outstanding := [], reqEpoch := x.reqEpoch + 1, nextPsn := 0, resyncing := true }).sendResync v s

/-- Sends requests of a stream again (R406); one sent again 7 times already fails the stream (R407) where the sending counts. -/
def Dev.resend (v : Variant) (d : Dev) (s : StreamRef) (counts : Bool) (pick : Outstanding → Bool) : Dev :=
  let os := (d.nim (streamKey s)).outstanding.filter (fun o => o.sent && pick o)
  match os.find? (fun o => counts && decide (7 ≤ o.tries)) with
  | some o => d.failStream v s o.psn
  | none =>
    (os.foldl (fun (d : Dev) o => d.sendReq v s o true) d).onNim (streamKey s) fun x =>
      { x with outstanding := x.outstanding.map (fun o => if counts && o.sent && pick o then { o with tries := o.tries + 1 } else o) }

/-- A response at the requester: ignored in another epoch (R408), else handled, and waiting requests go out. -/
def Dev.responseIn (v : Variant) (d : Dev) (p : Nat) (op : W8) (h : NimHdr) (bytes : List W8) (f : StreamRef → Dev → Dev) : Dev :=
  d.withStream v p op h bytes fun s d =>
    if h.epoch ≠ (d.nim (streamKey s)).reqEpoch ∨ (d.nim (streamKey s)).resyncing then d else (f s d).pump v s

/-- NIMSER_ACK (R406, R408): it acknowledges, or ends a handshake. -/
def execNimserAck (p : Fin 17) (h : NimHdr) (s : State) : Host.Outcome State Fault Refusal :=
  s.onDev fun d =>
    let v := s.fuse.variant
    d.withStream v p.val 0x10 h [] fun r d =>
      let x := d.nim (streamKey r)
      if h.epoch ≠ x.reqEpoch then d
      else if x.resyncing then
        if h.ackPsn = 0xFFFFFFFF then (d.onNim (streamKey r) fun y => { y with resyncing := false }).pump v r else d
      else (d.acknowledge r h.ackPsn).pump v r

/-- NIMSER_NAK (R399, R404): SEQUENCE sends again what follows the PSN given; NOT_READY tries again, uncounted. -/
def execNimserNak (p : Fin 17) (h : NimHdr) (s : State) : Host.Outcome State Fault Refusal :=
  s.onDev fun d =>
    let v := s.fuse.variant
    d.responseIn v p.val 0x11 h [] fun r d => (d.acknowledge r h.ackPsn).resend v r (decide (h.status ≠ 1)) (fun o => !o.acked)

/-- READ_RESP (R406). -/
def execReadResp (p : Fin 17) (h : NimHdr) (data : List W8) (s : State) : Host.Outcome State Fault Refusal :=
  s.onDev fun d => d.responseIn s.fuse.variant p.val 0x12 h data fun r d =>
    (d.complete r h.ackPsn (fun o => o.op == 0x02) 0 data).acknowledge r h.ackPsn

/-- ATOMIC_RESP (R405, R406). -/
def execAtomicResp (p : Fin 17) (h : NimHdr) (old : W64) (s : State) : Host.Outcome State Fault Refusal :=
  s.onDev fun d => d.responseIn s.fuse.variant p.val 0x13 h (toLE 8 old.toNat) fun r d =>
    (d.complete r h.ackPsn (fun o => o.op == 0x03) 0 (toLE 8 old.toNat)).acknowledge r h.ackPsn

/-- ERROR_RESP (R406): the request completes with the status. -/
def execErrorResp (p : Fin 17) (h : NimHdr) (s : State) : Host.Outcome State Fault Refusal :=
  s.onDev fun d => d.responseIn s.fuse.variant p.val 0x14 h [] fun r d =>
    (d.complete r h.ackPsn (fun _ => true) h.status []).acknowledge r h.ackPsn

/-- NIMSER_RTO_EXPIRY (R406 to R408): RESYNC again; or, of the request whose RTO has passed, it alone where it is acknowledged and lacks
only its data, else everything from the oldest unacknowledged one. -/
def execNimserRtoExpiry (request : Asker) (s : State) : Host.Outcome State Fault Refusal :=
  s.onDev fun d =>
    let v := s.fuse.variant
    let r := request.ref
    let x := d.nim (streamKey r)
    if x.resyncing then
      let port := match r with
        | .conn _ => some 16
        | .peer dev _ => (d.pickWay v d.deviceId dev 1).1
      (match port with
        | none => d
        | some p => d.portError p).sendResync v r
    else
      match x.outstanding.find? (fun o => o.sent && o.psn == request.psn) with
      | none => d
      | some o => if o.acked then d.resend v r true (fun y => y.psn == request.psn) else d.resend v r true (fun y => !y.acked)

/-! ## Rates (R409) -/

/-- A sixty-fourth and a sixteenth of a port's rate, in units of 1/65,536 of it. -/
def rateLeast : Nat := 1024
def rateStep : Nat := 4096
def rateFull : Nat := 65536

/-- CONGESTION (R406, R409): it acknowledges its ACK_PSN, and the stream's rate halves, at most once per 50 µs. -/
def execCongestion (p : Fin 17) (h : NimHdr) (now : Nat) (s : State) : Host.Outcome State Fault Refusal :=
  s.onDev fun d => d.responseIn s.fuse.variant p.val 0x16 h [] fun r d =>
    let d := d.acknowledge r h.ackPsn
    if d.ecnOn p.val && dueAgain (d.nim (streamKey r)).lastSlow now then
      d.onNim (streamKey r) fun y => { y with rate := max (y.rate / 2) rateLeast, lastSlow := some now, slowed := true }
    else d

/-- RATE_INCREASE_TIMER (R409): after 100 µs without a notification, the rate rises by a sixteenth of the port's. -/
def execRateIncreaseTimer (r : StreamRef) (s : State) : Host.Outcome State Fault Refusal :=
  s.onDev fun d =>
    match r with
    | .conn i =>
      if (d.conn i.toNat).kind = 1 then
        d.onConn i.toNat fun c => if c.slowed then { c with slowed := false } else { c with rate := min (c.rate + rateStep) rateFull }
      else d.onNim (streamKey r) fun x => if x.slowed then { x with slowed := false } else { x with rate := min (x.rate + rateStep) rateFull }
    | .peer _ _ =>
      d.onNim (streamKey r) fun x => if x.slowed then { x with slowed := false } else { x with rate := min (x.rate + rateStep) rateFull }

end Sys2Proof.Machine
end

