-- ==== Sys2Proof/Machine/Roce.lean ====
section
/-!
DEFINITION. Sys2Proof/Machine/Roce.lean: RoCEv2 connections (R393, R397 to R400, R409): SEND, RDMA WRITE and RDMA READ from the
host, and the answers to the device's own requests.
-/

namespace Sys2Proof.Machine

open Sys2Proof

/-- A response packet of connection i. Opcodes (PRESUMED, log 48: the transport's own codes): 0x0D to 0x10 a read response, first, middle, last
and only; 0x11 an acknowledge, which a syndrome turns into a negative one; 0x81 a CNP. -/
def Dev.roceSay (d : Dev) (i : Nat) (op : W8) (psn : W32) (syndrome : W8) (data : List W8) : Dev :=
  d.transmit 16 (.roce i op psn 0 0 0 syndrome data)

/-- Syndromes of a negative acknowledge (PRESUMED, log 48: the transport's own codes): PSN sequence error, invalid request, remote access
error, remote operational error, and RNR with its timer field 0x01 (R399). -/
def nakSequence : W8 := 0x60
def nakInvalid : W8 := 0x61
def nakAccess : W8 := 0x62
def nakOperation : W8 := 0x63
def nakNotReady : W8 := 0x21

/-- The connection enters the error state: what is outstanding on it completes with INTERFACE_RETRY_EXHAUSTED (R396, R398, R400). -/
def Dev.roceError (d : Dev) (i : Nat) : Dev :=
  (d.failRequests (d.conn i).outstanding).onConn i fun c => { c with state := 2, outstanding := [], message := [] }

/-- The host connection whose local queue pair number, 0x100 + i, a packet names (R395). -/
def connOfQp (qp : BitVec 24) : Option W8 := if qp.toNat / 256 = 1 then some (qp.setWidth 8) else none

/-- What happens on an open RoCEv2 connection. -/
def Dev.onRoce (d : Dev) (i : W8) (f : Nat → Dev → Dev) : Dev :=
  let c := d.conn i.toNat
  if (d.port 16).up ∧ c.state = 1 ∧ c.kind = 1 then f i.toNat d else d

/-- A packet to a queue pair: it is dropped where no open RoCEv2 connection has that number. -/
def Dev.withRoce (d : Dev) (qp : BitVec 24) (f : Nat → Dev → Dev) : Dev :=
  match connOfQp qp with
  | some i => d.onRoce i f
  | none => d

/-- A packet marked CE: a CNP to the host, at most once per 50 µs (R409). -/
def Dev.roceNotify (d : Dev) (i : Nat) (ce : Option Nat) : Dev :=
  match ce with
  | none => d
  | some now =>
    if d.bit (At.host 0x000) 8 && dueAgain (d.conn i).lastNotify now then
      (d.onConn i fun c => { c with lastNotify := some now }).roceSay i 0x81 0 0 []
    else d

/-- The responder's judgement of a request packet by its PSN: in its turn it runs; a later one is refused with a sequence error; a
duplicate is acknowledged, or read again. -/
def Dev.judgeRoce (d : Dev) (h : RoceHdr) (run again : Nat → Dev → Dev) : Dev :=
  d.withRoce h.qp fun i d =>
    let d := d.roceNotify i h.ce
    let ahead := psn24 (h.psn - (d.conn i).expected)
    if ahead = 0 then run i d
    else if ahead.toNat < 2 ^ 23 then d.roceSay i 0x11 (d.conn i).expected nakSequence []
    else again i d

/-- A packet executed: the expected PSN advances, and it is acknowledged. -/
def Dev.roceDone (d : Dev) (i : Nat) (psn : W32) : Dev :=
  (d.onConn i fun c => { c with expected := psn24 (psn + 1) }).roceSay i 0x11 psn 0 []

/-- A refused request: a negative acknowledge, and the error state (R397, R398). -/
def Dev.roceRefuse (d : Dev) (i : Nat) (psn : W32) (syndrome : W8) : Dev := (d.roceSay i 0x11 psn syndrome []).roceError i

/-- A duplicate of a packet that reads nothing is acknowledged again. -/
def Dev.roceAgain (i : Nat) (d : Dev) : Dev := d.roceSay i 0x11 (psn24 ((d.conn i).expected - 1)) 0 []

/-- ROCE_SEND (R399): the message is taken whole with its last packet, or that packet is refused with RNR. -/
def execRoceSend (h : RoceHdr) (data : List W8) (s : State) : Host.Outcome State Fault Refusal :=
  s.onDev fun d => d.judgeRoce h (fun i d =>
    let c := d.conn i
    let msg := (if h.first then [] else c.message) ++ data
    if messageMax < msg.length then d.roceRefuse i h.psn nakInvalid
    else if !h.last then (d.onConn i fun c => { c with message := msg }).roceDone i h.psn
    else
      let r := d.takeMessage c.queue msg
      if r.1 then (r.2.onConn i fun c => { c with message := [] }).roceDone i h.psn else d.roceSay i 0x11 h.psn nakNotReady []) Dev.roceAgain

/-- ROCE_RDMA_WRITE (R397, R398): the first packet's address, key and length must cover the whole write; each packet writes its part and
is acknowledged once that is visible. -/
def execRoceRdmaWrite (h : RoceHdr) (data : List W8) (s : State) : Host.Outcome State Fault Refusal :=
  s.onDev fun d => d.judgeRoce h (fun i d =>
    let v := s.fuse.variant
    let c := d.conn i
    let key := if h.first then h.rkey else c.writeKey
    let a := if h.first then h.addr else c.writeAt
    let whole := if h.first ∧ 0 < h.len then d.admitHost v i h.rkey h.addr.toNat h.len false true else (0, [], d)
    if whole.1 ≠ 0 then whole.2.2.roceRefuse i h.psn nakAccess
    else if data.isEmpty then whole.2.2.roceDone i h.psn
    else
      let p := whole.2.2.admitHost v i key a.toNat data.length false true
      if p.1 ≠ 0 then p.2.2.roceRefuse i h.psn nakAccess
      else
        let w := p.2.2.writeIn v p.2.2.tick.step p.2.1 data
        if w.st ≠ 0 then w.d.roceRefuse i h.psn nakOperation
        else
          (w.d.onConn i fun c => { c with writeAt := a + BitVec.ofNat 64 data.length, writeKey := key }).roceDone i h.psn) Dev.roceAgain

/-- Bytes of a packet by PMTU (R395). -/
def Conn.mtu (c : Conn) : Nat := 1024 * 2 ^ (c.pmtu.toNat % 3)

/-- The packets of a read response (R393): the data cut by the path MTU, the k-th of n packets under the k-th PSN from the request's. -/
def Dev.readPackets (d : Dev) (i : Nat) (psn : W32) (data : List W8) : Dev :=
  let parts := if data.isEmpty then [[]] else chunks (d.conn i).mtu data
  let n := parts.length
  (parts.zipIdx).foldl (fun (d : Dev) p =>
    let op : W8 := if n = 1 then 0x10 else if p.2 = 0 then 0x0D else if p.2 + 1 = n then 0x0F else 0x0E
    d.roceSay i op (psn24 (psn + BitVec.ofNat 32 p.2)) 0 p.1) d

/-- An RDMA READ: its data, in read responses; it takes one PSN for each packet of them. -/
def Dev.roceRead (v : Variant) (h : RoceHdr) (fresh : Bool) (i : Nat) (d : Dev) : Dev :=
  let p := if h.len = 0 then (0, [], d) else d.admitHost v i h.rkey h.addr.toNat h.len true false
  if p.1 ≠ 0 then p.2.2.roceRefuse i h.psn nakAccess
  else
    let r := p.2.2.readOut v p.2.1
    if r.st ≠ 0 then r.d.roceRefuse i h.psn nakOperation
    else
      let n := max 1 ((h.len + (d.conn i).mtu - 1) / (d.conn i).mtu)
      let d := if fresh then r.d.onConn i fun c => { c with expected := psn24 (h.psn + BitVec.ofNat 32 n) } else r.d
      d.readPackets i h.psn r.data

/-- ROCE_RDMA_READ (R397, R398). -/
def execRoceRdmaRead (h : RoceHdr) (s : State) : Host.Outcome State Fault Refusal :=
  s.onDev fun d => d.judgeRoce h (Dev.roceRead s.fuse.variant h true) (Dev.roceRead s.fuse.variant h false)

/-! ## The device as requester (R400) -/

/-- Whether a PSN covers a request. -/
def coversRoce (psn : W32) (o : Outstanding) : Bool := o.sent && decide ((psn24 (psn - o.psn)).toNat < 2 ^ 23)

/-- Requests up to a PSN that wait for no data complete; the count of retries starts again. -/
def Dev.roceAcked (d : Dev) (i : Nat) (psn : W32) : Dev :=
  let done := fun (o : Outstanding) => coversRoce psn o && o.op != 0x02
  let os := (d.conn i).outstanding
  let d := (os.filter done).foldl (fun (d : Dev) o => d.answer o.tag 0 []) d
  (d.onConn i fun c => { c with outstanding := os.filter (fun o => !done o),
                                tries := if os.any done then 0 else c.tries }).rocePump i

/-- Sends again what a connection waits for; after 7 retries it fails (R400). -/
def Dev.roceRetry (d : Dev) (i : Nat) (counts : Bool) (pick : Outstanding → Bool) : Dev :=
  let c := d.conn i
  let os := c.outstanding.filter (fun o => o.sent && pick o)
  match os with
  | [] => d
  | o :: _ =>
    if counts && decide (7 ≤ c.tries) then
      (d.roceError i).raise 0x0F { status := sRetryExhausted.toNat, arg := [BitVec.ofNat 8 i, 0, 0, 1] ++ toLE 4 o.psn.toNat }
    else
      (os.foldl (fun (d : Dev) o => d.sendRoce i o) d).onConn i fun c => { c with tries := if counts then c.tries + 1 else c.tries }

/-- ROCE_ACK (R400). -/
def execRoceAck (h : RoceHdr) (s : State) : Host.Outcome State Fault Refusal :=
  s.onDev fun d => d.withRoce h.qp fun i d => d.roceAcked i h.psn

/-- ROCE_NAK (R396, R400): a sequence error and RNR are retried, RNR without limit; any other ends in the error state. -/
def execRoceNak (h : RoceHdr) (syndrome : W8) (s : State) : Host.Outcome State Fault Refusal :=
  s.onDev fun d => d.withRoce h.qp fun i d =>
    let before := d.roceAcked i (psn24 (h.psn - 1))
    if syndrome = nakSequence then before.roceRetry i true (fun _ => true)
    else if syndrome.toNat / 32 = 1 then before.roceRetry i false (fun _ => true)
    else before.roceError i

/-- ROCE_READ_RESPONSE (R400): the data of the read it answers. A read of the device's lies within one line, below every path MTU, so its
response is one packet. -/
def execRoceReadResponse (h : RoceHdr) (data : List W8) (s : State) : Host.Outcome State Fault Refusal :=
  s.onDev fun d => d.withRoce h.qp fun i d =>
    match (d.conn i).outstanding.find? (fun o => o.sent && o.psn == h.psn && o.op == 0x02) with
    | none => d
    | some o =>
      ((d.answer o.tag 0 data).onConn i fun c =>
        { c with outstanding := c.outstanding.filter (fun y => y.psn != h.psn), tries := 0 }).roceAcked i h.psn

/-- ROCE_RETRY_TIMEOUT (R400). -/
def execRoceRetryTimeout (i : W8) (s : State) : Host.Outcome State Fault Refusal :=
  s.onDev fun d => d.onRoce i fun i d => d.roceRetry i true (fun _ => true)

/-- CNP (R409): the queue pair's rate halves, at most once per 50 µs. -/
def execCnp (i : W8) (now : Nat) (s : State) : Host.Outcome State Fault Refusal :=
  s.onDev fun d => d.onRoce i fun i d =>
    if d.bit (At.host 0x000) 8 && dueAgain (d.conn i).lastSlow now then
      d.onConn i fun c => { c with rate := max (c.rate / 2) rateLeast, lastSlow := some now, slowed := true }
    else d

end Sys2Proof.Machine
end

