-- ==== Sys2Proof/Machine/Firmware.lean ====
section
/-!
DEFINITION. Sys2Proof/Machine/Firmware.lean: life-cycle states (R480, R481), keys (R485), firmware images and their acceptance
(R492, R493), tokens and their checks (R488, R489). Digests and keys are numbers read from their bytes, lowest byte first.
-/

namespace Sys2Proof.Machine

open Sys2Proof

/-! ## Life cycle (R480, R481) -/

def lcBlank : BitVec 4 := 0b0000
def lcVendor : BitVec 4 := 0b0001
def lcOwned : BitVec 4 := 0b0011
def lcReturned : BitVec 4 := 0b0111
def lcScrapped : BitVec 4 := 0b1111

/-- The state a fuse pattern stands for; any pattern not in the table is SCRAPPED. -/
def Fuses.state (f : Fuses) : BitVec 4 :=
  if f.lc = lcBlank ∨ f.lc = lcVendor ∨ f.lc = lcOwned ∨ f.lc = lcReturned then f.lc else lcScrapped

/-- The code of SEC.LIFECYCLE.STATE (R503). -/
def lcCode (s : BitVec 4) : Nat :=
  if s = lcBlank then 0 else if s = lcVendor then 1 else if s = lcOwned then 2 else if s = lcReturned then 3 else 4

/-! ## Keys (R485) -/

/-- Whether a key is the one a slot holds, and not revoked. -/
def keyIn (slots : Vector KeySlot 4) (slot : Nat) (pub : BitVec 1088) : Bool :=
  match slots.toList[slot]? with
  | none => false
  | some k => decide (k.hash = some (Config.sha512 (toLE 136 pub.toNat))) && !k.revoked

def Fuses.vendorKey (f : Fuses) (slot : Nat) (pub : BitVec 1088) : Bool := keyIn f.vendor slot pub

/-- An owner key is valid in OWNED only. -/
def Fuses.ownerKey (f : Fuses) (slot : Nat) (pub : BitVec 1088) : Bool := decide (f.state = lcOwned) && keyIn f.owner slot pub

/-! ## Images (R492, R493) -/

/-- The code of a part (R541), and its bit of VARIANTS. -/
def Variant.code : Variant → Nat
  | .f => 1
  | .s => 2
  | .e => 3

/-- One entry of the section table. -/
structure Section where
  target : Nat
  off : Nat
  len : Nat
  deriving DecidableEq, Repr

def imgNat (m : Mem) (o n : Nat) : Nat := m.nat o n

def imgZero (m : Mem) (o n : Nat) : Bool := (m.read o n).all (· == 0)

/-- Section `i` of an image. -/
def imgSection (m : Mem) (i : Nat) : Section :=
  let o := 0x80 + 24 * i
  ⟨imgNat m o 1, imgNat m (o + 4) 4, imgNat m (o + 8) 4⟩

/-- Whether an image's fields follow R492. -/
def imgFormat (m : Mem) : Bool :=
  let n := imgNat m 0x0C 4
  let len := imgNat m 0x10 8
  let ss := (List.range n).map (imgSection m)
  let okey := imgNat m 0x22 1
  decide (imgNat m 0 4 = 0x53570C12) && decide (imgNat m 4 2 = 1) && decide (imgNat m 6 2 = 0x400) && decide (imgNat m 8 4 ≤ 64) &&
    decide (1 ≤ n) && decide (n ≤ 8) && decide (0x400 ≤ len) && decide (len ≤ 2 ^ 24) && decide (imgNat m 0x20 1 < 8) &&
    decide (imgNat m 0x21 1 < 4) && (decide (okey < 4) || decide (okey = 0xFF)) && imgZero m 0x23 29 && imgZero m 0x358 168 &&
    imgZero m (0x80 + 24 * n) (24 * (8 - n)) &&
    (List.range n).all (fun i => imgZero m (0x81 + 24 * i) 3 && imgZero m (0x8C + 24 * i) 4) &&
    ss.all (fun s => decide (1 ≤ s.target) && decide (s.target ≤ 7) && decide (0x400 ≤ s.off) && decide (s.off + s.len ≤ len)) &&
    decide (ss.Pairwise (fun a b => a.off + a.len ≤ b.off ∨ b.off + b.len ≤ a.off))

/-- R493: 1 VALID, or the code of the first check that fails: 5 BAD_FORMAT, 2 BAD_SIGNATURE, 4 WRONG_VARIANT, 3 ROLLED_BACK. -/
def Fuses.imageCheck (f : Fuses) (m : Mem) : BitVec 3 :=
  let vpub := BitVec.ofNat 1088 (imgNat m 0x140 136)
  let vsig := BitVec.ofNat 1056 (imgNat m 0x1C8 132)
  let opub := BitVec.ofNat 1088 (imgNat m 0x24C 136)
  let osig := BitVec.ofNat 1056 (imgNat m 0x2D4 132)
  let okey := imgNat m 0x22 1
  let body := Config.sha512 (m.read 0x400 (imgNat m 0x10 8 - 0x400))
  let vendorOk := decide (body = BitVec.ofNat 512 (imgNat m 0x40 64)) && f.vendorKey (imgNat m 0x21 1) vpub &&
    Config.verifies vpub (m.read 0 0x1C8) vsig
  let ownerOk := if okey ≠ 0xFF ∨ (f.ownerSigReq ∧ f.state = lcOwned) then
      f.ownerKey okey opub && Config.verifies opub (m.read 0 0x2D4) osig
    else true
  if !imgFormat m then 5
  else if !vendorOk || !ownerOk then 2
  else if !(imgNat m 0x20 1).testBit (f.variant.code - 1) then 4
  else if imgNat m 8 4 < f.counter then 3
  else 1

/-- SVN of an image (R492). -/
def imgSvn (m : Mem) : Nat := imgNat m 8 4

/-- The bank of a number: A for 0, B for 1 (R491). -/
def Sec.bank (s : Sec) (b : Bool) : Mem := if b then s.bankB else s.bankA

def Sec.setBank (s : Sec) (b : Bool) (m : Mem) : Sec := if b then { s with bankB := m } else { s with bankA := m }

/-! ## Tokens (R488, R489) -/

/-- Bytes 0x000 to 0x117 of a token, which its signature covers. -/
def tokenSigned (t : Token) : List W8 :=
  toLE 4 t.magic.toNat ++ [t.kind, t.level, t.slot, t.rsv007] ++ toLE 16 t.uid.toNat ++ toLE 32 t.nonce.toNat ++
    toLE 4 t.validTicks.toNat ++ toLE 4 t.rsv03c.toNat ++ toLE 64 t.keyHash.toNat ++ [t.newSlot, t.revoke, t.policy] ++
    toLE 13 t.rsv083.toNat ++ toLE 136 t.signerPub.toNat

/-- Check 1: MAGIC, KIND, reserved bytes and fields that KIND leaves unused; a VALID_TICKS of 0 and values that OWNER_KEY's own fields
cannot have are judged here too (DEDUCED, log 44). -/
def tokenFormat (t : Token) : Bool :=
  let dbg := decide (t.kind = 1) || decide (t.kind = 2)
  decide (t.magic = 0x53544B31) && decide (1 ≤ t.kind.toNat) && decide (t.kind.toNat ≤ 7) && decide (t.rsv007 = 0) &&
    decide (t.rsv03c = 0) && decide (t.rsv083 = 0) &&
    (dbg || decide (t.level = 0)) &&
    (if dbg ∨ t.kind = 5 then decide (t.validTicks ≠ 0) else decide (t.validTicks = 0)) &&
    (decide (t.kind = 3) || decide (t.kind = 4) || decide (t.keyHash = 0)) &&
    (decide (t.kind ≠ 4) || ((decide (1 ≤ t.newSlot.toNat) && decide (t.newSlot.toNat ≤ 3) || decide (t.newSlot = 0xFF)) &&
      decide (t.revoke.toNat < 16) && decide (t.policy.toNat < 2)))

/-- Whether the token's signer must be a vendor key: VENDOR_DEBUG, OWNERSHIP, RETURN_VENDOR, and SCRAP outside OWNED. -/
def tokenByVendor (t : Token) (f : Fuses) : Bool :=
  decide (t.kind = 2) || decide (t.kind = 3) || decide (t.kind = 6) || (decide (t.kind = 7) && decide (f.state ≠ lcOwned))

/-- The owner slots after an OWNER_KEY token. -/
def ownerAfter (f : Fuses) (t : Token) : Vector KeySlot 4 :=
  Vector.ofFn fun (i : Fin 4) =>
    let k := f.owner[i.val]
    let k : KeySlot := if t.newSlot.toNat = i.val then { k with hash := some t.keyHash } else k
    if t.revoke.getLsbD i.val then { k with revoked := true } else k

/-- Check 6: the state allows KIND and LEVEL (R482, R486); a return is armed; a usable owner slot remains and NEWSLOT is empty. -/
def tokenAllowed (t : Token) (f : Fuses) (armed : Bool) : Bool :=
  let st := f.state
  match t.kind.toNat with
  | 1 => decide (st = lcOwned) && decide (1 ≤ t.level.toNat) && decide (t.level.toNat ≤ 2)
  | 2 => (decide (st = lcVendor) || decide (st = lcReturned)) && decide (1 ≤ t.level.toNat) && decide (t.level.toNat ≤ 3)
  | 3 => decide (st = lcVendor)
  | 4 => decide (st = lcOwned) &&
      (ownerAfter f t).toList.any (fun k => k.hash.isSome && !k.revoked) &&
      (decide (t.newSlot = 0xFF) || (match f.owner.toList[t.newSlot.toNat]? with
        | some k => k.hash.isNone
        | none => false))
  | 5 => decide (st = lcOwned)
  | 6 => decide (st = lcOwned) && armed
  | 7 => decide (st = lcVendor) || decide (st = lcReturned) || decide (st = lcOwned)
  | _ => false

/-- R489: 0 ACCEPTED, or the RESULT of the first check that fails. -/
def tokenCheck (t : Token) (f : Fuses) (nonce : BitVec 256) (armed : Bool) : BitVec 4 :=
  let key := if tokenByVendor t f then f.vendorKey t.slot.toNat t.signerPub else f.ownerKey t.slot.toNat t.signerPub
  if !tokenFormat t then 1
  else if t.uid ≠ f.uid then 2
  else if t.nonce ≠ nonce then 3
  else if !key then 4
  else if !Config.verifies t.signerPub (tokenSigned t) t.signature then 5
  else if !tokenAllowed t f armed then 6
  else 0

end Sys2Proof.Machine
end

