-- ==== Sys2Proof/Machine/Bringup.lean ====
section
/-!
DEFINITION. Sys2Proof/Machine/Bringup.lean: cold resets and supply (R447, R507 to R509), the boot chain and bring-up to READY
(R494, R495, R514, R515), the settings record: its checks, restore and writing (R516 to R523), and the erase of R483.
-/

namespace Sys2Proof.Machine

open Sys2Proof

/-! ## The settings record (R516 to R523) -/

/-- 512 bits that the model does not compute: the digest of a new header (log 1). -/
def Dev.drawDigest (d : Dev) : BitVec 512 × Dev :=
  (BitVec.ofNat 512 ((List.range 8).foldl (fun n i => n * 2 ^ 64 + (Config.freeWord (d.free + i)).toNat) 0), { d with free := d.free + 8 })

/-- The key of TICK.PERIOD among the record's pairs (R41). -/
def periodKey : Nat := 0x100004

/-- The owner configuration as the registers hold it (R518, kind 6): one pair for each register that differs from its factory value,
and TICK.PERIOD. -/
def Dev.ownerConfig (d : Dev) : Tab W32 :=
  let regs := d.csr.filterMap (fun e => match locate e.1 with
    | none => none
    | some l => if l.retainMask = 0 then none else some (e.1, e.2 &&& l.retainMask))
  Tab.ins periodKey (BitVec.ofNat 32 d.tick.periodUs) regs

/-- What a new copy of the record holds. -/
def Dev.newRecord (f : Fuses) (d : Dev) (seq : W64) : Record × Dev :=
  let g := d.drawDigest
  ({ valid := true, reason := 0, seq := seq, factory := d.retain.factoryReq, stepping := f.stepping, lc := f.lc, uid := f.uid,
     variant := f.variant, retained := d.ownerConfig, repairs := d.retain.repairs, routes := d.links.routes, power := some d.power,
     margins := d.hubs.map (fun e => (e.1, e.2.margins, e.2.marginAt)),
     eq := (List.range 17).filterMap (fun p => (d.port p).eq.map (fun w => (p, w))), digest := g.1 }, g.2)

def Retain.copy (r : Retain) (second : Bool) : Record := if second then r.copy1 else r.copy0

def Retain.setCopy (r : Retain) (second : Bool) (x : Record) : Retain := if second then { r with copy1 := x } else { r with copy0 := x }

/-- The copy that a write goes to: an invalid one, else the one with the smaller SEQUENCE (R522). -/
def Retain.target (r : Retain) : Bool :=
  if !r.copy0.valid then false else if !r.copy1.valid then true else decide (r.copy1.seq.toNat < r.copy0.seq.toNat)

/-- A write of the record begins (R522): the copy written to fails its digests until the header is written last. -/
def Dev.startWrite (f : Fuses) (d : Dev) : Dev :=
  let r := d.retain
  let k := r.target
  let x := d.newRecord f ((r.copy (!k)).seq + 1)
  x.2.onRetain fun r => (({ r with changed := false, writeAsked := false, writing := some (k, x.1) }).setCopy k { r.copy k with valid := false, reason := 7 })

/-- The write is complete (R522). -/
def Dev.endWrite (d : Dev) : Dev :=
  match d.retain.writing with
  | none => d
  | some (k, x) =>
    (d.onRetain fun r => ({ r with writing := none, lastDigest := x.digest }).setCopy k x).count (At.retain 0x010) 0 32 1

/-- SETTINGS_WRITE (R522): a write starts where a section has changed and none is in progress. -/
def execSettingsWrite (s : State) : Host.Outcome State Fault Refusal :=
  s.onDev fun d => if d.retain.changed && d.retain.writing.isNone && !d.dev.inReset then d.startWrite s.fuse else d

/-- SETTINGS_WRITE_DONE (R522). -/
def execSettingsWriteDone (s : State) : Host.Outcome State Fault Refusal := s.onDev (·.endWrite)

/-- RETAIN_WRITE_NOW (R523): a write starts at the next opportunity. -/
def Dev.writeNow (d : Dev) : Dev := d.onRetain fun r => { r with changed := true, writeAsked := true }

def execRetainWriteNow (s : State) : Host.Outcome State Fault Refusal := s.onDev (·.writeNow)

/-- RETAIN_FACTORY (R523): the next write sets FLAGS.FACTORY_REQ. -/
def Dev.askFactory (d : Dev) : Dev := d.onRetain fun r => { r with factoryReq := true }

def execRetainFactory (s : State) : Host.Outcome State Fault Refusal := s.onDev (·.askFactory)

/-- The copy with the larger SEQUENCE, among those that a condition admits; copy 0 where they are equal. -/
def Retain.larger (r : Retain) (ok : Record → Bool) : Option Bool :=
  match ok r.copy0, ok r.copy1 with
  | true, true => some (decide (r.copy0.seq.toNat < r.copy1.seq.toNat))
  | true, false => some false
  | false, true => some true
  | false, false => none

/-! ## Cold reset (R447, R507 to R509) -/

/-- The repairs that wait for a reset (R165, R244, R257), as the next boot takes them: a cold reset takes them where it comes first. -/
def Dev.dueRepairs (v : Variant) (d : Dev) : List (BitVec 16 × Nat × Nat × Nat) :=
  ((List.range v.sectors).foldl (fun d n => d.repairPartition v n [] []) d).retain.repairs.drop d.retain.repairs.length

/-- The start of a cold reset: only the retention store, the fuses and the pins keep what they held (R16, R447); a write of the
record in progress is cut off (R508). `ended` says how the run ended, unless something has said so before (R541); where it ended by a
loss of power (2), the marks of repairs are lost with the registers that held them. -/
def Dev.enterCold (v : Variant) (d : Dev) (ended : W8) : Dev :=
  { free := d.free, outbox := d.outbox
    retain := { copy0 := d.retain.copy0, copy1 := d.retain.copy1, fallback := false, reason := 0, otherReason := 0,
                due := if ended = 2 then [] else d.retain.due ++ d.dueRepairs v, lastRun := d.retain.lastRun,
                ending := if d.retain.ending = 0 then ended else d.retain.ending, bootId := d.retain.bootId }
    sec := { bankA := d.sec.bankA, bankB := d.sec.bankB, preferred := d.sec.preferred, erased := d.sec.erased,
             identity := d.sec.identity, bootStep := 0 }
    pins := { d.pins with faultN := false, testMode := false, i3cAddr := none, i3cPtr := 0, jtagInstr := 2, boundary := [] }
    power := { clocksOn := false }
    dev := { ready := false, inReset := true } }

/-- The custody die's own cold reset after a transition (R482, R541). -/
def Dev.transitionReset (v : Variant) (d : Dev) : Dev := (d.onRetain fun r => { r with ending := 6 }).enterCold v 6

/-- RESET_N low (R507, R509): a level shorter than 1 µs has no effect; a longer one starts a cold reset and clears the
THERM_TRIP_N latch. -/
def execResetNAssert (ns : Nat) (s : State) : Host.Outcome State Fault Refusal :=
  s.onDev fun d =>
    if ns < 1000 ∨ !d.pins.pwrOk then d
    else
      let d := { d with pins := { d.pins with resetN := false } }
      if d.dev.inReset then { d with dev := { d.dev with bootHeld := none } } else d.enterCold s.fuse.variant 1

/-- PWR_OK falls (R508): with RESET_N high, as if RESET_N had gone low. -/
def execPwrOkFall (s : State) : Host.Outcome State Fault Refusal :=
  s.onDev fun d =>
    let d := { d with pins := { d.pins with pwrOk := false } }
    if d.dev.inReset then { d with dev := { d.dev with bootHeld := none } } else d.enterCold s.fuse.variant 2

/-! ## The erase (R483) -/

/-- Owner secrets are erased: owner configuration, dumps, Quire, caches and scratch, tile memories and sector buffers; ERASED is
set. -/
def Dev.erase (d : Dev) : Dev :=
  let wipe := fun (r : Record) => { r with retained := [], routes := [] }
  { d with
    retain := { d.retain with copy0 := wipe d.retain.copy0, copy1 := wipe d.retain.copy1 }
    gander := { d.gander with dumps := [], dumpValid := 0, dumpOrder := [] }
    quire := [], check := [], scratch := [], tileMem := [], tileBad := [], sectBuf := []
    hubs := d.hubs.map (fun e => (e.1, { e.2 with cache := [], scratchBad := {} }))
    sectors := d.sectors.map (fun e => (e.1, { e.2 with bad := {} }))
    sec := { d.sec with erased := true } }

/-! ## Restore (R454, R520, R521) -/

/-- A unit's state at a rebuild of the ledger (R537). -/
def Dev.forceUnit (v : Variant) (d : Dev) (u : BitVec 16) (st : BitVec 4) : Dev :=
  d.setEntry v u { state := st, seen := st, previous := stOff, pending := false, transitions := 0, changed := 0, latch := st }

/-- Whether a repair-map entry names a built unit that the variant has, and where it names a spare, one of its own part (R520,
R521). -/
def repairBuilt (v : Variant) (e : BitVec 16 × Nat × Nat × Nat) : Bool :=
  decide (ledgerStart v e.1 ≠ stAbsent) &&
    (match e.2.1 with
    | 1 => unitKind e.1 == 0x01
    | 2 => unitKind e.1 == 0x01
    | 3 => unitKind e.1 == 0x01 && e.2.2.2 == 16
    | 4 => unitKind e.1 == 0x0D && decide (128 ≤ e.2.2.2) && decide (e.2.2.2 < 136)
    | 5 => unitKind e.1 == 0x0D
    | 6 => unitKind e.1 == 0x0E && decide (16 ≤ e.2.2.2) && decide (e.2.2.2 < 18)
    | 7 => unitKind e.1 == 0x12 && decide (40 ≤ e.2.2.2) && decide (e.2.2.2 < 44)
    | 8 => true
    | 9 => true
    | 10 => true
    | _ => false)

/-- A spare of the repair map in place of its unit. -/
def Dev.putSpare (v : Variant) (d : Dev) (u spare : BitVec 16) : Dev := (d.forceUnit v u stSpared).forceUnit v spare stReady

/-- One entry of the repair map, applied (R454, R514 step 6). -/
def Dev.applyRepair (v : Variant) (d : Dev) (e : BitVec 16 × Nat × Nat × Nat) : Dev :=
  let u := e.1
  let i := unitIndex u
  let to_ := e.2.2.2
  match e.2.1 with
  | 1 => match d.logicalTile (i / 17) (i % 17) with
    | none => d
    | some t => d.onTile t fun x => { x with rowsUsed := x.rowsUsed + 1 }
  | 2 => match d.logicalTile (i / 17) (i % 17) with
    | none => d
    | some t => d.onTile t fun x => { x with colsUsed := x.colsUsed + 1 }
  | 3 => match d.logicalTile (i / 17) (i % 17) with
    | none => d
    | some t =>
      let d := d.putSpare v u (unitNo 0x01 (17 * (i / 17) + 16))
      let d := ((tileEngines (i / 17) (i % 17)).zip (tileEngines (i / 17) 16)).foldl (fun d x => d.putSpare v x.1 x.2) d
      d.onTile t fun x => { x with spared := true, rowsUsed := 0, colsUsed := 0 }
  | 4 =>
    let h := d.hub (i / 136)
    match (List.range 128).find? (fun c => h.physical c == i % 136) with
    | none => d
    | some c => (d.putSpare v u (channelUnit (i / 136) to_)).onHub (i / 136) fun h => { h with chanMap := Tab.put 0 h.chanMap c to_ }
  | 6 => d.putSpare v u (wayUnit (i / 18) to_)
  | 7 =>
    let die := i / 64
    let lane := i % 64
    let d := (d.setFld (At.link die 0x100) (8 * (to_ - 40)) 8 (0x80 + lane)).putSpare v u (unitNo 0x12 (64 * die + to_))
    let p := if lane < 32 then 8 * die + lane / 4 else 16
    d.onPort p fun x => { x with spared := x.spared ||| BitVec.ofNat 8 (2 ^ (if lane < 32 then lane % 4 else lane - 32)) }
  | 9 => d.forceUnit v u stDisabled
  | 10 =>
    let d := d.forceUnit v u stFaulted
    if unitKind u = 0x0C then d.onHub i fun h => { h with faulted := true } else d
  | _ => d

/-- How many of a slice's 18 ways no longer serve (R268). -/
def Dev.countWays (v : Variant) (d : Dev) (n : Nat) : Dev :=
  d.onHub n fun h => { h with waysBad := 18 - ((List.range 18).filter (fun w =>
    let s := (d.entry v (wayUnit n w)).state
    s == stReady || s == stOff)).length }

/-- A unit that fails its test at step 5 or 6 of R514 is spared where a spare remains, and otherwise FAULTED (R515). -/
def Dev.failTest (v : Variant) (bad : List (BitVec 16)) (d : Dev) (u : BitVec 16) : Dev :=
  let i := unitIndex u
  let faulted := fun (d : Dev) => if (d.entry v u).state = stOff then (d.moveUnit v u stBringup).moveUnit v u stFaulted
    else if (d.entry v u).state = stReady then (d.moveUnit v u stFaulted).engage u 10 0 0 else d
  match unitKind u with
  | 0x01 =>
    let n := i / 17
    let spare := unitNo 0x01 (17 * n + 16)
    match d.logicalTile n (i % 17) with
    | none => faulted d
    | some t =>
      if (d.entry v u).state = stReady ∧ (d.entry v spare).state = stOff ∧ !bad.contains spare then
        let d := d.spareFor v u spare
        let d := ((tileEngines n (i % 17)).zip (tileEngines n 16)).foldl (fun d e => d.spareFor v e.1 e.2) d
        (d.onTile t fun x => { x with spared := true, rowsUsed := 0, colsUsed := 0 }).engage u 3 (i % 17) 16
      else faulted d
  | 0x0D =>
    let n := i / 136
    match (List.range 128).find? (fun c => (d.hub n).physical c == i % 136) with
    | none => faulted d
    | some c =>
      match (d.spareChannels v n).find? (fun p => !bad.contains (channelUnit n p)) with
      | some p => d.mapChannel v n c p
      | none =>
        let d := (d.onHub n fun h => { h with faulted := true, failed := c :: h.failed, lostChannels := c :: h.lostChannels })
        if (d.entry v (unitNo 0x0C n)).state = stReady then (d.moveUnit v (unitNo 0x0C n) stFaulted).engage (unitNo 0x0C n) 10 0 0 else d
  | 0x0E =>
    let n := i / 18
    if (d.entry v u).state = stReady then
      match [16, 17].find? (fun s => !bad.contains (wayUnit n s) && (d.entry v (wayUnit n s)).state == stOff) with
      | some s => (d.spareFor v u (wayUnit n s)).engage u 6 (i % 18) s
      | none => faulted d
    else faulted d
  | _ => faulted d

/-- A pair of the owner configuration (R521): whether it was restored, and the device. -/
def Dev.restorePair (d : Dev) (e : Nat × W32) : Bool × Dev :=
  if e.1 = periodKey then
    if 64 ≤ e.2.toNat ∧ e.2.toNat ≤ 4000 then (true, d.onTick fun t => { t with periodUs := e.2.toNat }) else (false, d)
  else
    match locate e.1 with
    | none => (false, d)
    | some l =>
      match l.desc with
      | none => (false, d)
      | some r =>
        if l.retainMask = 0 ∨ r.fields.any (fun f => decide (f.acc = .rw) && !f.ok (f.of e.2)) then (false, d)
        else (true, d.setReg l ((r.resetValue &&& ~~~l.retainMask) ||| (e.2 &&& l.retainMask)))

/-- A routing entry with the ways that the variant lacks no longer valid, and whether one was (R521). -/
def fitRoute (v : Variant) (e : W32) : W32 × Bool :=
  (List.range 4).foldl (fun (r : W32 × Bool) k =>
    if e.getLsbD (16 + k) && decide (v.ports ≤ e.toNat / 16 ^ k % 16) then (setField r.1 (16 + k) 1 0, true) else r) (e, false)

/-- The power controller after a restore of THERMAL and AGEING (R466 to R479): its model, its ceiling and its guardbands. -/
def Power.restored (p : Power) : Power :=
  { thetaF := p.thetaF, tauF := p.tauF, thetaS := p.thetaS, tauS := p.tauS, thetaLoc := p.thetaLoc, modelWritten := p.params,
    charResult := p.charResult, sustain := p.sustain, guard := p.guard, fAge := p.fAge, aged := p.aged, maintCount := p.maintCount,
    margins := p.margins, srams := p.srams, clocksOn := false }

/-- What the registers restored put in force at bring-up: scratch ways, buffer pools, power policy, and the identity that ports take
as they train (R269, R294, R431, R457). -/
def Dev.applyConfig (v : Variant) (d : Dev) : Dev :=
  let d := (List.range v.sectors).foldl (fun (d : Dev) n =>
    let ways := d.fld (At.hub n 0x028) 0 4
    let pool := d.fld (At.sector n 0x500) 0 5
    ((d.onHub n fun h => { h with scratchWays := ways }).onSector n fun s => { s with pool := pool }).countWays v n) d
  let d := d.onPower fun p => { p with capW := d.fld (At.pwr 0x000) 0 11, targetC := d.fld (At.pwr 0x004) 0 8,
                                       floorMhz := d.fld (At.pwr 0x008) 0 12 }
  ((d.takeIdentity 0).takeIdentity 16).onLinks fun l => { l with ptpPort := d.fld (At.link 0 0x238) 0 5 }

/-- The repair map that a boot uses, with how many entries it skips (R520, R521): of the copy restored, or at a fallback of the
newer copy that passes checks 1 to 4, whose entries for absent units are dropped. -/
def Retain.bootRepairs (f : Fuses) (r : Retain) (chosen : Option Bool) : List (BitVec 16 × Nat × Nat × Nat) × Nat :=
  let src := match chosen with
    | some k => some k
    | none => r.larger (fun x => decide (4 < (x.check f).toNat))
  match src with
  | none => ([], 0)
  | some k =>
    let all := (r.copy k).repairs
    let ok := all.filter (repairBuilt f.variant)
    (ok, if chosen.isSome then all.length - ok.length else 0)

/-- Steps 3 to 8 of R514: the record is chosen and restored, or the boot falls back; repairs are applied and tests judged. -/
def Dev.restoreSettings (f : Fuses) (d : Dev) (b : BootReport) : Dev :=
  let v := f.variant
  let r := d.retain
  let chosen := r.larger (fun x => decide (x.check f = 0))
  let newer := decide (r.copy0.seq.toNat < r.copy1.seq.toNat)
  let first := chosen.getD newer
  let reps := r.bootRepairs f chosen
  let d := reps.1.foldl (fun d e => d.applyRepair v e) d
  let d := r.due.foldl (fun d e => (d.applyRepair v e).engage e.1 e.2.1 e.2.2.1 e.2.2.2) (d.onRetain fun r => { r with repairs := reps.1, due := [] })
  let d := b.failedUnits.foldl (fun d u => d.failTest v b.failedUnits u) d
  let d := d.onRetain fun r => { r with
    fallback := chosen.isNone, restored := chosen.getD false, reason := (r.copy first).check f, otherReason := (r.copy (!first)).check f,
    skipped := BitVec.ofNat 16 (min reps.2 0xFFFF), factoryReq := false }
  match chosen with
  | none => d.applyConfig v
  | some k =>
    let x := r.copy k
    let p := x.retained.foldl (fun (s : Nat × Dev) e => let y := s.2.restorePair e; (if y.1 then s.1 else s.1 + 1, y.2)) (reps.2, d)
    let rs := x.routes.map (fun e => (e.1, fitRoute v e.2))
    let skipped := p.1 + (rs.filter (fun e => e.2.2)).length
    let d := x.margins.foldl (fun (d : Dev) e => d.onHub e.1 fun h => { h with margins := e.2.1, marginAt := e.2.2 }) p.2
    let d := x.eq.foldl (fun (d : Dev) e => d.onPort e.1 fun y => { y with eq := some e.2 }) d
    let d := d.onLinks fun l => { l with routes := rs.map (fun e => (e.1, e.2.1)) }
    let d := { d with power := match x.power with
      | none => d.power
      | some q => q.restored }
    (d.onRetain fun r => { r with skipped := BitVec.ofNat 16 (min skipped 0xFFFF), bootDigest := x.digest, lastDigest := x.digest }).applyConfig v

/-- After a fallback the characterisation runs and step 9 of R514 writes the first copy (R470, R520, R522). -/
def Dev.firstWrite (f : Fuses) (d : Dev) (b : BootReport) : Dev :=
  if !d.retain.fallback then d
  else
    let d := ((d.characterised b.fit).startWrite f).endWrite
    d.onRetain fun r => { r with bootDigest := r.lastDigest }

/-- Every transition of the boot is acknowledged before READY (R538). -/
def Dev.settleLedger (d : Dev) : Dev :=
  { d with ledger := d.ledger.map (fun e => (e.1, { e.2 with pending := false, latch := e.2.state, seen := e.2.state })) }

/-! ## The boot chain (R494, R495, R514, R515) -/

/-- Steps 1 and 2 of R494: the count of boots, the causes (R541), a new nonce (R489). -/
def Dev.bootStart (d : Dev) (b : BootReport) : Dev :=
  let n := d.drawBytes 32
  let d := n.2
  { d with
    retain := { d.retain with bootId := d.retain.bootId + 1, lastRun := d.retain.ending, ending := 0 }
    dev := { d.dev with cold := if b.powerUp then 1 else if d.retain.ending = 6 then 3 else 2, bootHeld := none }
    sec := { d.sec with bootStep := 2, nonce := BitVec.ofNat 256 (leNat n.1) }
    pins := { d.pins with refclk := true } }

/-- Owner slot of the running image, where an owner signed it (R498). -/
def Fuses.ownerOf (f : Fuses) (m : Mem) : Option (Fin 4) :=
  if f.state = lcOwned ∧ imgNat m 0x22 1 < 4 then some (Fin.ofNat 4 (imgNat m 0x22 1)) else none

/-- Bring-up after step 8 of R494, to READY (R514). -/
def Dev.bringUp (f : Fuses) (d : Dev) (b : BootReport) : Dev :=
  let d := ((d.restoreSettings f b).firstWrite f b).settleLedger
  let d := { d with
    dev := { d.dev with ready := true, inReset := false }
    pins := { d.pins with faultN := true }
    sec := { d.sec with bootStep := 8 }
    power := { d.power with clocksOn := true }
    seq := { d.seq with reconf := true } }
  d.raise 0x1A { arg := [if d.retain.fallback then 1 else 0, d.retain.reason.setWidth 8, 0] }

/-- Recovery (R495): neither bank is acceptable; the ports train under their retained settings, FAULT_N stays low. -/
def Dev.bootRecovery (f : Fuses) (d : Dev) (b : BootReport) (reason : BitVec 3) : Dev :=
  let d := ((d.restoreSettings f b).settleLedger).onSec fun s =>
    { s with recovery := true, bootStep := 4, bootReason := reason.setWidth 4 }
  { d with dev := { d.dev with inReset := false } }

/-- The boot after a release of RESET_N (R481, R483, R487, R494, R495, R515). -/
def Dev.boot (f : Fuses) (d : Dev) (b : BootReport) : Dev :=
  let d := d.bootStart b
  let st := f.state
  if b.testMode ∧ st ≠ lcBlank then d.onSec fun s => { s with bootReason := 8 }
  else
    let d := { d with pins := { d.pins with testMode := b.testMode } }
    let d := if (st = lcReturned ∨ st = lcScrapped) ∧ !d.sec.erased then d.erase else d
    if st = lcScrapped then { d with dev := { d.dev with inReset := false } }
    else
      let k := d.sec.preferred
      let c := f.imageCheck (d.sec.bank k)
      let c' := f.imageCheck (d.sec.bank (!k))
      if c ≠ 1 ∧ c' ≠ 1 then d.bootRecovery f b c
      else
        let run := if c = 1 then k else !k
        let m := d.sec.bank run
        let d := d.onSec fun s => { s with running := run, svnRun := imgSvn m, fellBack := decide (c ≠ 1),
                                           bootReason := if c = 1 then 0 else c.setWidth 4, ownerSlot := f.ownerOf m, bootStep := 7 }
        if b.sidePathOk then d.bringUp f b else { d with dev := { d.dev with inReset := false } }

/-- RESET_N high (R494, R509): the boot begins, or, while PWR_OK is low, waits for it. -/
def execResetNRelease (b : BootReport) (s : State) : Host.Outcome State Fault Refusal :=
  s.onDev fun d =>
    let d := { d with pins := { d.pins with resetN := true } }
    if !d.dev.inReset then d
    else if d.pins.pwrOk then d.boot s.fuse b
    else { d with dev := { d.dev with bootHeld := some b } }

/-- PWR_OK rises (R506, R509): a boot that waited for it begins. -/
def execPwrOkAssert (s : State) : Host.Outcome State Fault Refusal :=
  s.onDev fun d =>
    let d := { d with pins := { d.pins with pwrOk := true } }
    match d.dev.bootHeld with
    | none => d
    | some b => if d.dev.inReset ∧ d.pins.resetN then d.boot s.fuse b else d

end Sys2Proof.Machine
end

