-- ==== Sys2Proof/Machine/Security.lean ====
section
/-!
DEFINITION. Sys2Proof/Machine/Security.lean: the management path's answers (R531, R532), security commands (R484): tokens (R488 to
R490), firmware control (R496) and life-cycle transitions (R482); debug levels (R490) and the TAP (R486).
-/

namespace Sys2Proof.Machine

open Sys2Proof

/-! ## Answers on the management path (R531, R532) -/

/-- The stream of a request (R404). -/
def askedOn (q : MgmtReq) : StreamRef := if q.port.val = 16 then .conn (q.hdr.stream.setWidth 8) else .peer q.hdr.src q.hdr.vc

/-- Whether a request came on a management stream (R528). -/
def askedOnMgmt (q : MgmtReq) : Bool := if q.port.val = 16 then q.onMgmt else decide (q.hdr.vc = 3)

/-- The answer to a request: it acknowledges the request with all before it (R406), and is lost where its connection is open no more. -/
def Dev.mgmtSay (v : Variant) (d : Dev) (a : Asker) (op st : W8) (data : List W8) : Dev :=
  let lost := match a.ref with
    | .conn i => decide ((d.conn i.toNat).state ≠ 1)
    | .peer _ _ => false
  if lost then d
  else (d.onNim (streamKey a.ref) fun x => { x with unacked := 0 }).respond v a.ref op st (d.nim (streamKey a.ref)).epoch a.psn data

/-- READ_RESP with a reply, or ERROR_RESP with a status. -/
def Dev.mgmtReply (v : Variant) (d : Dev) (a : Asker) (st : W8) (data : List W8) : Dev :=
  if st = 0 then d.mgmtSay v a 0x12 0 data else d.mgmtSay v a 0x14 st []

/-- Whether the management path answers FENCED: from RESET_N to step 8 of R494, recovery apart, and in a device warm reset. -/
def Dev.mgmtFenced (d : Dev) : Bool :=
  d.dev.inReset || d.dev.inWarm || (decide (d.sec.bootStep.toNat < 8) && !d.sec.recovery)

/-- A request with the expected PSN: on a management stream it runs, on any other it is answered ERROR_RESP with TRANSLATION (R528). -/
def Dev.mgmtTurn (v : Variant) (q : MgmtReq) (run : Asker → Dev → Dev) (r : StreamRef) (d : Dev) : Dev :=
  let k := streamKey r
  let d := d.onNim k fun x => { x with expected := x.expected + 1, unacked := x.unacked + 1, mgmt := x.mgmt || askedOnMgmt q }
  let d := if askedOnMgmt q then run ⟨r, q.hdr.psn⟩ d else d.mgmtReply v ⟨r, q.hdr.psn⟩ sTranslation []
  if 16 ≤ (d.nim k).unacked then d.sendAck v r else d

/-- A CSR or MGMT request as it arrives: no path in SCRAPPED (R532); forwarded to another device (R420); judged by epoch and PSN (R404,
R408, R530), a duplicate being acknowledged and not run again. Where a reset has the port down, what comes on a management stream is
answered all the same (R532). -/
def Dev.onRequest (f : Fuses) (d : Dev) (q : MgmtReq) (op : W8) (bytes : List W8) (run : Asker → Dev → Dev) : Dev :=
  let v := f.variant
  if f.state = lcScrapped then d
  else if d.mgmtFenced && !(d.port q.port.val).up then (if askedOnMgmt q then run ⟨askedOn q, q.hdr.psn⟩ d else d)
  else d.withStream v q.port.val op q.hdr bytes fun r d =>
    let x := d.nim (streamKey r)
    if q.hdr.epoch ≠ x.epoch then d
    else
      let d := d.notify v q.port.val r q.hdr.ce
      let ahead := q.hdr.psn - x.expected
      if ahead = 0 then d.mgmtTurn v q run r
      else if ahead.toNat < 2 ^ 31 then d.respond v r 0x11 0 x.epoch (x.expected - 1) []
      else d.sendAck v r

/-- The payload of a MGMT request (R531): its sub-header and what follows. -/
def mgmtBytes (sub : W8) (arg0 : W32) (arg1 : W64) (rest : List W8) : List W8 :=
  [sub, 0, 0, 0] ++ toLE 4 arg0.toNat ++ toLE 8 arg1.toNat ++ rest

/-- Whether the device takes security commands (R484, R495): not in SCRAPPED, and not between the start of a reset and READY. -/
def Dev.takesCommands (f : Fuses) (d : Dev) : Bool := decide (f.state ≠ lcScrapped) && !d.mgmtFenced

/-- A management operation, gated by the state of the device: FENCED during a reset; in recovery only what R532 names. -/
def Dev.mgmtGate (v : Variant) (inRecovery : Bool) (op : Dev → W8 × List W8 × Dev) (a : Asker) (d : Dev) : Dev :=
  if d.mgmtFenced then d.mgmtReply v a sFenced []
  else if d.sec.recovery && !inRecovery then d.mgmtReply v a sTranslation []
  else
    let r := op d
    r.2.2.mgmtReply v a r.1 r.2.1

/-- A MGMT request whose payload is `bytes` and whose operation is `op` (R531, R532). -/
def Dev.onMgmt (f : Fuses) (d : Dev) (q : MgmtReq) (bytes : List W8) (inRecovery : Bool) (op : Dev → W8 × List W8 × Dev) : Dev :=
  d.onRequest f q 0x09 bytes (Dev.mgmtGate f.variant inRecovery op)

/-! ## Tokens -/

/-- SEC.TOKEN (R503). -/
def Dev.tokenWord (d : Dev) : W32 :=
  d.sec.tokenKind ++ d.sec.tokenResult ++ 0#4 ++ BitVec.ofNat 16 (d.fld (At.sec 0x014) 0 16)

/-- Records the result of a token; a refused one counts (R489, R503). -/
def Dev.tokenResult (d : Dev) (t : Token) (r : BitVec 4) : Dev :=
  let d := d.onSec fun s => { s with tokenKind := t.kind, tokenResult := r }
  if r = 0 then d else d.count (At.sec 0x014) 0 16 1

/-- The answer to a token: SEC.TOKEN after it. -/
def Dev.answerToken (v : Variant) (d : Dev) (a : Asker) : Dev := d.mgmtReply v a 0 (toLE 4 d.tokenWord.toNat)

/-- A token is taken (R484, R531): while another command is in progress it is refused with BUSY at once, and its nonce stays. -/
def Dev.takeToken (v : Variant) (t : Token) (a : Asker) (d : Dev) : Dev :=
  if d.mgmtFenced then d.mgmtReply v a sFenced []
  else if d.sec.busy.isSome then (d.tokenResult t 7).answerToken v a
  else d.onSec fun s => { s with busy := some (.token t, some a) }

/-- The bytes of a token (R488): those its signature covers, and the signature. -/
def tokenBytes (t : Token) : List W8 := tokenSigned t ++ toLE 132 t.signature.toNat

/-- A token arrives (R531). -/
def Dev.tokenIn (f : Fuses) (d : Dev) (q : MgmtReq) (t : Token) : Dev :=
  d.onRequest f q 0x09 (mgmtBytes 1 0 0 (tokenBytes t)) (Dev.takeToken f.variant t)

/-- DEBUG (R490). -/
def execDebug (q : MgmtReq) (tok : Token) (s : State) : Host.Outcome State Fault Refusal :=
  s.onDev fun d => d.tokenIn s.fuse q tok

/-- VENDOR_DEBUG (R490). -/
def execVendorDebug (q : MgmtReq) (tok : Token) (s : State) : Host.Outcome State Fault Refusal :=
  s.onDev fun d => d.tokenIn s.fuse q tok

/-- OWNERSHIP (R482). -/
def execOwnership (q : MgmtReq) (tok : Token) (s : State) : Host.Outcome State Fault Refusal :=
  s.onDev fun d => d.tokenIn s.fuse q tok

/-- OWNER_KEY (R489). -/
def execOwnerKey (q : MgmtReq) (tok : Token) (s : State) : Host.Outcome State Fault Refusal :=
  s.onDev fun d => d.tokenIn s.fuse q tok

/-- RETURN_AUTH (R490). -/
def execReturnAuth (q : MgmtReq) (tok : Token) (s : State) : Host.Outcome State Fault Refusal :=
  s.onDev fun d => d.tokenIn s.fuse q tok

/-- RETURN_VENDOR (R482). -/
def execReturnVendor (q : MgmtReq) (tok : Token) (s : State) : Host.Outcome State Fault Refusal :=
  s.onDev fun d => d.tokenIn s.fuse q tok

/-- SCRAP (R482). -/
def execScrap (q : MgmtReq) (tok : Token) (s : State) : Host.Outcome State Fault Refusal :=
  s.onDev fun d => d.tokenIn s.fuse q tok

/-- BLANK to VENDOR (R482): only in BLANK under manufacturing test. -/
def execBlankToVendor (uid : BitVec 128) (vendorHashes : List (BitVec 512)) (s : State) : Host.Outcome State Fault Refusal :=
  s.onDev fun d =>
    if s.fuse.state = lcBlank ∧ d.pins.testMode ∧ d.sec.busy.isNone ∧ d.dev.inReset = false then
      d.onSec fun x => { x with busy := some (.toVendor uid vendorHashes, none) }
    else d

/-! ## Firmware control (R496) -/

/-- A write to SEC.FW_CTRL (R484, R496): one command, whose bits take effect in the order VERIFY, ACTIVATE, COMMIT; refused with
BUSY while another is in progress. -/
def Dev.fwCommand (f : Fuses) (d : Dev) (bank verify activate commit : Bool) : Dev :=
  if !d.takesCommands f then d
  else if d.sec.busy.isSome then d.onSec fun s => { s with fwResult := 6 }
  else (d.setFld (At.sec 0x00C) 3 1 bank.toNat).onSec fun s => { s with busy := some (.firmware bank verify activate commit, none) }

/-- FW_VERIFY (R496): the bank that SEC.FW_CTRL.BANK names. -/
def execFwVerify (s : State) : Host.Outcome State Fault Refusal :=
  s.onDev fun d => d.fwCommand s.fuse (d.bit (At.sec 0x00C) 3) true false false

/-- FW_ACTIVATE (R496). -/
def execFwActivate (s : State) : Host.Outcome State Fault Refusal :=
  s.onDev fun d => d.fwCommand s.fuse (d.bit (At.sec 0x00C) 3) false true false

/-- FW_COMMIT (R496). -/
def execFwCommit (s : State) : Host.Outcome State Fault Refusal :=
  s.onDev fun d => d.fwCommand s.fuse (d.bit (At.sec 0x00C) 3) false false true

/-- VERIFY: the bank is checked (R493). -/
def Sec.verify (f : Fuses) (s : Sec) (bank : Bool) : Sec := { s with fwResult := f.imageCheck (s.bank bank) }

/-- ACTIVATE: refused unless RESULT is VALID. -/
def Sec.activate (s : Sec) (bank : Bool) : Sec := if s.fwResult = 1 then { s with preferred := bank } else s

/-- COMMIT blows the counter up to the SVN of the running image. -/
def Fuses.commit (f : Fuses) (svn : Nat) : Fuses := { f with counter := max f.counter svn }

/-- A bank whose SVN lies below the counter loses its header. -/
def Sec.invalidate (counter : Nat) (s : Sec) (bank : Bool) : Sec :=
  if imgSvn (s.bank bank) < counter then s.setBank bank ((s.bank bank).store 0 (List.replicate 1024 0)) else s

/-! ## Completion (R482, R489, R490) -/

/-- TOKEN_ACCEPTED (R551). -/
def Dev.tokenEvent (d : Dev) (t : Token) : Dev :=
  d.raise 0x19 { arg := [t.kind, t.level, t.slot, 0] ++ toLE 4 t.validTicks.toNat }

/-- The fuses of a transition: bits are blown and never cleared (R481). -/
def Fuses.advance (f : Fuses) (to_ : BitVec 4) : Fuses := { f with lcFuses := f.lcFuses ||| to_, lcTwins := f.lcTwins ||| to_ }

/-- The effect of an accepted token on fuses and device (R482, R490). -/
def tokenEffect (t : Token) (f : Fuses) (d : Dev) : Fuses × Dev :=
  match t.kind.toNat with
  | 1 => (f, d.onSec fun s => { s with debugLevel := t.level.setWidth 2, ticksLeft := t.validTicks.toNat })
  | 2 => (f, d.onSec fun s => { s with debugLevel := t.level.setWidth 2, ticksLeft := t.validTicks.toNat })
  | 3 => ({ f.advance lcOwned with owner := f.owner.set 0 { f.owner[0] with hash := some t.keyHash } }, d.transitionReset f.variant)
  | 4 => ({ f with owner := ownerAfter f t, ownerSigReq := f.ownerSigReq || t.policy.getLsbD 0 }, d)
  | 5 => (f, d.onSec fun s => { s with armed := true, armedLeft := t.validTicks.toNat })
  | 6 => (f.advance lcReturned, d.erase.transitionReset f.variant)
  | 7 =>
    let d := d.onSec fun s => { s with identity := false }
    (f.advance lcScrapped, (if f.state = lcOwned then d.erase else d).transitionReset f.variant)
  | _ => (f, d)

/-- A new nonce from the TRNG (R489). -/
def Dev.newNonce (d : Dev) : Dev :=
  let n := d.drawBytes 32
  n.2.onSec fun s => { s with nonce := BitVec.ofNat 256 (leNat n.1) }

/-- A token's checks are complete (R489): the result, a new nonce, the answer, and the effect of an accepted one. -/
def completeToken (t : Token) (a : Option Asker) (f : Fuses) (d : Dev) : Fuses × Dev :=
  let r := tokenCheck t f d.sec.nonce d.sec.armed
  let d := (d.tokenResult t r).newNonce
  let d := match a with
    | some a => d.answerToken f.variant a
    | none => d
  if r = 0 then tokenEffect t f (d.tokenEvent t) else (f, d)

/-- Manufacturing's transition (R482, R497): DEVICE_UID and the vendor key hashes are fused, the identity key is generated. -/
def completeVendor (uid : BitVec 128) (hashes : List (BitVec 512)) (f : Fuses) (d : Dev) : Fuses × Dev :=
  ({ f.advance lcVendor with
       uid := uid
       vendor := Vector.ofFn fun (i : Fin 4) =>
         let k := f.vendor[i.val]
         match hashes[i.val]? with
         | some h => { k with hash := some h }
         | none => k },
   (d.onSec fun s => { s with identity := true }).transitionReset f.variant)

/-- A write to SEC.FW_CTRL completes (R496). -/
def completeFirmware (bank verify activate commit : Bool) (f : Fuses) (d : Dev) : Fuses × Dev :=
  let s := if verify then d.sec.verify f bank else d.sec
  let s := if activate then s.activate bank else s
  let f := if commit then f.commit s.svnRun else f
  let s := if commit then (s.invalidate f.counter false).invalidate f.counter true else s
  (f, { d with sec := s })

/-- SECURITY_COMMAND_DONE (R484). -/
def execSecurityCommandDone (s : State) : Host.Outcome State Fault Refusal :=
  s.onAll fun f d =>
    match d.sec.busy with
    | none => (f, d)
    | some (c, a) =>
      let d := d.onSec fun x => { x with busy := none }
      match c with
      | .token t => completeToken t a f d
      | .firmware b v a k => completeFirmware b v a k f d
      | .toVendor u h => completeVendor u h f d

/-! ## Debug levels (R490) -/

/-- DEBUG_LEVEL_EXPIRY (R490): the level closes once TICKS_LEFT is 0. -/
def execDebugLevelExpiry (s : State) : Host.Outcome State Fault Refusal := s.onDev (·.expireDebug)

/-- SEC.DEBUG.CLOSE (R490). -/
def Dev.closeDebug (d : Dev) : Dev := d.onSec fun s => { s with debugLevel := 0, ticksLeft := 0 }

/-- DEBUG_CLOSE (R490). -/
def execDebugClose (s : State) : Host.Outcome State Fault Refusal :=
  s.onDev fun d => if d.mgmtFenced then d else d.closeDebug

/-- RETURN_ARMED_EXPIRY (R490). -/
def execReturnArmedExpiry (s : State) : Host.Outcome State Fault Refusal := s.onDev (·.expireReturn)

/-! ## The TAP (R486, R512) -/

/-- Instruction codes of the TAP, as the model numbers them. -/
def jtagExtestCode : W8 := 0x00
def jtagSampleCode : W8 := 0x01
def jtagIdcodeCode : W8 := 0x02
def jtagScanCode : W8 := 0x03
def jtagBypassCode : W8 := 0xFF

def Dev.jtagSelect (d : Dev) (code : W8) : Dev := { d with pins := { d.pins with jtagInstr := code } }

/-- `n` bits that the manual leaves open (log 1). -/
def Dev.drawBits (d : Dev) (n : Nat) : List Bool × Dev :=
  ((List.range n).map (fun i => (Config.freeWord (d.free + i)).getLsbD 0), { d with free := d.free + n })

/-- BYPASS: a one-bit register, which shifts out 0 and then what was shifted in. -/
def execJtagBypass (tdi : Bool) (s : State) : Host.Outcome State Fault Refusal :=
  s.onDev fun d => (d.jtagSelect jtagBypassCode).send (.jtag [false, tdi])

/-- IDCODE: 32 bits, whose value the manual does not state (log 1). -/
def execJtagIdcode (s : State) : Host.Outcome State Fault Refusal :=
  s.onDev fun d =>
    let b := d.drawBits 32
    (b.2.jtagSelect jtagIdcodeCode).send (.jtag b.1)

/-- SAMPLE/PRELOAD: the levels of the pins are shifted out, and the boundary register is loaded. -/
def execJtagSamplePreload (bits : List Bool) (s : State) : Host.Outcome State Fault Refusal :=
  s.onDev fun d =>
    let b := d.drawBits bits.length
    let d := (b.2.jtagSelect jtagSampleCode).send (.jtag b.1)
    { d with pins := { d.pins with boundary := bits } }

/-- EXTEST: the boundary register drives the pins. -/
def execJtagExtest (s : State) : Host.Outcome State Fault Refusal := s.onDev (·.jtagSelect jtagExtestCode)

/-- A scan dump of logic state (R486, R490): at debug level 2 or above; else the TAP behaves as in BYPASS. -/
def execJtagScanDump (s : State) : Host.Outcome State Fault Refusal :=
  s.onDev fun d =>
    if 2 ≤ d.debugOpen s.fuse.lc then
      let b := d.drawBits 64
      (b.2.jtagSelect jtagScanCode).send (.jtag b.1)
    else (d.jtagSelect jtagBypassCode).send (.jtag [false])

end Sys2Proof.Machine
end

