-- ==== Sys2Proof/Machine/Csr.lean ====
section
/-!
DEFINITION. Sys2Proof/Machine/Csr.lean: what CSR reads show (the fields that other state holds, laid over the CSR file), and what
reads and writes do (R9 to R13, R86, R530, R542 to R544).
-/

namespace Sys2Proof.Machine

open Sys2Proof

/-! ## What registers show -/

/-- Fields laid over a register: low bit, width, value. -/
abbrev View := List (Nat × Nat × Nat)

def overlay (w : W32) (vs : View) : W32 := vs.foldl (fun w e => setField w e.1 e.2.1 e.2.2) w

/-- One half of a 64-bit quantity. -/
def halfView (v : W64) (hi : Bool) : View := [(0, 32, if hi then v.toNat / 2 ^ 32 else v.toNat % 2 ^ 32)]

/-- `n` ones. -/
def onesTo (n : Nat) : Nat := 2 ^ n - 1

/-- DEV (R541, R548). -/
def viewDev (f : Fuses) (d : Dev) (off : Nat) : View :=
  let v := f.variant
  let dies := if 8 < v.ports then 3 else 1
  match off with
  | 0x000 => [(8, 8, v.code), (0, 8, f.stepping.toNat)]
  | 0x004 => [(16, 12, if v.crosshatch then onesTo v.sectors else 0), (0, 12, onesTo v.sectors)]
  | 0x008 => [(16, 12, onesTo v.sectors), (8, 8, v.stackGiB)]
  | 0x00C => [(20, 12, if v.stipple then onesTo v.sectors else 0), (16, 2, dies), (0, 16, onesTo v.ports)]
  | 0x014 => [(0, 8, v.code), (16, 16, onesTo v.sectors)]
  | 0x018 => [(0, 16, onesTo v.sectors), (16, 8, dies)]
  | 0x01C => [(31, 1, d.dev.ready.toNat), (30, 1, d.sec.recovery.toNat), (29, 1, (!d.pins.faultN).toNat), (0, 16, d.retain.bootId.toNat)]
  | 0x020 => [(24, 8, d.dev.cold.toNat), (16, 8, d.retain.lastRun.toNat), (8, 8, d.dev.warm.toNat), (0, 8, d.dev.warmCount.toNat)]
  | 0x118 => halfView d.events.nextSeq false
  | 0x11C => halfView d.events.nextSeq true
  | 0x120 => [(31, 1, d.events.stalled.toNat), (16, 13, d.events.held.length)]
  | _ => []

/-- TICK (R39 to R43, R60, R65). -/
def viewTick (d : Dev) (off : Nat) : View :=
  let t := d.tick
  match off with
  | 0x004 => [(0, 12, t.periodUs)]
  | 0x008 => [(31, 1, t.pending.toNat)]
  | 0x00C => [(0, 12, t.lastUs)]
  | 0x014 => [(7, 1, t.aligned.toNat), (6, 1, d.seq.active.toNat), (5, 1, d.seq.standbyReady.toNat), (4, 1, t.maint.toNat),
              (3, 1, t.stretched.toNat), (2, 1, t.floorWarn.toNat)]
  | 0x020 => halfView t.number false
  | 0x024 => halfView t.number true
  | 0x028 => halfView t.step false
  | 0x02C => halfView t.step true
  | _ => []

/-- SEQ (R46, R376, R389). -/
def viewSeq (d : Dev) (off : Nat) : View :=
  let q := d.seq
  match off with
  | 0x010 => halfView q.consumed false
  | 0x014 => halfView q.consumed true
  | 0x410 => halfView q.jrnHead false
  | 0x414 => halfView q.jrnHead true
  | 0x428 => [(31, 1, q.replay.isSome.toNat), (30, 1, (q.diverged && q.replay.isNone).toNat), (28, 1, q.replayArmed.toNat)]
  | _ => []

/-- CORE_STATE.RUN (R111). -/
def Tile.runCode (x : Tile) : Nat :=
  match x.run with
  | .idle => 0
  | .halted => 2
  | _ => if x.repeating then 3 else 1

/-- The core registers of a tile (R110, R111). -/
def viewCore (x : Tile) (off : Nat) : View :=
  match off with
  | 0x000 => [(20, 4, x.ctx.toNat), (4, 16, x.pc.toNat), (3, 1, x.inTrap.toNat), (2, 1, x.late.toNat), (0, 2, x.runCode)]
  | 0x004 => [(0, 8, x.trapEn.toNat)]
  | 0x008 => [(2, 14, x.vecOffset.toNat), (0, 1, x.vecValid.toNat)]
  | 0x00C => [(0, 16, x.trapPc.toNat)]
  | 0x010 => [(0, 8, x.cause.toNat)]
  | 0x014 => halfView x.info false
  | 0x018 => halfView x.info true
  | 0x01C => [(0, 4, x.sticky.toNat)]
  | 0x020 => halfView x.cycles false
  | 0x024 => halfView x.cycles true
  | _ => []

/-- A convolution engine's CTRL (R246). -/
def ConvEngine.view (e : ConvEngine) : View := [(8, 1, e.busy.isSome.toNat), (4, 4, e.last.val), (0, 1, e.repair.toNat)]

/-- TRG_STATUS (R313, R323). -/
def Trough.view (x : Trough) : View :=
  [(31, 1, x.drain.isEmpty.toNat), (30, 1, x.dropPending.toNat), (29, 1, x.ticked.toNat), (28, 1, (x.producer != 0xFF).toNat),
   (21, 7, (x.drain.filter (·.endMark)).length), (14, 7, x.drain.length), (7, 7, x.fill.length)]

/-- SECT (R246, R323, R342 to R344). -/
def viewSect (d : Dev) (l : CsrLoc) : View :=
  let s := d.sector l.n
  if l.off < 0x100 then viewCore (d.tile (tileOf (16 * l.n + l.tile))) l.off
  else if 0x600 ≤ l.off ∧ l.off < 0x680 then (d.trough l.n ((l.off - 0x600) / 4)).view
  else if 0x800 ≤ l.off ∧ l.off < 0x1000 then
    let k := (l.off - 0x800) / 0x40 * 6 + (l.off - 0x800) % 0x40 / 8
    halfView (Tab.look 0 s.tallies k) (decide (l.off % 8 = 4))
  else
    match l.off with
    | 0x400 => s.xh.view
    | 0x410 => s.st.view
    | 0x504 => [(16, 11, 64 * s.pool - (s.streams.map (·.buffer)).sum / 4096), (0, 7, s.streams.length)]
    | _ => []

/-- HUB (R289, R388). -/
def viewHub (v : Variant) (d : Dev) (l : CsrLoc) : View :=
  let h := d.hub l.n
  match l.off with
  | 0x000 => [(24, 8, h.temp.toNat), (22, 2, h.refresh), (12, 4, (d.spareChannels v l.n).length), (8, 4, min 15 h.failed.length),
              (0, 1, (!h.faulted).toNat)]
  | 0x020 => [(31, 1, h.marginOn.toNat), (30, 1, h.marginFail.toNat), (8, 1, h.marginArmed.toNat)]
  | 0x024 =>
    let m := Tab.look (0, 0) h.margins (d.fld (At.hub l.n 0x020) 0 8)
    [(16, 16, m.1.toNat), (0, 16, m.2.toNat)]
  | 0x028 => [(4, 4, h.scratchWays)]
  | 0x02C => [(0, 7, h.openWindows)]
  | 0x110 => [(0, 1, d.xlDropping.isSome.toNat)]
  | 0x200 => [(31, 1, h.oxPass.isSome.toNat), (24, 7, h.oxQueue.length), (16, 8, h.oxLast.toNat)]
  | off => if 0x040 ≤ off ∧ off < 0x050 then [(0, 32, (BitVec.ofInt 32 (Tab.look 0 h.balance ((off - 0x040) / 4))).toNat)] else []

/-- LINK (R431). -/
def viewLink (d : Dev) (l : CsrLoc) : View :=
  let x := d.port (8 * l.n + l.off / 0x20)
  let direct := decide (x.mode = 1) && x.up
  if l.off < 0x100 then
    match l.off % 0x20 with
    | 0x04 => [(31, 1, x.up.toNat), (28, 3, x.lanes), (24, 4, x.spared.toNat % 16), (8, 16, if direct then x.peer.toNat else 0),
               (4, 4, if direct then x.peerPort.toNat else 0)]
    | 0x0C => [(0, 16, if direct then x.latency.toNat else 0)]
    | _ => []
  else
    match l.off with
    | 0x228 => [(31, 1, d.links.routeLoading.toNat)]
    | 0x238 => [(5, 1, d.links.ptp.locked.toNat)]
    | _ => []

/-- HOST (R431). -/
def viewHost (d : Dev) (off : Nat) : View :=
  match off with
  | 0x004 => [(31, 1, (d.port 16).up.toNat), (27, 4, (d.port 16).lanes)]
  | 0x040 => [(16, 2, (d.conn (d.fld (At.host 0x040) 0 8)).state.toNat)]
  | _ => []

/-- A set of partitions as a mask. -/
def maskOf (n : Nat) (p : Nat → Bool) : Nat := (List.range n).foldl (fun m i => if p i then m + 2 ^ i else m) 0

/-- GANDER (R456). -/
def viewGander (d : Dev) (off : Nat) : View :=
  let g := d.gander
  match off with
  | 0x004 => [(16, 12, maskOf 12 (fun n => (d.hub n).fenced || d.cutOff n)), (0, 12, maskOf 12 (fun n => (g.recovery n).isSome))]
  | 0x010 => [(0, 16, g.suspectCtx.toNat)]
  | 0x014 => [(31, 1, g.resetArmed.toNat), (30, 1, (g.resetArmed || g.recoveries.any (fun e => e.2.cause == 0x04)).toNat)]
  | 0x020 => [(0, 4, g.dumpValid.toNat)]
  | 0x02C => [(31, 1, (g.disabling.any (fun x => x.phase == 0 || x.phase == 2)).toNat), (30, 1, g.disabling.isSome.toNat), (28, 2, g.result.toNat)]
  | _ => []

/-- An f32 as a whole number of units, `k` to one, to the nearest. -/
def unitsOf (w : W32) (k : Int) (top : Nat) : Nat :=
  (floorIn 0 top ((((f32 w).mul (.ofInt k)).1.add (.fin false 1 (-1))).1)).toNat

/-- PWR (R479). -/
def viewPwr (v : Variant) (d : Dev) (off : Nat) : View :=
  let p := d.power
  match off with
  | 0x00C => [(16, 12, if d.tick.begun then p.clock else 0), (12, 4, p.limit), (2, 1, p.trip.toNat), (1, 1, p.alert.toNat),
              (0, 1, d.tick.floorWarn.toNat)]
  | 0x014 => [(16, 8, unitsOf p.tc 1 255)]
  | 0x020 => [(31, 1, p.charArmed.toNat), (30, 1, decide (p.charPhase ≠ 0) |>.toNat), (28, 2, p.charResult), (0, 12, p.sustain)]
  | 0x024 => [(16, 16, unitsOf p.thetaF 100000 0xFFFF), (0, 16, unitsOf p.tauF 10000 0xFFFF)]
  | 0x028 => [(16, 16, unitsOf p.thetaS 100000 0xFFFF), (0, 16, unitsOf p.tauS 100 0xFFFF)]
  | 0x060 => [(16, 12, p.fAge), (0, 12, d.quireDue v)]
  | 0x064 => [(0, 32, min 0xFFFFFFFF (p.aged * 24 / agedDay))]
  | _ =>
    let s := (off % 0x40) / 4
    if 0x030 ≤ off ∧ off < 0x060 then
      let k := (off - 0x030) / 4
      [(0, 16, if k < v.sectors then unitsOf (p.thetaLoc.toList.getD k 0) 1000000 0xFFFF else 0)]
    else if 0x080 ≤ off ∧ off < 0x0B0 then [(0, 32, if s < v.sectors then (p.margins.toList.getD s 0).toNat else 0)]
    else if 0x0C0 ≤ off ∧ off < 0x0F0 then [(0, 32, if s < v.sectors then (p.srams.toList.getD s 0).toNat else 0)]
    else []

/-- SEC.KEYS (R503); in RETURNED and SCRAPPED every owner slot counts as revoked (R483). -/
def Fuses.keysView (f : Fuses) : View :=
  let all := decide (f.state = lcReturned) || decide (f.state = lcScrapped)
  [(28, 4, maskOf 4 (fun i => (f.owner.toList.getD i {}).hash.isSome)),
   (24, 4, maskOf 4 (fun i => all || (f.owner.toList.getD i {}).revoked)),
   (20, 4, maskOf 4 (fun i => (f.vendor.toList.getD i {}).revoked)), (16, 1, f.ownerSigReq.toNat)]

/-- SEC (R502, R503). -/
def viewSec (f : Fuses) (d : Dev) (off : Nat) : View :=
  let s := d.sec
  match off with
  | 0x000 => [(9, 1, s.erased.toNat), (8, 1, s.armed.toNat), (0, 3, lcCode f.state)]
  | 0x004 => f.keysView
  | 0x008 => [(24, 8, f.counter), (16, 8, s.svnRun), (8, 8, if f.imageCheck (s.bank (!s.running)) = 1 then imgSvn (s.bank (!s.running)) else 0xFF),
              (1, 1, s.preferred.toNat), (0, 1, s.running.toNat)]
  | 0x00C => [(31, 1, s.busy.isSome.toNat), (28, 3, s.fwResult.toNat)]
  | 0x010 => [(30, 2, s.debugLevel.toNat), (0, 28, min s.ticksLeft 0xFFFFFFF)]
  | 0x014 => [(24, 8, s.tokenKind.toNat), (20, 4, s.tokenResult.toNat)]
  | 0x018 => [(28, 4, s.bootStep.toNat), (24, 4, s.bootReason.toNat), (1, 1, s.recovery.toNat), (0, 1, s.fellBack.toNat)]
  | _ =>
    if 0x020 ≤ off ∧ off < 0x040 then [(0, 32, s.nonce.toNat / 2 ^ (8 * (off - 0x020)) % 2 ^ 32)]
    else if 0x040 ≤ off ∧ off < 0x050 then [(0, 32, f.uid.toNat / 2 ^ (8 * (off - 0x040)) % 2 ^ 32)]
    else []

/-- How many units are in a state, saturating at 255 (R540); a unit that no transition has touched is in none of those counted. -/
def Dev.countUnits (d : Dev) (st : BitVec 4) : Nat := min 255 (d.ledger.filter (fun e => e.2.state == st)).length

/-- LEDGER (R540). -/
def viewLedger (v : Variant) (d : Dev) (off : Nat) : View :=
  let e := d.entry v (BitVec.ofNat 16 (d.fld (At.ledger 0x000) 0 16))
  match off with
  | 0x004 => [(28, 4, e.state.toNat), (24, 4, e.seen.toNat), (20, 4, e.previous.toNat), (19, 1, e.pending.toNat),
              (0, 16, e.transitions.toNat)]
  | 0x008 => halfView e.changed false
  | 0x00C => halfView e.changed true
  | 0x010 => [(24, 8, d.countUnits stFaulted), (16, 8, d.countUnits stDisabled), (8, 8, d.countUnits stSpared),
              (0, 8, d.ledgerMismatches.toNat)]
  | _ => []

/-- The newest valid copy of the settings record. -/
def Retain.newest (r : Retain) : Record :=
  match r.larger (·.valid) with
  | none => {}
  | some k => r.copy k

/-- RETAIN (R524). -/
def viewRetain (d : Dev) (off : Nat) : View :=
  let r := d.retain
  match off with
  | 0x000 => [(31, 1, r.writing.isSome.toNat), (30, 1, r.fallback.toNat), (29, 1, r.restored.toNat), (28, 1, r.newest.factory.toNat),
              (24, 4, r.reasonRun.toNat), (20, 4, r.reason.toNat), (16, 4, r.otherReason.toNat), (0, 16, r.skipped.toNat)]
  | 0x004 => [(1, 1, r.factoryReq.toNat), (0, 1, r.writeAsked.toNat)]
  | 0x008 => halfView r.newest.seq false
  | 0x00C => halfView r.newest.seq true
  | _ => []

/-- The fields of a register that other state holds. -/
def Dev.view (f : Fuses) (d : Dev) (l : CsrLoc) : View :=
  match l.block with
  | .dev => viewDev f d l.off
  | .tick => viewTick d l.off
  | .seq => viewSeq d l.off
  | .sect => viewSect d l
  | .hub => viewHub f.variant d l
  | .link => viewLink d l
  | .host => viewHost d l.off
  | .gander => viewGander d l.off
  | .pwr => viewPwr f.variant d l.off
  | .sec => viewSec f d l.off
  | .ledger => viewLedger f.variant d l.off
  | .retain => viewRetain d l.off

/-! ## Presence (R245, R288, R343, R543) -/

/-- Whether the unit of a block is present. -/
def CsrLoc.blockThere (v : Variant) (l : CsrLoc) : Bool :=
  match l.block with
  | .sect => decide (l.n < v.sectors)
  | .hub => decide (l.n < v.sectors)
  | .link => decide (8 * l.n < v.ports)
  | _ => true

/-- Whether a register shows and takes anything: its block is present, or it is a shared register of HUB or LINK; and the engine it
belongs to is one that the variant has. -/
def CsrLoc.there (v : Variant) (l : CsrLoc) : Bool :=
  (l.blockThere v || (decide (l.block ≠ .sect) && decide (l.desc.map (·.scope) = some 2))) &&
  (decide (l.block ≠ .sect) || ((v.crosshatch || !(decide (0x400 ≤ l.off) && decide (l.off < 0x410))) &&
    (v.stipple || !(decide (0x410 ≤ l.off) && decide (l.off < 0x420)))))

/-- BLOCK_ID (R543), at the last word of a present block or tile window. -/
def CsrLoc.blockId (v : Variant) (l : CsrLoc) : Option W32 :=
  let last := if l.block = .sect then 0xFFFC else 0xFFFFC
  if l.off ≠ last ∨ !l.blockThere v then none
  else
    let kind := l.block.base l.n / 0x100000 % 256
    let index := match l.block with
      | .sect => l.tile
      | .hub => l.n
      | .link => l.n
      | _ => 0
    some (BitVec.ofNat 32 (2 ^ 31 + kind * 65536 + index * 256 + 1))

/-- What a register shows. -/
def Dev.shown (f : Fuses) (d : Dev) (l : CsrLoc) : W32 := overlay (d.reg l) (d.view f l)

/-! ## Reads (R10 to R12) -/

/-- Clears the RC fields of a register that has been read (R11). -/
def Dev.clearRead (d : Dev) (l : CsrLoc) (r : RegDesc) : Dev :=
  let m := r.mask (fun a => decide (a = .rc))
  if m = 0 then d
  else
    let d := d.setReg l (d.reg l &&& ~~~m)
    if l.block = .ledger then { d with ledgerMismatches := 0 } else d

/-- Captures the upper half of a 64-bit quantity for the requester (R10). -/
def Dev.captureHi (d : Dev) (r : Requester) (key : Nat) (hi : W32) : Dev :=
  let h := d.held r
  d.setHeld { h with readHi := Tab.ins key hi (Tab.drop key h.readHi) }

/-- CORE_CYCLES of a tile (R110): the cycles that its slices have executed since it was read last are a free amount (log 1), none where
no slice has run since. -/
def Dev.countCycles (d : Dev) (t : TileRef) : Dev :=
  let x := d.tile t
  let busy := match x.run with
    | .idle => false
    | .halted => false
    | _ => true
  if busy || x.ran then
    let z := d.draw
    z.2.onTile t fun x => { x with cycles := x.cycles + (z.1.setWidth 32).setWidth 64, ran := busy }
  else d

/-- A read of a register by a requester. -/
def Dev.readReg (f : Fuses) (d : Dev) (r : Requester) (l : CsrLoc) : W32 × Dev :=
  let v := f.variant
  match l.blockId v with
  | some w => (w, d)
  | none =>
    match l.desc with
    | none => (0, d)
    | some k =>
      if !l.there v then (0, d)
      else
        let cycles := decide (l.block = .sect) && (decide (l.off = 0x020) || decide (l.off = 0x024))
        let counted := if cycles then d.countCycles (tileOf (16 * l.n + l.tile)) else d
        if k.half = 1 then
          (counted.shown f l, counted.captureHi r (l.home k.scope) (counted.shown f { l with off := l.off + 4 }))
        else if k.half = 2 then
          let key := { l with off := l.off - 4 }.home k.scope
          let h := d.held r
          match h.readHi.find? (fun e => e.1 == key) with
          | some e => (e.2, d.setHeld { h with readHi := Tab.drop key h.readHi })
          | none => (counted.shown f l, counted)
        else if l.block = .gander ∧ l.off = 0x028 then d.dumpWord f.lc
        else (d.shown f l, d.clearRead l k)

/-! ## Writes (R10, R11, R13) -/

/-- A register after a plain write. A W1S bit starts an action: it reads 1 until the action starts, which other state holds, and is not
stored here (DEDUCED, log 45). A Retained field that changes is due to be written to the
settings record (R522). -/
def Dev.plainWrite (d : Dev) (l : CsrLoc) (w : W32) : Dev :=
  match l.desc with
  | none => d
  | some k =>
    let old := d.reg l
    let new := k.write old (w &&& ~~~k.mask (fun a => decide (a = .w1s)))
    let d := d.setReg l new
    if (old ^^^ new) &&& l.retainMask = 0 then d else d.onRetain fun x => { x with changed := true }

/-- The value written, where a register refuses some of it: fields of absent partitions, a reserved port, JRN_SIZE 0 while the
journal is enabled, NEXT_PERIOD on a follower (R42, R389, R431, R456). -/
def Dev.admitted (v : Variant) (d : Dev) (l : CsrLoc) (w : W32) : W32 :=
  match l.block, l.off with
  | .tick, 0x008 => if d.isRoot then w else d.reg l
  | .seq, 0x408 => if w.toNat % 65536 = 0 ∧ d.bit (At.seq 0x40C) 31 then d.reg l else w
  | .seq, 0x430 => setField w 0 12 (w.toNat % 2 ^ v.sectors)
  | .gander, 0x014 => setField w 0 12 (w.toNat % 2 ^ v.sectors)
  | .link, 0x238 => if 17 ≤ w.toNat % 32 ∧ w.toNat % 32 ≤ 30 then setField w 0 5 (d.fld l 0 5) else w
  | _, _ => w

/-- The low half that a write of `_HI` joins, where no low half is held `cur` (R10). -/
def Dev.joinLow (d : Dev) (r : Requester) (l : CsrLoc) (cur : W32) : W32 × Dev :=
  let held := (d.held r).writeLo.any (fun e => e.1 == l.home ((l.desc.map (·.scope)).getD 0))
  if held then d.takeLow r l else (cur, d)

/-- A write of TICK.NUMBER or TICK.STEP (R60): only on a root whose ticks do not run; its first edge begins the tick written. -/
def Dev.writeTick (d : Dev) (r : Requester) (step : Bool) (hi : W32) : Dev :=
  let lo := d.joinLow r (At.tick (if step then 0x028 else 0x020)) ((if step then d.tick.step else d.tick.number).setWidth 32)
  let d := lo.2
  if !d.isRoot || d.bit (At.tick 0) 0 then d
  else if step then d.onTick fun t => { t with step := hi ++ lo.1 }
  else d.onTick fun t => { t with number := hi ++ lo.1, begun := false, saved := none }

/-- The core registers that programs and the owner write (R86, R111). -/
def Tile.writeCore (x : Tile) (off : Nat) (w : W32) : Tile :=
  match off with
  | 0x004 => { x with trapEn := w.setWidth 8 &&& 0xF7 }
  | 0x008 => { x with vecOffset := w.extractLsb' 2 14, vecValid := w.getLsbD 0 }
  | 0x00C => { x with trapPc := w.setWidth 16 &&& 0xFFFC }
  | 0x01C => { x with sticky := x.sticky &&& ~~~w.setWidth 4 }
  | _ => x

/-- A write of REG_BUDGET: the budget in force stays so until the next tick edge (R289). -/
def Dev.keepBudget (d : Dev) (n k : Nat) (was : W32) : Dev :=
  d.onHub n fun h => if (Tab.look none h.budgets k).isSome then h else { h with budgets := Tab.put none h.budgets k (some was) }

/-- What a write of a 32-bit register does beyond storing its fields. -/
def Dev.writeActs (f : Fuses) (d : Dev) (l : CsrLoc) (was w : W32) : Dev :=
  let v := f.variant
  match l.block, l.off with
  | .tick, 0x000 =>
    if w.getLsbD 0 && !was.getLsbD 0 then (d.setFld l 0 1 0).runTicks d.tick.lastEdge
    else if !w.getLsbD 0 then d.onTick fun t => { t with nextEdge := none, ppsWait := false, takeNumber := false }
    else d
  | .seq, 0x428 => if w.getLsbD 28 then d.armReplay else d
  | .hub, 0x020 => if w.getLsbD 8 then d.armMargin v l.n else d
  | .hub, 0x030 => d.keepBudget l.n 0 was
  | .hub, 0x034 => d.keepBudget l.n 1 was
  | .hub, 0x038 => d.keepBudget l.n 2 was
  | .hub, 0x03C => d.keepBudget l.n 3 was
  | .link, 0x228 => if w.getLsbD 0 then d.loadRoutes else d
  | .host, 0x000 => if w.getLsbD 1 then d.retrain v 16 else d
  | .host, 0x040 =>
    let i := w.toNat % 256
    let d := if w.getLsbD 9 then d.closeConn i else d
    if w.getLsbD 8 then d.openConn v i else d
  | .gander, 0x014 => if w.getLsbD 31 then d.armReset v else d
  | .gander, 0x020 => d.onGander fun g =>
      { g with dumpValid := g.dumpValid &&& ~~~w.setWidth 4, dumpOrder := g.dumpOrder.filter (fun k => !w.getLsbD k) }
  | .gander, 0x02C => if w.getLsbD 31 then d.requestDisable v (w.getLsbD 27) else d
  | .pwr, 0x020 => if w.getLsbD 31 then d.askChar else d
  | .sec, 0x010 => if w.getLsbD 29 then d.closeDebug else d
  | .retain, 0x004 =>
    let d := if w.getLsbD 1 then d.askFactory else d
    if w.getLsbD 0 then d.writeNow else d
  | .link, off => if off < 0x100 ∧ off % 0x20 = 0 ∧ w.getLsbD 8 then d.retrain v (8 * l.n + off / 0x20) else d
  | .sect, 0x108 => if w.getLsbD 0 then d.resInject f.lc (tileOf (16 * l.n + l.tile)) else d
  | .sect, off => d.onTile (tileOf (16 * l.n + l.tile)) (·.writeCore off w)
  | _, _ => d

/-- A write of an `_HI` register: it joins the held low half, and the 64-bit value takes effect (R10). -/
def Dev.writeHi (d : Dev) (r : Requester) (l : CsrLoc) (w : W32) : Dev :=
  match l.block, l.off with
  | .tick, 0x01C => d.armPeriod r w
  | .tick, 0x024 => d.writeTick r false w
  | .tick, 0x02C => d.writeTick r true w
  | .seq, 0x004 => d.reconfigure r false w
  | .hub, 0x114 => d.xlInval r w
  | _, _ =>
    let lo := { l with off := l.off - 4 }
    let x := d.takeLow r lo
    (x.2.plainWrite lo x.1).plainWrite l w

/-- A write of a register by a requester. -/
def Dev.writeReg (f : Fuses) (d : Dev) (r : Requester) (l : CsrLoc) (w : W32) : Dev :=
  match l.desc with
  | none => d
  | some k =>
    if !l.there f.variant then d
    else if k.mask (fun a => decide (a ≠ .ro) && decide (a ≠ .rc)) = 0 then d
    else if k.half = 1 then
      let h := d.held r
      d.setHeld { h with writeLo := Tab.ins (l.home k.scope) w (Tab.drop (l.home k.scope) h.writeLo) }
    else if k.half = 2 then d.writeHi r l w
    else if l.block = .seq ∧ l.off = 0x008 then d.reconfigure r true w
    else if l.block = .sec ∧ l.off = 0x00C then d.fwCommand f (w.getLsbD 3) (w.getLsbD 0) (w.getLsbD 1) (w.getLsbD 2)
    else
      let was := d.reg l
      let w := d.admitted f.variant l w
      (d.plainWrite l w).writeActs f l was w

/-! ## Access by offset (R9, R530, R532, R542 to R544) -/

/-- Whether a requester reaches a place: a program only its own tile window (R86, R544). -/
def CsrLoc.reachedBy (l : CsrLoc) (r : Requester) : Bool :=
  match r with
  | .core t => decide (l.block = .sect) && decide (l.n = t.sector.val) && decide (l.tile = t.tile.val)
  | _ => true

/-- The place that an aligned offset names for a requester; outside every block there is none. -/
def csrPlace (r : Requester) (addr : Nat) : Option CsrLoc :=
  if addr % 4 ≠ 0 then none
  else
    match locate addr with
    | none => none
    | some l => if l.reachedBy r then some l else none

/-- Whether the state of the device keeps a requester from an access: in a reset, a management stream reads SEC only (R532). -/
def Dev.csrFenced (d : Dev) (r : Requester) (l : CsrLoc) (write : Bool) : Bool :=
  match r with
  | .mgmt _ => d.mgmtFenced && (write || decide (l.block ≠ .sec))
  | _ => false

/-- A CSR read: its status and value. -/
def Dev.csrRead (f : Fuses) (d : Dev) (r : Requester) (addr : Nat) : W8 × W32 × Dev :=
  match csrPlace r addr with
  | none => (if (match r with | .mgmt _ => d.mgmtFenced | _ => false) then sFenced else sTranslation, 0, d)
  | some l =>
    if d.csrFenced r l false then (sFenced, 0, d)
    else
      let x := d.readReg f r l
      (0, x.1, x.2)

/-- Whether a program may write a register (R86). -/
def programWrites (off : Nat) : Bool := off == 0x004 || off == 0x008 || off == 0x00C || off == 0x01C

/-- A CSR write: its status. -/
def Dev.csrWrite (f : Fuses) (d : Dev) (r : Requester) (addr : Nat) (w : W32) : W8 × Dev :=
  match csrPlace r addr with
  | none => (if (match r with | .mgmt _ => d.mgmtFenced | _ => false) then sFenced else sTranslation, d)
  | some l =>
    if d.csrFenced r l true then (sFenced, d)
    else
      match r with
      | .core _ => if programWrites l.off then (0, d.writeReg f r l w) else (sTranslation, d)
      | _ => (0, d.writeReg f r l w)

/-- Whether a requester gets an answer: in SCRAPPED there is no management path (R532). -/
def Fuses.answers (f : Fuses) (r : Requester) : Bool :=
  match r with
  | .mgmt _ => decide (f.state ≠ lcScrapped)
  | _ => true

/-- A read that is answered to its requester. -/
def Dev.answerRead (f : Fuses) (d : Dev) (r : Requester) (addr : Nat) : Dev :=
  if !f.answers r then d
  else
    let x := d.csrRead f r addr
    x.2.2.send (.csr r x.1 x.2.1)

/-- A write that is answered to its requester. -/
def Dev.answerWrite (f : Fuses) (d : Dev) (r : Requester) (addr : Nat) (w : W32) : Dev :=
  if !f.answers r then d
  else
    let x := d.csrWrite f r addr w
    x.2.send (.csr r x.1 0)

/-- CSR_LO_READ (R10). -/
def execCsrLoRead (r : Requester) (addr : W32) (s : State) : Host.Outcome State Fault Refusal :=
  s.onDev fun d => d.answerRead s.fuse r addr.toNat

/-- RC_READ (R11, R12). -/
def execRcRead (r : Requester) (addr : W32) (s : State) : Host.Outcome State Fault Refusal :=
  s.onDev fun d => d.answerRead s.fuse r addr.toNat

/-- GENERAL_CSR_WRITE (R10, R11, R13). -/
def execGeneralCsrWrite (r : Requester) (addr : W32) (v : W32) (s : State) : Host.Outcome State Fault Refusal :=
  s.onDev fun d => d.answerWrite s.fuse r addr.toNat v

/-! ## Management requests (R528, R530) -/

/-- A CSR request is performed and answered by CSR_RESP with its status and 4 bytes; a payload that is not the 8 bytes of one 32-bit
access is refused as a narrower or wider access is (R9). -/
def Dev.csrTurn (f : Fuses) (q : MgmtReq) (op : Dev → W8 × W32 × Dev) (a : Asker) (d : Dev) : Dev :=
  let x := if q.hdr.length = 8 then op d else (if d.mgmtFenced then sFenced else sTranslation, 0, d)
  x.2.2.mgmtSay f.variant a 0x15 x.1 (toLE 4 x.2.1.toNat)

/-- CSR_READ_REQUEST (R530); `rest` is what its payload holds beside the control word's bit 0. -/
def execCsrReadRequest (via : Via) (hdr : NimHdr) (rest : BitVec 63) (s : State) : Host.Outcome State Fault Refusal :=
  let q : MgmtReq := ⟨via, hdr⟩
  s.onDev fun d => d.onRequest s.fuse q 0x08 (toLE 8 (rest ++ 0#1).toNat)
    (Dev.csrTurn s.fuse q fun d => d.csrRead s.fuse (.mgmt (streamKey (askedOn q))) q.hdr.addr.toNat)

/-- CSR_WRITE_REQUEST (R530); `rest` is bits 31:1 of its control word. -/
def execCsrWriteRequest (via : Via) (hdr : NimHdr) (rest : BitVec 31) (v : W32) (s : State) : Host.Outcome State Fault Refusal :=
  let q : MgmtReq := ⟨via, hdr⟩
  s.onDev fun d => d.onRequest s.fuse q 0x08 (toLE 8 (v ++ (rest ++ 1#1)).toNat)
    (Dev.csrTurn s.fuse q fun d =>
      let x := d.csrWrite s.fuse (.mgmt (streamKey (askedOn q))) q.hdr.addr.toNat v
      (x.1, 0, x.2))

/-! ## Programs (R82, R86) -/

/-- CSRR (R82, R86): the 32-bit register at IMM14 × 4 of the tile's own window. -/
def execCsrr (t : TileRef) (a : MemArgs) (s : State) : Host.Outcome State Fault Refusal :=
  s.onDev fun d => d.runInstr t (encMem 14 a) fun d =>
    if a.v ∨ a.rs1 ≠ 0 then d.trap t cIllegal 0
    else
      let x := d.readReg s.fuse (.core t) (At.tile t (4 * a.imm.toNat))
      x.2.onTile t fun y => (y.setRegs (y.regs.wg a.rd (x.1.setWidth 64))).skip4 4

/-- CSRW (R82, R86): a write of CORE_TRAP_EN waits until the tile's queues are empty and no token is PENDING. -/
def execCsrw (t : TileRef) (a : MemArgs) (s : State) : Host.Outcome State Fault Refusal :=
  s.onDev fun d => d.runInstr t (encMem 15 a) fun d =>
    let off := 4 * a.imm.toNat
    if a.v ∨ a.rs1 ≠ 0 then d.trap t cIllegal 0
    else if !programWrites off then d.trap t cCsrAccess 0
    else if off = 0x004 ∧ !(d.tile t).quiet then d
    else (d.writeReg s.fuse (.core t) (At.tile t off) ((d.tile t).regs.rg a.rd |>.setWidth 32)).onTile t (·.skip4 4)

end Sys2Proof.Machine
end

