-- ==== Sys2Proof/Machine/Mgmt.lean ====
section
/-!
DEFINITION. Sys2Proof/Machine/Mgmt.lean: the sub-operations of the management path but for tokens and SPDM (R531), and the I3C
sideband (R533, R534).
-/

namespace Sys2Proof.Machine

open Sys2Proof

/-! ## Sub-operations (R531) -/

/-- The capacity of a firmware bank (R491). -/
def bankSize : Nat := 0x1000000

/-- IMAGE_WRITE (R531): 64 to 4,032 bytes at a multiple of 64, into the bank not running; in recovery neither runs (R495). -/
def Dev.imageWrite (d : Dev) (bank : W32) (addr : W64) (data : List W8) : W8 × List W8 × Dev :=
  let k := decide (bank = 1)
  if 1 < bank.toNat ∨ (k = d.sec.running ∧ !d.sec.recovery) ∨ addr.toNat % 64 ≠ 0 ∨ data.length < 64 ∨ 4032 < data.length ∨
      bankSize < addr.toNat + data.length then
    (sTranslation, [], d)
  else (0, [], d.onSec fun s => s.setBank k ((s.bank k).store addr.toNat data))

/-- IMAGE_WRITE (R531). -/
def execImageWrite (via : Via) (hdr : NimHdr) (bank : W32) (data : List W8) (s : State) : Host.Outcome State Fault Refusal :=
  s.onDev fun d => d.onMgmt s.fuse ⟨via, hdr⟩ (mgmtBytes 2 bank 0 data) true fun d => d.imageWrite bank hdr.addr data

/-- Bytes of a context's virtual memory (R531). -/
def Dev.virtLook (v : Variant) (ctx : Nat) (d : Dev) (va len : Nat) : Acc :=
  readPieces (fun x a n =>
    let r := x.translate v .outside ctx a false false
    if r.1 ≠ 0 then ⟨r.1, [], r.2.2⟩ else r.2.2.physRead v none r.2.1 n) (pieces va len) d

/-- MEM_READ (R486, R531): at debug level 1 or above, 1 to 4,096 bytes, physical or of a context. -/
def Dev.memRead (f : Fuses) (d : Dev) (arg0 : W32) (addr len : W64) : W8 × List W8 × Dev :=
  if d.debugOpen f.lc < 1 ∨ len = 0 ∨ 4096 < len.toNat then (sTranslation, [], d)
  else
    let r := if arg0.getLsbD 0 then d.virtLook f.variant (arg0.toNat / 16 % 16) addr.toNat len.toNat
      else d.physBytes f.variant addr.toNat len.toNat
    (r.st, r.data, r.d)

/-- MEM_READ (R531). -/
def execMemRead (via : Via) (hdr : NimHdr) (arg0 : W32) (len : W64) (s : State) : Host.Outcome State Fault Refusal :=
  s.onDev fun d => d.onMgmt s.fuse ⟨via, hdr⟩ (mgmtBytes 4 arg0 len []) false fun d => d.memRead s.fuse arg0 hdr.addr len

/-- Whether every byte of a range lies in Quire memory or scratch (R531). -/
def inQuireOrScratch (a len : Nat) : Bool :=
  (pieces a len).all fun p => match regionOf p.1 with
    | .quire _ _ => true
    | .scratch _ _ => true
    | _ => false

/-- MEM_WRITE (R531): 1 to 4,080 bytes of Quire memory or scratch, in OWNED, VENDOR and BLANK. -/
def Dev.memWrite (f : Fuses) (d : Dev) (addr : W64) (data : List W8) : W8 × List W8 × Dev :=
  if (f.state ≠ lcOwned ∧ f.state ≠ lcVendor ∧ f.state ≠ lcBlank) ∨ data.length = 0 ∨ 4080 < data.length ∨
      !inQuireOrScratch addr.toNat data.length then
    (sTranslation, [], d)
  else
    let r := d.physStore f.variant addr.toNat data
    (r.st, [], r.d)

/-- MEM_WRITE (R531). -/
def execMemWrite (via : Via) (hdr : NimHdr) (data : List W8) (s : State) : Host.Outcome State Fault Refusal :=
  s.onDev fun d => d.onMgmt s.fuse ⟨via, hdr⟩ (mgmtBytes 5 0 0 data) false fun d => d.memWrite s.fuse hdr.addr data

/-- The byte of a unit that LEDGER_READ gives: SEEN above STATE. -/
def Dev.ledgerByte (v : Variant) (d : Dev) (u : Nat) : W8 :=
  if 65536 ≤ u then 0 else (d.entry v (BitVec.ofNat 16 u)).seen ++ (d.entry v (BitVec.ofNat 16 u)).state

/-- LEDGER_READ (R531): 1 to 4,096 units from the first. -/
def Dev.ledgerBytes (v : Variant) (d : Dev) (first : W32) (count : W64) : W8 × List W8 × Dev :=
  if count = 0 ∨ 4096 < count.toNat then (sTranslation, [], d)
  else (0, (List.range count.toNat).map (fun i => d.ledgerByte v (first.toNat + i)), d)

/-- LEDGER_READ (R531). -/
def execLedgerRead (q : MgmtReq) (first : W32) (count : W64) (s : State) : Host.Outcome State Fault Refusal :=
  s.onDev fun d => d.onMgmt s.fuse q (mgmtBytes 6 first count []) false fun d => d.ledgerBytes s.fuse.variant first count

/-- DUMP_READ (R451, R531): 1 to 4,096 bytes of a dump slot. -/
def Dev.dumpRead (f : Fuses) (d : Dev) (slot : W32) (addr len : W64) : W8 × List W8 × Dev :=
  if 4 ≤ slot.toNat ∨ len = 0 ∨ 4096 < len.toNat then (sTranslation, [], d)
  else (0, d.dumpBytes f.lc slot.toNat addr.toNat len.toNat, d)

/-- DUMP_READ (R531). -/
def execDumpRead (via : Via) (hdr : NimHdr) (slot : W32) (len : W64) (s : State) : Host.Outcome State Fault Refusal :=
  s.onDev fun d => d.onMgmt s.fuse ⟨via, hdr⟩ (mgmtBytes 7 slot len []) false fun d => d.dumpRead s.fuse slot hdr.addr len

/-- The records held or logged from a sequence number on, in sequence order (R531, R548). -/
def Events.logFrom (e : Events) (first : Nat) : List EventRec :=
  (((e.recent ++ e.held).filter (fun r => decide (first ≤ r.seq.toNat))).foldl (fun (t : Tab EventRec) r => Tab.ins r.seq.toNat r (Tab.drop r.seq.toNat t)) []).map (·.2)

/-- EVENT_LOG (R531): up to 63 records. -/
def execEventLog (q : MgmtReq) (first : W64) (s : State) : Host.Outcome State Fault Refusal :=
  s.onDev fun d => d.onMgmt s.fuse q (mgmtBytes 8 0 first []) false fun d =>
    (0, ((d.events.logFrom first.toNat).take 63).flatMap (·.bytes), d)

/-! ## The I3C sideband (R533, R534) -/

/-- Whether the sideband answers: from step 2 of R494 onward (R512). -/
def Dev.sideband (d : Dev) : Bool := decide (2 ≤ d.sec.bootStep.toNat)

/-- The target takes a dynamic address where it has none. -/
def Dev.takeAddress (d : Dev) (a : BitVec 7) : Dev :=
  if d.sideband && d.pins.i3cAddr.isNone then { d with pins := { d.pins with i3cAddr := some a } } else d

/-- SETDASA (R533): the target of static address 0x3A takes a dynamic address. -/
def execSetdasa (addr : BitVec 7) (s : State) : Host.Outcome State Fault Refusal := s.onDev fun d => d.takeAddress addr

/-- ENTDAA (R533): the target answers with its provisional ID, bytes 0 to 5 of DEVICE_UID, and takes a dynamic address. -/
def execEntdaa (addr : BitVec 7) (s : State) : Host.Outcome State Fault Refusal :=
  s.onDev fun d =>
    if d.sideband && d.pins.i3cAddr.isNone then (d.takeAddress addr).send (.i3c ((toLE 16 s.fuse.uid.toNat).take 6)) else d

/-- I3C_PRIVATE_WRITE (R533): sets the register pointer and writes nothing else. -/
def execI3cPrivateWrite (pointer : W8) (s : State) : Host.Outcome State Fault Refusal :=
  s.onDev fun d =>
    if d.sideband && d.pins.i3cAddr.isSome then { d with pins := { d.pins with i3cPtr := pointer } } else d

/-- The CSRs of the sideband map that are 4 bytes long (R534), by pointer. -/
def sidebandReg (p : Nat) : Option CsrLoc :=
  match p with
  | 0x10 => some (At.dev 0x014)
  | 0x14 => some (At.dev 0x018)
  | 0x18 => some (At.sec 0x000)
  | 0x1C => some (At.sec 0x004)
  | 0x20 => some (At.dev 0x01C)
  | 0x24 => some (At.dev 0x020)
  | 0x28 => some (At.pwr 0x014)
  | 0x2C => some (At.pwr 0x010)
  | 0x30 => some (At.pwr 0x00C)
  | 0x40 => some (At.ledger 0x010)
  | 0x44 => some (At.sec 0x008)
  | _ => none

/-- A byte of the sideband map (R534). -/
def Dev.sidebandByte (f : Fuses) (d : Dev) (p : Nat) : W8 :=
  if f.state = lcScrapped ∧ 0x20 ≤ p then 0
  else if p < 0x10 then (toLE 16 f.uid.toNat).getD p 0
  else if 0x34 ≤ p ∧ p < 0x40 then (if p - 0x34 < f.variant.sectors then (d.hub (p - 0x34)).temp else 0)
  else
    match sidebandReg (p / 4 * 4) with
    | none => 0
    | some l => (toLE 4 (d.shown f l).toNat).getD (p % 4) 0

/-- I3C_PRIVATE_READ (R534): bytes from the pointer onward, which advances by one for each. -/
def execI3cPrivateRead (count : Nat) (s : State) : Host.Outcome State Fault Refusal :=
  s.onDev fun d =>
    if d.sideband && d.pins.i3cAddr.isSome then
      let p := d.pins.i3cPtr
      let d := d.send (.i3c ((List.range count).map (fun i => d.sidebandByte s.fuse ((p.toNat + i) % 256))))
      { d with pins := { d.pins with i3cPtr := p + BitVec.ofNat 8 count } }
    else d

end Sys2Proof.Machine
end

