-- ==== Sys2Proof/Machine/Spdm.lean ====
section
/-!
DEFINITION. Sys2Proof/Machine/Spdm.lean: attestation (R497 to R501): the SPDM 1.2 responder. A response is its code and the bytes that
follow the code; codes and layouts are those of DMTF SPDM 1.2.
-/

namespace Sys2Proof.Machine

open Sys2Proof

/-! ## Identity (R493, R497, R498) -/

/-- Bytes of a digest, lowest first. -/
def digestBytes (x : BitVec 512) : List W8 := toLE 64 x.toNat

/-- The hash of the owner slot in use, or zeros (R498, R501). -/
def Dev.ownerHash (f : Fuses) (d : Dev) : BitVec 512 :=
  match d.sec.ownerSlot with
  | none => 0
  | some k => (f.owner[k.val]).hash.getD 0

/-- What the alias key and its certificate are bound to (R498): the firmware measurement, the life-cycle state and the owner. -/
def Dev.identity (f : Fuses) (d : Dev) : List W8 :=
  digestBytes (firmwareMeasure (d.sec.bank d.sec.running)) ++ [BitVec.ofNat 8 (lcCode f.state)] ++ digestBytes (d.ownerHash f)

/-- The chain of slot 0 (R497 to R499): root, intermediate and device certificates as stored, and the alias certificate, which carries
the identity and is signed by the identity key. -/
def Dev.chain (f : Fuses) (d : Dev) : List W8 :=
  Config.certificate 0 ++ d.identity f ++ Config.signs (toLE 16 f.uid.toNat) (d.identity f)

/-! ## Measurements (R500, R501) -/

/-- A measurement block: its index, the DMTF value type (bit 7 for a raw bit stream) and the value. -/
def Dev.measurement (f : Fuses) (d : Dev) (i : Nat) : W8 × List W8 :=
  let s := d.sec
  match i with
  | 1 => (0x00, digestBytes (Config.sha512 (Config.bootRom f.stepping)))
  | 2 => (0x01, digestBytes (firmwareMeasure (s.bank s.running)))
  | 3 => (0x81, [BitVec.ofNat 8 s.svnRun, BitVec.ofNat 8 f.counter, if s.running then 1 else 0, if f.ownerSigReq then 1 else 0])
  | 4 => (0x82, [BitVec.ofNat 8 (lcCode f.state)])
  | 5 => (0x82, toLE 4 (d.shown f (At.dev 0x014)).toNat ++ toLE 4 (d.shown f (At.dev 0x018)).toNat)
  | 6 => (0x03, digestBytes d.retain.bootDigest)
  | 7 => (0x03, digestBytes d.retain.lastDigest)
  | 8 => (0x03, digestBytes (d.ownerHash f))
  | _ => (0x83, [s.debugLevel.setWidth 8])

/-- A block as it stands in a response. -/
def Dev.measurementBlock (f : Fuses) (d : Dev) (i : Nat) : List W8 :=
  let m := d.measurement f i
  [BitVec.ofNat 8 i, 1] ++ toLE 2 (m.2.length + 3) ++ [m.1] ++ toLE 2 m.2.length ++ m.2

/-! ## Responses (R499) -/

def spdmVersion : W8 := 0x04
def spdmCapabilities : W8 := 0x61
def spdmAlgorithms : W8 := 0x63
def spdmDigests : W8 := 0x01
def spdmCertificate : W8 := 0x02
def spdmChallengeAuth : W8 := 0x03
def spdmMeasurements : W8 := 0x60
def spdmError : W8 := 0x7F

def errInvalidRequest : W8 := 0x01
def errBusy : W8 := 0x03
def errUnsupported : W8 := 0x07

/-- An SPDM response: READ_RESP with a message of version 1.2 (VERSION alone is of version 1.0), its code and what follows (R531). -/
def Dev.spdmSay (v : Variant) (d : Dev) (a : Asker) (code : W8) (body : List W8) : Dev :=
  d.mgmtReply v a 0 ((if code = spdmVersion then 0x10 else 0x12) :: code :: body)

/-- ERROR with its code and data. -/
def Dev.spdmFail (v : Variant) (d : Dev) (a : Asker) (code data : W8) : Dev := d.spdmSay v a spdmError [code, data]

/-- An SPDM request under the state of the device (R499, R500, R532): FENCED during a reset; a measurement request in a device warm
reset is answered ERROR Busy. -/
def Dev.spdmGate (v : Variant) (measure : Bool) (op : Asker → Dev → Dev) (a : Asker) (d : Dev) : Dev :=
  if measure && d.dev.inWarm && !d.dev.inReset then d.spdmFail v a errBusy 0
  else if d.mgmtFenced then d.mgmtReply v a sFenced []
  else op a d

/-- An SPDM request of a code (R499). Of one that goes on to another device, the bytes after version and code, which the command does
not carry, are free (log 46). -/
def Dev.onSpdm (f : Fuses) (d : Dev) (q : MgmtReq) (code : W8) (op : Asker → Dev → Dev) : Dev :=
  let b := if q.port.val ≠ 16 ∧ q.hdr.dst ≠ d.deviceId then d.drawBytes (q.hdr.length.toNat - 18) else ([], d)
  b.2.onRequest f q 0x09 (mgmtBytes 3 0 0 (0x12 :: code :: b.1)) (Dev.spdmGate f.variant (decide (code = 0xE0)) op)

/-- GET_VERSION (R499): version 1.2 alone. -/
def execGetVersion (q : MgmtReq) (s : State) : Host.Outcome State Fault Refusal :=
  s.onDev fun d => d.onSpdm s.fuse q 0x84 fun a d => d.spdmSay s.fuse.variant a spdmVersion [0, 0, 0, 1, 0x00, 0x12]

/-- GET_CAPABILITIES (R499): certificates, challenge, and signed fresh measurements. The timeout exponent and the two sizes are free
(log 1). -/
def execGetCapabilities (q : MgmtReq) (s : State) : Host.Outcome State Fault Refusal :=
  s.onDev fun d => d.onSpdm s.fuse q 0xE1 fun a d =>
    let b := d.drawBytes 9
    b.2.spdmSay s.fuse.variant a spdmCapabilities ([0, 0, 0] ++ b.1.take 1 ++ [0, 0] ++ toLE 4 0x36 ++ b.1.drop 1)

/-- NEGOTIATE_ALGORITHMS (R499): ECDSA P-521 and SHA-512 where the requester offers both. -/
def execNegotiateAlgorithms (q : MgmtReq) (asym : W32) (hash : W32) (s : State) : Host.Outcome State Fault Refusal :=
  s.onDev fun d => d.onSpdm s.fuse q 0xE3 fun a d =>
    if asym.getLsbD 8 && hash.getLsbD 2 then
      d.spdmSay s.fuse.variant a spdmAlgorithms ([0, 0] ++ toLE 2 36 ++ [1, 0] ++ toLE 4 8 ++ toLE 4 0x100 ++ toLE 4 4 ++ List.replicate 16 0)
    else d.spdmFail s.fuse.variant a errInvalidRequest 0

/-- GET_DIGESTS (R499): the digest of slot 0's chain. -/
def execGetDigests (q : MgmtReq) (s : State) : Host.Outcome State Fault Refusal :=
  s.onDev fun d => d.onSpdm s.fuse q 0x81 fun a d =>
    d.spdmSay s.fuse.variant a spdmDigests ([0, 1] ++ digestBytes (Config.sha512 (d.chain s.fuse)))

/-- The longest portion that one response carries: 4,096 bytes of payload (R402) less its own 8 (log 46). -/
def certificateMost : Nat := 4088

/-- GET_CERTIFICATE (R499): a portion of slot 0's chain; no other slot is held. -/
def execGetCertificate (q : MgmtReq) (slot : W8) (offset : W16) (length : W16) (s : State) : Host.Outcome State Fault Refusal :=
  s.onDev fun d => d.onSpdm s.fuse q 0x82 fun a d =>
    let c := d.chain s.fuse
    if slot ≠ 0 ∨ c.length ≤ offset.toNat then d.spdmFail s.fuse.variant a errInvalidRequest 0
    else
      let part := (c.drop offset.toNat).take (min length.toNat certificateMost)
      d.spdmSay s.fuse.variant a spdmCertificate ([0, 0] ++ toLE 2 part.length ++ toLE 2 (c.length - offset.toNat - part.length) ++ part)

/-- A response signed by the alias key, over the requester's nonce and the response (R498, R499). -/
def Dev.sendSigned (f : Fuses) (d : Dev) (a : Asker) (code : W8) (nonce : BitVec 256) (body : List W8) : Dev :=
  let n := d.drawBytes 32
  let body := body ++ n.1 ++ [0, 0]
  n.2.spdmSay f.variant a code (body ++ Config.signs (n.2.identity f) (toLE 32 nonce.toNat ++ code :: body))

/-- CHALLENGE (R499). -/
def execChallenge (q : MgmtReq) (slot : W8) (nonce : BitVec 256) (s : State) : Host.Outcome State Fault Refusal :=
  s.onDev fun d => d.onSpdm s.fuse q 0x83 fun a d =>
    if slot ≠ 0 then d.spdmFail s.fuse.variant a errInvalidRequest 0
    else d.sendSigned s.fuse a spdmChallengeAuth nonce ([0, 1] ++ digestBytes (Config.sha512 (d.chain s.fuse)))

/-- GET_MEASUREMENTS (R500, R501): index 0 asks how many there are, 0xFF for all of them. -/
def execGetMeasurements (q : MgmtReq) (index : W8) (nonce : BitVec 256) (s : State) : Host.Outcome State Fault Refusal :=
  s.onDev fun d => d.onSpdm s.fuse q 0xE0 fun a d =>
    let is := if index = 0 then [] else if index = 0xFF then (List.range 9).map (· + 1) else [index.toNat]
    if 9 < index.toNat ∧ index ≠ 0xFF then d.spdmFail s.fuse.variant a errInvalidRequest 0
    else
      let rec_ := is.flatMap (fun i => d.measurementBlock s.fuse i)
      d.sendSigned s.fuse a spdmMeasurements nonce
        ([if index = 0 then 9 else 0, 0, BitVec.ofNat 8 is.length] ++ toLE 3 rec_.length ++ rec_)

/-- Any other request (R499): ERROR UnsupportedRequest, which names its code. -/
def execSpdmUnsupportedRequest (q : MgmtReq) (code : W8) (s : State) : Host.Outcome State Fault Refusal :=
  s.onDev fun d => d.onSpdm s.fuse q code fun a d => d.spdmFail s.fuse.variant a errUnsupported code

end Sys2Proof.Machine
end

