-- ==== Sys2Proof/Machine/Ledger.lean ====
section
/-!
DEFINITION. Sys2Proof/Machine/Ledger.lean: the unit state ledger against the units: acknowledgements, the sweep, mismatches and their
reconciliation (R538, R539).
-/

namespace Sys2Proof.Machine

open Sys2Proof

/-- LEDGER_ACK (R538): the unit has set its UNIT_STATE latch and acts in the new state. -/
def Dev.acknowledgeUnit (v : Variant) (d : Dev) (u : BitVec 16) : Dev :=
  let e := d.entry v u
  if e.pending then d.setEntry v u { e with latch := e.state, pending := false } else d

/-- LEDGER_ACK (R538). -/
def execLedgerAck (unit : BitVec 16) (s : State) : Host.Outcome State Fault Refusal :=
  s.onDev fun d => d.acknowledgeUnit s.fuse.variant unit

/-- How a mismatch of a unit is reconciled (R539): 0 partition recovery, 1 port retrain, 2 takeover, 3 standby reset, 4 device warm
reset. -/
def Dev.actionFor (d : Dev) (u : BitVec 16) : Nat :=
  match unitPart u with
  | some _ => 0
  | none =>
    match unitKind u with
    | 0x11 => 1
    | 0x12 => 1
    | 0x13 => 1
    | 0x14 => if unitIndex u = d.activeCore then 2 else 3
    | _ => 4

/-- The port that a port, lane or host-port unit stands for; a spare lane stands for the port whose lane it replaces, if any. -/
def Dev.portOfUnit (d : Dev) (u : BitVec 16) : Option Nat :=
  let i := unitIndex u
  let ofLane := fun (die lane : Nat) => if lane < 32 then 8 * die + lane / 4 else 16
  match unitKind u with
  | 0x11 => some i
  | 0x13 => some 16
  | 0x12 =>
    let die := i / 64
    let lane := i % 64
    if lane < 40 then some (ofLane die lane)
    else if d.bit (At.link die 0x100) (8 * (lane - 40) + 7) then some (ofLane die (d.fld (At.link die 0x100) (8 * (lane - 40)) 6))
    else none
  | _ => none

/-- A mismatch is recorded (R539, R540, R551); after the reconciliation the unit's latch equals the ledger. -/
def Dev.noteMismatch (v : Variant) (d : Dev) (u : BitVec 16) (seen : BitVec 4) : Dev :=
  let e := d.entry v u
  let act := d.actionFor u
  let d := d.raise 0x13 { partition := (unitPart u).getD 0xFF, unit := u.toNat,
                          arg := [e.state.setWidth 8, seen.setWidth 8, BitVec.ofNat 8 act] }
  let d := d.setReg (At.ledger 0x014) (e.state ++ seen ++ 0#8 ++ u)
  let d := { d with ledgerMismatches := if d.ledgerMismatches = 0xFF then 0xFF else d.ledgerMismatches + 1 }
  d.setEntry v u { e with latch := e.state, pending := false }

/-- The reconciliation of mismatches found together (R539): those of the same recovery share one. -/
def Dev.reconcile (v : Variant) (d : Dev) (us : List (BitVec 16)) : Dev :=
  let of := fun (k : Nat) => us.filter (fun u => decide (d.actionFor u = k))
  let ports := ((of 1).filterMap d.portOfUnit).dedup
  let parts := (of 0).foldl (fun (m : BitVec 12) u => match unitPart u with
    | none => m
    | some n => m ||| partBit n) 0
  let swap := !(of 2).isEmpty
  let rest := !(of 3).isEmpty
  let trigger := (of 0).headD 0
  let whole := of 4
  let d := ports.foldl (fun d p => d.retrain v p) d
  let d := if swap then d.takeover v else d
  let d := if rest then d.resetStandby else d
  let d := if parts = 0 then d else d.recover v parts 0x03 trigger false
  match whole with
  | [] => d
  | u :: _ => d.warmReset v 0x03 u false

/-- Whether the ledger checks a unit now: present, not the custody die itself, and in no partition that is recovering. -/
def Dev.checksUnit (v : Variant) (d : Dev) (u : BitVec 16) : Bool :=
  decide ((d.entry v u).state ≠ stAbsent) && decide (unitKind u ≠ 0x17) &&
    !((unitPart u).map (fun n => (d.gander.recovery n).isSome)).getD false

/-- LEDGER_SWEEP (R539): the UNIT_STATE of each unit as read. -/
def execLedgerSweep (reads : List (BitVec 16 × BitVec 4)) (s : State) : Host.Outcome State Fault Refusal :=
  s.onDev fun d =>
    let v := s.fuse.variant
    let bad := reads.filter (fun r => d.checksUnit v r.1 && !(d.entry v r.1).pending && decide ((d.entry v r.1).state ≠ r.2))
    let d := reads.foldl (fun d r => if (d.entry v r.1).state = stAbsent then d else d.setEntry v r.1 { d.entry v r.1 with seen := r.2 }) d
    let d := bad.foldl (fun d r => d.noteMismatch v r.1 r.2) d
    d.reconcile v (bad.map (·.1))

/-- LEDGER_ACK_TIMEOUT (R539): a transition that no unit has acknowledged is a mismatch. -/
def execLedgerAckTimeout (unit : BitVec 16) (s : State) : Host.Outcome State Fault Refusal :=
  s.onDev fun d =>
    let v := s.fuse.variant
    let e := d.entry v unit
    if e.pending && d.checksUnit v unit then (d.noteMismatch v unit e.latch).reconcile v [unit] else d

end Sys2Proof.Machine
end

