-- ==== Sys2Proof/Machine/Flits.lean ====
section
/-!
DEFINITION. Sys2Proof/Machine/Flits.lean: direct mode between devices (R410 to R414): flits as they arrive, the packets they carry, and
the link's own retries.
-/

namespace Sys2Proof.Machine

open Sys2Proof

/-! ## Control fields (R411, R412, R414) -/

/-- The flits that an ACK leaves unacknowledged; one that names no flit in the buffer changes nothing. -/
def Port.ackedBy (x : Port) (ack : BitVec 12) : Port :=
  match x.replayBuf.findIdx? (fun f => f.seq == ack) with
  | none => x
  | some i => { x with replayBuf := x.replayBuf.drop (i + 1), replays := 0 }

/-- Credits returned for a virtual channel. -/
def Port.credited (x : Port) (vc : BitVec 2) (n : Nat) : Port := { x with spent := Tab.alter 0 x.spent vc.toNat (· - n) }

/-- Every unacknowledged flit goes out again; after 8 replays the port retrains (R414). -/
def Dev.replayFlits (v : Variant) (d : Dev) (p : Nat) : Dev :=
  let x := d.port p
  if x.replayBuf.isEmpty then d
  else if 8 ≤ x.replays then d.retrain v p
  else
    let d := (d.onPort p fun x => { x with replays := x.replays + 1 }).count (At.port p 8) 16 16 x.replayBuf.length
    x.replayBuf.foldl (fun (d : Dev) f => d.send (.flit p false f)) d

/-- ACK, NAK and CREDITS of a flit; what they let go is sent. -/
def Dev.flitControl (v : Variant) (d : Dev) (p : Nat) (f : Flit) : Dev :=
  let d := if f.ackValid then d.onPort p (·.ackedBy f.ack) else d
  let d := if 0 < f.credits.toNat then d.onPort p (·.credited f.crvc f.credits.toNat) else d
  let d := if f.nak then d.replayFlits v p else d
  Dev.sendFlits p (d.port p).queuedFlits d

/-- An IDLE flit with the last SEQ received in order, and credits of a virtual channel. -/
def Dev.sendIdle (d : Dev) (p : Nat) (nak : Bool) (vc : BitVec 2) (credits : Nat) : Dev :=
  let x := d.port p
  (d.onPort p fun x => { x with rxUnacked := 0 }).send (.flit p true (flitSealed true
    { seq := 0, ack := x.rxSeq - 1, ackValid := true, nak := nak, vc := 0, sop := false, eop := false, used := 0, crvc := vc,
      credits := BitVec.ofNat 6 credits, payload := [], crc := 0 }))

/-! ## Packets (R402, R403, R528, R531) -/

/-- What a command does, as another command takes it over. -/
def Dev.via (f : Fuses) (d : Dev) (m : State → Host.Outcome State Fault Refusal) : Dev :=
  match m { fuse := f, dev := d } with
  | .next s => s.dev
  | _ => d

/-- The header of a packet (R402). -/
def headerOf (b : List W8) : NimHdr :=
  let n := fun (o k : Nat) => recNat b o k
  { epoch := BitVec.ofNat 4 (n 0 1), retx := (n 2 1).testBit 0, host := (n 2 1).testBit 1, hops := BitVec.ofNat 8 (n 3 1),
    src := BitVec.ofNat 16 (n 4 2), dst := BitVec.ofNat 16 (n 6 2), stream := BitVec.ofNat 16 (n 8 2), vc := BitVec.ofNat 2 (n 0x0A 1),
    ctx := BitVec.ofNat 8 (n 0x0B 1), psn := BitVec.ofNat 32 (n 0x0C 4), ackPsn := BitVec.ofNat 32 (n 0x10 4),
    length := BitVec.ofNat 16 (n 0x14 2), status := BitVec.ofNat 8 (n 0x16 1), queue := BitVec.ofNat 8 (n 0x17 1),
    addr := BitVec.ofNat 64 (n 0x18 8), aux := BitVec.ofNat 64 (n 0x20 8), ce := none }

/-- A token's fields from its bytes (R488). -/
def tokenOf (b : List W8) : Token :=
  let n := fun (o k : Nat) => recNat b o k
  { magic := BitVec.ofNat 32 (n 0 4), kind := BitVec.ofNat 8 (n 4 1), level := BitVec.ofNat 8 (n 5 1), slot := BitVec.ofNat 8 (n 6 1),
    rsv007 := BitVec.ofNat 8 (n 7 1), uid := BitVec.ofNat 128 (n 8 16), nonce := BitVec.ofNat 256 (n 0x18 32),
    validTicks := BitVec.ofNat 32 (n 0x38 4), rsv03c := BitVec.ofNat 32 (n 0x3C 4), keyHash := BitVec.ofNat 512 (n 0x40 64),
    newSlot := BitVec.ofNat 8 (n 0x80 1), revoke := BitVec.ofNat 8 (n 0x81 1), policy := BitVec.ofNat 8 (n 0x82 1),
    rsv083 := BitVec.ofNat 104 (n 0x83 13), signerPub := BitVec.ofNat 1088 (n 0x90 136), signature := BitVec.ofNat 1056 (n 0x118 132) }

/-- An SPDM request message (R499): version, code, two parameters and what follows. -/
def spdmMeaning (k : MgmtReq) (b : List W8) (s : State) : Host.Outcome State Fault Refusal :=
  let n := fun (o w : Nat) => recNat b o w
  match n 1 1 with
  | 0x84 => execGetVersion k s
  | 0xE1 => execGetCapabilities k s
  | 0xE3 => execNegotiateAlgorithms k (BitVec.ofNat 32 (n 8 4)) (BitVec.ofNat 32 (n 12 4)) s
  | 0x81 => execGetDigests k s
  | 0x82 => execGetCertificate k (BitVec.ofNat 8 (n 2 1)) (BitVec.ofNat 16 (n 4 2)) (BitVec.ofNat 16 (n 6 2)) s
  | 0x83 => execChallenge k (BitVec.ofNat 8 (n 2 1)) (BitVec.ofNat 256 (n 4 32)) s
  | 0xE0 => execGetMeasurements k (BitVec.ofNat 8 (n 3 1)) (BitVec.ofNat 256 (n 4 32)) s
  | c => execSpdmUnsupportedRequest k (BitVec.ofNat 8 c) s

/-- A MGMT request: its 16-byte sub-header and what follows (R531); an unlisted SUBOP is answered INTERNAL, a token of another length
TRANSLATION. -/
def mgmtMeaning (q : MgmtReq) (b : List W8) (s : State) : Host.Outcome State Fault Refusal :=
  let arg0 : W32 := BitVec.ofNat 32 (recNat b 4 4)
  let arg1 : W64 := BitVec.ofNat 64 (recNat b 8 8)
  let rest := b.drop 16
  match recNat b 0 1 with
  | 1 => if rest.length = 412 then s.onDev fun d => d.tokenIn s.fuse q (tokenOf rest)
    else s.onDev fun d => d.onMgmt s.fuse q b true fun d => (sTranslation, [], d)
  | 2 => execImageWrite q.toVia q.hdr arg0 rest s
  | 3 => spdmMeaning q rest s
  | 4 => execMemRead q.toVia q.hdr arg0 arg1 s
  | 5 => execMemWrite q.toVia q.hdr rest s
  | 6 => execLedgerRead q arg0 arg1 s
  | 7 => execDumpRead q.toVia q.hdr arg0 arg1 s
  | 8 => execEventLog q arg1 s
  | _ => s.onDev fun d => d.onMgmt s.fuse q b true fun d => (sInternal, [], d)

/-- A CSR request (R403, R530). -/
def csrMeaning (q : MgmtReq) (b : List W8) (s : State) : Host.Outcome State Fault Refusal :=
  if (recNat b 0 1).testBit 0 then
    execCsrWriteRequest q.toVia q.hdr (BitVec.ofNat 31 (recNat b 0 4 / 2)) (BitVec.ofNat 32 (recNat b 4 4)) s
  else execCsrReadRequest q.toVia q.hdr (BitVec.ofNat 63 (recNat b 0 8 / 2)) s

/-- A CSR or MGMT request that flits have brought: as its command, or on to another device with its bytes as they are (R420). -/
def Dev.mgmtPacket (f : Fuses) (d : Dev) (p : Fin 17) (op : W8) (h : NimHdr) (data : List W8) : Dev :=
  if h.dst ≠ d.deviceId then d.withStream f.variant p.val op h data fun _ d => d
  else d.via f (if op = 0x08 then csrMeaning ⟨⟨p, false⟩, h⟩ data else mgmtMeaning ⟨⟨p, false⟩, h⟩ data)

/-- A packet that flits have brought: it has the meaning of the command for its operation (R403). -/
def Dev.packetIn (f : Fuses) (d : Dev) (p : Fin 17) (b : List W8) : Dev :=
  let h := headerOf b
  let data := (b.drop 40).take h.length.toNat
  let w := fun (o : Nat) => BitVec.ofNat 64 (recNat data o 8)
  if b.length < 40 + h.length.toNat ∨ recNat b 0 1 / 16 ≠ 1 then d
  else
    match recNat b 1 1 with
    | 0x01 => d.via f (execWrite p h data)
    | 0x02 => d.via f (execReadReq p h)
    | 0x03 => d.via f (execAtomic p h (data.getD 0 0) (decide (data.getD 1 0 ≠ 0)) (w 8) (w 16))
    | 0x04 => d.via f (execRedWrite p h data)
    | 0x05 => d.via f (execPush p h data)
    | 0x08 => d.mgmtPacket f p 0x08 h data
    | 0x09 => d.mgmtPacket f p 0x09 h data
    | 0x10 => d.via f (execNimserAck p h)
    | 0x11 => d.via f (execNimserNak p h)
    | 0x12 => d.via f (execReadResp p h data)
    | 0x13 => d.via f (execAtomicResp p h (w 0))
    | 0x14 => d.via f (execErrorResp p h)
    | 0x17 => d.via f (execResync p h)
    | _ => d

/-! ## Flits (R411 to R414) -/

/-- The bytes a DATA flit carries: 244, or USED of them in an EOP flit. -/
def Flit.bytesOf (f : Flit) : List W8 := if f.eop then f.payload.take f.used.toNat else f.payload.take flitPayload

/-- A DATA flit in its place: acknowledged within 256; the flit that ends a packet hands it over and returns its credits. -/
def Dev.acceptFlit (fu : Fuses) (d : Dev) (p : Fin 16) (f : Flit) : Dev :=
  let c := f.vc.toNat
  let d := d.onPort p.val fun x => { x with rxSeq := x.rxSeq + 1, rxNak := false, rxUnacked := x.rxUnacked + 1 }
  let was := Tab.look ([], 0) (d.port p.val).assembling c
  let part := if f.sop then (Flit.bytesOf f, was.2 + 1) else (was.1 ++ Flit.bytesOf f, was.2 + 1)
  let d := d.onPort p.val fun x => { x with assembling := Tab.put ([], 0) x.assembling c (if f.eop then ([], 0) else part) }
  let d := if f.eop then (d.sendIdle p.val false f.vc part.2).packetIn fu ⟨p.val, by omega⟩ part.1 else d
  let d := if 256 ≤ (d.port p.val).rxUnacked then d.sendIdle p.val false 0 0 else d
  d.flitControl fu.variant p.val f

/-- FLIT_DATA (R411, R412, R414): a flit whose CRC fails or whose SEQ is not the one expected is discarded, with one NAK. -/
def execFlitData (p : Fin 16) (f : Flit) (s : State) : Host.Outcome State Fault Refusal :=
  s.onDev fun d =>
    let x := d.port p.val
    if !x.up || decide (x.mode ≠ 1) then d
    else if flitGood false f && decide (f.seq = x.rxSeq) then d.acceptFlit s.fuse p f
    else
      let d := if flitGood false f then d else d.count (At.port p.val 8) 0 16 1
      if x.rxNak then d else (d.onPort p.val fun y => { y with rxNak := true }).sendIdle p.val true 0 0

/-- FLIT_IDLE (R411): acknowledgements and credits; a corrupt one is dropped. -/
def execFlitIdle (p : Fin 16) (f : Flit) (s : State) : Host.Outcome State Fault Refusal :=
  s.onDev fun d =>
    let x := d.port p.val
    if !x.up || decide (x.mode ≠ 1) then d
    else if flitGood true f then d.flitControl s.fuse.variant p.val f
    else d.count (At.port p.val 8) 0 16 1

/-- FLIT_REPLAY_TIMEOUT (R414): no ACK for 2 µs. -/
def execFlitReplayTimeout (p : Fin 16) (s : State) : Host.Outcome State Fault Refusal :=
  s.onDev fun d => if (d.port p.val).up && decide ((d.port p.val).mode = 1) then d.replayFlits s.fuse.variant p.val else d

/-- FLIT_ACK_TIMER (R414): flits received wait for an acknowledgement. -/
def execFlitAckTimer (p : Fin 16) (s : State) : Host.Outcome State Fault Refusal :=
  s.onDev fun d =>
    let x := d.port p.val
    if x.up && decide (x.mode = 1) && decide (0 < x.rxUnacked) then d.sendIdle p.val false 0 0 else d

end Sys2Proof.Machine
end

