-- ==== Sys2Proof/Machine/Dispatch.lean ====
section
/-!
DEFINITION. Sys2Proof/Machine/Dispatch.lean: every command to its meaning.
-/

namespace Sys2Proof.Machine

open Sys2Proof

def exec (i : Instr) (s : State) : Host.Outcome State Fault Refusal :=
  match i with
  | .tickEdge tel now => Sys2Proof.Machine.execTickEdge tel now s
  | .guardStart tel samples => Sys2Proof.Machine.execGuardStart tel samples s
  | .plan => Sys2Proof.Machine.execPlan s
  | .cancel => Sys2Proof.Machine.execCancel s
  | .batch => Sys2Proof.Machine.execBatch s
  | .step => Sys2Proof.Machine.execStep s
  | .reservedWorkListType => Sys2Proof.Machine.execReservedWorkListType s
  | .announceLead now => Sys2Proof.Machine.execAnnounceLead now s
  | .marker port m arrival => Sys2Proof.Machine.execMarker port m arrival s
  | .announce port m => Sys2Proof.Machine.execAnnounce port m s
  | .stretchReq port m => Sys2Proof.Machine.execStretchReq port m s
  | .period port m => Sys2Proof.Machine.execPeriod port m s
  | .tickNextAtHiWrite r v => Sys2Proof.Machine.execTickNextAtHiWrite r v s
  | .tickRunSet now => Sys2Proof.Machine.execTickRunSet now s
  | .ppsInRise now => Sys2Proof.Machine.execPpsInRise now s
  | .maintenanceReserveEnd => Sys2Proof.Machine.execMaintenanceReserveEnd s
  | .seqEdgeDutyTimeout => Sys2Proof.Machine.execSeqEdgeDutyTimeout s
  | .failedCoreSelftestDone pass => Sys2Proof.Machine.execFailedCoreSelftestDone pass s
  | .add t a => Sys2Proof.Machine.execAdd t a s
  | .sub t a => Sys2Proof.Machine.execSub t a s
  | .and t a => Sys2Proof.Machine.execAnd t a s
  | .or t a => Sys2Proof.Machine.execOr t a s
  | .xor t a => Sys2Proof.Machine.execXor t a s
  | .sll t a => Sys2Proof.Machine.execSll t a s
  | .srl t a => Sys2Proof.Machine.execSrl t a s
  | .sra t a => Sys2Proof.Machine.execSra t a s
  | .mul t a => Sys2Proof.Machine.execMul t a s
  | .mulh t a => Sys2Proof.Machine.execMulh t a s
  | .mulhu t a => Sys2Proof.Machine.execMulhu t a s
  | .div t a => Sys2Proof.Machine.execDiv t a s
  | .divu t a => Sys2Proof.Machine.execDivu t a s
  | .rem t a => Sys2Proof.Machine.execRem t a s
  | .remu t a => Sys2Proof.Machine.execRemu t a s
  | .min t a => Sys2Proof.Machine.execMin t a s
  | .max t a => Sys2Proof.Machine.execMax t a s
  | .minu t a => Sys2Proof.Machine.execMinu t a s
  | .maxu t a => Sys2Proof.Machine.execMaxu t a s
  | .cmpeq t a => Sys2Proof.Machine.execCmpeq t a s
  | .cmplt t a => Sys2Proof.Machine.execCmplt t a s
  | .cmpltu t a => Sys2Proof.Machine.execCmpltu t a s
  | .ldb t a => Sys2Proof.Machine.execLdb t a s
  | .ldh t a => Sys2Proof.Machine.execLdh t a s
  | .ldw t a => Sys2Proof.Machine.execLdw t a s
  | .ldd t a => Sys2Proof.Machine.execLdd t a s
  | .ldbu t a => Sys2Proof.Machine.execLdbu t a s
  | .ldhu t a => Sys2Proof.Machine.execLdhu t a s
  | .ldwu t a => Sys2Proof.Machine.execLdwu t a s
  | .stb t a => Sys2Proof.Machine.execStb t a s
  | .sth t a => Sys2Proof.Machine.execSth t a s
  | .stw t a => Sys2Proof.Machine.execStw t a s
  | .std t a => Sys2Proof.Machine.execStd t a s
  | .dld t a => Sys2Proof.Machine.execDld t a s
  | .dst t a => Sys2Proof.Machine.execDst t a s
  | .csrr t a => Sys2Proof.Machine.execCsrr t a s
  | .csrw t a => Sys2Proof.Machine.execCsrw t a s
  | .fenceM t rsv => Sys2Proof.Machine.execFenceM t rsv s
  | .amoAdd t a => Sys2Proof.Machine.execAmoAdd t a s
  | .amoFadd t a => Sys2Proof.Machine.execAmoFadd t a s
  | .amoMin t a => Sys2Proof.Machine.execAmoMin t a s
  | .amoMax t a => Sys2Proof.Machine.execAmoMax t a s
  | .amoAnd t a => Sys2Proof.Machine.execAmoAnd t a s
  | .amoOr t a => Sys2Proof.Machine.execAmoOr t a s
  | .amoXor t a => Sys2Proof.Machine.execAmoXor t a s
  | .amoSwap t a => Sys2Proof.Machine.execAmoSwap t a s
  | .amoCas t a => Sys2Proof.Machine.execAmoCas t a s
  | .scalarMemComplete t => Sys2Proof.Machine.execScalarMemComplete t s
  | .jal t off rd => Sys2Proof.Machine.execJal t off rd s
  | .jalr t imm rsv rs1 rd => Sys2Proof.Machine.execJalr t imm rsv rs1 rd s
  | .br t off rsv n p => Sys2Proof.Machine.execBr t off rsv n p s
  | .brs t off cond sreg_ => Sys2Proof.Machine.execBrs t off cond sreg_ s
  | .lsh t imm rd => Sys2Proof.Machine.execLsh t imm rd s
  | .pset t rsvHi tt pb pa rsvLo pd => Sys2Proof.Machine.execPset t rsvHi tt pb pa rsvLo pd s
  | .smov t rsv sreg_ rd => Sys2Proof.Machine.execSmov t rsv sreg_ rd s
  | .tstat t rsv tok rd => Sys2Proof.Machine.execTstat t rsv tok rd s
  | .twait t mask rsv group => Sys2Proof.Machine.execTwait t mask rsv group s
  | .tclr t mask rsv group => Sys2Proof.Machine.execTclr t mask rsv group s
  | .dbase t rsv a rs1 rd => Sys2Proof.Machine.execDbase t rsv a rs1 rd s
  | .eret t rsv => Sys2Proof.Machine.execEret t rsv s
  | .brk t code => Sys2Proof.Machine.execBrk t code s
  | .engineHeadBegin t e => Sys2Proof.Machine.execEngineHeadBegin t e s
  | .tensorComplete t e r => Sys2Proof.Machine.execTensorComplete t e r s
  | .mload t a => Sys2Proof.Machine.execMload t a s
  | .mzero t a => Sys2Proof.Machine.execMzero t a s
  | .mmaE4 t a => Sys2Proof.Machine.execMmaE4 t a s
  | .mmaE5 t a => Sys2Proof.Machine.execMmaE5 t a s
  | .mmaC4 t a => Sys2Proof.Machine.execMmaC4 t a s
  | .mmaBf t a => Sys2Proof.Machine.execMmaBf t a s
  | .mmaHf t a => Sys2Proof.Machine.execMmaHf t a s
  | .mmaF32 t a => Sys2Proof.Machine.execMmaF32 t a s
  | .vadd t a => Sys2Proof.Machine.execVadd t a s
  | .vsub t a => Sys2Proof.Machine.execVsub t a s
  | .vmul t a => Sys2Proof.Machine.execVmul t a s
  | .vfma t a => Sys2Proof.Machine.execVfma t a s
  | .vmax t a => Sys2Proof.Machine.execVmax t a s
  | .vmin t a => Sys2Proof.Machine.execVmin t a s
  | .vabs t a => Sys2Proof.Machine.execVabs t a s
  | .vneg t a => Sys2Proof.Machine.execVneg t a s
  | .vcmp t a => Sys2Proof.Machine.execVcmp t a s
  | .vsel t a => Sys2Proof.Machine.execVsel t a s
  | .vmov t a => Sys2Proof.Machine.execVmov t a s
  | .vand t a => Sys2Proof.Machine.execVand t a s
  | .vor t a => Sys2Proof.Machine.execVor t a s
  | .vxor t a => Sys2Proof.Machine.execVxor t a s
  | .vexp t a => Sys2Proof.Machine.execVexp t a s
  | .vlog t a => Sys2Proof.Machine.execVlog t a s
  | .vrcp t a => Sys2Proof.Machine.execVrcp t a s
  | .vrsq t a => Sys2Proof.Machine.execVrsq t a s
  | .vsin t a => Sys2Proof.Machine.execVsin t a s
  | .vcos t a => Sys2Proof.Machine.execVcos t a s
  | .vcvt t a => Sys2Proof.Machine.execVcvt t a s
  | .vquant t a => Sys2Proof.Machine.execVquant t a s
  | .vimport t a => Sys2Proof.Machine.execVimport t a s
  | .vexport t a => Sys2Proof.Machine.execVexport t a s
  | .vperm t a => Sys2Proof.Machine.execVperm t a s
  | .vgather t a => Sys2Proof.Machine.execVgather t a s
  | .vrsum t a => Sys2Proof.Machine.execVrsum t a s
  | .vrmax t a => Sys2Proof.Machine.execVrmax t a s
  | .vrmin t a => Sys2Proof.Machine.execVrmin t a s
  | .vrssq t a => Sys2Proof.Machine.execVrssq t a s
  | .vramax t a => Sys2Proof.Machine.execVramax t a s
  | .vacc t a => Sys2Proof.Machine.execVacc t a s
  | .drvGo t a => Sys2Proof.Machine.execDrvGo t a s
  | .drvCancel t a => Sys2Proof.Machine.execDrvCancel t a s
  | .drvPut t a => Sys2Proof.Machine.execDrvPut t a s
  | .attn t a => Sys2Proof.Machine.execAttn t a s
  | .merge t a => Sys2Proof.Machine.execMerge t a s
  | .kvappend t a => Sys2Proof.Machine.execKvappend t a s
  | .kvprefix t a => Sys2Proof.Machine.execKvprefix t a s
  | .conv2 t a => Sys2Proof.Machine.execConv2 t a s
  | .conv3 t a => Sys2Proof.Machine.execConv3 t a s
  | .stip t a => Sys2Proof.Machine.execStip t a s
  | .trgPush t a => Sys2Proof.Machine.execTrgPush t a s
  | .trgPop t a => Sys2Proof.Machine.execTrgPop t a s
  | .trgDrop t a => Sys2Proof.Machine.execTrgDrop t a s
  | .trgFlush t a => Sys2Proof.Machine.execTrgFlush t a s
  | .syncTick t a => Sys2Proof.Machine.execSyncTick t a s
  | .sliceEnd t => Sys2Proof.Machine.execSliceEnd t s
  | .layerOpen t a => Sys2Proof.Machine.execLayerOpen t a s
  | .layerClose t a => Sys2Proof.Machine.execLayerClose t a s
  | .syncJoin t a => Sys2Proof.Machine.execSyncJoin t a s
  | .bracketVoteClose k => Sys2Proof.Machine.execBracketVoteClose k s
  | .oxRule t a => Sys2Proof.Machine.execOxRule t a s
  | .oxProg t a => Sys2Proof.Machine.execOxProg t a s
  | .oxCommandEnqueue t => Sys2Proof.Machine.execOxCommandEnqueue t s
  | .oxPass1 n => Sys2Proof.Machine.execOxPass1 n s
  | .oxPass2 n => Sys2Proof.Machine.execOxPass2 n s
  | .oxPass2WindowsReady n => Sys2Proof.Machine.execOxPass2WindowsReady n s
  | .oxPass2WaitTimeout n => Sys2Proof.Machine.execOxPass2WaitTimeout n s
  | .oxPassComplete n => Sys2Proof.Machine.execOxPassComplete n s
  | .scaleFetch t e operand => Sys2Proof.Machine.execScaleFetch t e operand s
  | .scaleNote => Sys2Proof.Machine.execScaleNote s
  | .sliceRead n q => Sys2Proof.Machine.execSliceRead n q s
  | .sliceWrite n q data => Sys2Proof.Machine.execSliceWrite n q data s
  | .sliceAtomic n q op w v c => Sys2Proof.Machine.execSliceAtomic n q op w v c s
  | .cacheFillComplete n line => Sys2Proof.Machine.execCacheFillComplete n line s
  | .quireBurstComplete n line b => Sys2Proof.Machine.execQuireBurstComplete n line b s
  | .scrubRead n line b => Sys2Proof.Machine.execScrubRead n line b s
  | .poisonFillGroup n group => Sys2Proof.Machine.execPoisonFillGroup n group s
  | .stackTempReading n c now => Sys2Proof.Machine.execStackTempReading n c now s
  | .marginStart n => Sys2Proof.Machine.execMarginStart n s
  | .marginSweepDone n margins => Sys2Proof.Machine.execMarginSweepDone n margins s
  | .xlInvalHiWrite r v => Sys2Proof.Machine.execXlInvalHiWrite r v s
  | .xlInvalDone => Sys2Proof.Machine.execXlInvalDone s
  | .redLineWrite n l => Sys2Proof.Machine.execRedLineWrite n l s
  | .windowGraceExpiry n w => Sys2Proof.Machine.execWindowGraceExpiry n w s
  | .windowWaitExpiry n w => Sys2Proof.Machine.execWindowWaitExpiry n w s
  | .streamBegin t => Sys2Proof.Machine.execStreamBegin t s
  | .streamLineResponse n line => Sys2Proof.Machine.execStreamLineResponse n line s
  | .streamComplete n id => Sys2Proof.Machine.execStreamComplete n id s
  | .drvCancelComplete t => Sys2Proof.Machine.execDrvCancelComplete t s
  | .troughAutoSwap n k => Sys2Proof.Machine.execTroughAutoSwap n k s
  | .troughStaleTimeout n k => Sys2Proof.Machine.execTroughStaleTimeout n k s
  | .hostMessageDrain q => Sys2Proof.Machine.execHostMessageDrain q s
  | .hang unit => Sys2Proof.Machine.execHang unit s
  | .fenceEnd n => Sys2Proof.Machine.execFenceEnd n s
  | .sidePathReadTimeout n unit => Sys2Proof.Machine.execSidePathReadTimeout n unit s
  | .snapshotTimeout n => Sys2Proof.Machine.execSnapshotTimeout n s
  | .snapshotComplete n => Sys2Proof.Machine.execSnapshotComplete n s
  | .partitionResetDone n badWays viaChannels => Sys2Proof.Machine.execPartitionResetDone n badWays viaChannels s
  | .resetLevelTimeout l => Sys2Proof.Machine.execResetLevelTimeout l s
  | .controlStateParityError unit => Sys2Proof.Machine.execControlStateParityError unit s
  | .ganderLost => Sys2Proof.Machine.execGanderLost s
  | .custodyWatchdogExpiry => Sys2Proof.Machine.execCustodyWatchdogExpiry s
  | .ownerResetRequest => Sys2Proof.Machine.execOwnerResetRequest s
  | .unitDisableRequest => Sys2Proof.Machine.execUnitDisableRequest s
  | .unitEnableRequest => Sys2Proof.Machine.execUnitEnableRequest s
  | .dumpSlotFree mask => Sys2Proof.Machine.execDumpSlotFree mask s
  | .dumpDataRead r => Sys2Proof.Machine.execDumpDataRead r s
  | .resInject r t => Sys2Proof.Machine.execResInject r t s
  | .clockForecast tel => Sys2Proof.Machine.execClockForecast tel s
  | .timingEmergency n => Sys2Proof.Machine.execTimingEmergency n s
  | .timingEmergencyEnd => Sys2Proof.Machine.execTimingEmergencyEnd s
  | .thermalTrip source index c => Sys2Proof.Machine.execThermalTrip source index c s
  | .thermTripN => Sys2Proof.Machine.execThermTripN s
  | .charStart => Sys2Proof.Machine.execCharStart s
  | .charPhaseEnd fit => Sys2Proof.Machine.execCharPhaseEnd fit s
  | .ageingRefit fits lanes => Sys2Proof.Machine.execAgeingRefit fits lanes s
  | .refclkLost => Sys2Proof.Machine.execRefclkLost s
  | .pwrOkAssert => Sys2Proof.Machine.execPwrOkAssert s
  | .pwrOkFall => Sys2Proof.Machine.execPwrOkFall s
  | .resetNAssert ns => Sys2Proof.Machine.execResetNAssert ns s
  | .resetNRelease b => Sys2Proof.Machine.execResetNRelease b s
  | .settingsWrite => Sys2Proof.Machine.execSettingsWrite s
  | .settingsWriteDone => Sys2Proof.Machine.execSettingsWriteDone s
  | .retainWriteNow => Sys2Proof.Machine.execRetainWriteNow s
  | .retainFactory => Sys2Proof.Machine.execRetainFactory s
  | .portRetrain p => Sys2Proof.Machine.execPortRetrain p s
  | .hostRetrain => Sys2Proof.Machine.execHostRetrain s
  | .linkDown p => Sys2Proof.Machine.execLinkDown p s
  | .portTrainingDone p r => Sys2Proof.Machine.execPortTrainingDone p r s
  | .unsupportedFrame p => Sys2Proof.Machine.execUnsupportedFrame p s
  | .arpRequest ip mac senderIp => Sys2Proof.Machine.execArpRequest ip mac senderIp s
  | .neighborSolicitation ip mac senderIp => Sys2Proof.Machine.execNeighborSolicitation ip mac senderIp s
  | .pfcFrame p priority stop => Sys2Proof.Machine.execPfcFrame p priority stop s
  | .ptpSync p twoStep origin arrival => Sys2Proof.Machine.execPtpSync p twoStep origin arrival s
  | .ptpFollowUp p origin => Sys2Proof.Machine.execPtpFollowUp p origin s
  | .ptpDelayResp p sent received => Sys2Proof.Machine.execPtpDelayResp p sent received s
  | .ptpAnnounce p clock rank => Sys2Proof.Machine.execPtpAnnounce p clock rank s
  | .connOpen ix => Sys2Proof.Machine.execConnOpen ix s
  | .connClose ix => Sys2Proof.Machine.execConnClose ix s
  | .roceSend h data => Sys2Proof.Machine.execRoceSend h data s
  | .roceRdmaWrite h data => Sys2Proof.Machine.execRoceRdmaWrite h data s
  | .roceRdmaRead h => Sys2Proof.Machine.execRoceRdmaRead h s
  | .roceAck h => Sys2Proof.Machine.execRoceAck h s
  | .roceNak h syndrome => Sys2Proof.Machine.execRoceNak h syndrome s
  | .roceReadResponse h data => Sys2Proof.Machine.execRoceReadResponse h data s
  | .cnp ix now => Sys2Proof.Machine.execCnp ix now s
  | .roceRetryTimeout ix => Sys2Proof.Machine.execRoceRetryTimeout ix s
  | .write p h data => Sys2Proof.Machine.execWrite p h data s
  | .readReq p h => Sys2Proof.Machine.execReadReq p h s
  | .atomic p h op w v c => Sys2Proof.Machine.execAtomic p h op w v c s
  | .redWrite p h data => Sys2Proof.Machine.execRedWrite p h data s
  | .push p h data => Sys2Proof.Machine.execPush p h data s
  | .nimserAck p h => Sys2Proof.Machine.execNimserAck p h s
  | .nimserNak p h => Sys2Proof.Machine.execNimserNak p h s
  | .readResp p h data => Sys2Proof.Machine.execReadResp p h data s
  | .atomicResp p h old => Sys2Proof.Machine.execAtomicResp p h old s
  | .errorResp p h => Sys2Proof.Machine.execErrorResp p h s
  | .congestion p h now => Sys2Proof.Machine.execCongestion p h now s
  | .resync p h => Sys2Proof.Machine.execResync p h s
  | .nimserRtoExpiry request => Sys2Proof.Machine.execNimserRtoExpiry request s
  | .nimserAckTimer sreg_ => Sys2Proof.Machine.execNimserAckTimer sreg_ s
  | .rateIncreaseTimer sreg_ => Sys2Proof.Machine.execRateIncreaseTimer sreg_ s
  | .flitData p f => Sys2Proof.Machine.execFlitData p f s
  | .flitIdle p f => Sys2Proof.Machine.execFlitIdle p f s
  | .flitReplayTimeout p => Sys2Proof.Machine.execFlitReplayTimeout p s
  | .flitAckTimer p => Sys2Proof.Machine.execFlitAckTimer p s
  | .routeLoad => Sys2Proof.Machine.execRouteLoad s
  | .routeLoadCopied => Sys2Proof.Machine.execRouteLoadCopied s
  | .csrReadRequest via hdr rest => Sys2Proof.Machine.execCsrReadRequest via hdr rest s
  | .csrWriteRequest via hdr rest v => Sys2Proof.Machine.execCsrWriteRequest via hdr rest v s
  | .imageWrite via hdr bank data => Sys2Proof.Machine.execImageWrite via hdr bank data s
  | .memRead via hdr arg0 len => Sys2Proof.Machine.execMemRead via hdr arg0 len s
  | .memWrite via hdr data => Sys2Proof.Machine.execMemWrite via hdr data s
  | .ledgerRead q first count => Sys2Proof.Machine.execLedgerRead q first count s
  | .dumpRead via hdr slot len => Sys2Proof.Machine.execDumpRead via hdr slot len s
  | .eventLog q first => Sys2Proof.Machine.execEventLog q first s
  | .debug q tok => Sys2Proof.Machine.execDebug q tok s
  | .vendorDebug q tok => Sys2Proof.Machine.execVendorDebug q tok s
  | .ownership q tok => Sys2Proof.Machine.execOwnership q tok s
  | .ownerKey q tok => Sys2Proof.Machine.execOwnerKey q tok s
  | .returnAuth q tok => Sys2Proof.Machine.execReturnAuth q tok s
  | .returnVendor q tok => Sys2Proof.Machine.execReturnVendor q tok s
  | .scrap q tok => Sys2Proof.Machine.execScrap q tok s
  | .blankToVendor uid vendorHashes => Sys2Proof.Machine.execBlankToVendor uid vendorHashes s
  | .debugLevelExpiry => Sys2Proof.Machine.execDebugLevelExpiry s
  | .debugClose => Sys2Proof.Machine.execDebugClose s
  | .returnArmedExpiry => Sys2Proof.Machine.execReturnArmedExpiry s
  | .fwVerify => Sys2Proof.Machine.execFwVerify s
  | .fwActivate => Sys2Proof.Machine.execFwActivate s
  | .fwCommit => Sys2Proof.Machine.execFwCommit s
  | .getVersion q => Sys2Proof.Machine.execGetVersion q s
  | .getCapabilities q => Sys2Proof.Machine.execGetCapabilities q s
  | .negotiateAlgorithms q asym hash => Sys2Proof.Machine.execNegotiateAlgorithms q asym hash s
  | .getDigests q => Sys2Proof.Machine.execGetDigests q s
  | .getCertificate q slot offset length => Sys2Proof.Machine.execGetCertificate q slot offset length s
  | .challenge q slot nonce => Sys2Proof.Machine.execChallenge q slot nonce s
  | .getMeasurements q index nonce => Sys2Proof.Machine.execGetMeasurements q index nonce s
  | .spdmUnsupportedRequest q code => Sys2Proof.Machine.execSpdmUnsupportedRequest q code s
  | .jtagBypass tdi => Sys2Proof.Machine.execJtagBypass tdi s
  | .jtagIdcode => Sys2Proof.Machine.execJtagIdcode s
  | .jtagSamplePreload bits => Sys2Proof.Machine.execJtagSamplePreload bits s
  | .jtagExtest => Sys2Proof.Machine.execJtagExtest s
  | .jtagScanDump => Sys2Proof.Machine.execJtagScanDump s
  | .setdasa addr => Sys2Proof.Machine.execSetdasa addr s
  | .entdaa addr => Sys2Proof.Machine.execEntdaa addr s
  | .i3cPrivateWrite pointer => Sys2Proof.Machine.execI3cPrivateWrite pointer s
  | .i3cPrivateRead count => Sys2Proof.Machine.execI3cPrivateRead count s
  | .ledgerAck unit => Sys2Proof.Machine.execLedgerAck unit s
  | .ledgerSweep reads => Sys2Proof.Machine.execLedgerSweep reads s
  | .ledgerAckTimeout unit => Sys2Proof.Machine.execLedgerAckTimeout unit s
  | .eventRecordWrite => Sys2Proof.Machine.execEventRecordWrite s
  | .workListReconfigure r entries v => Sys2Proof.Machine.execWorkListReconfigure r entries v s
  | .replayStart => Sys2Proof.Machine.execReplayStart s
  | .csrLoRead r addr => Sys2Proof.Machine.execCsrLoRead r addr s
  | .rcRead r addr => Sys2Proof.Machine.execRcRead r addr s
  | .generalCsrWrite r addr v => Sys2Proof.Machine.execGeneralCsrWrite r addr v s
  | .sequencerCoreFault => Sys2Proof.Machine.execSequencerCoreFault s
  | .thermAlertN c => Sys2Proof.Machine.execThermAlertN c s
  | .securityCommandDone => Sys2Proof.Machine.execSecurityCommandDone s
  | .avsbusVoltageConfirm rail mv => Sys2Proof.Machine.execAvsbusVoltageConfirm rail mv s
  | .frameFcsError p => Sys2Proof.Machine.execFrameFcsError p s

end Sys2Proof.Machine
end

