-- ==== Sys2Proof/Safety.lean ====
section
/-!
DEFINITION. Sys2Proof/Safety.lean: the terms that statements about the device use: the conditions under which a unit can act, and
the updates that a statement names.
-/

namespace Sys2Proof.Machine

open Sys2Proof

/-! ## Updates that statements name -/

/-- The state with one tile replaced and nothing else changed. -/
def State.setTile (s : State) (t : TileRef) (x : Tile) : State := { s with dev := s.dev.setTile t x }

/-- The state with the device replaced. -/
def State.withDev (s : State) (d : Dev) : State := { s with dev := d }

/-- A tile with its register files replaced. -/
def Tile.withRegs (x : Tile) (r : CoreRegs) : Tile := { x with regs := r }

/-- A tile that goes on `n` bytes further; past offset 65,532 the next fetch raises FETCH_BOUND (R77). -/
def Tile.onward (x : Tile) (n : Nat) : Tile :=
  { x with pc := BitVec.ofNat 16 (x.pc.toNat + n), past := decide (65532 < x.pc.toNat + n) }

/-! ## Conditions -/

/-- A core that runs, has no scalar access outstanding and no vote to wait for, and whose pc is a place an instruction can stand at
(R49, R77, R83, R104). -/
def Dev.coreFree (d : Dev) (t : TileRef) : Prop :=
  (d.tile t).run = .running ∧ (d.tile t).outstanding = none ∧ (∀ b, (d.tile t).bracket = some b → b.close = none) ∧
    (d.tile t).past = false ∧ (d.tile t).pc.toNat % 4 = 0

/-- The five patterns of the life-cycle fuses (R481). -/
def Fuses.lifeCycleLegal (f : Fuses) : Prop :=
  f.lc = lcBlank ∨ f.lc = lcVendor ∨ f.lc = lcOwned ∨ f.lc = lcReturned ∨ f.lc = lcScrapped

end Sys2Proof.Machine
end

