-- ==== Sys2Proof/Certificates/Slice0/Obligations.lean ====
section
/-!
DEFINITION. Sys2Proof/Certificates/Slice0/Obligations.lean: the statements about the device, each after a rule of the manual.
-/

namespace Sys2Proof.Claims
end Sys2Proof.Claims

open Sys2Proof Sys2Proof.Machine Sys2Proof.Claims

/-! ## The block and its queue -/

/-- A step takes the command at the front of the queue and runs it on the state with the queue's rest; with nothing queued the
block idles (the idling is the model's choice, log 9). -/
def Obligations.StepTakesFrontOrIdles : Prop :=
  (∀ (c : Instr) (rest : List Instr) (s : State), s.pending = c :: rest → step s = exec c { s with pending := rest }) ∧
  ∀ s : State, s.pending = [] → step s = .next s

/-- No command faults or is refused, and none touches the queue of waiting commands. -/
def Obligations.CommandsKeepQueue : Prop :=
  ∀ (c : Instr) (s : State), ∃ u : State, exec c s = .next u ∧ u.pending = s.pending

/-- A step changes the fuses only where it completes a security command that is in progress; bits of the life cycle, revocations
and the signature policy are only ever blown, the firmware counter never falls, a key slot written stays written, and the part
and its stepping stay what they are (R481, R484, R496). -/
def Obligations.FusesAreOneWay : Prop :=
  ∀ s u : State, step s = .next u →
    (u.fuse ≠ s.fuse → (∃ rest, s.pending = .securityCommandDone :: rest) ∧ s.dev.sec.busy.isSome = true) ∧
    s.fuse.lc &&& u.fuse.lc = s.fuse.lc ∧ s.fuse.counter ≤ u.fuse.counter ∧
    (s.fuse.ownerSigReq = true → u.fuse.ownerSigReq = true) ∧
    u.fuse.variant = s.fuse.variant ∧ u.fuse.stepping = s.fuse.stepping ∧
    ∀ i : Fin 4,
      (s.fuse.vendor[i].revoked = true → u.fuse.vendor[i].revoked = true) ∧
      (s.fuse.owner[i].revoked = true → u.fuse.owner[i].revoked = true) ∧
      (s.fuse.vendor[i].hash.isSome = true → u.fuse.vendor[i].hash.isSome = true) ∧
      (s.fuse.owner[i].hash.isSome = true → u.fuse.owner[i].hash.isSome = true)

/-- The life-cycle fuses hold one of the five patterns of R481 after every step from a state in which they do. -/
def Obligations.LifeCycleStaysLegal : Prop :=
  ∀ s u : State, s.fuse.lifeCycleLegal → step s = .next u → u.fuse.lifeCycleLegal

/-! ## Encodings of the tile instruction set -/

/-- The word that encodes an instruction decodes to that instruction, with every operand at every value. -/
def Sys2Proof.Claims.DecodeOfEncode : Prop :=
  ∀ (i : Instr) (t : TileRef) (w : CtisWord), ctisEncode i = some (t, w) → ctisDecode t w = some i

/-- What a word decodes to is encoded by that very word: no bit of a word is dropped and no two words mean one instruction. -/
def Sys2Proof.Claims.EncodeOfDecode : Prop :=
  ∀ (i : Instr) (t : TileRef) (w : CtisWord), ctisDecode t w = some i → ctisEncode i = some (t, w)

/-- The encoding of the tile instruction set is a bijection between instructions and the words that mean one: the word of an
instruction decodes to it with every operand at every value, and a word is the word of what it decodes to. -/
def Obligations.EncodingRoundTrip : Prop := DecodeOfEncode ∧ EncodeOfDecode

/-- A running core with no scalar access outstanding meets the instruction whose word stands at its pc (R77, R78): a scalar
instruction where bits 1:0 are not 11, one of four words where they are. -/
def Obligations.FetchMeetsTheWordAtPc : Prop :=
  (∀ (t : TileRef) (d : Dev) (i : Instr) (w : W32),
    d.coreFree t → d.imemUnreadable t (d.tile t).pc.toNat = false → d.imemWord t (d.tile t).pc.toNat = w →
    ctisEncode i = some (t, .scalar w) → d.fetch t = .word (.scalar w)) ∧
  ∀ (t : TileRef) (d : Dev) (i : Instr) (w : BitVec 128),
    d.coreFree t → (d.tile t).pc.toNat ≤ 65520 →
    (∀ k, k < 4 → d.imemUnreadable t ((d.tile t).pc.toNat + 4 * k) = false ∧
      d.imemWord t ((d.tile t).pc.toNat + 4 * k) = w.extractLsb' (32 * k) 32) →
    ctisEncode i = some (t, .tensor w) → d.fetch t = .word (.tensor w)

/-! ## Scalar arithmetic (R80, R81) -/

/-- The OP opcodes that write g[RD], with their numbers and results. -/
def Sys2Proof.Claims.opRows : List ((TileRef → OpArgs → Instr) × BitVec 5 × (W64 → W64 → W64)) :=
  [(.add, 0x01, fun a b => a + b), (.sub, 0x02, fun a b => a - b), (.and, 0x03, fun a b => a &&& b),
   (.or, 0x04, fun a b => a ||| b), (.xor, 0x05, fun a b => a ^^^ b),
   (.sll, 0x06, fun a b => BitVec.ofNat 64 (a.toNat * 2 ^ (b.toNat % 64))),
   (.srl, 0x07, fun a b => BitVec.ofNat 64 (a.toNat / 2 ^ (b.toNat % 64))),
   (.sra, 0x08, fun a b => BitVec.ofInt 64 (a.toInt / 2 ^ (b.toNat % 64))),
   (.mul, 0x09, fun a b => a * b), (.mulh, 0x0A, fun a b => BitVec.ofInt 64 (a.toInt * b.toInt / 2 ^ 64)),
   (.mulhu, 0x0B, fun a b => BitVec.ofNat 64 (a.toNat * b.toNat / 2 ^ 64)),
   (.div, 0x0C, fun a b => if b = 0 then 0xFFFFFFFFFFFFFFFF else BitVec.ofInt 64 (a.toInt.tdiv b.toInt)),
   (.divu, 0x0D, fun a b => if b = 0 then 0xFFFFFFFFFFFFFFFF else BitVec.ofNat 64 (a.toNat / b.toNat)),
   (.rem, 0x0E, fun a b => if b = 0 then a else BitVec.ofInt 64 (a.toInt.tmod b.toInt)),
   (.remu, 0x0F, fun a b => if b = 0 then a else BitVec.ofNat 64 (a.toNat % b.toNat)),
   (.min, 0x10, fun a b => if a.toInt ≤ b.toInt then a else b), (.max, 0x11, fun a b => if a.toInt ≤ b.toInt then b else a),
   (.minu, 0x12, fun a b => if a.toNat ≤ b.toNat then a else b), (.maxu, 0x13, fun a b => if a.toNat ≤ b.toNat then b else a)]

/-- The compares, with their numbers and results. -/
def Sys2Proof.Claims.cmpRows : List ((TileRef → OpArgs → Instr) × BitVec 5 × (W64 → W64 → Bool)) :=
  [(.cmpeq, 0x14, fun a b => decide (a = b)), (.cmplt, 0x15, fun a b => decide (a.toInt < b.toInt)),
   (.cmpltu, 0x16, fun a b => decide (a.toNat < b.toNat))]

/-- The second operand of an OP instruction. -/
def Sys2Proof.Claims.secondOperand (r : CoreRegs) (a : OpArgs) : W64 :=
  if a.i then BitVec.ofInt 64 a.hi.toInt else r.rg (a.hi.extractLsb' 0 5)

/-- Every OP instruction without a reserved bit writes its result to g[RD], or to the predicate it names, goes on at pc + 4 and
changes nothing else (R80). -/
def Sys2Proof.Claims.OpWritesItsResult : Prop :=
  (∀ e ∈ opRows, ∀ (t : TileRef) (a : OpArgs) (s : State),
    s.dev.fetch t = .word (encOp e.2.1 a) → (a.i = false → a.hi.extractLsb' 5 9 = 0) →
    exec (e.1 t a) s = .next (s.setTile t (((s.dev.tile t).withRegs
      ((s.dev.tile t).regs.wg a.rd (e.2.2 ((s.dev.tile t).regs.rg a.rs1) (secondOperand (s.dev.tile t).regs a)))).onward 4))) ∧
  ∀ e ∈ cmpRows, ∀ (t : TileRef) (a : OpArgs) (s : State),
    s.dev.fetch t = .word (encOp e.2.1 a) → (a.i = false → a.hi.extractLsb' 5 9 = 0) → a.rd.extractLsb' 3 2 = 0 →
    exec (e.1 t a) s = .next (s.setTile t (((s.dev.tile t).withRegs
      ((s.dev.tile t).regs.wp (a.rd.extractLsb' 0 3)
        (e.2.2 ((s.dev.tile t).regs.rg a.rs1) (secondOperand (s.dev.tile t).regs a)))).onward 4))

/-- The limits of division (R81): what DIV, DIVU, REM and REMU write for a divisor of zero, and DIV and REM for −2^63 by −1; no
exception. -/
def Sys2Proof.Claims.DivisionLimits : Prop :=
  ∀ (t : TileRef) (a : OpArgs) (s : State) (x y : W64), (a.i = false → a.hi.extractLsb' 5 9 = 0) →
    (s.dev.tile t).regs.rg a.rs1 = x → secondOperand (s.dev.tile t).regs a = y →
    let wr := fun (v : W64) => Host.Outcome.next (s.setTile t (((s.dev.tile t).withRegs ((s.dev.tile t).regs.wg a.rd v)).onward 4))
    (y = 0 → (s.dev.fetch t = .word (encOp 0x0C a) → exec (.div t a) s = wr 0xFFFFFFFFFFFFFFFF) ∧
      (s.dev.fetch t = .word (encOp 0x0D a) → exec (.divu t a) s = wr 0xFFFFFFFFFFFFFFFF) ∧
      (s.dev.fetch t = .word (encOp 0x0E a) → exec (.rem t a) s = wr x) ∧
      (s.dev.fetch t = .word (encOp 0x0F a) → exec (.remu t a) s = wr x)) ∧
    (x = 0x8000000000000000 → y = 0xFFFFFFFFFFFFFFFF →
      (s.dev.fetch t = .word (encOp 0x0C a) → exec (.div t a) s = wr 0x8000000000000000) ∧
      (s.dev.fetch t = .word (encOp 0x0E a) → exec (.rem t a) s = wr 0))

/-- The OP instructions write their results, and the divisions theirs at their limits (R80, R81). -/
def Obligations.OpInstructionsAndDivision : Prop := OpWritesItsResult ∧ DivisionLimits

/-- g0 reads as zero and p0 as one, whatever has been written; a write to either changes nothing (R71). -/
def Obligations.HardwiredRegisters : Prop :=
  ∀ (r : CoreRegs) (v : W64) (b : Bool),
    r.rg 0 = 0 ∧ r.rp 0 = true ∧ r.wg 0 v = r ∧ r.wp 0 b = r ∧
    (∀ i : BitVec 5, i ≠ 0 → (r.wg i v).rg i = v) ∧ (∀ i j : BitVec 5, i ≠ j → (r.wg i v).rg j = r.rg j) ∧
    (∀ i : BitVec 3, i ≠ 0 → (r.wp i b).rp i = b) ∧ ∀ i j : BitVec 3, i ≠ j → (r.wp i b).rp j = r.rp j

/-! ## Scalar memory accesses (R82, R83) -/

/-- The loads: opcode, size and whether the value is sign-extended. -/
def Sys2Proof.Claims.loadRows : List ((TileRef → MemArgs → Instr) × BitVec 5 × Nat × Bool) :=
  [(.ldb, 0x01, 1, true), (.ldh, 0x02, 2, true), (.ldw, 0x03, 4, true), (.ldd, 0x04, 8, true), (.ldbu, 0x05, 1, false),
   (.ldhu, 0x06, 2, false), (.ldwu, 0x07, 4, false)]

/-- The stores: opcode and size. -/
def Sys2Proof.Claims.storeRows : List ((TileRef → MemArgs → Instr) × BitVec 5 × Nat) :=
  [(.stb, 0x08, 1), (.sth, 0x09, 2), (.stw, 0x0A, 4), (.std, 0x0B, 8)]

/-- Every access of MEM that names tile memory or virtual space by its V bit: opcode, size, and whether it stores. -/
def Sys2Proof.Claims.accessRows : List ((TileRef → MemArgs → Instr) × BitVec 5 × Nat × Bool) :=
  [(.ldb, 0x01, 1, false), (.ldh, 0x02, 2, false), (.ldw, 0x03, 4, false), (.ldd, 0x04, 8, false), (.ldbu, 0x05, 1, false),
   (.ldhu, 0x06, 2, false), (.ldwu, 0x07, 4, false), (.stb, 0x08, 1, true), (.sth, 0x09, 2, true), (.stw, 0x0A, 4, true),
   (.std, 0x0B, 8, true), (.dld, 0x0C, 32, false), (.dst, 0x0D, 32, true)]

/-- The atomics: opcode. -/
def Sys2Proof.Claims.amoRows : List ((TileRef → AmoArgs → Instr) × BitVec 5 × AmoOp) :=
  [(.amoAdd, 0x11, .add), (.amoFadd, 0x12, .fadd), (.amoMin, 0x13, .min), (.amoMax, 0x14, .max), (.amoAnd, 0x15, .and),
   (.amoOr, 0x16, .or), (.amoXor, 0x17, .xor), (.amoSwap, 0x18, .swap), (.amoCas, 0x19, .cas)]

/-- The address of a MEM access: g[RS1] + IMM14, sign-extended. -/
def Sys2Proof.Claims.memAddress (r : CoreRegs) (a : MemArgs) : Nat := (r.rg a.rs1 + BitVec.ofInt 64 a.imm.toInt).toNat

/-- `n` bytes of a tile's memory as a little-endian number. -/
def Sys2Proof.Claims.tileNumber (d : Dev) (t : TileRef) (a n : Nat) : Nat := leNat ((List.range n).map fun i => d.tileByte t (a + i))

/-- A load value of `n` bytes, sign- or zero-extended to 64 bits. -/
def Sys2Proof.Claims.extended (n : Nat) (signed : Bool) (v : Nat) : W64 :=
  if signed then BitVec.ofInt 64 (BitVec.ofNat (8 * n) v).toInt else BitVec.ofNat 64 v

/-- A load of an aligned address of tile memory in a line that can be read writes the little-endian value to g[RD], extended as
the opcode says, and DLD writes the 32 bytes to d[RD]; nothing else changes but the pc; a load of bytes that an instruction not waited on touches takes a value left open (R82, R85). -/
def Sys2Proof.Claims.LoadsReadTileMemory : Prop :=
  (∀ e ∈ loadRows, ∀ (t : TileRef) (a : MemArgs) (s : State),
    let x := s.dev.tile t
    let ad := memAddress x.regs a
    s.dev.fetch t = .word (encMem e.2.1 a) → a.v = false → ad % e.2.2.1 = 0 → ad < 0x200000 →
    s.dev.tileLineBad t (ad / 64) = false →
    (s.dev.unsettled s.fuse.variant t 0 ad e.2.2.1 = false → exec (e.1 t a) s = .next (s.setTile t
      ((x.withRegs (x.regs.wg a.rd (extended e.2.2.1 e.2.2.2 (tileNumber s.dev t ad e.2.2.1)))).onward 4))) ∧
    (s.dev.unsettled s.fuse.variant t 0 ad e.2.2.1 = true →
      ∃ v < 2 ^ (8 * e.2.2.1), exec (e.1 t a) s = .next ((s.withDev { s.dev with free := s.dev.free + e.2.2.1 }).setTile t
        ((x.withRegs (x.regs.wg a.rd (extended e.2.2.1 e.2.2.2 v))).onward 4)))) ∧
  ∀ (t : TileRef) (a : MemArgs) (s : State),
    let x := s.dev.tile t
    let ad := memAddress x.regs a
    s.dev.fetch t = .word (encMem 0x0C a) → a.v = false → ad % 32 = 0 → ad < 0x200000 →
    s.dev.tileLineBad t (ad / 64) = false → s.dev.unsettled s.fuse.variant t 0 ad 32 = false →
    exec (.dld t a) s = .next (s.setTile t ((x.withRegs (x.regs.wd a.rd (BitVec.ofNat 256 (tileNumber s.dev t ad 32)))).onward 4))

/-- What a store's tile memory reads after it: the stored bytes at the address, every other byte of every tile as before. -/
def Sys2Proof.Claims.storedAt (d : Dev) (m : Mem) (t : TileRef) (ad n : Nat) (byte : Nat → W8) : Prop :=
  ∀ (t' : TileRef) (b : Nat), b < 0x200000 →
    ({ d with tileMem := m } : Dev).tileByte t' b = if t' = t ∧ ad ≤ b ∧ b < ad + n then byte (b - ad) else d.tileByte t' b

/-- A store of an aligned address of tile memory in a line that can be read writes the low bytes of g[RD], and DST d[RD], at that
address and nowhere else; no register changes but the pc (R82). -/
def Sys2Proof.Claims.StoresWriteTileMemory : Prop :=
  (∀ e ∈ storeRows, ∀ (t : TileRef) (a : MemArgs) (s : State),
    let x := s.dev.tile t
    let ad := memAddress x.regs a
    s.dev.fetch t = .word (encMem e.2.1 a) → a.v = false → ad % e.2.2 = 0 → ad < 0x200000 →
    s.dev.tileLineBad t (ad / 64) = false → s.dev.unsettled s.fuse.variant t 0 ad e.2.2 = false →
    ∃ m : Mem, exec (e.1 t a) s = .next ((s.withDev { s.dev with tileMem := m }).setTile t (x.onward 4)) ∧
      storedAt s.dev m t ad e.2.2 fun i => (x.regs.rg a.rd).extractLsb' (8 * i) 8) ∧
  ∀ (t : TileRef) (a : MemArgs) (s : State),
    let x := s.dev.tile t
    let ad := memAddress x.regs a
    s.dev.fetch t = .word (encMem 0x0D a) → a.v = false → ad % 32 = 0 → ad < 0x200000 →
    s.dev.tileLineBad t (ad / 64) = false → s.dev.unsettled s.fuse.variant t 0 ad 32 = false →
    ∃ m : Mem, exec (.dst t a) s = .next ((s.withDev { s.dev with tileMem := m }).setTile t (x.onward 4)) ∧
      storedAt s.dev m t ad 32 fun i => (x.regs.rd a.rd).extractLsb' (8 * i) 8

/-- Loads and stores of tile memory (R82). -/
def Obligations.TileMemoryLoadsAndStores : Prop := LoadsReadTileMemory ∧ StoresWriteTileMemory

/-- An access whose address is not a multiple of its size raises MISALIGNED, and one to tile memory at or above 2 MiB TILE_RANGE,
with the address as the detail (R83, R108); an atomic with bit 17 at 0, with a reserved bit, or FADD on 64 bits raises ILLEGAL. -/
def Obligations.BadAccessesTrap : Prop :=
  (∀ e ∈ accessRows, ∀ (t : TileRef) (a : MemArgs) (s : State),
    let ad := memAddress (s.dev.tile t).regs a
    s.dev.fetch t = .word (encMem e.2.1 a) →
    (ad % e.2.2.1 ≠ 0 → exec (e.1 t a) s = .next (s.withDev (s.dev.trap t 0x09 (BitVec.ofNat 64 ad)))) ∧
    (ad % e.2.2.1 = 0 → a.v = false → 0x200000 ≤ ad →
      exec (e.1 t a) s = .next (s.withDev (s.dev.trap t 0x0A (BitVec.ofNat 64 ad))))) ∧
  ∀ e ∈ amoRows, ∀ (t : TileRef) (a : AmoArgs) (s : State),
    s.dev.fetch t = .word (encAmo e.2.1 a) →
    (a.rsv ≠ 0 ∨ a.bit17 = false ∨ (e.2.2 = .fadd ∧ a.w = false) →
      exec (e.1 t a) s = .next (s.withDev (s.dev.trap t 0x03 0))) ∧
    (a.rsv = 0 → a.bit17 = true → (e.2.2 = .fadd → a.w = true) → ((s.dev.tile t).regs.rg a.rs1).toNat % (if a.w then 4 else 8) ≠ 0 →
      exec (e.1 t a) s = .next (s.withDev (s.dev.trap t 0x09 ((s.dev.tile t).regs.rg a.rs1))))

/-- An aligned atomic whose page the context may write leaves the core with an outstanding access at the translated address that holds
its operand and compare value, and the core goes on only once it is answered (R82, R83; one access at a time is the model's choice,
log 6); a page that is refused raises TRANSLATION, and a table that cannot be read DATA_ECC, with the address. -/
def Sys2Proof.Claims.AtomicsBeginAnAccess : Prop :=
  ∀ e ∈ amoRows, ∀ (t : TileRef) (a : AmoArgs) (s : State),
    let x := s.dev.tile t
    let ad := x.regs.rg a.rs1
    let r := s.dev.translate s.fuse.variant (.tile t.ix) x.ctx.toNat ad.toNat true (s.dev.evalMember t.sector.val)
    s.dev.fetch t = .word (encAmo e.2.1 a) → a.rsv = 0 → a.bit17 = true → (e.2.2 = .fadd → a.w = true) →
    ad.toNat % (if a.w then 4 else 8) = 0 →
    (r.1 ≠ 0 → exec (e.1 t a) s = .next (s.withDev (r.2.2.trap t (if r.1 = sEcc ∨ r.1 = sRetryExhausted then 0x0C else 0x0B) ad))) ∧
    (r.1 = 0 → isWindow r.2.1 = false →
      let q : ScalarReq := { op := e.2.1.toNat, addr := ad, phys := r.2.1, rd := a.rd, data := [], w := a.w,
                             operand := x.regs.rg a.rs2, compare := x.regs.rg a.rs3, tag := 0,
                             open_ := s.dev.unsettled s.fuse.variant t 2 ad.toNat (if a.w then 4 else 8) }
      exec (e.1 t a) s = .next (s.withDev (r.2.2.onTile t fun y => { y with outstanding := some q })))

/-- The value that the answer of an outstanding access delivers to g[RD]: a load's bytes extended as its opcode says, an atomic's
old value zero-extended. -/
def Sys2Proof.Claims.answerValue (op n : Nat) (v : Nat) : W64 := extended n (decide (1 ≤ op ∧ op ≤ 4)) v

/-- The answer of an outstanding load or atomic that no recovery of the core's partition drops: its value goes to g[RD], a store
only ends, a failing status raises its cause; the core is free again and goes on behind the instruction (R83). -/
def Sys2Proof.Claims.ScalarAnswersResumeTheCore : Prop :=
  ∀ (t : TileRef) (q : ScalarReq) (r : Acc) (s : State),
    (s.dev.tile t).outstanding = some q → s.dev.performScalar s.fuse.variant t q = some r →
    s.dev.dropsAnswer t q = false → q.open_ = false → (q.tag ≠ 0 ∨ isWindow q.phys = false) →
    let d1 := r.d.onTile t fun x => { x with outstanding := none }
    (r.st = sEcc ∨ r.st = sRetryExhausted → exec (.scalarMemComplete t) s = .next (s.withDev (d1.trap t 0x0C q.addr))) ∧
    (r.st = sTranslation ∨ r.st = sFenced → exec (.scalarMemComplete t) s = .next (s.withDev (d1.trap t 0x0B q.addr))) ∧
    (r.st = 0 → 1 ≤ q.op → q.op ≤ 7 ∨ 0x11 ≤ q.op → r.data.length = memSize q.op q.w →
      exec (.scalarMemComplete t) s = .next (s.withDev (d1.onTile t fun x =>
        (x.withRegs (x.regs.wg q.rd (answerValue q.op (memSize q.op q.w) (leNat r.data)))).onward 4))) ∧
    (r.st = 0 → 8 ≤ q.op → q.op ≤ 11 → exec (.scalarMemComplete t) s = .next (s.withDev (d1.onTile t fun x => x.onward 4)))


/-- Scalar accesses that leave the tile: how an atomic begins one, and how its answer resumes the core (R82, R83). -/
def Obligations.OutstandingScalarAccesses : Prop := AtomicsBeginAnAccess ∧ ScalarAnswersResumeTheCore

/-! ## Control flow, predicates, summary registers and tokens (R73, R87, R88, R107) -/

/-- JAL, JALR, LSH, PSET, TSTAT and DBASE have the effect of R87 and change nothing else; a JALR to an address that is no multiple
of 4 raises MISALIGNED. -/
def Obligations.ControlMovesAndJumps : Prop :=
  ∀ (t : TileRef) (s : State),
    let x := s.dev.tile t
    let at_ := fun (r : CoreRegs) (pc : W64) => Host.Outcome.next (s.setTile t ((x.withRegs r).goto pc))
    let next := fun (r : CoreRegs) => Host.Outcome.next (s.setTile t ((x.withRegs r).onward 4))
    let pc := BitVec.ofNat 64 x.pc.toNat
    (∀ (off : BitVec 20) (rd : BitVec 5), s.dev.fetch t = .word (encCtrl 0x01 (off ++ rd)) →
      exec (.jal t off rd) s = at_ (x.regs.wg rd (pc + 4)) (pc + BitVec.ofInt 64 (off.toInt * 4))) ∧
    (∀ (imm : BitVec 14) (rs1 rd : BitVec 5), s.dev.fetch t = .word (encCtrl 0x02 (imm ++ 0#1 ++ rs1 ++ rd)) →
      let target := x.regs.rg rs1 + BitVec.ofInt 64 imm.toInt
      exec (.jalr t imm false rs1 rd) s =
        if target.toNat % 4 = 0 then at_ (x.regs.wg rd (pc + 4)) target else .next (s.withDev (s.dev.trap t 0x09 target))) ∧
    (∀ (imm : BitVec 20) (rd : BitVec 5), s.dev.fetch t = .word (encCtrl 0x05 (imm ++ rd)) →
      exec (.lsh t imm rd) s = next (x.regs.wg rd (BitVec.ofNat 64 ((x.regs.rg rd).toNat * 2 ^ 20 + imm.toNat)))) ∧
    (∀ (tt : BitVec 4) (pb pa pd : BitVec 3), s.dev.fetch t = .word (encCtrl 0x06 (0#10 ++ tt ++ pb ++ pa ++ 0#2 ++ pd)) →
      exec (.pset t 0 tt pb pa 0 pd) s =
        next (x.regs.wp pd (tt.getLsbD (2 * (x.regs.rp pa).toNat + (x.regs.rp pb).toNat)))) ∧
    (∀ (tok : BitVec 6) (rd : BitVec 5), s.dev.fetch t = .word (encCtrl 0x08 (0#14 ++ tok ++ rd)) →
      let k := x.regs.rt tok
      exec (.tstat t 0 tok rd) s = next (x.regs.wg rd (BitVec.ofNat 64
        (k.status.toNat + 2 ^ 8 * (match k.state with | .clear => 0 | .pending => 1 | .set => 2) + 2 ^ 10 * k.suppressed.toNat +
          2 ^ 16 * k.origin.toNat)))) ∧
    ∀ (acc : Bool) (rs1 rd : BitVec 5), s.dev.fetch t = .word (encCtrl 0x0B (0#14 ++ BitVec.ofBool acc ++ rs1 ++ rd)) →
      let old := (x.regs.rd rd).toNat
      let base := if acc then (old + (x.regs.rg rs1).toNat) % 2 ^ 48 else (x.regs.rg rs1).toNat % 2 ^ 48
      exec (.dbase t 0 acc rs1 rd) s = next (x.regs.wd rd (BitVec.ofNat 256 (old / 2 ^ 48 * 2 ^ 48 + base)))

/-- BR goes to pc + OFF20 × 4 where p[P] XOR N is 1 and on to pc + 4 otherwise; BRS does so where the summary register meets its
condition, and SMOV copies a summary register, both once no tensor instruction still to complete names that register (R73, R87,
R88). -/
def Sys2Proof.Claims.BranchesAndSummaryReads : Prop :=
  ∀ (t : TileRef) (s : State),
    let x := s.dev.tile t
    let target := fun (off : BitVec 20) => BitVec.ofNat 64 x.pc.toNat + BitVec.ofInt 64 (off.toInt * 4)
    let branch := fun (c : Bool) (off : BitVec 20) =>
      Host.Outcome.next (s.setTile t (if c then x.goto (target off) else x.onward 4))
    (∀ (off : BitVec 20) (n : Bool) (p : BitVec 3),
      s.dev.fetch t = .word (encCtrl 0x03 (off ++ 0#1 ++ BitVec.ofBool n ++ p)) →
      exec (.br t off false n p) s = branch (x.regs.rp p != n) off) ∧
    (∀ (off : BitVec 20) (cond : BitVec 2) (k : BitVec 3), s.dev.fetch t = .word (encCtrl 0x04 (off ++ cond ++ k)) →
      exec (.brs t off cond k) s = if s.dev.sregBusy t k then .next s else branch ((x.regs.rs k).meets cond) off) ∧
    ∀ (k : BitVec 3) (rd : BitVec 5), s.dev.fetch t = .word (encCtrl 0x07 (0#17 ++ k ++ rd)) →
      exec (.smov t 0 k rd) s = if s.dev.sregBusy t k then .next s
        else .next (s.setTile t ((x.withRegs (x.regs.wg rd (x.regs.rs k).val)).onward 4))

/-- The BRS conditions (R88): on kind INT the register is compared as i64 with zero; on kind F32 bits 31:0 are compared as FP32
with zero, −0 equal to zero and a NaN satisfying NEZ only. -/
def Sys2Proof.Claims.BranchConditions : Prop :=
  ∀ (v : W64),
    let w := v.toNat % 2 ^ 32
    let mag := w % 2 ^ 31
    (({ kind := .int, val := v } : Summary).meets 0 = decide (v.toInt = 0)) ∧
    (({ kind := .int, val := v } : Summary).meets 1 = decide (v.toInt ≠ 0)) ∧
    (({ kind := .int, val := v } : Summary).meets 2 = decide (v.toInt < 0)) ∧
    (({ kind := .int, val := v } : Summary).meets 3 = decide (0 ≤ v.toInt)) ∧
    (({ kind := .f32, val := v } : Summary).meets 0 = decide (mag = 0)) ∧
    (({ kind := .f32, val := v } : Summary).meets 1 = decide (mag ≠ 0)) ∧
    (({ kind := .f32, val := v } : Summary).meets 2 = decide (0 < mag ∧ mag ≤ 0x7F800000 ∧ 2 ^ 31 ≤ w)) ∧
    (({ kind := .f32, val := v } : Summary).meets 3 = decide (mag = 0 ∨ (mag ≤ 0x7F800000 ∧ w < 2 ^ 31)))

/-- Branches, the conditions of BRS and reads of summary registers (R87, R88). -/
def Obligations.BranchesOnPredicatesAndSummaries : Prop := BranchesAndSummaryReads ∧ BranchConditions

/-- Whether a token is one of those a group and its mask select (R87). -/
def Sys2Proof.Claims.selects (mask : W16) (group : BitVec 2) (k : BitVec 6) : Bool :=
  decide (k.toNat / 16 = group.toNat) && mask.getLsbD (k.toNat % 16)

/-- A tile whose program has waited on the tokens selected: what their instructions touched has a defined value again (R85). -/
def Sys2Proof.Claims.waited (x : Tile) (mask : W16) (group : BitVec 2) : Tile :=
  { x with unwaited := x.unwaited.filter fun q => !(q.args.te && selects mask group q.args.token) }

/-- TWAIT raises TOKEN_IDLE where a selected token is CLEAR, waits while one is PENDING, and raises TENSOR_STATUS where the lowest of
those that hold a trap-enabled status says so; else it goes on, the tokens waited on (R85, R87, R107). -/
def Sys2Proof.Claims.TwaitWaitsThenTrapsOrGoesOn : Prop :=
  ∀ (t : TileRef) (mask : W16) (group : BitVec 2) (s : State),
    let x := s.dev.tile t
    let sel := fun (k : BitVec 6) => selects mask group k = true
    let fails := fun (k : BitVec 6) => sel k ∧ trapEnabled x.trapEn (x.regs.rt k).status = true
    s.dev.fetch t = .word (encCtrl 0x09 (mask ++ 0#7 ++ group)) →
    ((∃ k, sel k ∧ (x.regs.rt k).state = .clear) → exec (.twait t mask 0 group) s = .next (s.withDev (s.dev.trap t 0x08 0))) ∧
    ((∀ k, sel k → (x.regs.rt k).state ≠ .clear) → (∃ k, sel k ∧ (x.regs.rt k).state = .pending) →
      exec (.twait t mask 0 group) s = .next s) ∧
    ((∀ k, sel k → (x.regs.rt k).state = .set) →
      ((∀ k, ¬ fails k) → exec (.twait t mask 0 group) s = .next (s.setTile t ((waited x mask group).onward 4))) ∧
      ∀ k, fails k → (∀ j, fails j → k.toNat ≤ j.toNat) →
        exec (.twait t mask 0 group) s = .next (s.withDev (s.dev.trap t 0x10 (BitVec.ofNat 64
          (k.toNat + 2 ^ 8 * (x.regs.rt k).origin.toNat + 2 ^ 16 * (x.regs.rt k).src.toNat + 2 ^ 24 * (x.regs.rt k).status.toNat +
            2 ^ 32 * (x.regs.rt k).detail.toNat)))))

/-- TCLR waits while a selected token is PENDING; then exactly the selected tokens become CLEAR, waited on, and nothing else
changes but the pc (R85, R87; what else of a token a clear leaves is the model's choice, log 59). FENCE.M, met only once every earlier access is answered, goes on (R82). -/
def Sys2Proof.Claims.TclrClearsSelectedTokens : Prop :=
  (∀ (t : TileRef) (mask : W16) (group : BitVec 2) (s : State),
    let x := s.dev.tile t
    s.dev.fetch t = .word (encCtrl 0x0A (mask ++ 0#7 ++ group)) →
    ((∃ k, selects mask group k = true ∧ (x.regs.rt k).state = .pending) → exec (.tclr t mask 0 group) s = .next s) ∧
    ((∀ k, selects mask group k = true → (x.regs.rt k).state ≠ .pending) →
      ∃ ts : Vector TokenReg 64, exec (.tclr t mask 0 group) s =
          .next (s.setTile t (((waited x mask group).withRegs { x.regs with t := ts }).onward 4)) ∧
        ∀ k : BitVec 6, ({ x.regs with t := ts } : CoreRegs).rt k =
          if selects mask group k then { x.regs.rt k with state := .clear } else x.regs.rt k)) ∧
  ∀ (t : TileRef) (s : State), s.dev.fetch t = .word (.scalar (0#25 ++ 0x10#5 ++ 0b01#2)) →
    exec (.fenceM t 0) s = .next (s.setTile t ((s.dev.tile t).onward 4))

/-- TWAIT, TCLR and FENCE.M (R82, R87, R107). -/
def Obligations.TokenWaitsAndClears : Prop := TwaitWaitsThenTrapsOrGoesOn ∧ TclrClearsSelectedTokens

/-! ## Traps (R106 to R109) -/

/-- A cause raised outside a handler with a valid vector enters the handler (R108): the pc of the instruction, the cause and the
detail are saved, IN_TRAP is set, the core goes on at the vector, and nothing else changes. -/
def Sys2Proof.Claims.TrapEntry : Prop :=
  ∀ (d : Dev) (t : TileRef) (cause : Nat) (info : W64),
    (d.tile t).inTrap = false → (d.tile t).vecValid = true →
    d.trap t cause info = d.setTile t { d.tile t with
      trapPc := BitVec.ofNat 16 ((d.tile t).pc.toNat / 4 * 4), cause := BitVec.ofNat 8 cause, info := info, inTrap := true,
      pc := BitVec.ofNat 16 ((d.tile t).vecOffset.toNat * 4), past := false }

/-- BRK takes BREAK with CODE as its detail; ERET in a handler clears IN_TRAP and goes on at CORE_TRAP_PC, and outside one raises
ILLEGAL (R87, R108). -/
def Sys2Proof.Claims.BreakAndReturn : Prop :=
  (∀ (t : TileRef) (code : BitVec 25) (s : State), s.dev.fetch t = .word (encCtrl 0x0D code) →
    (s.dev.tile t).inTrap = false → (s.dev.tile t).vecValid = true →
    exec (.brk t code) s = .next (s.setTile t { s.dev.tile t with
      trapPc := BitVec.ofNat 16 ((s.dev.tile t).pc.toNat / 4 * 4), cause := 0x0D, info := BitVec.ofNat 64 code.toNat, inTrap := true,
      pc := BitVec.ofNat 16 ((s.dev.tile t).vecOffset.toNat * 4), past := false })) ∧
  ∀ (t : TileRef) (s : State), s.dev.fetch t = .word (encCtrl 0x0C 0) →
    exec (.eret t 0) s = .next (if (s.dev.tile t).inTrap then
        s.setTile t { s.dev.tile t with inTrap := false, pc := (s.dev.tile t).trapPc, past := false }
      else s.withDev (s.dev.trap t 0x03 0))

/-- Taking a trap and returning from one (R87, R106 to R108). -/
def Obligations.TrapEntryAndReturn : Prop := TrapEntry ∧ BreakAndReturn

/-- A cause raised within a handler, or with no valid vector, halts the tile (R109): it fetches nothing more, the rest of its plan
is skipped, and an event record with status INTERNAL names the tile, its context and the cause, DOUBLE within a handler; the
registers stand. -/
def Obligations.TrapWithoutHandlerHalts : Prop :=
  ∀ (d : Dev) (t : TileRef) (cause : Nat) (info : W64),
    (d.tile t).inTrap = true ∨ (d.tile t).vecValid = false → d.bit (At.dev 0x124) 0x03 = false → d.events.held.length < 4096 →
    let u := d.trap t cause info
    let x := d.tile t
    (u.tile t) = { x with run := .halted, skip := (x.cur.map (·.serial)).toList ++ x.skip } ∧ u.fetch t = .idle ∧
    ∃ e : EventRec, u.events.held = d.events.held ++ [e] ∧ e.code = 0x03 ∧ e.status = 0x7F ∧ e.ctx.toNat = x.ctx.toNat ∧
      e.partition.toNat = t.sector.val ∧ e.tile.toNat = t.tile.val ∧
      e.arg[0]? = some (BitVec.ofNat 8 (if x.inTrap then 0x1F else cause)) ∧ e.arg.length = 24

/-! ## Control and status registers from programs (R82, R86, R111) -/

/-- CSRW of CORE_TRAP_VEC, CORE_TRAP_PC and CORE_STICKY sets the fields of R111 and no other state but the CSR file's copy of the
register; CORE_TRAP_EN as well, once the tile's queues are empty and no token is PENDING; a CSRW of any other register raises
CSR_ACCESS. -/
def Sys2Proof.Claims.ProgramsWriteCoreRegisters : Prop :=
  ∀ (t : TileRef) (rd : BitVec 5) (s : State),
    let x := s.dev.tile t
    let w := (x.regs.rg rd).toNat
    let wr := fun (k : BitVec 14) => (⟨k, false, 0, rd⟩ : MemArgs)
    let sets := fun (k : BitVec 14) (y : Tile) => s.dev.fetch t = .word (encMem 0x0F (wr k)) →
      ∃ c : Tab W32, exec (.csrw t (wr k)) s = .next ((s.withDev { s.dev with csr := c }).setTile t (y.onward 4))
    t.sector.val < s.fuse.variant.sectors →
    sets 2 { x with vecOffset := BitVec.ofNat 14 (w / 4), vecValid := w.testBit 0 } ∧
    sets 3 { x with trapPc := BitVec.ofNat 16 (w / 4 * 4) } ∧
    sets 7 { x with sticky := x.sticky &&& ~~~BitVec.ofNat 4 w } ∧
    (x.quiet = true → sets 1 { x with trapEn := BitVec.ofNat 8 w &&& 0xF7 }) ∧
    (x.quiet = false → s.dev.fetch t = .word (encMem 0x0F (wr 1)) → exec (.csrw t (wr 1)) s = .next s) ∧
    ∀ k : BitVec 14, k ≠ 1 → k ≠ 2 → k ≠ 3 → k ≠ 7 → s.dev.fetch t = .word (encMem 0x0F (wr k)) →
      exec (.csrw t (wr k)) s = .next (s.withDev (s.dev.trap t 0x04 0))

/-- CSRR of a core register writes its 32 bits to g[RD], zero-extended, and changes nothing else: CORE_STATE shows context, pc,
IN_TRAP, LATE and RUN; the trap registers and the sticky flags show what the core holds (R82, R111). -/
def Sys2Proof.Claims.ProgramsReadCoreRegisters : Prop :=
  ∀ (t : TileRef) (rd : BitVec 5) (s : State),
    let x := s.dev.tile t
    let reads := fun (k : BitVec 14) (m : W32) (v : Nat) =>
      s.dev.fetch t = .word (encMem 0x0E ⟨k, false, 0, rd⟩) → s.dev.reg (At.tile t (4 * k.toNat)) &&& ~~~m = 0 →
      exec (.csrr t ⟨k, false, 0, rd⟩) s = .next (s.setTile t ((x.withRegs (x.regs.wg rd (BitVec.ofNat 64 v))).onward 4))
    t.sector.val < s.fuse.variant.sectors →
    (x.repeating = false → reads 0 0xFFFFFF (1 + 4 * x.late.toNat + 8 * x.inTrap.toNat + 16 * x.pc.toNat + 2 ^ 20 * x.ctx.toNat)) ∧
    reads 1 0xFF x.trapEn.toNat ∧ reads 2 0xFFFD (4 * x.vecOffset.toNat + x.vecValid.toNat) ∧ reads 3 0xFFFF x.trapPc.toNat ∧
    reads 4 0xFF x.cause.toNat ∧ reads 7 0xF x.sticky.toNat

/-- CSRR and CSRW of the core registers (R82, R86, R111). -/
def Obligations.CoreRegisterAccess : Prop := ProgramsWriteCoreRegisters ∧ ProgramsReadCoreRegisters

/-! ## Tensor instructions: issue (R89 to R96) -/

/-- A row of the issue tables: the instruction, its engine and opcode, the checks of its descriptors, and what issue records. -/
abbrev Sys2Proof.Claims.IssueRow := (TileRef → TensorArgs → Instr) × Nat × Nat × (IssueView → Bool) × (IssueView → Tile → Tile)

/-- The matrix engine's, but for the multiplications. -/
def Sys2Proof.Claims.matrixRows : List IssueRow :=
  [(Instr.mload, 0, 0x01, mloadOk, mloadPost), (Instr.mzero, 0, 0x02, mzeroOk, noPost)]

/-- The vector engine's arithmetic. -/
def Sys2Proof.Claims.vectorRows : List IssueRow :=
  [(Instr.vadd, 1, 0x01, vecOk 0x01, noPost), (Instr.vsub, 1, 0x02, vecOk 0x02, noPost), (Instr.vmul, 1, 0x03, vecOk 0x03, noPost),
   (Instr.vfma, 1, 0x04, vecOk 0x04, noPost), (Instr.vmax, 1, 0x05, vecOk 0x05, noPost), (Instr.vmin, 1, 0x06, vecOk 0x06, noPost),
   (Instr.vabs, 1, 0x07, vecOk 0x07, noPost), (Instr.vneg, 1, 0x08, vecOk 0x08, noPost), (Instr.vcmp, 1, 0x09, vecOk 0x09, noPost),
   (Instr.vsel, 1, 0x0A, vecOk 0x0A, noPost), (Instr.vmov, 1, 0x0B, vecOk 0x0B, noPost), (Instr.vand, 1, 0x0C, vecOk 0x0C, noPost),
   (Instr.vor, 1, 0x0D, vecOk 0x0D, noPost), (Instr.vxor, 1, 0x0E, vecOk 0x0E, noPost)]

/-- The vector engine's elementary functions, conversions and permutations. -/
def Sys2Proof.Claims.elementRows : List IssueRow :=
  [(Instr.vexp, 1, 0x20, vecOk 0x20, noPost), (Instr.vlog, 1, 0x21, vecOk 0x21, noPost), (Instr.vrcp, 1, 0x22, vecOk 0x22, noPost),
   (Instr.vrsq, 1, 0x23, vecOk 0x23, noPost), (Instr.vsin, 1, 0x24, vecOk 0x24, noPost), (Instr.vcos, 1, 0x25, vecOk 0x25, noPost),
   (Instr.vcvt, 1, 0x30, vecOk 0x30, noPost), (Instr.vquant, 1, 0x31, vecOk 0x31, noPost), (Instr.vimport, 1, 0x32, vecOk 0x32, noPost),
   (Instr.vexport, 1, 0x33, vecOk 0x33, noPost), (Instr.vperm, 1, 0x38, vecOk 0x38, noPost), (Instr.vgather, 1, 0x39, vecOk 0x39, noPost)]

/-- The vector engine's reductions and VACC. -/
def Sys2Proof.Claims.reductionRows : List IssueRow :=
  [(Instr.vrsum, 1, 0x40, vecOk 0x40, noPost), (Instr.vrmax, 1, 0x41, vecOk 0x41, noPost), (Instr.vrmin, 1, 0x42, vecOk 0x42, noPost),
   (Instr.vrssq, 1, 0x43, vecOk 0x43, noPost), (Instr.vramax, 1, 0x44, vecOk 0x44, noPost), (Instr.vacc, 1, 0x50, vecOk 0x50, noPost)]

/-- Those of the other engines with a queue. -/
def Sys2Proof.Claims.otherRows : List IssueRow :=
  [(Instr.drvGo, 2, 0x01, drvListOk, noPost), (Instr.drvCancel, 2, 0x02, drvCancelOk, noPost), (Instr.drvPut, 2, 0x03, drvListOk, noPost),
   (Instr.attn, 3, 0x01, attnOk, attnPost), (Instr.merge, 3, 0x02, mergeOk, noPost), (Instr.kvappend, 3, 0x03, kvappendOk, noPost),
   (Instr.kvprefix, 3, 0x04, kvprefixOk, noPost), (Instr.conv2, 4, 0x01, convOk 4 0x01, noPost), (Instr.conv3, 4, 0x02, convOk 4 0x02, noPost),
   (Instr.stip, 5, 0x01, convOk 5 0x01, noPost), (Instr.trgPush, 6, 0x01, trgPushOk, noPost), (Instr.trgPop, 6, 0x02, trgPopOk, noPost),
   (Instr.trgDrop, 6, 0x03, trgPlainOk, noPost), (Instr.trgFlush, 6, 0x04, trgPlainOk, noPost), (Instr.syncJoin, 7, 0x04, syncJoinOk, noPost)]

/-- The tensor instructions whose issue records nothing beyond the queue, MLOAD's record of its buffer and ATTN's of both: engine,
opcode, checks of their descriptors, and what issue records. -/
def Sys2Proof.Claims.issueRows : List IssueRow :=
  matrixRows ++ (vectorRows ++ (elementRows ++ (reductionRows ++ otherRows)))

/-- The word of a tensor instruction. -/
def Sys2Proof.Claims.tensorWord (engine opcode : Nat) (a : TensorArgs) : CtisWord := encTensor (BitVec.ofNat 4 engine) (BitVec.ofNat 8 opcode) a

/-- Nothing keeps an instruction from issuing: fewer than eight unbegun ones in its engine's queue, and no earlier instruction that
waits on its token yet to begin (R90, R95). -/
def Sys2Proof.Claims.mayIssue (x : Tile) (engine : Nat) (a : TensorArgs) : Prop :=
  ((x.queue engine).filter fun q => !q.running).length < 8 ∧ (a.te = true → x.hasWaiter a.token = false)

/-- Every token of a WAIT has been issued or is SET (R96). -/
def Sys2Proof.Claims.waitsOnIssued (r : CoreRegs) (w : W64) : Prop := ∀ k : BitVec 6, w.getLsbD k.toNat = true → (r.rt k).state ≠ .clear

/-- The entry that issue puts into the engine queue: the words' fields, the descriptors and the g register as they are now (R90). -/
def Sys2Proof.Claims.queueEntry (x : Tile) (engine opcode : Nat) (a : TensorArgs) : Queued :=
  { engine := engine, opcode := opcode, args := a, da := x.regs.rd a.da, db := x.regs.rd a.db, dc := x.regs.rd a.dc,
    gval := x.regs.rg a.greg, ctx := x.ctx.toNat, step := 0, order := x.nextOrder }

/-- A tile after issue: the token PENDING where TE is 1 (what else it then shows is the model's choice, log 59), the entry last in its
engine's queue and among those that the program has not waited on (R85). -/
def Sys2Proof.Claims.issued (x : Tile) (engine opcode : Nat) (a : TensorArgs) : Tile :=
  { (x.withRegs (if a.te then x.regs.wt a.token { state := .pending, origin := a.token } else x.regs)).setQueue engine
      (x.queue engine ++ [queueEntry x engine opcode a]) with unwaited := x.unwaited ++ [queueEntry x engine opcode a] }

/-- A tensor instruction whose checks pass, with no token of its WAIT CLEAR and its own token not PENDING, issues: its token becomes
PENDING, its descriptors and g register are captured in its engine's queue, the pc moves on by 16 bytes, and nothing else changes but
that a Drover instruction which comes to the head of its queue takes its place among the sector's heads (R90, R95, R96, R290). -/
def Sys2Proof.Claims.TensorIssueQueuesAndPends : Prop :=
  ∀ e ∈ issueRows, ∀ (t : TileRef) (a : TensorArgs) (s : State),
    let x := s.dev.tile t
    s.dev.fetch t = .word (tensorWord e.2.1 e.2.2.1 a) → mayIssue x e.2.1 a → e.2.2.2.1 (x.issueView a) = true →
    (a.te = true → (x.regs.rt a.token).state ≠ .pending) → waitsOnIssued x.regs a.wait →
    exec (e.1 t a) s = .next (s.withDev ((s.dev.setTile t
      ((e.2.2.2.2 (x.issueView a) (issued x e.2.1 e.2.2.1 a)).onward 16)).queueMoved t e.2.1))

/-- The matrix multiplications and the Ox commands: opcode. -/
def Sys2Proof.Claims.mmaRows : List ((TileRef → TensorArgs → Instr) × Nat) :=
  [(.mmaE4, 0x10), (.mmaE5, 0x11), (.mmaC4, 0x12), (.mmaBf, 0x13), (.mmaHf, 0x14), (.mmaF32, 0x15)]

def Sys2Proof.Claims.oxCommandRows : List ((TileRef → TensorArgs → Instr) × Nat) := [(.oxRule, 0x01), (.oxProg, 0x02)]

/-- A matrix multiplication outside a promoted bracket issues under its own opcode; at level 1 of a bracket with a promotion table
the 8-bit and 4-bit ones execute as MMA.BF with pass mode 0, and at level 2 every one as MMA.F32 with pass mode 2 (R334). An Ox
command issues and captures its record, its step and its home slice (R346). -/
def Sys2Proof.Claims.MatrixAndOxIssue : Prop :=
  (∀ e ∈ mmaRows, ∀ (t : TileRef) (a : TensorArgs) (s : State),
    let x := s.dev.tile t
    let level := match x.bracket with
      | none => 0
      | some b => if b.table then b.level else 0
    let op := if level = 1 ∧ e.2 ≤ 0x12 then 0x13 else if level = 2 ∧ e.2 ≤ 0x14 then 0x15 else e.2
    let pass := if level = 1 ∧ e.2 ≤ 0x12 then 0 else if level = 2 ∧ e.2 ≤ 0x14 then 2 else a.mod.toNat / 2 ^ 11 % 4
    let a' := { a with mod := BitVec.ofNat 19 (a.mod.toNat % 2 ^ 11 + pass * 2 ^ 11 + a.mod.toNat / 2 ^ 13 * 2 ^ 13) }
    s.dev.fetch t = .word (tensorWord 0 e.2 a) → mayIssue x 0 a' → mmaOk op pass (x.issueView a') = true →
    (a.te = true → (x.regs.rt a.token).state ≠ .pending) → waitsOnIssued x.regs a.wait →
    exec (e.1 t a) s = .next (s.setTile t ((issued x 0 op a').onward 16))) ∧
  ∀ e ∈ oxCommandRows, ∀ (t : TileRef) (a : TensorArgs) (s : State),
    let x := s.dev.tile t
    s.dev.fetch t = .word (tensorWord 8 e.2 a) → mayIssue x 8 a → oxOk (x.issueView a) = true →
    (a.te = true → (x.regs.rt a.token).state ≠ .pending) → waitsOnIssued x.regs a.wait →
    exec (e.1 t a) s = .next (s.withDev ((s.dev.setTile t ((issued x 8 e.2 a).onward 16)).oxCapture s.fuse.variant t))

/-- Issue of tensor instructions (R90, R95, R96, R334, R346). -/
def Obligations.TensorIssue : Prop := TensorIssueQueuesAndPends ∧ MatrixAndOxIssue

/-- What keeps a tensor instruction from issuing (R90, R94 to R96): it stalls while its queue holds eight unbegun instructions or one
that waits on its token has not begun; then a failing check raises DESC_INVALID, a PENDING token TOKEN_BUSY, and a CLEAR token of
its WAIT TOKEN_IDLE, the first of these that holds. -/
def Obligations.TensorIssueStallsOrTraps : Prop :=
  ∀ e ∈ issueRows, ∀ (t : TileRef) (a : TensorArgs) (s : State),
    let x := s.dev.tile t
    s.dev.fetch t = .word (tensorWord e.2.1 e.2.2.1 a) →
    (8 ≤ ((x.queue e.2.1).filter fun q => !q.running).length ∨ (a.te = true ∧ x.hasWaiter a.token = true) →
      exec (e.1 t a) s = .next s) ∧
    (mayIssue x e.2.1 a →
      (e.2.2.2.1 (x.issueView a) = false → exec (e.1 t a) s = .next (s.withDev (s.dev.trap t 0x05 0))) ∧
      (e.2.2.2.1 (x.issueView a) = true → a.te = true → (x.regs.rt a.token).state = .pending →
        exec (e.1 t a) s = .next (s.withDev (s.dev.trap t 0x07 0))) ∧
      (e.2.2.2.1 (x.issueView a) = true → (a.te = true → (x.regs.rt a.token).state ≠ .pending) → ¬ waitsOnIssued x.regs a.wait →
        exec (e.1 t a) s = .next (s.withDev (s.dev.trap t 0x08 0))))

/-! ## Tensor instructions: begin and completion (R96 to R99) -/

/-- The head of a queue none of whose instructions runs, with every token of its WAIT SET: where one of them holds a trap-enabled
status it is suppressed: it leaves the queue, nothing executes, no summary register is written, and its token becomes SET with
the status and the origin of the lowest such token (R99). Else, unless an attention instruction orders it (R195), it completes with the
status with which its engine refuses it (R6, R91, R440), or it begins: on the matrix engine, the vector engine and the synchronisation
engine with the step of its sector and nothing else (R96), a Drover instruction but a cancel by waiting for its slot (R290), the others as
their chapters say. A halted tile whose engines have then finished starts its next slice (R109); a command of engine 8 waits here. -/
def Obligations.HeadBeginsOrIsSuppressed : Prop :=
  ∀ (t : TileRef) (e : Fin 9) (q : Queued) (s : State),
    let x := s.dev.tile t
    let fails := fun (k : BitVec 6) => q.args.wait.getLsbD k.toNat = true ∧ trapEnabled x.trapEn (x.regs.rt k).status = true
    let answers := fun (u : Dev) => exec (.engineHeadBegin t e) s = .next (s.withDev (u.settled s.fuse.variant t))
    x.head e.val = some q → x.active e.val = none → q.engine = e.val →
    (∀ k : BitVec 6, q.args.wait.getLsbD k.toNat = true → (x.regs.rt k).state = .set) →
    (∀ k, fails k → (∀ j, fails j → k.toNat ≤ j.toNat) →
      answers (((s.dev.setTile t ((x.setQueue e.val ((x.queue e.val).erase q)).withRegs
        (if q.args.te then x.regs.wt q.args.token { x.regs.rt k with state := .set, suppressed := true } else x.regs)))).queueMoved t e.val)) ∧
    ((∀ k, ¬ fails k) → e.val ≠ 8 → x.ordered q = false →
      let st := s.dev.engineRefuses s.fuse.variant t e.val
      (st ≠ 0 → answers ((s.dev.finish t q { st := st }).trace s.fuse.variant t e.val q.opcode x.pc st 0)) ∧
      (st = 0 → e.val = 0 ∨ e.val = 1 ∨ e.val = 7 → answers (s.dev.requeue t q
        { q with running := true, step := s.dev.stepOf t.sector.val, begun := [], moved := 0, waited := false })) ∧
      (st = 0 → e.val = 2 → q.opcode ≠ 2 → answers (s.dev.requeue t q { q with waited := true })) ∧
      (st = 0 → answers (s.dev.beginEngine s.fuse.variant t q)))

/-- Completion of an instruction (R97, R98): it leaves its queue; its token, where TE is 1, becomes SET with the status and itself
as origin; its summary register, where SE is 1, takes a reduction's result, and of an instruction that is no reduction the status word
with DETAIL and the sticky flags raised; these are ORed into CORE_STICKY; every other register and the rest of the device stand, but
that the next Drover instruction takes its place among the sector's heads (R290). What a reduction without a result leaves in SREG is the
model's choice (log 60). -/
def Sys2Proof.Claims.CompletionSetsTokenAndSummary : Prop :=
  ∀ (d : Dev) (t : TileRef) (q : Queued) (o : Outcome),
    let x := d.tile t
    let word : W64 := BitVec.ofNat 64 (o.st.toNat + 2 ^ 8 * o.sticky.indexRange.toNat + 2 ^ 9 * o.sticky.rowEmpty.toNat +
      2 ^ 10 * o.sticky.underrun.toNat + 2 ^ 16 * o.detail.toNat)
    ∃ y : Tile, d.finish t q o = (d.setTile t y).queueMoved t q.engine ∧
    y = { x with queues := y.queues, regs := y.regs, sticky := y.sticky } ∧
    y.queue q.engine = (x.queue q.engine).erase q ∧ (∀ e, e ≠ q.engine → y.queue e = x.queue e) ∧
    y.regs.g = x.regs.g ∧ y.regs.p = x.regs.p ∧ y.regs.d = x.regs.d ∧
    (∀ k, y.regs.rt k = if q.args.te = true ∧ k = q.args.token then
        { state := .set, status := o.st, suppressed := false, origin := q.args.token, detail := o.detail,
          src := BitVec.ofNat 8 (q.engine * 16 + q.opcode % 16) }
      else x.regs.rt k) ∧
    (∀ k, y.regs.rs k = if q.args.se = true ∧ k = q.args.sreg then (match o.result with
        | some r => r
        | none => if q.engine = 1 ∧ 0x40 ≤ q.opcode ∧ q.opcode ≤ 0x44 then x.regs.rs k else { kind := .int, val := word })
      else x.regs.rs k) ∧
    ∀ i, y.sticky.getLsbD i = (x.sticky.getLsbD i || (decide (i = 0) && o.sticky.indexRange) || (decide (i = 1) && o.sticky.rowEmpty) ||
      (decide (i = 2) && o.sticky.underrun) || (decide (i = 3) && o.sticky.overflow))

/-- TENSOR_COMPLETE of an instruction that has its scales and whose engine has ended: what the engine did, its convolution engine free
again, and then token and summary register (R97), and in a replay that traces, a status other than DONE in the journal (R382); a queue
in which nothing runs is left as it is. A halted tile whose engines have then finished starts its next slice (R109). An MZERO makes every element of
its rows +0, touches no other byte of any accumulator (R146), and marks what another instruction reads of them (R140); a SYNC.JOIN has
no other effect (R102). -/
def Sys2Proof.Claims.TensorCompletes : Prop :=
  (∀ (t : TileRef) (e : Fin 9) (r : EngineReport) (q : Queued) (o : Outcome) (d : Dev) (s : State),
    let v := s.fuse.variant
    let free := fun (d : Dev) => if e.val = 4 ∨ e.val = 5
      then d.onSector t.sector.val fun y => y.setConv e.val { y.conv e.val with busy := none } else d
    (s.dev.tile t).active e.val = some q → q.scalesIn = true → s.dev.engineOutcome v t q r = (some o, d) →
    exec (.tensorComplete t e r) s = .next (s.withDev
      ((((free d).finish t q o).trace v t e.val q.opcode (s.dev.tile t).pc o.st o.detail).settled v t))) ∧
  (∀ (t : TileRef) (e : Fin 9) (r : EngineReport) (s : State), (s.dev.tile t).active e.val = none →
    exec (.tensorComplete t e r) s = .next (s.withDev (s.dev.settled s.fuse.variant t))) ∧
  (∀ (t : TileRef) (r : EngineReport) (q : Queued) (s : State),
    (s.dev.tile t).active 7 = some q → q.engine = 7 →
    exec (.tensorComplete t 7 r) s = .next (s.withDev ((s.dev.finish t q { st := sDone }).settled s.fuse.variant t))) ∧
  ∀ (t : TileRef) (r : EngineReport) (q : Queued) (s : State),
    let bank := q.args.mod.toNat % 4
    let row := q.args.mod.toNat / 4 % 256
    let rows := q.args.mod.toNat / 2 ^ 10 % 256 + 1
    (s.dev.tile t).active 0 = some q → q.engine = 0 → q.opcode = 0x02 → row + rows ≤ 256 →
    ∃ (acc : Mem) (bad : List Nat),
      exec (.tensorComplete t 0 r) s = .next (s.withDev
        (((({ s.dev with acc := acc, accBad := bad } : Dev).markOthers t q).finish t q { st := sDone }).settled s.fuse.variant t)) ∧
      ∀ (t' : TileRef) (k : Fin 4) (b : Nat), b < 0x10000 →
        Mem.byte acc (accAddr t' k.val b) =
          if t' = t ∧ k.val = bank ∧ 256 * row ≤ b ∧ b < 256 * (row + rows) then 0 else Mem.byte s.dev.acc (accAddr t' k.val b)

/-- Completion of tensor instructions (R97, R98). -/
def Obligations.TensorCompletion : Prop := CompletionSetsTokenAndSummary ∧ TensorCompletes

/-- The I32 results of the vector engine (R151, R153): VADD, VSUB, VMUL and VFMA modulo 2^32, VMAX and VMIN signed, VABS and VNEG
modulo 2^32, VCMP 1 or 0 by its function. -/
def Obligations.IntegerVectorResults : Prop :=
  ∀ (x y z : W32) (func : Nat),
    let r := fun (op : Nat) => elemRes op func (.i x) (.i y) (.i z)
    let v := fun (w : W32) => ((DVal.i w.toNat, none) : VRes)
    r 0x01 = v (x + y) ∧ r 0x02 = v (x - y) ∧ r 0x03 = v (x * y) ∧ r 0x04 = v (x * y + z) ∧
    r 0x05 = v (if x.toInt ≤ y.toInt then y else x) ∧ r 0x06 = v (if x.toInt ≤ y.toInt then x else y) ∧
    unaryRes 0x07 (.i x) = v (BitVec.ofInt 32 |x.toInt|) ∧ unaryRes 0x08 (.i x) = v (-x) ∧
    r 0x09 = (.i (if (match func with
      | 0 => decide (x.toInt = y.toInt)
      | 1 => decide (x.toInt ≠ y.toInt)
      | 2 => decide (x.toInt < y.toInt)
      | 3 => decide (x.toInt ≤ y.toInt)
      | 4 => decide (y.toInt < x.toInt)
      | 5 => decide (y.toInt ≤ x.toInt)
      | _ => false) then 1 else 0), none)

/-! ## Slices and layer brackets (R101 to R104, R333) -/

/-- SYNC.TICK of a quiet tile with no bracket open and no trap-enabled token ends the slice: the core issues nothing more (R101);
SLICE_END then leaves the tile at a slice boundary, where no stream of the tile is left to cancel, no planned swap waits and no
slice is due. -/
def Obligations.SyncTickEndsTheSlice : Prop :=
  (∀ (t : TileRef) (w : W64) (g : BitVec 5) (s : State),
    let x := s.dev.tile t
    let a : TensorArgs := { wait := w, greg := g, mod := 0, dc := 0, db := 0, da := 0, sreg := 0, se := false, token := 0, te := false }
    let l := s.dev.curIsLast s.fuse.variant t
    s.dev.fetch t = .word (tensorWord 7 0x01 a) → waitsOnIssued x.regs w → x.quiet = true → x.bracket = none →
    (∀ k : BitVec 6, (x.regs.rt k).state = .set → trapEnabled x.trapEn (x.regs.rt k).status = false) →
    exec (.syncTick t a) s = .next (s.withDev (l.2.onTile t fun y => { y with run := .ending }))) ∧
  ∀ (t : TileRef) (s : State),
    let l := s.dev.curIsLast s.fuse.variant t
    (s.dev.tile t).run = .ending → (∀ y ∈ (l.2.sector t.sector.val).streams, y.tile ≠ t.tile) →
    (∀ k, k < 32 → (l.2.trough t.sector.val k).swapPlanned = 0) → (l.2.tile t).waiting = [] →
    exec (.sliceEnd t) s = .next (s.withDev (l.2.onTile t fun y => { y with run := .idle, late := false }))

/-- LAYER.OPEN in its turn, with no promotion table or with one that R332 accepts, opens a bracket at level 0 for the layer of MOD: the
registers are saved with its own token SET, SREG takes 0 as an INT, the overflow sticky and its recorded cause are cleared (R103, R332,
R344; that the core waits at it for its turn is DEDUCED, log 32). LAYER.CLOSE of a quiet tile sends
the tile's vote under the bracket's key and then the core issues nothing (R104, R333). -/
def Sys2Proof.Claims.BracketsOpenAndVote : Prop :=
  (∀ (t : TileRef) (a : TensorArgs) (tbl : BitVec 192 × List Promo) (s : State),
    let x := s.dev.tile t
    let regs := if a.te then x.regs.wt a.token { state := .set, status := sDone, origin := a.token, src := 0x72 } else x.regs
    s.dev.fetch t = .word (tensorWord 7 0x02 a) → a.da = 0 → a.db = 0 → a.dc = 0 → a.se = true →
    (if a.greg = 0 then .ok (1 <<< t.ix, []) else s.dev.promoTable s.fuse.variant t (x.regs.rg a.greg)) = .ok tbl →
    a.mod.toNat < 2 ^ 16 → x.bracket = none → x.head 7 = none → (a.te = true → x.hasWaiter a.token = false ∧ (x.regs.rt a.token).state ≠ .pending) →
    (∀ k : BitVec 6, a.wait.getLsbD k.toNat = true → (x.regs.rt k).state = .set ∧ trapEnabled x.trapEn (x.regs.rt k).status = false) →
    ∃ u : Dev, exec (.layerOpen t a) s = .next (s.withDev u) ∧ (u.tile t).regs = regs.ws a.sreg { kind := .int, val := 0 } ∧
      (u.tile t).pc = (x.onward 16).pc ∧ (u.tile t).sticky.getLsbD 3 = false ∧ u.reg (At.tile t 0x780) = 0 ∧
      ∃ b : Bracket, (u.tile t).bracket = some b ∧ b.layer = a.mod.toNat ∧ b.level = 0 ∧ b.saved = regs ∧ b.sreg = a.sreg ∧
        b.step = (s.dev.stepOf t.sector.val).toNat ∧ b.group = tbl.1 ∧ b.promo = tbl.2 ∧ b.voted = false ∧ b.table = decide (a.greg ≠ 0)) ∧
  ∀ (t : TileRef) (a : TensorArgs) (b : Bracket) (s : State),
    let x := s.dev.tile t
    s.dev.fetch t = .word (tensorWord 7 0x03 a) → a.da = 0 → a.db = 0 → a.dc = 0 → a.mod = 0 → x.bracket = some b → x.quiet = true →
    (a.te = true → x.hasWaiter a.token = false ∧ (x.regs.rt a.token).state ≠ .pending) →
    (∀ k : BitVec 6, a.wait.getLsbD k.toNat = true → (x.regs.rt k).state = .set ∧ trapEnabled x.trapEn (x.regs.rt k).status = false) →
    ∃ u : Dev, exec (.layerClose t a) s = .next (s.withDev u) ∧
      (u.tile t) = { x with bracket := some { b with voted := true, close := some a } } ∧ u.fetch t ≠ .word (tensorWord 7 0x03 a) ∧
      ∃ vote ∈ u.seq.votes, vote.key = ⟨x.ctx.toNat, b.step, b.layer, b.occurrence, b.level⟩ ∧
        (t.ix, x.sticky.getLsbD 3) ∈ vote.cast

/-- The vote of a bracket that one tile alone makes, in no replay and with no journal (R104, R333): with the sticky clear the bracket
commits and CLOSE completes with DONE; with it set below level 2 the saved registers return with the level raised by one in
SREG, and the core goes on behind LAYER.OPEN. -/
def Sys2Proof.Claims.VoteOfOneTile : Prop :=
  ∀ (t : TileRef) (k : VoteKey) (vote : Vote) (b : Bracket) (a : TensorArgs) (set_ : Bool) (s : State),
    let x := s.dev.tile t
    s.dev.seq.votes.find? (fun y => decide (y.key = k)) = some vote → vote.key = k → vote.group = 1 <<< t.ix →
    vote.cast = [(t.ix, set_)] → s.dev.seq.replay = none → s.dev.bit (At.seq 0x40C) 31 = false →
    s.dev.bit (At.dev 0x124) 0x06 = true →
    x.bracket = some b → b.close = some a → b.key x.ctx.toNat = k → b.promo = [] → b.level < 2 → s.dev.reg (At.tile t 0x780) = 0 →
    ∃ u : Dev, exec (.bracketVoteClose k) s = .next (s.withDev u) ∧ (∀ y ∈ u.seq.votes, y.key ≠ k) ∧
      (set_ = false → (u.tile t).bracket = none ∧ (u.tile t).pc = (x.onward 16).pc ∧
        (a.te = true → (u.tile t).regs.rt a.token = { state := .set, status := sDone, origin := a.token, src := 0x73 })) ∧
      (set_ = true → (u.tile t).regs = b.saved.ws b.sreg { kind := .int, val := BitVec.ofNat 64 (b.level + 1) } ∧
        (u.tile t).pc = BitVec.ofNat 16 b.resume ∧ (u.tile t).bracket = some { b with level := b.level + 1, voted := false, close := none })

/-- Layer brackets and their votes (R103, R104, R333). -/
def Obligations.BracketsAndTheirVotes : Prop := BracketsOpenAndVote ∧ VoteOfOneTile

/-! ## Streams and troughs (R290 to R319) -/

/-- No slice waits to start in a sector. -/
def Sys2Proof.Claims.noneWaits (d : Dev) (n : Nat) : Prop := ∀ k, k < 16 → (d.tile (tileOf (16 * n + k))).waiting = []

/-- STREAM_BEGIN takes of a sector's ready heads the one that reached its queue head first out of its queue and makes it a stream with the fields of its header, once
the header passes its checks and a slot and its whole buffer are free (R290, R302); STREAM_COMPLETE of a delivered stream frees slot and
buffer and sets its token to DONE (R303); DRV_CANCEL_COMPLETE completes a cancel whose targets are gone, with DONE where it found one
and DONE_EMPTY where it found none (R304). -/
def Sys2Proof.Claims.StreamsBeginAndEnd : Prop :=
  (∀ (t : TileRef) (q : Queued) (place : Nat) (s : State),
    let n := t.sector.val
    let h := s.dev.listBytes s.fuse.variant t q.ctx q.da 0
    s.dev.drvReady t = some q → (∀ k, k < 16 → ∀ y, s.dev.drvReady (tileOf (16 * n + k)) = some y → q.reached.getD 0 ≤ y.reached.getD 0) →
    h.st = 0 → headerOk h.data (descOf q.da).e0 (s.dev.poolStart n) = true → (s.dev.sector n).streams.length < 64 →
    s.dev.placeBuffer n (recNat h.data 4 4) = some place →
    ∃ (r : Stream × Dev) (x : Stream), exec (.streamBegin t) s = .next (s.withDev ((r.2.onSector n fun y =>
        { y with streams := y.streams ++ [r.1], nextStream := y.nextStream + 1 }).settled s.fuse.variant t)) ∧
      r = (h.d.unqueue t q).loadEntry s.fuse.variant n x ∧ x.tile = t.tile ∧ x.put = decide (q.opcode = 3) ∧ x.entry = 0 ∧
      x.entries = recNat h.data 0 4 ∧ x.buffer = recNat h.data 4 4 ∧ x.rate = recNat h.data 8 2 ∧ x.priority = recNat h.data 0x0A 1 ∧
      x.tag.toNat = recNat h.data 0x0C 2 ∧ x.starts.toNat = recNat h.data 0x10 8 ∧ x.place = place ∧
      x.startTick = h.d.tick.number ∧ x.args = q.args ∧ x.status = 0 ∧ x.done = false) ∧
  (∀ (n : Fin 12) (id : Nat) (x : Stream) (s : State),
    s.dev.stream n.val id = some x → x.done = true → x.status = 0 → noneWaits s.dev n.val →
    ∃ u : Dev, exec (.streamComplete n id) s = .next (s.withDev u) ∧
      (u.sector n.val).streams = (s.dev.sector n.val).streams.filter (fun y => y.id != id) ∧
      (x.args.te = true → (u.tile ⟨n, x.tile⟩).regs.rt x.args.token =
        { state := .set, status := sDone, suppressed := false, origin := x.args.token, detail := x.detail,
          src := if x.put then 0x23 else 0x21 })) ∧
  ∀ (t : TileRef) (q : Queued) (s : State),
    (s.dev.tile t).active 2 = some q → q.opcode = 2 →
    (∀ x ∈ (s.dev.sector t.sector.val).streams, x.tile = t.tile → x.target = false) →
    exec (.drvCancelComplete t) s = .next (s.withDev
      ((s.dev.finish t q { st := if q.moved = 0 then sDoneEmpty else sDone }).settled s.fuse.variant t))

/-- A line response of a COPY entry within a tile's memory writes the 64 source bytes at the destination and nothing else of any tile's
memory, the stream goes on by one line, as long as the row has more, and the cycles that the line waited on the tile's port are counted
(R294, R298, R300). -/
def Sys2Proof.Claims.CopyStreamMovesOneLine : Prop :=
  ∀ (n : Fin 12) (id waits : Nat) (x : Stream) (s : State),
    let t : TileRef := ⟨n, x.tile⟩
    let e := drvEntryOf x.cur
    let a := e.sa + x.row * e.ss + x.off
    let b := e.da + x.row * e.ds + x.off
    s.dev.stream n.val id = some x → s.dev.eligible s.fuse.variant n.val x = true → noneWaits s.dev n.val →
    x.spoiled = false → e.mode = 0 → e.sk = 0 → e.dk = 0 → a % 64 = 0 → b % 64 = 0 → a + 64 ≤ 0x200000 → b + 64 ≤ 0x200000 →
    s.dev.tileLineBad t (a / 64) = false → x.off + 64 < e.size →
    ∃ u : Dev, exec (.streamLineResponse n ⟨id, waits⟩) s = .next (s.withDev u) ∧
      u.fld (At.tile t 0x520) 0 32 = min (s.dev.fld (At.tile t 0x520) 0 32 + waits) (2 ^ 32 - 1) ∧
      (∀ (t' : TileRef) (c : Nat), c < 0x200000 →
        u.tileByte t' c = if t' = t ∧ b ≤ c ∧ c < b + 64 then s.dev.tileByte t (a + (c - b)) else s.dev.tileByte t' c) ∧
      (u.sector n.val).streams = (s.dev.sector n.val).streams.map fun y =>
        if y.id = x.id then { x with off := x.off + 64, waited := false, moved := x.moved + 1 } else y

/-- Streams from begin to end, and a line that one moves (R290 to R304). -/
def Obligations.StreamsMoveLines : Prop := StreamsBeginAndEnd ∧ CopyStreamMovesOneLine

/-- A trough delivers words in the order they were pushed (R308, R310, R311, R314): a word enters behind those that the trough holds, a
swap of a trough whose drain bank is empty and that drops no packet keeps their order, and each pop takes the oldest word of the drain
bank. TROUGH_AUTO_SWAP swaps the
banks of a streaming trough whose drain bank is empty and whose fill bank is full or ends in an end mark, and no other (R311). -/
def Sys2Proof.Claims.TroughsAreFirstInFirstOut : Prop :=
  (∀ (x : Trough) (w : TWord),
    (x.dropPending = false → (x.push w).drain ++ (x.push w).fill = x.drain ++ x.fill ++ [w] ∧ (x.push w).dropPending = false) ∧
    (x.dropPending = false → x.drain = [] → x.swap.drain = x.fill ∧ x.swap.fill = []) ∧
    (x.drain = [] → x.pop = none) ∧
    ∀ r : List TWord, x.drain = w :: r → x.pop = some (w, { x with drain := r, last := w.data })) ∧
  ∀ (n : Fin 12) (k : Fin 32) (s : State),
    let x := s.dev.trough n.val k.val
    (x.producer ≠ 0xFF → x.ticked = false → x.drain = [] → 64 ≤ x.fill.length ∨ (∃ w, x.fill.getLast? = some w ∧ w.endMark = true) →
      exec (.troughAutoSwap n k) s = .next (s.withDev (s.dev.onTrough n.val k.val (·.swap)))) ∧
    (x.drain ≠ [] ∨ x.producer = 0xFF ∨ x.ticked = true ∨ (x.fill.length < 64 ∧ ∀ w, x.fill.getLast? = some w → w.endMark = false) →
      exec (.troughAutoSwap n k) s = .next s)

/-- TROUGH_STALE_TIMEOUT of a trough that holds words raises its event once and swaps the banks where FORCE_SWAP is 1 and the drain bank
is empty (R319); HOST_MESSAGE_DRAIN moves words of a host queue behind those of its trough, in order, until none is left or the fill bank is full
and no swap is due (R311, R399). -/
def Sys2Proof.Claims.StaleTroughsAndHostWords : Prop :=
  (∀ (n : Fin 12) (k : Fin 32) (s : State),
    let x := s.dev.trough n.val k.val
    let swaps := fun (d : Dev) => if x.force = true ∧ x.drain = [] then d.onTrough n.val k.val (·.swap) else d
    x.stale ≠ 0 → x.fill ≠ [] ∨ x.drain ≠ [] →
    (x.staleRaised = true → exec (.troughStaleTimeout n k) s = .next (s.withDev (swaps s.dev))) ∧
    (x.staleRaised = false → exec (.troughStaleTimeout n k) s = .next (s.withDev (swaps
      (((s.dev.count (At.sector n.val 0x510) 0 32 1).onTrough n.val k.val fun y => { y with staleRaised := true }).raise 0x0B
        { partition := n.val, arg := [BitVec.ofNat 8 k.val, BitVec.ofNat 8 x.fill.length, BitVec.ofNat 8 x.drain.length] }))))) ∧
  ∀ (q : Fin 64) (n k : Nat) (s : State), s.dev.hostTrough q.val = some (n, k) → (s.dev.trough n k).dropPending = false →
    let ws := s.dev.hostWords q.val
    let x := s.dev.trough n k
    ∃ (u : Dev) (m : Nat), exec (.hostMessageDrain q) s = .next (s.withDev u) ∧ m ≤ ws.length ∧
      (u.trough n k).drain ++ (u.trough n k).fill = x.drain ++ x.fill ++ ws.take m ∧ u.hostWords q.val = ws.drop m ∧
      (m = ws.length ∨ (64 ≤ (u.trough n k).fill.length ∧ (u.trough n k).canSwap = false))

/-- Troughs: order, swaps, staleness, and words from host queues (R308 to R319, R399). -/
def Obligations.TroughsPassWords : Prop := TroughsAreFirstInFirstOut ∧ StaleTroughsAndHostWords

/-! ## Ox units (R345 to R366) -/

/-- The commands of an Ox unit: a head whose WAIT is met leaves its tile's queue for the unit of its home slice while that has room
(R347); a unit that runs no pass takes the oldest command where it is of the pass asked for, prepares it, and a pass that the checks
stop ends with their status (R351); a finished pass completes its command and frees the unit, an applied one once it has written U, U_STEP
and then the state's STEP (R352). -/
def Sys2Proof.Claims.OxUnitCommands : Prop :=
  (∀ (t : TileRef) (q : Queued) (rec_ : List W8) (s : State),
    let x := s.dev.tile t
    x.head 8 = some q → q.engine = 8 → q.begun = 0 :: rec_ → s.dev.oxRefuses s.fuse.variant q.moved = 0 →
    (∀ k : BitVec 6, q.args.wait.getLsbD k.toNat = true → (x.regs.rt k).state = .set ∧ trapEnabled x.trapEn (x.regs.rt k).status = false) →
    (s.dev.hub q.moved).oxQueue.length < 64 →
    ∃ u : Dev, exec (.oxCommandEnqueue t) s = .next (s.withDev (u.settled s.fuse.variant t)) ∧ (u.tile t).queue 8 = (x.queue 8).erase q ∧
      (u.hub q.moved).oxQueue = (s.dev.hub q.moved).oxQueue ++
        [{ tile := t, prog := decide (q.opcode = 2), pass2 := decide (q.args.mod.toNat % 2 = 1), args := q.args, ctx := q.ctx,
           step := q.step, record := rec_, recStatus := 0, barred := s.dev.evalMember q.moved, open_ := q.open_ }]) ∧
  (∀ (n : Fin 12) (c : OxCmd) (rest : List OxCmd) (st : W8 × W32) (s : State),
    let d := s.dev.onHub n.val fun h => { h with oxQueue := rest }
    let p := d.oxPrepare s.fuse.variant n.val c
    let prior := BitVec.ofNat 64 (recNat p.1.state 0 8)
    (s.dev.hub n.val).oxPass = none → (s.dev.hub n.val).oxQueue = c :: rest → p.1.stop = some st →
    exec (if c.pass2 then .oxPass2 n else .oxPass1 n) s = .next (s.withDev (p.2.setPass n.val
      { cmd := c, status := st.1, detail := st.2, finished := true, prior := prior }))) ∧
  (∀ (n : Fin 12) (p : OxPass) (s : State), (s.dev.hub n.val).oxPass = some p →
    (p.finished = true → p.cmd.open_ = false →
      let c := p.cmd
      let ev := s.dev.evalMember n.val
      let at_ := recNat c.record 0 8
      let d := if p.applied
        then ((s.dev.virtStore s.fuse.variant c.ctx ev (at_ + 0x58) (toLE 8 p.usum.toNat ++ toLE 8 c.step.toNat)).d.virtStore
          s.fuse.variant c.ctx ev at_ (toLE 8 c.step.toNat)).d
        else s.dev
      exec (.oxPassComplete n) s = .next (s.withDev
        ((d.onHub n.val fun h => { h with oxPass := none }).oxFinish s.fuse.variant n.val c p.status p.detail p.prior))))

/-- The work of the passes. Pass 1 that the checks let through writes the statistics vector to the layer's window and its first 16
elements to the global one, and ends (R354); they are values that are not defined where two commands for its shard were in flight
(R347; what that covers is log 27). Pass 2 waits for its windows where the version lock is free, and ends with CANCELLED where it is
not (R355, R362); once the windows carry the step the update is applied and its sum kept, and a failed window ends the pass with
CANCELLED (R357, R373). Until then the pass waits, and once it has waited out its edges it ends with LATE and applies nothing (R355). -/
def Sys2Proof.Claims.OxPassesApply : Prop :=
  (∀ (n : Fin 12) (c : OxCmd) (rest : List OxCmd) (s : State),
    let v := s.fuse.variant
    let d := s.dev.onHub n.val fun h => { h with oxQueue := rest }
    let p := d.oxPrepare v n.val c
    let prior := BitVec.ofNat 64 (recNat p.1.state 0 8)
    (s.dev.hub n.val).oxPass = none → (s.dev.hub n.val).oxQueue = c :: rest → p.1.stop = none →
    (c.pass2 = false →
      let x := p.2.oxRead v n.val c p.1.state
      let r := oxStats c p.1.state p.1.prog x.1
      ∃ (g : List W32) (f : Nat) (st : W8 × W32),
        let a := ({ x.2 with free := f } : Dev).contribute v (recNat c.record 0x10 8) c.step g
        let b := a.2.contribute v (recNat c.record 0x18 8) c.step (g.take 16)
        g.length = r.length ∧ (c.open_ = false → g = r ∧ f = x.2.free) ∧
        exec (.oxPass1 n) s = .next (s.withDev (b.2.setPass n.val
          { cmd := c, status := st.1, detail := st.2, finished := true, prior := prior }))) ∧
    (c.pass2 = true →
      let l := p.2.virtLoad v c.ctx (p.2.evalMember n.val) (recNat c.record 8 8 + 8 + 8 * (c.step.toNat % 2)) 8
      l.st = 0 →
      exec (.oxPass2 n) s = .next (s.withDev (l.d.setPass n.val
        (if leNat l.data < 2 ^ 63 then { cmd := c, status := sCancelled, finished := true, prior := prior }
         else { cmd := c, waiting := true, left := (if recNat c.record 0x3D 1 = 0 then 4 else recNat c.record 0x3D 1),
                status := p.1.gap.1, detail := p.1.gap.2, prior := prior }))))) ∧
  ∀ (n : Fin 12) (p : OxPass) (s : State),
    let v := s.fuse.variant
    let c := p.cmd
    let r := s.dev.virtLoad v c.ctx (s.dev.evalMember n.val) (recNat c.record 0 8) 128
    let a := r.d.oxLine v n.val c 0x10 0x20 (oxLayerN r.data)
    let b := a.2.oxLine v n.val c 0x18 0x28 16
    (s.dev.hub n.val).oxPass = some p → p.waiting = true →
    let sure := fun (u : Dev) => exec (.oxPass2WindowsReady n) s = .next (s.withDev u) ∧
      (p.left = 0 → exec (.oxPass2WaitTimeout n) s = .next (s.withDev u))
    (a.1 = .failed ∨ b.1 = .failed →
      sure (b.2.setPass n.val { p with waiting := false, status := sCancelled, detail := 0, finished := true })) ∧
    (a.1 ≠ .failed → b.1 ≠ .failed → a.1 = .notYet ∨ b.1 = .notYet → exec (.oxPass2WindowsReady n) s = .next s ∧
      (p.left = 0 → exec (.oxPass2WaitTimeout n) s = .next (s.withDev (b.2.setPass n.val
        { p with waiting := false, status := sLate, detail := 0, finished := true })))) ∧
    (a.1 = .ready ∨ a.1 = .none_ → b.1 = .ready ∨ b.1 = .none_ →
      let pr : Acc := if c.prog then b.2.virtLoad v c.ctx (s.dev.evalMember n.val) (recNat c.record 0x30 8)
          (16 * (recNat c.record 0x38 2 + recNat c.record 0x3A 2)) else ⟨0, [], b.2⟩
      let u := pr.d.oxUpdate v n.val c r.data (oxWords pr.data)
      ∃ st : W8 × W32, sure (u.2.2.setPass n.val
        { p with waiting := false, applied := true, usum := u.2.1, status := st.1, detail := st.2, finished := true }))

/-- The commands of an Ox unit and the work of its passes (R345 to R366). -/
def Obligations.OxCommandsAndPasses : Prop := OxUnitCommands ∧ OxPassesApply

/-! ## Scale records (R324 to R328) -/

/-- SCALE_FETCH gives the running instruction the scale of an operand once: what the record's fetch at its step answers, which stands
with the instruction, and a scale that is LOST sets the overflow sticky at level 0 (R327, R330); SCALE_NOTE applies the oldest note that
waits (R328). -/
def Sys2Proof.Claims.ScalesAreFetchedAndNoted : Prop :=
  (∀ (t : TileRef) (e : Fin 9) (k : Fin 3) (q : Queued) (s : State),
    let o := q.operand k.val
    let r := s.dev.fetchScale s.fuse.variant t q.ctx o.scaleRec o.fmt q.step
    (s.dev.tile t).active e.val = some q → q.scaled.contains k.val = true → (∀ y ∈ q.sigma, y.1 ≠ k.val) →
    let d := r.2.requeue t q { q with sigma := q.sigma ++ [(k.val, r.1)] }
    exec (.scaleFetch t e k) s = .next (s.withDev
      (if r.1 = none ∧ (d.tile t).level = 0 then d.overflow t 4 q.engine q.opcode o.scaleRec 0 else d))) ∧
  ∀ (n : Note) (rest : List Note) (s : State), s.dev.notes = n :: rest →
    exec .scaleNote s = .next (s.withDev (({ s.dev with notes := rest } : Dev).applyNote s.fuse.variant n))

/-- A fetch from a record whose step is the instruction's gives the stored scale and leaves the record; one from the step before rolls
the history: the largest magnitude of that step enters it, CUR_MAX returns to 0 and the record takes the new step; one from any
other step clears the history and is LOST (R327). -/
def Sys2Proof.Claims.ScaleHistoryRolls : Prop :=
  ∀ (fmt : Nat) (st : W64) (r : List W8), r.length = 64 →
    (recNat r 0x20 8 = st.toNat → recNat r 0x33 1 ≠ 1 → scaleFetch fmt st r = (r, some (BitVec.ofNat 8 (recNat r 0x2E 1)).toInt)) ∧
    (recNat r 0x20 8 = st.toNat → recNat r 0x33 1 = 1 → scaleFetch fmt st r = (r, none)) ∧
    (recNat r 0x20 8 = (st - 1).toNat → recNat r 0x33 1 ≠ 1 → recNat r 0x30 1 < 16 → recNat r 0x31 1 ≤ 16 →
      let y := (scaleFetch fmt st r).1
      (scaleFetch fmt st r).2.isSome = true ∧ y.length = 64 ∧ recNat y 0x20 8 = st.toNat ∧ recNat y 0x28 4 = 0 ∧
        recNat y 0x30 1 = (recNat r 0x30 1 + 1) % 16 ∧ recNat y 0x31 1 = min (recNat r 0x31 1 + 1) 16 ∧
        recNat y (2 * recNat r 0x30 1) 2 = (bf16Of (f32 (BitVec.ofNat 32 (recNat r 0x28 4)))).toNat) ∧
    (recNat r 0x20 8 ≠ st.toNat → recNat r 0x20 8 ≠ (st - 1).toNat →
      let y := (scaleFetch fmt st r).1
      (scaleFetch fmt st r).2 = none ∧ y.length = 64 ∧ recNat y 0x20 8 = st.toNat ∧ recNat y 0x31 1 = 0 ∧ recNat y 0x33 1 = 1 ∧
        recNat y 0x28 4 = 0)

/-- Scale records (R324 to R328). -/
def Obligations.ScaleRecordsAndHistory : Prop := ScalesAreFetchedAndNoted ∧ ScaleHistoryRolls

/-! ## Hub slices (R249 to R274) -/

/-- A request that its sector port lets through at once: it comes through none, or is of no regulated class, or its class is open and
nothing of the class waits (R281). -/
def Sys2Proof.Claims.passesPort (d : Dev) (j : SliceJob) : Prop :=
  ∀ m k, portOf j.req.from_ = some m → j.cls = some k → d.regOpen m k = true ∧ ∀ e ∈ (d.hub m).waiting, e.1 ≠ k

/-- A line of a stack that its slice holds in its cache, with the codeword that was written, and answers from it (R268 to R271). -/
def Sys2Proof.Claims.cacheHolds (s : State) (n : Fin 12) (line : Nat) (c : CacheLine) : Prop :=
  n.val < s.fuse.variant.sectors ∧ line < s.fuse.variant.stackGiB * 2 ^ 30 / 64 ∧ (s.dev.hub n.val).fenced = false ∧
    (s.dev.hub n.val).lost line = false ∧ (s.dev.hub n.val).unfilledAt line = false ∧ (s.dev.hub n.val).cached line = some c ∧ c.upset = [] ∧
    ∀ f ∈ (s.dev.hub n.val).fills, f.line ≠ line

/-- A cached line's bytes and dirtiness after a command, and every other line of the cache and every stack as before. -/
def Sys2Proof.Claims.cacheAfter (d u : Dev) (n line : Nat) (data : List W8) (dirty : Bool) : Prop :=
  ((u.hub n).cached line).map (fun c => (c.data, c.dirty, c.upset)) = some (data, dirty, []) ∧
    (∀ l, l ≠ line → (u.hub n).cached l = (d.hub n).cached l) ∧ u.quire = d.quire

/-- A request for bytes of one cached line that its port lets through is answered at once with DONE: a read with the bytes asked for, a
write leaves the line dirty with its bytes in place, and an atomic on an aligned 4 or 8 bytes answers the old value and leaves the
result of R273 in their place; every other line and every stack stand (R255, R270, R273). A read of a line that the code can correct
is answered with the corrected bytes, and counted (R271). -/
def Sys2Proof.Claims.SliceServesCachedLine : Prop :=
  ∀ (n : Fin 12) (q : SliceReq) (off line : Nat) (c : CacheLine) (s : State),
    q.addr = n.val * 0xC00000000 + line * 64 + off → off < 64 → cacheHolds s n line c → c.data.length = 64 →
    let answers := fun (o : Host.Outcome State Fault Refusal) (reply data : List W8) (dirty : Bool) =>
      ∃ u : Dev, o = .next (s.withDev u) ∧ u.outbox = s.dev.outbox ++ [.sliceResp q.tag 0 reply] ∧ cacheAfter s.dev u n.val line data dirty
    (passesPort s.dev ⟨q, .read⟩ → 0 < q.len → off + q.len ≤ 64 → ∀ data : List W8,
      (q.upset = [] ∧ data = c.data) ∨ (q.upset ≠ [] ∧ judge (flipData q.upset c.data) (flipCheck q.upset (rsCheck c.data)) = .corrected data) →
      answers (exec (.sliceRead n q) s) ((data.drop off).take q.len) data c.dirty) ∧
    (∀ data : List W8, q.upset = [] → passesPort s.dev ⟨q, .write data⟩ → data ≠ [] → off + data.length ≤ 64 →
      answers (exec (.sliceWrite n q data) s) [] (c.data.take off ++ data ++ c.data.drop (off + data.length)) true) ∧
    ∀ (op : AmoOp) (w : Bool) (x e : W64), q.upset = [] → passesPort s.dev ⟨q, .atomic op w x e⟩ → (op = .fadd → w = true) →
      let k := if w then 4 else 8
      let old := leNat ((c.data.drop off).take k)
      let new := if w then (amoResult op (BitVec.ofNat 32 old) (x.setWidth 32) (e.setWidth 32)
                  (f32Add (BitVec.ofNat 32 old) (x.setWidth 32))).toNat
        else (amoResult op (BitVec.ofNat 64 old) x e (BitVec.ofNat 64 old)).toNat
      off % k = 0 →
      answers (exec (.sliceAtomic n q op w x e) s) (toLE k old)
        (c.data.take off ++ toLE k new ++ c.data.drop (off + k)) true

/-- What an atomic leaves in memory (R273), from the old value, the operand and the compare value. -/
def Sys2Proof.Claims.AtomicsCombine : Prop :=
  ∀ (n : Nat) (x v c f : BitVec n),
    amoResult .add x v c f = x + v ∧ amoResult .min x v c f = (if x.toInt ≤ v.toInt then x else v) ∧
    amoResult .max x v c f = (if x.toInt ≤ v.toInt then v else x) ∧ amoResult .and x v c f = x &&& v ∧
    amoResult .or x v c f = x ||| v ∧ amoResult .xor x v c f = x ^^^ v ∧ amoResult .swap x v c f = v ∧
    amoResult .cas x v c f = (if x = c then v else x) ∧ amoResult .fadd x v c f = f

/-- Requests for cached lines, and what atomics leave in memory (R255, R270, R273). -/
def Obligations.SliceServesCachedLines : Prop := SliceServesCachedLine ∧ AtomicsCombine

/-- A request for a line that is neither cached nor being filled begins one fill of it and waits (R270); the burst of a fill whose line
arrives as it was written gives the fill its data, and so does a scrub read that finds it so change no stored byte (R253, R256); the
completed fill puts the line into the cache and answers the reads that waited, in their order. -/
def Obligations.MissesFillTheCache : Prop :=
  (∀ (n : Fin 12) (q : SliceReq) (off line : Nat) (s : State),
    q.addr = n.val * 0xC00000000 + line * 64 + off → 0 < q.len → off + q.len ≤ 64 → n.val < s.fuse.variant.sectors →
    line < s.fuse.variant.stackGiB * 2 ^ 30 / 64 → (s.dev.hub n.val).fenced = false → (s.dev.hub n.val).lost line = false →
    (s.dev.hub n.val).unfilledAt line = false → (s.dev.hub n.val).cached line = none →
    (∀ f ∈ (s.dev.hub n.val).fills, f.line ≠ line) → portOf q.from_ = none →
    exec (.sliceRead n q) s = .next (s.withDev (s.dev.onHub n.val fun h =>
      { h with fills := h.fills ++ [{ line := line, waiters := [⟨q, .read⟩] }] }))) ∧
  (∀ (n : Fin 12) (line : Nat) (f : Fill) (s : State),
    n.val < s.fuse.variant.sectors → line < s.fuse.variant.stackGiB * 2 ^ 30 / 64 → (s.dev.hub n.val).lost line = false →
    (s.dev.hub n.val).unfilledAt line = false → s.dev.storedCheck n.val line = rsCheck (s.dev.storedData n.val line) →
    (∃ c : Tab W32, exec (.scrubRead n line ⟨[]⟩) s = .next (s.withDev { s.dev with csr := c })) ∧
    ((s.dev.hub n.val).fills.find? (fun g => g.line == line) = some f → f.outcome = none →
      ∃ u : Dev, exec (.quireBurstComplete n line ⟨[]⟩) s = .next (s.withDev u) ∧ u.quire = s.dev.quire ∧
        (u.hub n.val).fills = (s.dev.hub n.val).fills.map (fun g =>
          if g.line = line then { g with tries := 0, outcome := some (0, s.dev.storedData n.val line) } else g))) ∧
  ∀ (n : Fin 12) (line : Nat) (f : Fill) (data : List W8) (s : State),
    n.val < s.fuse.variant.sectors → line < s.fuse.variant.stackGiB * 2 ^ 30 / 64 →
    (s.dev.hub n.val).lost line = false → (s.dev.hub n.val).cached line = none →
    (s.dev.hub n.val).fills.find? (fun g => g.line == line) = some f → f.outcome = some (0, data) →
    (∀ j ∈ f.waiters, j.op = .read ∧ j.req.addr / 64 = n.val * 0x30000000 + line) →
    ∃ u : Dev, exec (.cacheFillComplete n line) s = .next (s.withDev u) ∧
      ((u.hub n.val).cached line).map (fun c => (c.data, c.dirty, c.upset)) = some (data, false, []) ∧
      (∀ g ∈ (u.hub n.val).fills, g.line ≠ line) ∧
      u.outbox = s.dev.outbox ++ f.waiters.map (fun j => .sliceResp j.req.tag 0 ((data.drop (j.req.addr % 64)).take j.req.len))

/-- The upkeep of a stack. A filled group of a newly mapped channel reads as poison (R259). A reading above a threshold raises the
refresh step at once, and one below lowers nothing (R261, R263). A margining window is armed by MARGIN_START, and its sweep stores the
margins of the channels (R265). -/
def Sys2Proof.Claims.StackUpkeep : Prop :=
  (∀ (n : Fin 12) (group k : Nat) (s : State),
    (∃ done, (s.dev.hub n.val).unfilled = [(group % 128, done)] ∧ done.contains (group / 128) = false) → k < 64 →
    ∃ u : Dev, exec (.poisonFillGroup n group) s = .next (s.withDev u) ∧
      u.storedData n.val ((group / 128 * 64 + k) * 128 + group % 128) = poisonData ∧
      u.storedCheck n.val ((group / 128 * 64 + k) * 128 + group % 128) = poisonCheck ∧
      (u.hub n.val).unfilledAt ((group / 128 * 64 + k) * 128 + group % 128) = false) ∧
  (∀ (n : Fin 12) (c : W8) (now : Nat) (s : State),
    let step := if c.toNat ≤ 85 then 0 else if c.toNat ≤ 95 then 1 else if c.toNat ≤ 105 then 2 else 3
    ∃ u : Dev, exec (.stackTempReading n c now) s = .next (s.withDev u) ∧ (u.hub n.val).temp = c ∧
      (u.hub n.val).refresh = max (s.dev.hub n.val).refresh step ∧
      (2 ≤ max (s.dev.hub n.val).refresh step → u.power.alert = true) ∧
      (max (s.dev.hub n.val).refresh step = 3 → u.power.trip = true)) ∧
  (∀ (n : Fin 12) (s : State), n.val < s.fuse.variant.sectors → (s.dev.hub n.val).marginOn = false →
    exec (.marginStart n) s = .next (s.withDev (s.dev.onHub n.val fun h => { h with marginArmed := true }))) ∧
  ∀ (n : Fin 12) (margins : List (W16 × W16)) (s : State),
    (s.dev.hub n.val).marginOn = true → (s.dev.hub n.val).marginDone = false → margins.length = 136 →
    (∀ m ∈ margins, 125 ≤ 2 * m.1.toNat ∧ 30 ≤ m.2.toNat) → (s.dev.hub n.val).chanMap = [] →
    ∃ u : Dev, exec (.marginSweepDone n margins) s = .next (s.withDev u) ∧ (u.hub n.val).marginDone = true ∧
      (u.hub n.val).marginFail = false ∧ u.retain.changed = true ∧ (u.hub n.val).failed = (s.dev.hub n.val).failed ∧
      ∀ c m, margins[c]? = some m → Tab.look (0, 0) (u.hub n.val).margins c = m

/-- An invalidation written from outside the tiles begins with the two registers as written, once the one in progress is done (R286);
when it is done no translation it names is cached, every other one still is, and none is in progress. -/
def Sys2Proof.Claims.InvalidationDropsTranslations : Prop :=
  (∀ (r : Requester) (v : W32) (s : State), (∀ t, r ≠ .core t) →
    ∃ (u : Dev) (lo hi : W32), exec (.xlInvalHiWrite r v) s = .next (s.withDev u) ∧ u.xlDropping = some (lo, hi) ∧
      u.xlCache = s.dev.dropNamed.xlCache ∧ hi = u.reg (At.hub 0 0x114) ∧ lo = u.reg (At.hub 0 0x110)) ∧
  ∀ (lo hi : W32) (s : State), s.dev.xlDropping = some (lo, hi) →
    exec .xlInvalDone s = .next (s.withDev { s.dev with
      xlDropping := none
      xlCache := s.dev.xlCache.filter (fun e => !(lo.getLsbD 15 || (decide (e.2.1 = (lo.extractLsb' 17 4).toNat) &&
        (lo.getLsbD 16 || decide (e.2.2.1 = (hi.extractLsb' 0 16 ++ lo.extractLsb' 21 11).toNat))))) })

/-- The upkeep of the stacks and the invalidation of translations (R259, R261, R265, R286). -/
def Obligations.StackUpkeepAndTranslations : Prop := StackUpkeep ∧ InvalidationDropsTranslations

/-! ## Reduction windows (R275 to R279, R369 to R373) -/

/-- A line of an open window's slot that carries the step of the window, or the first line of the window, is stored in the slot
buffer and becomes part of its slot; its acknowledgement carries DONE (R276, R370); one that carries another step is
acknowledged, stored nowhere, and fails the window. -/
def Sys2Proof.Claims.WindowTakesLines : Prop :=
  ∀ (n : Fin 12) (l : RedLine) (e : WinEntry) (s : State),
    let d := s.dev
    let x := d.window n.val l.window.toNat
    n.val < s.fuse.variant.sectors → (d.hub n.val).fenced = false → l.offset % 64 = 0 → l.data.length = 64 → x.blocked = none →
    x.abandoned = false → x.entry = some e → x.isOpen = true → l.slot.toNat < e.slots → l.offset < e.slotBytes → x.expect = none →
    (x.step = none ∨ x.step = some l.step →
      let r := d.virtStore s.fuse.variant e.ctx (d.evalMember n.val) (e.slotBuf.toNat + l.slot.toNat * e.slotBytes + l.offset)
        (l.data.take (min 64 (e.slotBytes - l.offset)))
      r.st = 0 → x.waiting = false → r.d.window n.val l.window.toNat = x →
      ∃ u : Dev, exec (.redLineWrite n l) s = .next (s.withDev u) ∧ u.outbox = r.d.outbox ++ [.sliceResp 0 sDone []] ∧
        (u.window n.val l.window.toNat).step = some l.step ∧
        (u.window n.val l.window.toNat).fresh = putHeld x.fresh ⟨l.slot.toNat, l.offset / 64, l.step, l.data⟩ ∧
        u.quire = r.d.quire) ∧
    (∀ w, x.step = some w → w ≠ l.step →
      exec (.redLineWrite n l) s = .next (s.withDev ((d.onWindow n.val l.window.toNat fun y =>
        { y with failed := some (y.failed.getD l.step) }).send (.sliceResp 0 sDone []))))

/-- WINDOW_GRACE_EXPIRY of a due window with no wait closes it (R369, R371): under DEFER and DROP at once, and under WAIT where every
slot is whole; with a slot missing a WAIT window asks for its stretch and goes on waiting, until WINDOW_WAIT_EXPIRY closes it. -/
def Sys2Proof.Claims.WindowsCloseOnTime : Prop :=
  ∀ (n : Fin 12) (w : W8) (e : WinEntry) (s : State),
    let d := s.dev
    let x := d.window n.val w.toNat
    let closes := fun (o : Host.Outcome State Fault Refusal) => ∃ u : Dev, o = .next (s.withDev u) ∧
      (u.window n.val w.toNat).isOpen = false ∧ (u.window n.val w.toNat).waiting = false
    x.blocked = none → x.entry = some e → e.slice = n.val → e.window = w.toNat → x.isOpen = true → x.expect = none →
    (x.waiting = false → e.closeTick.toNat ≤ d.tick.number.toNat →
      (e.mode.extractLsb' 4 2 ≠ 2 ∨ x.complete e [] = true → closes (exec (.windowGraceExpiry n w) s)) ∧
      (e.mode.extractLsb' 4 2 = 2 → x.complete e [] = false →
        exec (.windowGraceExpiry n w) s = .next (s.withDev ((d.requestStretch d.tick.number e.wait).onWindow n.val w.toNat
          fun y => { y with waiting := true })))) ∧
    (x.waiting = true → closes (exec (.windowWaitExpiry n w) s))

/-- Reduction windows: contributions and closes (R276, R369 to R371). -/
def Obligations.WindowsTakeLinesAndClose : Prop := WindowTakesLines ∧ WindowsCloseOnTime

/-! ## The tick (R36 to R65) -/

/-- TICK_EDGE at or after the time of the coming edge, while ticks run and clocks are on: the next tick begins at the edge, with the next
number or the one that a MARKER gave it; an armed period change whose tick has come is in force; the coming edge is one period later;
TICK.STEP is the STEP entry's of the tick, else what the MARKER gave, else as it was (R38, R42, R51, R53, R56, R59, R65, R341). Before
that time it is no edge. -/
def Obligations.TickEdgeBeginsTheNextTick : Prop :=
  ∀ (tel : Telemetry) (now e : Nat) (s : State),
    let t := s.dev.tick
    t.nextEdge = some e →
    (now < e → exec (.tickEdge tel now) s = .next s) ∧
    (e ≤ now → s.dev.bit (At.tick 0) 0 = true → s.dev.power.clocksOn = true → t.begun = true →
      let n := match t.coming with
        | some c => c.1
        | none => t.number + 1
      let us := if t.pending = true ∧ t.nextAt.toNat ≤ n.toNat then t.armedUs else t.periodUs
      ∃ u : Dev, exec (.tickEdge tel now) s = .next (s.withDev u) ∧ u.tick.number = n ∧ u.tick.prevStep = u.tick.step ∧
        u.tick.periodUs = us ∧ u.tick.lastEdge = now ∧ u.tick.nextEdge = some (now + 1000 * us) ∧ u.tick.begun = true ∧
        u.tick.announced = none ∧ u.tick.coming = none ∧ u.tick.reserve = u.tick.maint ∧
        (s.dev.seq.collected = [] → u.tick.step = match (s.dev.seq.steps.filter (fun x => decide (x.1 = n))).getLast? with
          | some x => x.2
          | none => match t.coming with
            | some c => c.2
            | none => t.step))

/-- GUARD_START of a device whose tick has begun (R53, R61): every tile that still runs a slice of this tick or an earlier one, with
work and not skipped, is late from then on. -/
def Obligations.GuardStartFindsLateSlices : Prop :=
  ∀ (tel : Telemetry) (xs : List UnitSample) (t : TileRef) (c : Slice) (s : State),
    let x := s.dev.tile t
    s.dev.tick.begun = true → s.dev.tick.nextEdge.isSome = true → s.dev.gander.resetArmed = false →
    t.sector.val < s.fuse.variant.sectors → x.run = .running ∨ x.run = .ending → x.cur = some c →
    c.tick.toNat ≤ s.dev.tick.number.toNat → c.entry.getLsbD 16 = false → x.skip.contains c.serial = false →
    ∃ u : Dev, exec (.guardStart tel xs) s = .next (s.withDev u) ∧ (u.tile t).late = true

/-- A tick message of a kind leaves a port: on the link, in a frame, or held while its priority is stopped. -/
def Sys2Proof.Claims.sendsTick (d u : Dev) (p : Nat) (kind : W8) (m : TickMsg) : Prop :=
  OutMsg.tick p kind m ∈ u.outbox.drop d.outbox.length ∨ (∃ e, OutMsg.frame p e (.tick kind m) ∈ u.outbox.drop d.outbox.length) ∨
    (p, Packet.tick kind m) ∈ u.links.heldOut.drop d.links.heldOut.length

/-- The root's part of a stretch and of a period change (R42, R44, R63, R427): STRETCH_REQ keeps the largest request for a tick until the
announcement, and another device passes it on upstream; ANNOUNCE_LEAD, at the lead in force before the edge, grants it up to LIMIT_US,
moves the coming edge by it and announces the edge on every tick port; a write of NEXT_AT_HI from outside the tiles, joined with the
low half, arms a change of period 16 or more ticks ahead within 64 to 4,000 µs, and one that breaks these limits changes nothing. -/
def Sys2Proof.Claims.RootStretchesAndArms : Prop :=
  (∀ (p : Fin 17) (m : TickMsg) (s : State), s.dev.tick.number.toNat ≤ m.tick.toNat → s.dev.tick.announced ≠ some (m.tick + 1) →
    (s.dev.isRoot = true → ∃ u : Dev, exec (.stretchReq p m) s = .next (s.withDev u) ∧
      Tab.look 0 u.tick.requests m.tick.toNat = max (Tab.look 0 s.dev.tick.requests m.tick.toNat) m.value.toNat ∧
      ∀ k, k ≠ m.tick.toNat → Tab.look 0 u.tick.requests k = Tab.look 0 s.dev.tick.requests k) ∧
    ∀ q h, s.dev.isRoot = false → s.dev.tick.upstream = some (q, h) → Tab.look 0 s.dev.tick.requests m.tick.toNat < m.value.toNat →
      ∃ u : Dev, exec (.stretchReq p m) s = .next (s.withDev u) ∧ sendsTick s.dev u q 3 { m with hops := m.hops + 1 } ∧
        Tab.look 0 u.tick.requests m.tick.toNat = m.value.toNat) ∧
  (∀ (now e : Nat) (s : State), s.dev.isRoot = true → s.dev.tick.begun = true → s.dev.tick.nextEdge = some e →
    s.dev.tick.announced ≠ some (s.dev.tick.number + 1) →
    e ≤ now + 1000 * min (s.dev.fld (At.tick 0x00C) 24 8) ((s.dev.tick.periodUs - 2) / 2) →
    let n := s.dev.tick.number
    let grant := min (Tab.look 0 s.dev.tick.requests n.toNat) (s.dev.fld (At.tick 0x00C) 12 12)
    ∃ u : Dev, exec (.announceLead now) s = .next (s.withDev u) ∧
      u.tick = { s.dev.tick with nextEdge := some (e + 1000 * grant), granted := Tab.put 0 s.dev.tick.granted n.toNat grant,
                                 stretched := decide (0 < grant), announced := some (n + 1) } ∧
      ∀ p ∈ s.dev.tickPorts none, ∃ m : TickMsg, sendsTick s.dev u p 2 m ∧ m.value = BitVec.ofNat 32 grant ∧ m.tick = n + 1) ∧
  ∀ (r : Requester) (v : W32) (s : State), (∀ t, r ≠ .core t) → s.dev.isRoot = true →
    let at_ := v ++ (s.dev.takeLow r (At.tick 0x018)).1
    let us := s.dev.fld (At.tick 0x008) 0 12
    let n := s.dev.tick.number.toNat
    let good := 64 ≤ us ∧ us ≤ 4000 ∧ n + 16 ≤ at_.toNat ∧ (s.dev.tick.pending = true → n + 16 ≤ s.dev.tick.nextAt.toNat)
    ∃ u : Dev, exec (.tickNextAtHiWrite r v) s = .next (s.withDev u) ∧
      (good → u.tick = { s.dev.tick with pending := true, armedUs := us, nextAt := at_ } ∧ u.reg64 (At.tick 0x018) = at_) ∧
      (¬ good → u.tick = s.dev.tick ∧ u.reg64 (At.tick 0x018) = s.dev.reg64 (At.tick 0x018))

/-- ANNOUNCE and PERIOD at a follower, from the port and of the root it follows (R42, R58, R425, R426): an ANNOUNCE for the edge to come
fixes that edge's time, in DIRECT mode from the last edge by the root's time, in Ethernet mode by the PTP clock; any other ANNOUNCE
fixes nothing; a PERIOD arms the fleet's change. From another port neither does anything. -/
def Sys2Proof.Claims.FollowersTakeAnnouncements : Prop :=
  ∀ (p : Fin 17) (m : TickMsg) (s : State),
    let t := s.dev.tick
    (s.dev.fromUpstream p.val = false → exec (.announce p m) s = .next s ∧ exec (.period p m) s = .next s) ∧
    (s.dev.fromUpstream p.val = true → m.root = s.dev.rootId →
      (∃ u : Dev, exec (.announce p m) s = .next (s.withDev u) ∧
        u.tick = if t.announced ≠ some m.tick ∧ m.tick = t.number + 1 ∧ t.begun = true then
            { t with nextEdge := some (if s.dev.fld (At.tick 0) 6 2 = 1 then t.rootEdge + m.time.toNat
                                       else ((m.time.toNat : Int) + s.dev.links.ptp.offset).toNat),
                     granted := Tab.put 0 t.granted t.number.toNat m.value.toNat, stretched := decide (0 < m.value.toNat),
                     announced := some m.tick, missed := false }
          else t) ∧
      ∃ u : Dev, exec (.period p m) s = .next (s.withDev u) ∧
        u.tick = { t with pending := true, armedUs := m.value.toNat, nextAt := m.tick })

/-- A MARKER at a follower that hears one root (R56 to R59, R425, R426). In DIRECT mode, from the upstream port: the first one gives the
first edge its number; one for a tick to come gives the coming edge its number, step and time; one for the tick in progress moves the
coming edge by how far the last one was off, where that is at most 1 µs, and else holds it until the root's time; one for an earlier
tick holds it until the root comes to it. In Ethernet mode the edges follow the announcements: the marker gives number and step, and
places the edge only where the announcement was missed. Of a second root with a greater ID nothing is taken, and the device is not
aligned (how long a root counts as heard, and what counts as aligned, is log 39). -/
def Sys2Proof.Claims.FollowersTakeMarkers : Prop :=
  ∀ (p : Fin 16) (m : TickMsg) (arrival : Nat) (root : W16) (seen : W64) (s : State),
    let t := s.dev.tick
    let us := 1000 * t.periodUs
    let source := s.dev.fld (At.tick 0) 6 2
    let takes := fun (u : Tick) => exec (.marker p m arrival) s = .next (s.withDev { s.dev with tick := u })
    s.dev.isRoot = false → s.dev.bit (At.tick 0) 0 = true → t.roots = [(root, seen)] → t.number.toNat ≤ seen.toNat + 2 →
    (source = 1 → m.root = root → t.upstream = some (p.val, m.hops.toNat) →
      let began := arrival - (s.dev.port p.val).latency.toNat
      let off := (began - t.lastEdge) + (t.lastEdge - began)
      let near := decide (m.hops.toNat ≤ 5)
      let b := { t with roots := [(root, t.number)] }
      (t.takeNumber = true →
        takes { b with takeNumber := false, coming := some (m.tick, m.step), nextEdge := some began, aligned := near }) ∧
      (t.takeNumber = false → t.number < m.tick →
        let own := t.nextEdge.getD began
        takes { b with coming := some (m.tick, m.step), nextEdge := some began,
                       aligned := decide (m.tick = t.number + 1) && decide ((began - own) + (own - began) ≤ 1000) && near }) ∧
      (t.takeNumber = false → m.tick = t.number →
        takes { b with step := m.step, rootEdge := began, aligned := decide (off ≤ 1000) && near,
                       nextEdge := some (if off ≤ 1000 then (t.nextEdge.getD (t.lastEdge + us)) + began - t.lastEdge else began + us) }) ∧
      (t.takeNumber = false → m.tick < t.number →
        takes { b with step := m.step, aligned := false,
                       nextEdge := some (began + us * (t.number.toNat + 1 - m.tick.toNat)) })) ∧
    (source = 2 → m.root = root → s.dev.links.ptpPort = p.val → t.takeNumber = false →
      let b := { t with roots := [(root, t.number)], aligned := s.dev.links.ptp.locked && !t.missed }
      (m.tick = t.number → takes { b with step := m.step, nextEdge := if t.missed then some (arrival + us) else t.nextEdge }) ∧
      (m.tick = t.number + 1 → t.number < m.tick →
        takes { b with coming := some (m.tick, m.step), nextEdge := some (t.nextEdge.getD arrival) })) ∧
    (source ≠ 0 → root < m.root → takes { t with roots := [(root, seen), (m.root, t.number)], aligned := false })

/-- A follower and the messages of the tick plane: announcements, period changes and markers (R42, R56 to R59, R425, R426). -/
def Obligations.FollowersTakeTheFleetTick : Prop := FollowersTakeAnnouncements ∧ FollowersTakeMarkers

/-- The start of the ticks (R40, R56) and the end of the maintenance reserve (R65): RUN set on a root with PPS_ALIGN clear makes the
first edge due at once; with PPS_ALIGN set, at the next rise of PPS_IN; a follower waits for a MARKER; where ticks run it does nothing.
MAINTENANCE_RESERVE_END ends the reserve, and without one it does nothing. -/
def Sys2Proof.Claims.TicksStart : Prop :=
  (∀ (now : Nat) (s : State), (s.dev.bit (At.tick 0) 0 = true → exec (.tickRunSet now) s = .next s) ∧
    (s.dev.bit (At.tick 0) 0 = false →
    let b := { s.dev.tick with roots := [], upstream := none, coming := none, missed := false }
    ∃ u : Dev, exec (.tickRunSet now) s = .next (s.withDev u) ∧ u.bit (At.tick 0) 0 = true ∧
      u.tick = if s.dev.isRoot = false then { b with takeNumber := true }
        else if s.dev.bit (At.tick 0) 3 then { b with ppsWait := true }
        else { b with nextEdge := some now, aligned := true })) ∧
  (∀ (now : Nat) (s : State), exec (.ppsInRise now) s = .next (if s.dev.tick.ppsWait
    then s.withDev { s.dev with tick := { s.dev.tick with ppsWait := false, nextEdge := some now, aligned := true } } else s)) ∧
  ∀ (s : State), (s.dev.tick.reserve = false → exec .maintenanceReserveEnd s = .next s) ∧
    (s.dev.tick.reserve = true → ∃ u : Dev, exec .maintenanceReserveEnd s = .next (s.withDev u) ∧
      u.tick = { s.dev.tick with reserve := false })

/-- The root: the start of the ticks, stretches and period changes (R40, R42, R44, R63, R65). -/
def Obligations.TheRootsTick : Prop := RootStretchesAndArms ∧ TicksStart

/-! ## The sequencer (R48 to R52, R376 to R381) -/

/-- The entry at the front of those collected. -/
def Sys2Proof.Claims.firstCollected (s : State) (type : W8) (address id : W64) (rest : List WlEntry) : Prop :=
  s.dev.seq.collected = { type := type, address := address, planId := id } :: rest

/-- The plan that 128 bytes of a header describe (R49). -/
def Sys2Proof.Claims.planOfHeader (serial : Nat) (h : List W8) : Plan :=
  let w := fun (off : Nat) => BitVec.ofNat 64 (recNat h off 8)
  { serial := serial, id := w 0, first := w 8, count := recNat h 0x10 4, ctx := recNat h 0x16 1, slices := w 0x18, budgets := w 0x20,
    programs := w 0x28, drover := w 0x30, troughs := w 0x38, windows := w 0x40 }

/-- The fields of a header are in order (R49). -/
def Sys2Proof.Claims.headerInOrder (h : List W8) : Prop :=
  recNat h 0x14 2 = 1 ∧ 1 ≤ recNat h 0x10 4 ∧ recNat h 0x10 4 ≤ 1048576 ∧ recNat h 0x16 1 ≤ 15 ∧ recNat h 0x17 1 = 0 ∧ recNat h 0x48 56 = 0

/-- No rule refuses a plan whose header is in order: its tables can be read, no accepted plan holds a tile that it gives a slice in the
same tick, its windows `es` follow R368, and it keeps to the evaluation slice and to the replay in progress (R50, R368, R381, R385). -/
def Sys2Proof.Claims.planPasses (v : Variant) (d : Dev) (p : Plan) (es : List WinEntry) : Prop :=
  d.seq.charHold = false ∧ ∃ held, (d.planTable v p).1 = some held ∧
    let c := (d.planTable v p).2.tileHeld v held
    let w := c.2.planWindows v p (d.tick.number.toNat + 1)
    c.1 = false ∧ w.1 = some es ∧ w.2.evalRefuses p.ctx ((held.map (fun e => e.2 / 16)).eraseDups ++ es.map (·.slice)) = false

/-- PLAN consumes the first collected entry of TYPE 1 (R49, R50): a plan whose header can be read and is in order, whose first tick is to
come, and which no rule refuses, is accepted behind the plans before it, with its windows; any other is refused and changes neither. -/
def Sys2Proof.Claims.PlansAreAccepted : Prop :=
  ∀ (address id : W64) (rest : List WlEntry) (s : State),
    let d := { s.dev with seq := { s.dev.seq with collected := rest } }
    let h := d.physBytes s.fuse.variant address.toNat 128
    let p := planOfHeader s.dev.seq.nextSerial h.data
    firstCollected s 1 address id rest →
    (∀ es, h.st = 0 → s.dev.tick.number.toNat < p.first.toNat → headerInOrder h.data → planPasses s.fuse.variant h.d p es →
      ∃ u : Dev, exec .plan s = .next (s.withDev u) ∧ u.seq.plans = s.dev.seq.plans ++ [p] ∧
        u.seq.windows = s.dev.seq.windows ++ es ∧ u.seq.collected = rest ∧ u.seq.nextSerial = s.dev.seq.nextSerial + 1) ∧
    ((h.st ≠ 0 ∨ p.first.toNat ≤ s.dev.tick.number.toNat ∨ ¬ headerInOrder h.data ∨ ∀ es, ¬ planPasses s.fuse.variant h.d p es) →
      ∃ u : Dev, exec .plan s = .next (s.withDev u) ∧ u.seq.plans = s.dev.seq.plans ∧ u.seq.windows = s.dev.seq.windows ∧
        u.seq.collected = rest ∧ u.seq.nextSerial = s.dev.seq.nextSerial)

/-- CANCEL of an accepted plan removes it from the next edge on, with the windows it has not opened; of any other it raises the PLAN event
with reason 7 and changes no plan (R50, R52). -/
def Sys2Proof.Claims.PlansAreCancelled : Prop :=
  ∀ (address id : W64) (rest : List WlEntry) (s : State), firstCollected s 2 address id rest →
    let ct := s.dev.tick.number.toNat + 1
    let hit := fun (p : Plan) => decide (p.id = id) && p.cancelAt.isNone && decide (ct < p.endTick)
    let named := fun (k : Nat) => s.dev.seq.plans.any (fun p => hit p && p.serial == k)
    (s.dev.seq.plans.any hit = false → exec .cancel s =
      .next (s.withDev (({ s.dev with seq := { s.dev.seq with collected := rest } } : Dev).planEvent sInternal id.toNat 0 7))) ∧
    (s.dev.seq.plans.any hit = true → ∃ u : Dev, exec .cancel s = .next (s.withDev u) ∧ u.seq.collected = rest ∧
      u.seq.plans = s.dev.seq.plans.map (fun p => if named p.serial then { p with cancelAt := some (BitVec.ofNat 64 ct) } else p) ∧
      u.seq.windows = s.dev.seq.windows.filter (fun x => x.opened || !named x.serial))

/-- STEP of a greater number for a tick to come is accepted on the root, and refused with the PLAN event where the tick has passed, the
number is not greater, or the device is no root (R51); BATCH journals its descriptor under its step (R378), and an entry of a reserved
TYPE raises the PLAN event with reason 6 (R52). A write of the work list's registers lets the ring take effect at the next guard, from
entry 0 (R545), and REPLAY_CTRL.START arms a replay unless one is in progress (R381). -/
def Sys2Proof.Claims.SequencerEntries : Prop :=
  (∀ (step tick : W64) (rest : List WlEntry) (s : State), firstCollected s 4 step tick rest →
    let d : Dev := { s.dev with seq := { s.dev.seq with collected := rest } }
    let refused := fun (st : W8) (reason : Nat) => exec .step s = .next (s.withDev (d.planEvent st step.toNat tick.toNat reason))
    (s.dev.isRoot = true → s.dev.tick.number.toNat < tick.toNat → s.dev.tick.step < step → s.dev.seq.stepTop < step →
      exec .step s = .next (s.withDev { s.dev with seq :=
        { s.dev.seq with collected := rest, steps := s.dev.seq.steps ++ [(tick, step)], stepTop := step } })) ∧
    (s.dev.isRoot = true → tick.toNat ≤ s.dev.tick.number.toNat → refused sLate 9) ∧
    (s.dev.isRoot = true → s.dev.tick.number.toNat < tick.toNat → step ≤ s.dev.tick.step ∨ step ≤ s.dev.seq.stepTop → refused sInternal 9) ∧
    (s.dev.isRoot = false → refused sInternal 10)) ∧
  (∀ (address id : W64) (rest : List WlEntry) (s : State), firstCollected s 3 address id rest →
    let r := ({ s.dev with seq := { s.dev.seq with collected := rest } } : Dev).physBytes s.fuse.variant address.toNat 64
    exec .batch s = .next (s.withDev (if r.st = 0 then
      r.d.journal s.fuse.variant jBatch 1 (BitVec.ofNat 64 (recNat r.data 0 8)) false (r.data.drop 16) else r.d))) ∧
  (∀ (type : W8) (address id : W64) (rest : List WlEntry) (s : State), firstCollected s type address id rest → type = 0 ∨ 4 < type →
    exec .reservedWorkListType s = .next (s.withDev (({ s.dev with seq := { s.dev.seq with collected := rest } } : Dev).planEvent
      sInternal id.toNat 0 6))) ∧
  (∀ (r : Requester) (en : Bool) (w : W32) (s : State), (∀ t, r ≠ .core t) →
    ∃ u : Dev, exec (.workListReconfigure r en w) s = .next (s.withDev u) ∧
      u.seq = { s.dev.seq with reconf := true, consumed := 0 } ∧ u.retain.changed = true) ∧
  ∀ s : State, exec .replayStart s = .next (if s.dev.seq.replay.isSome then s
    else s.withDev { s.dev with seq := { s.dev.seq with replayArmed := true } })

/-- The entries of the work list (R48 to R52, R378, R381, R545). -/
def Obligations.WorkListEntries : Prop := PlansAreAccepted ∧ PlansAreCancelled ∧ SequencerEntries

/-! ## Hangs, resets and recovery (R433 to R456, R553) -/

/-- A recovery of exactly the partition `n` in a step. -/
def Sys2Proof.Claims.recovering (d : Dev) (n : Nat) (r : Recovery) (k : Nat) : Prop :=
  d.gander.recovery n = some (k, r) ∧ r.parts = partBit n ∧ r.warm = false ∧
    ∀ e ∈ d.gander.recoveries, e.2.parts.getLsbD n = true → e = (k, r)

/-- The partitions of `m` that the device has and no recovery covers are fenced, and their recovery begins with the fence. -/
def Sys2Proof.Claims.recoveryBegins (o : Host.Outcome State Fault Refusal) (s : State) (m : BitVec 12) (cause : W8) (u : BitVec 16) : Prop :=
  ∃ x : Dev, o = .next (s.withDev x) ∧ ∀ n, n < s.fuse.variant.sectors → m.getLsbD n = true → s.dev.gander.recovery n = none →
    (x.hub n).fenced = true ∧ ∃ (k : Nat) (r : Recovery), x.gander.recovery n = some (k, r) ∧ r.step = .fence ∧ r.cause = cause ∧
      r.unit = u ∧ r.warm = false ∧ ∀ j, r.parts.getLsbD j = true → m.getLsbD j = true

/-- A device warm reset with a cause begins: the device is not READY, FAULT_N is low and every present slice is fenced. -/
def Sys2Proof.Claims.warmBegins (o : Host.Outcome State Fault Refusal) (s : State) (cause : W8) : Prop :=
  ∃ x : Dev, o = .next (s.withDev x) ∧ x.dev.inWarm = true ∧ x.dev.warm = cause ∧ x.dev.ready = false ∧ x.pins.faultN = false ∧
    ∀ n, n < s.fuse.variant.sectors → (x.hub n).fenced = true

/-- HANG (R436, R437, R444): of a unit that the last sample does not show hung, nor overrun, or that is being treated already, nothing
is done. A hung unit takes its first level where AUTO_RECOVER is set: an engine or tile reset, the recovery of its partitions, or a
device warm reset; where it is clear those partitions are fenced and held for the owner, and no recovery begins. A hung standby core
is reset and a hung active core is taken over from, whatever AUTO_RECOVER holds. -/
def Sys2Proof.Claims.HungUnitsAreTreated : Prop :=
  ∀ (u : BitVec 16) (s : State),
    let d := s.dev
    let v := s.fuse.variant
    let cause := d.hangCause u
    let treated := d.dev.inWarm = true ∨ ∃ n, unitPart u = some n ∧ d.cutOff n = true
    let hung := d.fld (At.gander 0x000) 0 4 + 1 ≤ (d.sampled u).2 ∨ ∃ t, d.firstLevel u = .local_ (.tile t) ∧ d.overrun t = true
    (treated ∨ ¬ hung → exec (.hang u) s = .next s) ∧
    (¬ treated → hung → d.bit (At.gander 0x000) 4 = true →
      (∀ l, d.firstLevel u = .local_ l → ∃ x : Dev, exec (.hang u) s = .next (s.withDev x) ∧ x.gander.lastReset = some (l, cause)) ∧
      (∀ m, d.firstLevel u = .parts m → recoveryBegins (exec (.hang u) s) s m cause u) ∧
      (d.firstLevel u = .warm → warmBegins (exec (.hang u) s) s cause)) ∧
    (¬ treated → hung → d.bit (At.gander 0x000) 4 = false → ∀ m,
      (∃ l, d.firstLevel u = .local_ l ∧ m = partBit ((unitPart u).getD 0)) ∨ d.firstLevel u = .parts m ∨
        (d.firstLevel u = .warm ∧ m = v.parts) →
      ∃ x : Dev, exec (.hang u) s = .next (s.withDev x) ∧ x.gander.recoveries = d.gander.recoveries ∧
        ∀ n, n < v.sectors → m.getLsbD n = true → (x.hub n).fenced = true ∧ x.gander.holds n = true) ∧
    (¬ treated → hung → ∀ k, d.firstLevel u = .core k →
      (k ≠ d.activeCore → ∃ x : Dev, exec (.hang u) s = .next (s.withDev x) ∧ x.seq =
        { d.seq with standbyReady := false, failedCore := true }) ∧
      (k = d.activeCore → d.seq.standbyReady = true → d.seq.ckpt.isSome = true → ∃ x : Dev, exec (.hang u) s = .next (s.withDev x) ∧
        x.seq.active = !d.seq.active ∧ x.seq.failedCore = true))

/-- CONTROL_STATE_PARITY_ERROR (R68, R444, R449): of a unit of a partition that is not in recovery it begins that recovery with cause
LOGIC; up to the end of a snapshot it is part of the dump, and afterwards it is kept until the partition has returned. Of a sequencer
core it is a fault of that core, of a crossbar it begins the recovery of its three partitions, and of any other unit a device warm
reset. -/
def Sys2Proof.Claims.ParityErrorsAreTreated : Prop :=
  ∀ (u : BitVec 16) (s : State),
    let d := s.dev
    let o := exec (.controlStateParityError u) s
    (∀ n, unitPart u = some n →
      (d.gander.recovery n = none → recoveryBegins o s (partBit n) 0x05 u) ∧
      (∀ (k : Nat) (r : Recovery), d.gander.recovery n = some (k, r) →
        (r.warm = true ∨ r.step = .fence ∨ r.step = .snapshot → o = .next s) ∧
        (r.warm = false → r.step = .reset ∨ r.step = .restored → o = .next (s.withDev { d with gander :=
          { d.gander with later := d.gander.later.filter (fun x => decide (x ≠ u)) ++ [u] } })))) ∧
    (unitPart u = none →
      (unitKind u = 0x14 → unitIndex u = d.activeCore → o = exec .sequencerCoreFault s) ∧
      (unitKind u = 0x14 → unitIndex u ≠ d.activeCore → o = .next (s.withDev { d with seq :=
        { d.seq with standbyReady := false, failedCore := true } })) ∧
      (unitKind u = 0x0F → let i := unitIndex u
        recoveryBegins o s (partBit (3 * i) ||| partBit (3 * i + 1) ||| partBit (3 * i + 2)) 0x05 u) ∧
      (unitKind u ≠ 0x14 → unitKind u ≠ 0x0F → (d.dev.inWarm = true → o = .next s) ∧ (d.dev.inWarm = false → warmBegins o s 0x05)))

/-- Hung units and units with a parity error in their control state (R436, R437, R444, R449). -/
def Obligations.HungPartitionsAreFenced : Prop := HungUnitsAreTreated ∧ ParityErrorsAreTreated

/-- The steps of the recovery of one partition (R440 to R444): at the end of its fence the requests that wait on its slice are answered
FENCED, and the slice holds no line, its dirty lines written back or named as lost; a unit that misses a read of the snapshot is named
UNREADABLE once; a complete snapshot fills a dump slot and resets the partition's tiles and slice, and one that runs out of time is
marked TRUNCATED besides; the reset done, the partition is restored from the settings record and waits for the next edge, or takes the
whole device to a warm reset where no record passes its checks. In another step none of these does anything. -/
def Obligations.RecoveriesGoStepByStep : Prop :=
  ∀ (n : Fin 12) (k : Nat) (r : Recovery) (ways : List (Fin 18)) (vias : List (Fin 128)) (s : State), recovering s.dev n.val r k →
    let h := s.dev.hub n.val
    let ends := fun (late : Bool) => exec (if late then .snapshotTimeout n else .snapshotComplete n) s
    (r.step ≠ .fence → exec (.fenceEnd n) s = .next s) ∧
    (r.step = .fence → ∃ x : Dev, exec (.fenceEnd n) s = .next (s.withDev x) ∧ (x.hub n.val).cache = [] ∧ (x.hub n.val).fills = [] ∧
      x.outbox = s.dev.outbox ++ (h.fills.flatMap (·.waiters)).map (fun j => OutMsg.sliceResp j.req.tag sFenced []) ∧
      x.gander.recovery n.val = some (k, { r with step := .snapshot, dirty := r.dirty ++ (if r.answers n.val then []
        else (h.cache.filter (fun e => e.2.dirty)).map (fun e => lineAddr n.val e.1)) })) ∧
    (∀ u : BitVec 16, exec (.sidePathReadTimeout n u) s = .next (if r.step = .snapshot ∧ r.unreadable.contains u = false
      then s.withDev (s.dev.setRecovery k { r with unreadable := r.unreadable ++ [u], wholeStack := r.wholeStack || decide (unitKind u = 0x09) })
      else s)) ∧
    (∀ late : Bool, (r.step ≠ .snapshot → ends late = .next s) ∧
      (r.step = .snapshot → ∃ (x : Dev) (y : Recovery), ends late = .next (s.withDev x) ∧
        x.gander.recovery n.val = some (k, y) ∧ y.step = .reset ∧ y.slot = some s.dev.gander.slot ∧ (late = true → y.truncated = true) ∧
        (s.dev.gander.slot < 4 → x.gander.dumpValid.getLsbD s.dev.gander.slot = true) ∧
        (x.hub n.val).selfRefresh = true ∧ (x.hub n.val).windows = [] ∧
        ∀ i : Fin 16, (x.tile ⟨n, i⟩).run = .idle ∧ (x.tile ⟨n, i⟩).regs = {} ∧ (x.tile ⟨n, i⟩).queues = [])) ∧
    (r.step ≠ .reset → exec (.partitionResetDone n ways vias) s = .next s) ∧
    (r.step = .reset → r.restored.getLsbD n.val = false → s.dev.retain.intact s.fuse = true → r.restored ||| partBit n.val = r.parts →
      ∃ x : Dev, exec (.partitionResetDone n ways vias) s = .next (s.withDev x) ∧
        x.gander.recovery n.val = some (k, { r with restored := r.parts, step := .restored }) ∧ (x.hub n.val).selfRefresh = false ∧
        (x.hub n.val).scratchBad = { all := true }) ∧
    (r.step = .reset → r.restored.getLsbD n.val = false → s.dev.retain.intact s.fuse = false → s.dev.dev.inWarm = false →
      warmBegins (exec (.partitionResetDone n ways vias) s) s r.cause)

/-- What follows where recovery itself fails (R438, R439, R446, R447): losing Gander is a device warm reset with cause 7, and during one
nothing more; a level of the ladder that times out gives way to the next: an engine reset to that of its tile, a tile reset to the
recovery of its partition, a partition's to a warm reset, and a warm reset to FAULT_N held low for a cold reset (log 41); so does the
custody watchdog's expiry. A timeout of a level that is not in progress does nothing. -/
def Sys2Proof.Claims.FailedRecoveriesEscalate : Prop :=
  (∀ s : State, (s.dev.dev.inWarm = true → exec .ganderLost s = .next s) ∧
    (s.dev.dev.inWarm = false → warmBegins (exec .ganderLost s) s 7)) ∧
  (∀ s : State, (s.dev.dev.inWarm = false → exec (.resetLevelTimeout .warm) s = .next s) ∧
    (s.dev.dev.inWarm = true → ∃ x : Dev, exec (.resetLevelTimeout .warm) s = .next (s.withDev x) ∧ x.pins.faultN = false)) ∧
  (∀ (n : Fin 12) (s : State), (s.dev.gander.recovery n.val = none → exec (.resetLevelTimeout (.partition n)) s = .next s) ∧
    ∀ k r, s.dev.gander.recovery n.val = some (k, r) → s.dev.dev.inWarm = false →
      (r.step = .reset → r.warm = false → warmBegins (exec (.resetLevelTimeout (.partition n)) s) s r.cause) ∧
      (r.step ≠ .reset ∨ r.warm = true → exec (.resetLevelTimeout (.partition n)) s = .next s)) ∧
  (∀ (t : TileRef) (s : State),
    ((∀ c, s.dev.gander.lastReset ≠ some (.tile t, c)) → exec (.resetLevelTimeout (.tile t)) s = .next s) ∧
    ∀ cause, s.dev.gander.lastReset = some (.tile t, cause) →
      recoveryBegins (exec (.resetLevelTimeout (.tile t)) s) s (partBit t.sector.val) cause (s.dev.tileUnit t)) ∧
  (∀ (t : TileRef) (e : Fin 9) (s : State),
    ((∀ c, s.dev.gander.lastReset ≠ some (.engine t e, c)) → exec (.resetLevelTimeout (.engine t e)) s = .next s) ∧
    ∀ cause, s.dev.gander.lastReset = some (.engine t e, cause) → ∃ x : Dev, exec (.resetLevelTimeout (.engine t e)) s = .next (s.withDev x) ∧
      x.gander.lastReset = some (.tile t, cause) ∧ (x.tile t).run = .idle ∧ (x.tile t).regs = {}) ∧
  ∀ s : State, exec .custodyWatchdogExpiry s = .next (s.withDev { s.dev with
    pins := { s.dev.pins with faultN := false }, retain := { s.dev.retain with ending := 5 } })

/-- A fault of the active sequencer core, or its duties overdue (R67): a ready standby with a checkpoint becomes the active core, with the
plans, steps, votes and journal position of the checkpoint, and the ticks go on; with none ready a device warm reset follows. The
failed core that passes its self-test may serve again; one that fails is engaged out of service (R68). -/
def Sys2Proof.Claims.StandbySequencerTakesOver : Prop :=
  (∀ (i : Instr) (s : State), i = .sequencerCoreFault ∨ i = .seqEdgeDutyTimeout →
    (∀ c : Checkpoint, s.dev.seq.standbyReady = true → s.dev.seq.ckpt = some c → ∃ x : Dev, exec i s = .next (s.withDev x) ∧
      x.tick = s.dev.tick ∧ x.seq.active = !s.dev.seq.active ∧ x.seq.standbyReady = false ∧ x.seq.failedCore = true ∧
      x.seq.plans = c.plans ∧ x.seq.steps = c.steps ∧ x.seq.stepTop = c.stepTop ∧ x.seq.votes = c.votes ∧ x.seq.replay = c.replay ∧
      (x.seq.jrnOff, x.seq.jrnHead, x.seq.jrnStep, x.seq.jrnIndex) = (c.jrnOff, c.jrnHead, c.jrnStep, c.jrnIndex)) ∧
    (s.dev.seq.standbyReady = false ∨ s.dev.seq.ckpt = none → (s.dev.dev.inWarm = true → exec i s = .next s) ∧
      (s.dev.dev.inWarm = false → warmBegins (exec i s) s 8))) ∧
  ∀ (pass : Bool) (s : State), (s.dev.seq.failedCore = false → exec (.failedCoreSelftestDone pass) s = .next s) ∧
    (s.dev.seq.failedCore = true →
      exec (.failedCoreSelftestDone true) s = .next (s.withDev { s.dev with seq := { s.dev.seq with failedCore := false } }) ∧
      ∃ x : Dev, exec (.failedCoreSelftestDone false) s = .next (s.withDev x) ∧ x.seq = s.dev.seq ∧
        x.retain.repairs = s.dev.retain.repairs ++ [(unitNo 0x14 (1 - s.dev.activeCore), 10, 0, 0)])

/-- What follows where recovery or the sequencer fails (R67, R68, R438, R439, R446, R447). -/
def Obligations.FailedUnitsEscalate : Prop := FailedRecoveriesEscalate ∧ StandbySequencerTakesOver

/-- The owner's requests to Gander (R448, R452, R453, R456): RESET_REQ arms a recovery of the present partitions it names; DISABLE.REQ
of a unit that may be disabled, where it is READY or its partition is in recovery, and ENABLE of a DISABLED one, are taken up, and any
other has RESULT REFUSED; one is in progress
at a time. Freeing a dump slot clears its VALID bit and no other; a read of DUMP_DATA answers the word selected and moves on to the
next. A residue injection is set at debug level TRACE or above and ignored below (R167). -/
def Obligations.OwnerRequests : Prop :=
  (∀ s : State, exec .ownerResetRequest s = .next (s.withDev { s.dev with gander := { s.dev.gander with
    resetArmed := true, resetParts := BitVec.ofNat 12 (s.dev.fld (At.gander 0x014) 0 12) &&& s.fuse.variant.parts } })) ∧
  (∀ (enable : Bool) (s : State),
    let u := BitVec.ofNat 16 (s.dev.fld (At.gander 0x02C) 0 16)
    let st := (s.dev.entry s.fuse.variant u).state
    let may := [0x01, 0x04, 0x05, 0x08, 0x0B, 0x11].contains (u.toNat / 2048)
    let waits := !enable && ((unitPart u).map s.dev.cutOff).getD false
    let c : Instr := if enable then .unitEnableRequest else .unitDisableRequest
    (s.dev.gander.disabling.isSome = true → exec c s = .next s) ∧
    (s.dev.gander.disabling = none → may = true → st = (if enable then stDisabled else stReady) ∨ waits = true →
      exec c s = .next (s.withDev { s.dev with gander := { s.dev.gander with
        disabling := some ⟨u, if enable then 2 else 0⟩, result := 0 } })) ∧
    (s.dev.gander.disabling = none → may = false ∨ (st ≠ (if enable then stDisabled else stReady) ∧ waits = false) →
      exec c s = .next (s.withDev { s.dev with gander := { s.dev.gander with result := 2 } }))) ∧
  (∀ (mask : BitVec 4) (s : State), ∃ l : List Nat, exec (.dumpSlotFree mask) s = .next (s.withDev { s.dev with gander := { s.dev.gander with
    dumpValid := s.dev.gander.dumpValid &&& ~~~mask, dumpOrder := l } }) ∧
    ∀ k, k ∈ l ↔ k ∈ s.dev.gander.dumpOrder ∧ mask.getLsbD k = false) ∧
  (∀ (r : Requester) (s : State), ∃ (x : Dev) (w : W32), exec (.dumpDataRead r) s = .next (s.withDev x) ∧
    x.outbox = s.dev.outbox ++ [.csr r 0 w] ∧ x.gander = s.dev.gander ∧
    w.toNat = leNat (s.dev.dumpBytes s.fuse.lc (s.dev.fld (At.gander 0x024) 20 2) (4 * s.dev.fld (At.gander 0x024) 2 18) 4) ∧
    x.fld (At.gander 0x024) 2 18 = (s.dev.fld (At.gander 0x024) 2 18 + 1) % 2 ^ 18) ∧
  ∀ (r : Requester) (t : TileRef) (s : State),
    (s.fuse.lc ≠ 0 → s.dev.sec.debugLevel.toNat < 2 → exec (.resInject r t) s = .next s) ∧
    (s.fuse.lc = 0 ∨ 2 ≤ s.dev.sec.debugLevel.toNat →
      exec (.resInject r t) s = .next (s.withDev (s.dev.setFld (At.tile t 0x108) 0 1 1)))

/-! ## Clocks, temperatures and ageing (R457 to R479, R505, R511) -/

/-- Emergencies and trips (R462 to R464, R505, R511): the first sector's timing emergency halves the clock until it ends and counts one;
a sensor at 110 °C, or a stack at refresh step 3, trips once in a tick, and else nothing happens; the alert holds from above the target
until 3 °C below it, and while a stack is at refresh step 2 or 3;
THERM_TRIP_N and a lost reference clock stop the clocks; a rail read back within 10 mV of its value is confirmed. -/
def Obligations.EmergenciesAndTrips : Prop :=
  (∀ (n : Fin 12) (s : State), (s.dev.power.emergency = true → exec (.timingEmergency n) s = .next s) ∧
    (s.dev.power.emergency = false → ∃ c : Tab W32, exec (.timingEmergency n) s = .next (s.withDev { s.dev with csr := c, power :=
      { s.dev.power with emergency := true, emergencies := s.dev.power.emergencies + 1 } })) ∧
    exec .timingEmergencyEnd s = .next (s.withDev { s.dev with power := { s.dev.power with emergency := false } })) ∧
  (∀ (source : Fin 3) (index c : W8) (s : State),
    let hot := if source.val = 2 then (s.dev.hub index.toNat).refresh = 3 else 110 ≤ c.toNat
    (¬ hot ∨ s.dev.power.trip = true → exec (.thermalTrip source index c) s = .next s) ∧
    (hot → s.dev.power.trip = false → ∃ x : Dev, exec (.thermalTrip source index c) s = .next (s.withDev x) ∧
      x.power = { s.dev.power with trip := true, tripHold := true })) ∧
  (∀ (c : W8) (s : State),
    let hot := s.dev.power.targetC < c.toNat ∨ ∃ k, k < s.fuse.variant.sectors ∧ 2 ≤ (s.dev.hub k).refresh
    ∀ alert : Bool, (alert = true ↔ hot ∨ (s.dev.power.alert = true ∧ s.dev.power.targetC < c.toNat + 3)) →
    exec (.thermAlertN c) s = .next (s.withDev { s.dev with power := { s.dev.power with alert := alert } })) ∧
  (∀ s : State, ∃ x : Dev, exec .thermTripN s = .next (s.withDev x) ∧
    x.power = { s.dev.power with thermTrip := true, clocksOn := false } ∧ x.retain = { s.dev.retain with ending := 3 } ∧
    ∀ k, k < s.fuse.variant.sectors → (x.hub k).selfRefresh = true) ∧
  (∀ s : State, exec .refclkLost s = .next (s.withDev { s.dev with
    power := { s.dev.power with clocksOn := false }, retain := { s.dev.retain with reasonRun := 1, ending := 4 },
    pins := { s.dev.pins with refclk := false, faultN := false } })) ∧
  ∀ (rail : Bool) (mv : Nat) (s : State),
    let near := fun (w : Nat) => decide (mv ≤ w + 10 ∧ w ≤ mv + 10)
    exec (.avsbusVoltageConfirm rail mv) s = .next (s.withDev { s.dev with power := if rail
      then { s.dev.power with vSram := mv, confirmedSram := near s.dev.power.vSramWritten }
      else { s.dev.power with vCore := mv, confirmedCore := near s.dev.power.vCoreWritten } })

/-- Characterisation (R467, R468, R470): a request waits for the next edge and is ignored while one runs; each step ends at its time,
the first with Pi the power of the last whole tick; with the last comes the fit, its parameters taken over where it is GOOD and
those of R468 where it is not. -/
def Sys2Proof.Claims.CharacterisationRuns : Prop :=
  (∀ s : State, exec .charStart s = .next (if s.dev.power.charPhase = 0
    then s.withDev { s.dev with power := { s.dev.power with charArmed := true } } else s)) ∧
  ∀ (f : CharFit) (s : State),
    let p := s.dev.power
    (p.charPhase = 1 → exec (.charPhaseEnd f) s = .next (s.withDev { s.dev with power :=
      { p with charPhase := 2, charIdle := s.dev.fld (At.pwr 0x010) 16 11 } })) ∧
    (p.charPhase = 2 ∨ p.charPhase = 3 →
      exec (.charPhaseEnd f) s = .next (s.withDev { s.dev with power := { p with charPhase := p.charPhase + 1 } })) ∧
    (p.charPhase = 0 → exec (.charPhaseEnd f) s = .next s) ∧
    (4 ≤ p.charPhase → ∃ x : Dev, exec (.charPhaseEnd f) s = .next (s.withDev x) ∧ x.power.charPhase = 0 ∧ x.seq.charHold = false ∧
      x.power.charResult = (if goodFit f then 1 else 2) ∧ x.power.sustain = f.sustain.toNat ∧
      (x.power.thetaF, x.power.tauF, x.power.thetaS, x.power.tauS) =
        if goodFit f then (f.thetaF, f.tauF, f.thetaS, f.tauS) else (0x3CA3D70A, 0x3CA3D70A, 0x3E19999A, 0x42700000))

/-- CLOCK_FORECAST (R460) of a clock at or above the floor, or before the first tick, changes nothing; of one below it sets FLOOR_WARN
and raises the event. AGEING_REFIT acts at every 1,024th maintenance tick alone (R477); it marks each lane it names and lets the
settings record be written. -/
def Sys2Proof.Claims.ForecastsAndRefits : Prop :=
  (∀ (tel : Telemetry) (s : State),
    let n := s.dev.tick.number.toNat + 1
    let p := s.dev.power
    let f := (p.choose s.fuse.variant tel (s.dev.periodOf n) p.timingTop (s.dev.stillTripped s.fuse.variant tel)).1
    (s.dev.tick.begun = false ∨ p.floorMhz ≤ f → exec (.clockForecast tel) s = .next s) ∧
    (s.dev.tick.begun = true → f < p.floorMhz →
      ∃ x : Dev, exec (.clockForecast tel) s = .next (s.withDev x) ∧ x.tick.floorWarn = true ∧ x.power = p)) ∧
  ∀ (fits : List AgeFit) (lanes : List (Fin 17 × Fin 8)) (s : State),
    (s.dev.power.maintCount % 1024 ≠ 0 → exec (.ageingRefit fits lanes) s = .next s) ∧
    (s.dev.power.maintCount % 1024 = 0 → 950 ≤ s.dev.power.fAge → ∃ x : Dev, exec (.ageingRefit fits lanes) s = .next (s.withDev x) ∧ x.retain.changed = true ∧
      (∀ e ∈ lanes, (x.port e.1.val).due.getLsbD e.2.val = true) ∧ x.power.fAge ≤ s.dev.power.fAge)

/-- Characterisation, forecasts and refits (R460, R467, R468, R470, R474 to R477). -/
def Obligations.CharacterisationAndRefits : Prop := CharacterisationRuns ∧ ForecastsAndRefits

/-! ## Cold resets, bring-up and the settings record (R481, R494, R495, R506 to R523) -/

/-- What a cold reset of the device `d` leaves (R16, R165, R447): nothing READY, FAULT_N low, clocks stopped; the copies of the settings
record and the firmware banks as they were; every register at its reset value; tiles, memories, sectors and slices empty; how the run
ended, where nothing has said so before; and the repairs that wait, unless the power was lost. -/
def Sys2Proof.Claims.coldAfter (v : Variant) (d u : Dev) (ended : W8) : Prop :=
  u.dev.ready = false ∧ u.dev.inReset = true ∧ u.pins.faultN = false ∧ u.power.clocksOn = false ∧ u.retain.copy0 = d.retain.copy0 ∧
    u.retain.copy1 = d.retain.copy1 ∧ u.retain.due = (if ended = 2 then [] else d.retain.due ++ d.dueRepairs v) ∧
    u.sec.bankA = d.sec.bankA ∧ u.sec.bankB = d.sec.bankB ∧ u.sec.preferred = d.sec.preferred ∧
    u.retain.ending = (if d.retain.ending = 0 then ended else d.retain.ending) ∧ u.csr = [] ∧ u.tiles = [] ∧ u.tileMem = [] ∧
    u.imem = [] ∧ u.sectors = [] ∧ u.hubs = [] ∧ u.quire = [] ∧ u.scratch = [] ∧ u.seq = {} ∧ u.tick = {} ∧ u.gander = {}

/-- RESET_N low for 1 µs or more with PWR_OK high, and PWR_OK falling, each outside a reset, start a cold reset; inside one they put off
the boot that waits; a shorter level does nothing, nor RESET_N without power (R507 to R509). RESET_N released while PWR_OK is low waits
for it, and PWR_OK rising with no boot waiting changes the pin alone. -/
def Sys2Proof.Claims.PinsStartColdResets : Prop :=
  (∀ (ns : Nat) (s : State),
    let d := { s.dev with pins := { s.dev.pins with resetN := false } }
    (ns < 1000 ∨ s.dev.pins.pwrOk = false → exec (.resetNAssert ns) s = .next s) ∧
    (1000 ≤ ns → s.dev.pins.pwrOk = true →
      (s.dev.dev.inReset = true → exec (.resetNAssert ns) s = .next (s.withDev { d with dev := { d.dev with bootHeld := none } })) ∧
      (s.dev.dev.inReset = false → ∃ u : Dev, exec (.resetNAssert ns) s = .next (s.withDev u) ∧ coldAfter s.fuse.variant d u 1 ∧
        u.pins.resetN = false))) ∧
  (∀ s : State,
    let d := { s.dev with pins := { s.dev.pins with pwrOk := false } }
    (s.dev.dev.inReset = true → exec .pwrOkFall s = .next (s.withDev { d with dev := { d.dev with bootHeld := none } })) ∧
    (s.dev.dev.inReset = false → ∃ u : Dev, exec .pwrOkFall s = .next (s.withDev u) ∧ coldAfter s.fuse.variant d u 2 ∧
      u.pins.pwrOk = false)) ∧
  (∀ (b : BootReport) (s : State),
    let d := { s.dev with pins := { s.dev.pins with resetN := true } }
    (s.dev.dev.inReset = false → exec (.resetNRelease b) s = .next (s.withDev d)) ∧
    (s.dev.dev.inReset = true → s.dev.pins.pwrOk = false →
      exec (.resetNRelease b) s = .next (s.withDev { d with dev := { d.dev with bootHeld := some b } }))) ∧
  ∀ s : State, s.dev.dev.bootHeld = none ∨ s.dev.dev.inReset = false ∨ s.dev.pins.resetN = false →
    exec .pwrOkAssert s = .next (s.withDev { s.dev with pins := { s.dev.pins with pwrOk := true } })

/-- The boot after RESET_N goes high, or after PWR_OK where it was waited for (R481, R487, R494, R495, R514, R515): with an acceptable image
in the preferred bank or else in the other the device becomes READY with its clocks on and FAULT_N high, running the preferred bank
where that is acceptable; with none it stands in recovery with FAULT_N low. Where the side path fails, or the device is SCRAPPED, it
ends without READY; with TEST_MODE high outside BLANK it does not start. It counts the boot in any case. -/
def Sys2Proof.Claims.BootsToReadyOrRecovery : Prop :=
  ∀ (b : BootReport) (c : Instr) (s : State),
    let d := s.dev
    let ok := fun (k : Bool) => decide (s.fuse.imageCheck (d.sec.bank k) = 1)
    let any := ok true || ok false
    (c = .resetNRelease b ∧ d.pins.pwrOk = true) ∨ (c = .pwrOkAssert ∧ d.dev.bootHeld = some b ∧ d.pins.resetN = true) →
    d.dev.inReset = true → d.dev.ready = false → d.pins.faultN = false → d.sec.recovery = false →
    ∃ u : Dev, exec c s = .next (s.withDev u) ∧ u.retain.bootId = d.retain.bootId + 1 ∧
      (b.testMode = true → s.fuse.state ≠ lcBlank → u.dev.inReset = true ∧ u.dev.ready = false ∧ u.sec.bootReason = 8) ∧
      (b.testMode = false ∨ s.fuse.state = lcBlank → u.dev.inReset = false ∧
        (s.fuse.state = lcScrapped → u.dev.ready = false ∧ u.pins.faultN = false) ∧
        (s.fuse.state ≠ lcScrapped → any = true ∧ b.sidePathOk = false → u.dev.ready = false ∧ u.sec.bootStep = 7) ∧
        (s.fuse.state ≠ lcScrapped → any = false ∨ b.sidePathOk = true → u.dev.ready = any ∧ u.pins.faultN = any ∧ u.sec.recovery = !any ∧
          (any = true → u.power.clocksOn = true ∧ u.sec.bootStep = 8 ∧
            u.sec.running = (if ok d.sec.preferred then d.sec.preferred else !d.sec.preferred))))

/-- Cold resets and what the boot after one reaches (R447, R494, R495, R506 to R514). -/
def Obligations.ColdResetsAndBoots : Prop := PinsStartColdResets ∧ BootsToReadyOrRecovery

/-- The settings record (R522, R523): a write that is due, with none in progress and outside a reset, begins with the copy it goes to
invalid, under the next SEQUENCE, and at its end that copy is what was written; else neither command does anything. WRITE_NOW makes a
write due, and FACTORY asks the next one for the factory settings. -/
def Obligations.SettingsAreWrittenCopyByCopy : Prop :=
  (∀ s : State,
    let k := s.dev.retain.target
    (s.dev.retain.changed = false ∨ s.dev.retain.writing.isSome = true ∨ s.dev.dev.inReset = true → exec .settingsWrite s = .next s) ∧
    (s.dev.retain.changed = true → s.dev.retain.writing = none → s.dev.dev.inReset = false →
      ∃ (u : Dev) (x : Record), exec .settingsWrite s = .next (s.withDev u) ∧ u.retain.writing = some (k, x) ∧ u.retain.changed = false ∧
        u.retain.writeAsked = false ∧ x.valid = true ∧ x.seq = (s.dev.retain.copy (!k)).seq + 1 ∧ x.factory = s.dev.retain.factoryReq ∧
        x.repairs = s.dev.retain.repairs ∧ x.lc = s.fuse.lc ∧ x.uid = s.fuse.uid ∧ (u.retain.copy k).valid = false ∧
        u.retain.copy (!k) = s.dev.retain.copy (!k))) ∧
  (∀ s : State, (s.dev.retain.writing = none → exec .settingsWriteDone s = .next s) ∧
    ∀ (k : Bool) (x : Record), s.dev.retain.writing = some (k, x) →
      ∃ u : Dev, exec .settingsWriteDone s = .next (s.withDev u) ∧ u.retain.writing = none ∧ u.retain.copy k = x ∧
        u.retain.copy (!k) = s.dev.retain.copy (!k)) ∧
  ∀ s : State, exec .retainWriteNow s = .next (s.withDev { s.dev with retain := { s.dev.retain with changed := true, writeAsked := true } }) ∧
    exec .retainFactory s = .next (s.withDev { s.dev with retain := { s.dev.retain with factoryReq := true } })

/-! ## Requests on the management path (R404, R406, R528, R531, R532) -/

/-- A packet that arrives for the stream `r` of this device: from a peer on a port that is up, or on an open Nimser host connection. -/
def Sys2Proof.Claims.arrives (d : Dev) (p : Fin 17) (h : NimHdr) (r : StreamRef) : Prop :=
  (d.port p.val).up = true ∧
    ((p.val ≠ 16 ∧ h.host = false ∧ h.dst = d.deviceId ∧ r = .peer h.src h.vc) ∨
     (p.val = 16 ∧ h.host = true ∧ h.stream.toNat < 256 ∧ (d.conn h.stream.toNat).state = 1 ∧ (d.conn h.stream.toNat).kind = 2 ∧
       r = .conn (h.stream.setWidth 8)))

/-- A CSR or MGMT request in its turn: outside SCRAPPED, on a management stream, of the stream's epoch, with the PSN expected, not marked
CE. -/
def Sys2Proof.Claims.asksInTurn (s : State) (q : MgmtReq) : Prop :=
  let x := s.dev.nim (streamKey (askedOn q))
  s.fuse.state ≠ lcScrapped ∧ arrives s.dev q.port q.hdr (askedOn q) ∧ askedOnMgmt q = true ∧ q.hdr.epoch = x.epoch ∧
    q.hdr.psn = x.expected ∧ q.hdr.ce = none

/-- The device once it has taken such a request: the stream's PSN has moved on. -/
def Sys2Proof.Claims.requestTaken (s : State) (q : MgmtReq) : Dev :=
  s.dev.onNim (streamKey (askedOn q)) fun x => { x with expected := x.expected + 1, unacked := x.unacked + 1, mgmt := true }

/-- The device answers a request: READ_RESP with data, or ERROR_RESP with a status, under the request's PSN. -/
def Sys2Proof.Claims.repliesTo (q : MgmtReq) (o : Host.Outcome State Fault Refusal) (s : State) (d : Dev) (st : W8) (data : List W8) : Prop :=
  o = .next (s.withDev (d.mgmtReply s.fuse.variant ⟨askedOn q, q.hdr.psn⟩ st data))

/-! ## Security (R480 to R503) -/

/-- The token commands. -/
def Sys2Proof.Claims.tokenRow (e : MgmtReq → Token → Instr) : Prop :=
  e = .debug ∨ e = .vendorDebug ∨ e = .ownership ∨ e = .ownerKey ∨ e = .returnAuth ∨ e = .returnVendor ∨ e = .scrap

/-- A token that arrives in its turn while no security command is in progress becomes the one in progress; during another it is answered
BUSY at once, the nonce and the other command as they were (log 44); during a reset it is answered FENCED. In SCRAPPED it is not
answered (R484, R489, R531, R532). -/
def Sys2Proof.Claims.TokensArriveOneAtATime : Prop :=
  ∀ (e : MgmtReq → Token → Instr) (q : MgmtReq) (t : Token) (s : State), tokenRow e →
    (s.fuse.state = lcScrapped → exec (e q t) s = .next s) ∧
    (asksInTurn s q →
      let d := requestTaken s q
      let busy : Dev := d.tokenResult t 7
      (s.dev.mgmtFenced = true → repliesTo q (exec (e q t) s) s d sFenced []) ∧
      (s.dev.mgmtFenced = false → s.dev.sec.busy = none → ∃ u : Dev, exec (e q t) s = .next (s.withDev u) ∧
        u.sec = { s.dev.sec with busy := some (.token t, some ⟨askedOn q, q.hdr.psn⟩) } ∧
        (u.nim (streamKey (askedOn q))).expected = q.hdr.psn + 1) ∧
      (s.dev.mgmtFenced = false → s.dev.sec.busy.isSome = true → repliesTo q (exec (e q t) s) s busy 0 (toLE 4 busy.tokenWord.toNat) ∧
        busy.sec = { s.dev.sec with tokenKind := t.kind, tokenResult := 7 }))

/-- A security command that is a token completes (R482, R483, R489, R490): one that a check refuses leaves its result in SEC.TOKEN and
changes neither fuse nor level; an accepted one opens its debug level, arms a return, fuses owner keys, or takes the life cycle on
with a cold reset; no command in progress, nothing done. -/
def Sys2Proof.Claims.TokensTakeEffect : Prop :=
  (∀ s : State, s.dev.sec.busy = none → exec .securityCommandDone s = .next s) ∧
  ∀ (t : Token) (a : Option Asker) (s : State), s.dev.sec.busy = some (.token t, a) →
    let r := tokenCheck t s.fuse s.dev.sec.nonce s.dev.sec.armed
    ∃ (f : Fuses) (u : Dev), exec .securityCommandDone s = .next { s with fuse := f, dev := u } ∧ u.sec.busy = none ∧
      (r ≠ 0 → f = s.fuse ∧ u.sec.tokenKind = t.kind ∧ u.sec.tokenResult = r ∧ u.sec.debugLevel = s.dev.sec.debugLevel ∧
        u.sec.ticksLeft = s.dev.sec.ticksLeft ∧ u.sec.armed = s.dev.sec.armed) ∧
      (r = 0 → t.kind = 1 ∨ t.kind = 2 → f = s.fuse ∧ u.sec.tokenResult = 0 ∧ u.sec.debugLevel = t.level.setWidth 2 ∧
        u.sec.ticksLeft = t.validTicks.toNat) ∧
      (r = 0 → t.kind = 3 → f.lc = s.fuse.lc ||| lcOwned ∧ f.owner[0].hash = some t.keyHash ∧ u.dev.inReset = true ∧ u.retain.ending = 6) ∧
      (r = 0 → t.kind = 4 → f = { s.fuse with owner := f.owner, ownerSigReq := s.fuse.ownerSigReq || t.policy.getLsbD 0 } ∧
        ∀ i : Fin 4, f.owner[i].revoked = (s.fuse.owner[i].revoked || t.revoke.getLsbD i.val) ∧
          f.owner[i].hash = if t.newSlot.toNat = i.val then some t.keyHash else s.fuse.owner[i].hash) ∧
      (r = 0 → t.kind = 5 → f = s.fuse ∧ u.sec.armed = true ∧ u.sec.armedLeft = t.validTicks.toNat) ∧
      (r = 0 → t.kind = 6 → f.lc = s.fuse.lc ||| lcReturned ∧ u.dev.inReset = true ∧ u.retain.ending = 6 ∧ u.sec.erased = true) ∧
      (r = 0 → t.kind = 7 → f.lc = s.fuse.lc ||| lcScrapped ∧ u.dev.inReset = true ∧ u.retain.ending = 6 ∧ u.sec.identity = false)

/-- Firmware control and the times of the security state (R482, R484, R490, R496). A write to SEC.FW_CTRL is taken where no command is in
progress, and shows BUSY where one is; VERIFY leaves the result of R493, ACTIVATE makes the bank preferred only where RESULT is VALID,
COMMIT raises the counter to the running image's SVN, never lowers it, and clears the header of a bank below it. A level or an armed
return ends at 0 ticks, and CLOSE ends a level at once. BLANK becomes VENDOR only under manufacturing test, with a cold reset. -/
def Sys2Proof.Claims.FirmwareControlAndExpiries : Prop :=
  (∀ (c : Instr) (v a k : Bool) (s : State),
    (c = .fwVerify ∧ (v, a, k) = (true, false, false)) ∨ (c = .fwActivate ∧ (v, a, k) = (false, true, false)) ∨
      (c = .fwCommit ∧ (v, a, k) = (false, false, true)) →
    (s.dev.takesCommands s.fuse = false → exec c s = .next s) ∧
    (s.dev.takesCommands s.fuse = true → s.dev.sec.busy.isSome = true →
      exec c s = .next (s.withDev { s.dev with sec := { s.dev.sec with fwResult := 6 } })) ∧
    (s.dev.takesCommands s.fuse = true → s.dev.sec.busy = none → ∃ u : Dev, exec c s = .next (s.withDev u) ∧
      u.sec = { s.dev.sec with busy := some (.firmware (s.dev.bit (At.sec 0x00C) 3) v a k, none) })) ∧
  (∀ (bank v a k : Bool) (x : Option Asker) (s : State), s.dev.sec.busy = some (.firmware bank v a k, x) →
    let result := if v then s.fuse.imageCheck (s.dev.sec.bank bank) else s.dev.sec.fwResult
    let counter := if k then max s.fuse.counter s.dev.sec.svnRun else s.fuse.counter
    ∃ u : Dev, exec .securityCommandDone s = .next { s with fuse := { s.fuse with counter := counter }, dev := u } ∧
      u.sec.busy = none ∧ u.sec.fwResult = result ∧ u.sec.preferred = (if a && decide (result = 1) then bank else s.dev.sec.preferred) ∧
      ∀ b : Bool, u.sec.bank b = if k = true ∧ imgSvn (s.dev.sec.bank b) < counter
        then (s.dev.sec.bank b).store 0 (List.replicate 1024 0) else s.dev.sec.bank b) ∧
  (∀ s : State,
    exec .debugLevelExpiry s = .next (if s.dev.sec.ticksLeft = 0
      then s.withDev { s.dev with sec := { s.dev.sec with debugLevel := 0 } } else s) ∧
    exec .returnArmedExpiry s = .next (if s.dev.sec.armedLeft = 0
      then s.withDev { s.dev with sec := { s.dev.sec with armed := false } } else s) ∧
    exec .debugClose s = .next (if s.dev.mgmtFenced then s
      else s.withDev { s.dev with sec := { s.dev.sec with debugLevel := 0, ticksLeft := 0 } })) ∧
  (∀ (uid : BitVec 128) (hs : List (BitVec 512)) (s : State),
    let may := s.fuse.state = lcBlank ∧ s.dev.pins.testMode = true ∧ s.dev.sec.busy = none ∧ s.dev.dev.inReset = false
    (may → exec (.blankToVendor uid hs) s =
      .next (s.withDev { s.dev with sec := { s.dev.sec with busy := some (.toVendor uid hs, none) } })) ∧
    (¬ may → exec (.blankToVendor uid hs) s = .next s)) ∧
  ∀ (uid : BitVec 128) (hs : List (BitVec 512)) (x : Option Asker) (s : State), s.dev.sec.busy = some (.toVendor uid hs, x) →
    ∃ (f : Fuses) (u : Dev), exec .securityCommandDone s = .next { s with fuse := f, dev := u } ∧ f.lc = s.fuse.lc ||| lcVendor ∧ f.uid = uid ∧
      (∀ i : Fin 4, i.val < hs.length → f.vendor[i].hash = hs[i.val]?) ∧ u.sec.identity = true ∧ u.dev.inReset = true ∧ u.retain.ending = 6

/-- Security commands: tokens, firmware control, and the times of the security state (R482, R484, R489, R490, R496). -/
def Obligations.SecurityCommands : Prop := TokensArriveOneAtATime ∧ TokensTakeEffect ∧ FirmwareControlAndExpiries

/-! ## Ports, the host port and the clock (R390 to R396, R417, R421, R428) -/

/-- A port that is retrained or loses its link goes down with no lane in use, and no other port changes (R392); a link already down, or
a port that the part lacks, stays as it is. A port that may train comes up at its width where the report allows it: in DIRECT mode at
the widest legal width within its setting, with the partner the report names, in Ethernet mode at its setting; else it stays down.
Equalisation that the report brings is stored. -/
def Sys2Proof.Claims.PortsTrain : Prop :=
  (∀ (p : Fin 17) (c : Instr) (s : State),
    (c = .linkDown p ∧ (s.dev.port p.val).up = true) ∨ (p.val = 16 ∧ c = .hostRetrain) ∨
      (∃ q : Fin 16, c = .portRetrain q ∧ q.val = p.val ∧ q.val < s.fuse.variant.ports) →
    ∃ u : Dev, exec c s = .next (s.withDev u) ∧ (u.port p.val).up = false ∧ (u.port p.val).lanes = 0 ∧
      ∀ q, q ≠ p.val → u.port q = s.dev.port q) ∧
  (∀ (p : Fin 17) (s : State), (s.dev.port p.val).up = false → exec (.linkDown p) s = .next s) ∧
  (∀ (p : Fin 16) (s : State), s.fuse.variant.ports ≤ p.val → exec (.portRetrain p) s = .next s) ∧
  ∀ (p : Fin 17) (r : TrainReport) (s : State),
    let d := s.dev
    let may := d.portOn s.fuse.variant p.val = true ∧ (d.port p.val).up = false
    let mode := if p.val = 16 then 2 else d.fld (At.port p.val 0) 0 2
    let want := if p.val = 16 then 8 / 2 ^ d.fld (At.host 0x000) 2 2 else 4 / 2 ^ d.fld (At.port p.val 0) 2 2
    let w := min want r.lanes
    let lanes := if mode = 1 then (if 4 ≤ w then 4 else if 2 ≤ w then 2 else w) else want
    let good := r.up = true ∧ 0 < lanes ∧ (mode = 1 ∨ want ≤ r.lanes)
    (¬ may → exec (.portTrainingDone p r) s = .next s) ∧
    (may → ∃ u : Dev, exec (.portTrainingDone p r) s = .next (s.withDev u) ∧
      (good → (u.port p.val).up = true ∧ (u.port p.val).lanes = lanes ∧ (u.port p.val).mode.toNat = mode ∧ (u.port p.val).due = 0 ∧
        (u.port p.val).eq = r.eq.or (d.port p.val).eq ∧
        (mode = 1 → (u.port p.val).peer = r.peer ∧ (u.port p.val).peerPort = r.peerPort ∧ (u.port p.val).latency = r.latencyNs)) ∧
      (¬ good → (u.port p.val).up = false ∧ (u.port p.val).lanes = 0))

/-- Frames at an Ethernet port (R393, R394, R401, R417): one that is unsupported or fails its check is dropped and counted in the
port's own registers, and on a port that carries no frames nothing happens; ARP and neighbour solicitations for the device's own
addresses are answered; a PFC frame stops or releases its priority where PFC is enabled. -/
def Sys2Proof.Claims.FramesAtPorts : Prop :=
  (∀ (p : Fin 17) (s : State),
    let l := if p.val = 16 then At.host 0x044 else At.port p.val 0x008
    let counts := fun (o : Host.Outcome State Fault Refusal) (lo : Nat) => ∃ t : Tab W32, o = .next (s.withDev { s.dev with csr := t }) ∧
      ({ s.dev with csr := t } : Dev).fld l lo 16 = min (s.dev.fld l lo 16 + 1) 0xFFFF
    (s.dev.frames p.val = false → exec (.unsupportedFrame p) s = .next s ∧ exec (.frameFcsError p) s = .next s) ∧
    (s.dev.frames p.val = true → counts (exec (.unsupportedFrame p) s) (if p.val = 16 then 0 else 16) ∧
      counts (exec (.frameFcsError p) s) (if p.val = 16 then 16 else 0))) ∧
  (∀ (ip : W32) (mac : BitVec 48) (from_ : W32) (s : State), exec (.arpRequest ip mac from_) s = .next (
    if (s.dev.port 16).up = true ∧ ip ≠ 0 ∧ ip = s.dev.reg (At.host 0x010)
    then s.withDev (s.dev.send (.arp s.dev.links.hostMac ip from_)) else s)) ∧
  (∀ (ip : BitVec 128) (mac : BitVec 48) (from_ : BitVec 128) (s : State), exec (.neighborSolicitation ip mac from_) s = .next (
    if (s.dev.port 16).up = true ∧ ip ≠ 0 ∧ ip = s.dev.hostIp6 then s.withDev (s.dev.send (.nd s.dev.links.hostMac ip from_ 0b10)) else s)) ∧
  ∀ (p : Fin 17) (k : Fin 8) (stop : Bool) (s : State),
    let on := if p.val = 16 then s.dev.bit (At.host 0x000) 9 else s.dev.bit (At.port p.val 0) 7
    (s.dev.frames p.val = false ∨ on = false → exec (.pfcFrame p k stop) s = .next s) ∧
    (s.dev.frames p.val = true → on = true → ∃ u : Dev, exec (.pfcFrame p k stop) s = .next (s.withDev u) ∧
      ∀ j : Fin 8, (u.port p.val).paused.getLsbD j.val = if j = k then stop else (s.dev.port p.val).paused.getLsbD j.val)

/-- The PTP time receiver on its port (R393): the first ANNOUNCE names the master, and a better one takes its place (log 48); a one-step
Sync, or a Follow_Up after a two-step one, gives the offset by the delay measured last and asks for the delay again; a Delay_Resp gives
delay and offset and locks the clock. Out of their order, or at another port, these messages do nothing. -/
def Sys2Proof.Claims.PtpFollowsItsMaster : Prop :=
  ∀ (p : Fin 17) (s : State),
    let ptp := s.dev.links.ptp
    let here := p.val = s.dev.links.ptpPort ∧ s.dev.frames p.val = true
    let onPtp := fun (y : Ptp) => s.withDev { s.dev with links := { s.dev.links with ptp := y } }
    let synced := fun (origin arrival : Nat) => s.withDev (({ s.dev with links := { s.dev.links with ptp :=
      { ptp with awaiting := none, syncAt := some (origin, arrival), offset := (arrival : Int) - origin - ptp.delay } } } : Dev).send
        (.ptpDelayReq p.val 0b10))
    (∀ (clock : W64) (rank : Nat), exec (.ptpAnnounce p clock rank) s = .next (match ptp.master with
      | none => if here then onPtp { ptp with master := some (clock, rank) } else s
      | some (c, r) => if here ∧ clock = c then onPtp { ptp with master := some (clock, rank) }
        else if here ∧ (rank < r ∨ (rank = r ∧ clock.toNat < c.toNat)) then onPtp { master := some (clock, rank) } else s)) ∧
    (∀ origin arrival : Nat,
      exec (.ptpSync p false origin arrival) s = .next (if here ∧ ptp.master.isSome = true then synced origin arrival else s) ∧
      exec (.ptpSync p true origin arrival) s = .next (if here ∧ ptp.master.isSome = true then onPtp { ptp with awaiting := some arrival }
        else s)) ∧
    (∀ origin : Nat, exec (.ptpFollowUp p origin) s = .next (match ptp.awaiting with
      | some arrival => if here then synced origin arrival else s
      | none => s)) ∧
    ∀ sent received : Nat, exec (.ptpDelayResp p sent received) s = .next (match ptp.syncAt with
      | some (t1, t2) =>
        let delay := ((((t2 : Int) - t1) + ((received : Int) - sent)) / 2).toNat
        if here then onPtp { ptp with delay := delay, offset := (t2 : Int) - t1 - delay, locked := true } else s
      | none => s)

/-- Packets as they leave (R395, R401, R409, R416, R417): one whose priority a port has stopped is held, and any other leaves in a frame;
to a peer the frame carries the addresses that follow from FLEET_MAC, PFX, device and port, or the next hop's where the port is
ROUTED, one UDP source port for its stream, ECT(0), and a CRC-32C behind the packet; to a host what its connection names. -/
def Sys2Proof.Claims.PacketsLeaveInFrames : Prop :=
  ∀ (d : Dev) (p : Nat) (m : Packet),
    (p = 16 ∨ (d.port p).mode ≠ 1 → d.transmit p m = if (d.port p).paused.getLsbD (d.priorityOf p m) = true
      then { d with links := { d.links with heldOut := d.links.heldOut ++ [(p, m)] } } else d.send (.frame p (d.envelope p m) m)) ∧
    ∀ (op : W8) (h : NimHdr) (data : List W8), m = .nimser op h data →
      let e := d.envelope p m
      let c := d.conn h.stream.toNat
      let fleet := fun (dev : W16) => 0x02#8 ++ d.links.fleetMac ++ dev ++ BitVec.ofNat 8 p
      e.ecn = 0b10 ∧ e.code = crc32c (headerBytes op h ++ data) ∧
      (p ≠ 16 → e.smac = fleet d.deviceId ∧ e.sport = Config.udpSource h.src h.dst h.vc ∧ e.v4 = false ∧
        e.sip = d.fleetPrefix ++ BitVec.ofNat 8 p ++ d.deviceId ∧ e.dip = d.fleetPrefix ++ BitVec.ofNat 8 p ++ h.dst ∧
        e.dmac = (if d.bit (At.port p 0) 6 then (d.reg64 (At.port p 0x010)).setWidth 48 else fleet h.dst)) ∧
      (p = 16 → e.smac = d.links.hostMac ∧ e.dmac = c.dmac ∧ e.dip = c.dip ∧ e.sport = c.udpSrc ∧ e.v4 = decide (c.ipv = 4))

/-- Frames at Ethernet ports and the PTP time receiver (R393, R394, R401, R417). -/
def Obligations.FramesAndPtp : Prop := FramesAtPorts ∧ PtpFollowsItsMaster ∧ PacketsLeaveInFrames

/-- Host connections and the routing table (R395, R396, R421): a closed connection whose entry can be read and has KIND 1 or 2 opens
with the entry's fields, its Nimser stream at its start; any other entry leaves it closed, and a connection that is not closed stays as
it is; CONN_CLOSE leaves it closed with nothing outstanding; a load of the routing table waits for the next edge once it is copied. -/
def Sys2Proof.Claims.ConnectionsAndRoutes : Prop :=
  (∀ (i : W8) (s : State),
    let d := s.dev.setFld (At.host 0x040) 0 8 i.toNat
    let r := d.physBytes s.fuse.variant (d.connAddr i.toNat) 64
    let good := r.st = 0 ∧ (recNat r.data 0 1 = 1 ∨ recNat r.data 0 1 = 2)
    ((s.dev.conn i.toNat).state ≠ 0 → exec (.connOpen i) s = .next (s.withDev d)) ∧
    ((s.dev.conn i.toNat).state = 0 → ¬ good → exec (.connOpen i) s = .next (s.withDev r.d)) ∧
    ((s.dev.conn i.toNat).state = 0 → good → ∃ u : Dev, exec (.connOpen i) s = .next (s.withDev u) ∧ (u.conn i.toNat).state = 1 ∧
      (u.conn i.toNat).kind.toNat = recNat r.data 0 1 ∧ (u.conn i.toNat).queue.toNat = recNat r.data 4 2 ∧
      (u.conn i.toNat).udpSrc.toNat = recNat r.data 6 2 ∧ (u.conn i.toNat).rqpn.toNat = recNat r.data 0x20 4 ∧
      (u.conn i.toNat).rkey.toNat = recNat r.data 0x2C 4 ∧ (u.conn i.toNat).outstanding = [] ∧ u.nim (streamKey (.conn i)) = {} ∧
      ∀ j, j ≠ i.toNat → u.conn j = r.d.conn j)) ∧
  (∀ (i : W8) (s : State), ∃ u : Dev, exec (.connClose i) s = .next (s.withDev u) ∧ u.conn i.toNat = {} ∧
    u.nim (streamKey (.conn i)) = {} ∧ ∀ j, j ≠ i.toNat → u.conn j = s.dev.conn j) ∧
  (∀ s : State, exec .routeLoad s = .next (s.withDev { s.dev with links := { s.dev.links with routeLoading := true } })) ∧
  ∀ s : State, (s.dev.links.routeLoading = false → exec .routeLoadCopied s = .next s) ∧
    (s.dev.links.routeLoading = true → ∃ u : Dev, exec .routeLoadCopied s = .next (s.withDev u) ∧ u.links.routeWaiting = true ∧
      u.links.routes = s.dev.links.routes)

/-- Ports, host connections and the routing table (R390 to R396, R421, R428). -/
def Obligations.PortsConnectionsAndRoutes : Prop := PortsTrain ∧ ConnectionsAndRoutes

/-! ## RoCEv2 connections (R397 to R400, R409) -/

/-- An open RoCEv2 connection behind a host port that is up. -/
def Sys2Proof.Claims.roceOpen (d : Dev) (i : W8) : Prop := (d.port 16).up = true ∧ (d.conn i.toNat).state = 1 ∧ (d.conn i.toNat).kind = 1

/-- A packet leaves a port in a frame, or is held because its priority is stopped. -/
def Sys2Proof.Claims.framed (d u : Dev) (p : Nat) (m : Packet) : Prop :=
  (∃ e : Envelope, OutMsg.frame p e m ∈ u.outbox.drop d.outbox.length) ∨ (p, m) ∈ u.links.heldOut.drop d.links.heldOut.length

/-- The host's requests on an open connection whose queue pair they name, in their turn (R393, R397 to R399, R409): a message of SENDs is
taken whole with its last packet into its host queue, and where that has no room the packet is refused as not ready; a message too long
ends the connection in the error state. An RDMA WRITE under a grant has written its bytes when its packet is acknowledged; an RDMA READ
under one is answered with the bytes, cut by the path MTU; each moves the expected PSN on. An access that no grant admits, or that
fails, ends the connection in the error state. -/
def Sys2Proof.Claims.RoceRequestsInTurn : Prop :=
  ∀ (h : RoceHdr) (i : W8) (data : List W8) (s : State), h.qp = localQp i.toNat → roceOpen s.dev i →
    psn24 (h.psn - (s.dev.conn i.toNat).expected) = 0 →
    let v := s.fuse.variant
    let n := i.toNat
    let d := s.dev.roceNotify n h.ce
    let c := d.conn n
    (let msg := (if h.first then [] else c.message) ++ data
     let sends := exec (.roceSend h data) s
     (2 ^ 20 < msg.length → ∃ u : Dev, sends = .next (s.withDev u) ∧ (u.conn n).state = 2) ∧
     (msg.length ≤ 2 ^ 20 → h.last = false → ∃ u : Dev, sends = .next (s.withDev u) ∧ (u.conn n).message = msg ∧
       (u.conn n).expected = psn24 (h.psn + 1)) ∧
     (msg.length ≤ 2 ^ 20 → h.last = true → (d.takeMessage c.queue msg).1 = true → ∃ u : Dev, sends = .next (s.withDev u) ∧
       (u.conn n).expected = psn24 (h.psn + 1) ∧ u.hostWords c.queue.toNat = d.hostWords c.queue.toNat ++ messageWords msg) ∧
     (msg.length ≤ 2 ^ 20 → h.last = true → (d.takeMessage c.queue msg).1 = false →
       sends = .next (s.withDev (d.transmit 16 (.roce n 0x11 h.psn 0 0 0 0x21 []))))) ∧
    (let writes := exec (.roceRdmaWrite h data) s
     let key := if h.first then h.rkey else c.writeKey
     let a := if h.first then h.addr else c.writeAt
     let whole := if h.first ∧ 0 < h.len then d.admitHost v n h.rkey h.addr.toNat h.len false true else (0, [], d)
     let p := whole.2.2.admitHost v n key a.toNat data.length false true
     let w := p.2.2.writeIn v p.2.2.tick.step p.2.1 data
     (whole.1 = 0 → data = [] → ∃ u : Dev, writes = .next (s.withDev u) ∧ (u.conn n).expected = psn24 (h.psn + 1)) ∧
     (whole.1 = 0 → data ≠ [] → p.1 = 0 → w.st = 0 →
       ∃ u : Dev, writes = .next (s.withDev u) ∧ (u.conn n).expected = psn24 (h.psn + 1) ∧
         (u.conn n).writeAt = a + BitVec.ofNat 64 data.length ∧ (u.conn n).writeKey = key ∧ u.quire = w.d.quire ∧ u.hubs = w.d.hubs) ∧
     (whole.1 ≠ 0 → ∃ u : Dev, writes = .next (s.withDev u) ∧ (u.conn n).state = 2 ∧ u.quire = whole.2.2.quire) ∧
     (whole.1 = 0 → data ≠ [] → p.1 ≠ 0 ∨ w.st ≠ 0 → ∃ u : Dev, writes = .next (s.withDev u) ∧ (u.conn n).state = 2)) ∧
    (let reads := exec (.roceRdmaRead h) s
     let p := if h.len = 0 then (0, [], d) else d.admitHost v n h.rkey h.addr.toNat h.len true false
     let r := p.2.2.readOut v p.2.1
     let mtu := (r.d.conn n).mtu
     let parts := if r.data = [] then [[]] else chunks mtu r.data
     let op := fun (k : Nat) => if parts.length = 1 then (0x10 : W8) else if k = 0 then 0x0D else if k + 1 = parts.length then 0x0F else 0x0E
     (p.1 = 0 → r.st = 0 → ∃ u : Dev, reads = .next (s.withDev u) ∧
       (u.conn n).expected = psn24 (h.psn + BitVec.ofNat 32 (max 1 ((h.len + mtu - 1) / mtu))) ∧
       ∀ (k : Nat) (x : List W8), parts[k]? = some x → framed d u 16 (.roce n (op k) (psn24 (h.psn + BitVec.ofNat 32 k)) 0 0 0 0 x)) ∧
     (p.1 ≠ 0 ∨ r.st ≠ 0 → ∃ u : Dev, reads = .next (s.withDev u) ∧ (u.conn n).state = 2))

/-- A request packet out of its turn (R396, R398, R409): one ahead of the expected PSN is refused with a sequence error; of a SEND or an
RDMA WRITE behind it the last PSN is acknowledged again, and nothing is written. A mark CE is told to the host at most once in 50 µs. On
a queue pair with no open connection nothing happens. -/
def Sys2Proof.Claims.RoceRequestsOutOfTurn : Prop :=
  (∀ (h : RoceHdr) (i : W8) (data : List W8) (c : Instr) (s : State), h.qp = localQp i.toNat → roceOpen s.dev i →
    c = .roceSend h data ∨ c = .roceRdmaWrite h data ∨ c = .roceRdmaRead h →
    let n := i.toNat
    let d := s.dev.roceNotify n h.ce
    let ahead := (psn24 (h.psn - (s.dev.conn n).expected)).toNat
    let last := (d.conn n).expected
    (0 < ahead → ahead < 2 ^ 23 → exec c s = .next (s.withDev (d.transmit 16 (.roce n 0x11 last 0 0 0 0x60 [])))) ∧
    (2 ^ 23 ≤ ahead → c ≠ .roceRdmaRead h →
      exec c s = .next (s.withDev (d.transmit 16 (.roce n 0x11 (psn24 (last - 1)) 0 0 0 0 []))))) ∧
  (∀ (d : Dev) (n now : Nat), d.roceNotify n none = d ∧
    ((∃ t, (d.conn n).lastNotify = some t ∧ now < t + 50000) → d.roceNotify n (some now) = d) ∧
    (d.bit (At.host 0x000) 8 = true → (∀ t, (d.conn n).lastNotify = some t → t + 50000 ≤ now) →
      ((d.roceNotify n (some now)).conn n).lastNotify = some now ∧ framed d (d.roceNotify n (some now)) 16 (.roce n 0x81 0 0 0 0 0 []))) ∧
  ∀ (h : RoceHdr) (data : List W8) (x : W8) (c : Instr) (s : State), (∀ i, h.qp = localQp i.toNat → ¬ roceOpen s.dev i) →
    c = .roceSend h data ∨ c = .roceRdmaWrite h data ∨ c = .roceRdmaRead h ∨ c = .roceAck h ∨ c = .roceNak h x ∨
      c = .roceReadResponse h data →
    exec c s = .next s

/-- RoCEv2 requests in their turn and out of it (R393, R396 to R399, R409). -/
def Obligations.RoceRequests : Prop := RoceRequestsInTurn ∧ RoceRequestsOutOfTurn

/-- The device's own request on an open connection, the only one outstanding (R400, R409): an acknowledge of it completes a write, a
read response a read, with its data; a sequence error or a timeout sends it again, and after seven retries the connection is in the
error state and the request completes with INTERFACE_RETRY_EXHAUSTED; RNR sends it again without limit, and any other refusal ends in
the error state. A notification halves the rate, down to a sixty-fourth, at most once in 50 µs. On a connection that is not open
nothing happens. -/
def Obligations.RoceRequesterCompletes : Prop :=
  (∀ (h : RoceHdr) (i : W8) (o : Outstanding) (data : List W8) (syndrome : W8) (s : State), h.qp = localQp i.toNat →
    let n := i.toNat
    let c := s.dev.conn n
    roceOpen s.dev i → c.outstanding = [o] → o.sent = true → o.tag ≠ 0 →
    let completes := fun (out : Host.Outcome State Fault Refusal) (st : W8) (x : List W8) => ∃ u : Dev, out = .next (s.withDev u) ∧
      (u.conn n).outstanding = [] ∧ u.answered o.tag = some (st, x)
    let again := fun (out : Host.Outcome State Fault Refusal) (k : Nat) => ∃ u : Dev, out = .next (s.withDev u) ∧
      (u.conn n).outstanding = [o] ∧ (u.conn n).tries = k
    (o.op ≠ 0x02 → (psn24 (h.psn - o.psn)).toNat < 2 ^ 23 → completes (exec (.roceAck h) s) 0 []) ∧
    (o.op = 0x02 ∨ 2 ^ 23 ≤ (psn24 (h.psn - o.psn)).toNat → again (exec (.roceAck h) s) c.tries) ∧
    (o.op = 0x02 → o.psn = h.psn → completes (exec (.roceReadResponse h data) s) 0 data) ∧
    (o.op ≠ 0x02 ∨ o.psn ≠ h.psn → exec (.roceReadResponse h data) s = .next s) ∧
    (c.tries < 7 → again (exec (.roceRetryTimeout i) s) (c.tries + 1)) ∧
    (7 ≤ c.tries → completes (exec (.roceRetryTimeout i) s) sRetryExhausted []) ∧
    (2 ^ 23 ≤ (psn24 (psn24 (h.psn - 1) - o.psn)).toNat →
      (syndrome.toNat / 32 = 1 → again (exec (.roceNak h syndrome) s) c.tries) ∧
      (syndrome = 0x60 → c.tries < 7 → again (exec (.roceNak h syndrome) s) (c.tries + 1)) ∧
      ((syndrome = 0x60 ∧ 7 ≤ c.tries) ∨ (syndrome ≠ 0x60 ∧ syndrome.toNat / 32 ≠ 1) →
        completes (exec (.roceNak h syndrome) s) sRetryExhausted []))) ∧
  (∀ (i : W8) (now : Nat) (s : State), roceOpen s.dev i →
    let c := s.dev.conn i.toNat
    (s.dev.bit (At.host 0x000) 8 = false ∨ (∃ t, c.lastSlow = some t ∧ now < t + 50000) → exec (.cnp i now) s = .next s) ∧
    (s.dev.bit (At.host 0x000) 8 = true → (∀ t, c.lastSlow = some t → t + 50000 ≤ now) → ∃ u : Dev, exec (.cnp i now) s = .next (s.withDev u) ∧
      u.conn i.toNat = { c with rate := max (c.rate / 2) 1024, lastSlow := some now, slowed := true })) ∧
  ∀ (i : W8) (now : Nat) (s : State), ¬ roceOpen s.dev i →
    exec (.roceRetryTimeout i) s = .next s ∧ exec (.cnp i now) s = .next s

/-! ## Nimser streams (R401 to R409) -/

/-- The request commands of a stream, what each asks, and its operation and payload on the wire (R403). -/
def Sys2Proof.Claims.asks (p : Fin 17) (h : NimHdr) (c : Instr) (q : NimReq) (op : W8) (bytes : List W8) : Prop :=
  (c = .write p h bytes ∧ q = .write bytes ∧ op = 0x01) ∨ (c = .readReq p h ∧ q = .read ∧ op = 0x02 ∧ bytes = []) ∨
    (∃ k w x e, c = .atomic p h k w x e ∧ q = .atomic k w x e ∧ op = 0x03 ∧ bytes = atomicBytes k w x e) ∨
    (c = .redWrite p h bytes ∧ q = .redWrite bytes ∧ op = 0x04) ∨ (c = .push p h bytes ∧ q = .push bytes ∧ op = 0x05)

/-- The other packets of a stream, with their operation and payload (R403). -/
def Sys2Proof.Claims.brings (p : Fin 17) (h : NimHdr) (c : Instr) (op : W8) (bytes : List W8) : Prop :=
  (c = .nimserAck p h ∧ op = 0x10 ∧ bytes = []) ∨ (c = .nimserNak p h ∧ op = 0x11 ∧ bytes = []) ∨
    (c = .readResp p h bytes ∧ op = 0x12) ∨ (∃ old : W64, c = .atomicResp p h old ∧ op = 0x13 ∧ bytes = toLE 8 old.toNat) ∨
    (c = .errorResp p h ∧ op = 0x14 ∧ bytes = []) ∨ (∃ now : Nat, c = .congestion p h now ∧ op = 0x16 ∧ bytes = []) ∨
    (c = .resync p h ∧ op = 0x17 ∧ bytes = [])

/-- The target of a stream (R404 to R406, R408, R409): the request with the PSN expected is executed, and unless it is not ready the PSN
moves on; one ahead of it is not executed and is answered with a NAK of the last PSN received; one behind it is not executed again,
but a read, and one of another epoch is dropped. -/
def Sys2Proof.Claims.NimserExecutesInOrder : Prop :=
  ∀ (p : Fin 17) (h : NimHdr) (r : StreamRef) (c : Instr) (q : NimReq) (op : W8) (bytes : List W8) (s : State), arrives s.dev p h r →
    asks p h c q op bytes →
    let v := s.fuse.variant
    let k := streamKey r
    let x := s.dev.nim k
    let d := s.dev.notify v p.val r h.ce
    let done := d.perform v r h q
    (h.epoch ≠ x.epoch → exec c s = .next s) ∧
    (h.epoch = x.epoch → h.psn = x.expected → ∃ u : Dev, exec c s = .next (s.withDev u) ∧ u.quire = done.2.quire ∧
      u.hubs = done.2.hubs ∧ u.links.hostBuf = done.2.links.hostBuf ∧
      (u.nim k).expected = (done.2.nim k).expected + (if done.1 = .notReady then 0 else 1)) ∧
    (h.epoch = x.epoch → h.psn ≠ x.expected → (h.psn - x.expected).toNat < 2 ^ 31 →
      exec c s = .next (s.withDev (d.respond v r 0x11 0 x.epoch (x.expected - 1) []))) ∧
    (h.epoch = x.epoch → 2 ^ 31 ≤ (h.psn - x.expected).toNat → ∃ u : Dev, exec c s = .next (s.withDev u) ∧
      (q ≠ .read → u.quire = s.dev.quire ∧ u.hubs = s.dev.hubs ∧ (u.nim k).expected = x.expected) ∧
      (q = .read → u.quire = done.2.quire ∧ u.hubs = done.2.hubs ∧ (u.nim k).expected = (done.2.nim k).expected))

/-- A packet for another device (R420): one that has made 15 hops, or to which no way leads, is dropped and counted; any other goes on by
the device's own table with one hop more. What comes by a port that is down, or for a host connection that is not an open Nimser one, is
dropped. -/
def Sys2Proof.Claims.NimserForwards : Prop :=
  ∀ (p : Fin 17) (h : NimHdr) (c : Instr) (q : NimReq) (op : W8) (bytes : List W8) (s : State),
    asks p h c q op bytes ∨ brings p h c op bytes →
    let w := s.dev.pickWay s.fuse.variant h.src h.dst (channelOfPacket op h.vc)
    let counted := fun (d : Dev) (lo : Nat) => exec c s = .next (s.withDev (d.count (At.link (p.val / 8) 0x23C) lo 16 1))
    ((s.dev.port p.val).up = false → exec c s = .next s) ∧
    (p.val = 16 → h.stream.toNat ≥ 256 ∨ (s.dev.conn h.stream.toNat).state ≠ 1 ∨ (s.dev.conn h.stream.toNat).kind ≠ 2 → exec c s = .next s) ∧
    ((s.dev.port p.val).up = true → p.val ≠ 16 → h.host = false → h.dst ≠ s.dev.deviceId →
      (15 ≤ h.hops.toNat → counted s.dev 16) ∧
      (h.hops.toNat < 15 → w.1 = none → counted w.2 0) ∧
      ∀ y, h.hops.toNat < 15 → w.1 = some y →
        exec c s = .next (s.withDev (w.2.transmit y (.nimser op { h with hops := h.hops + 1 } bytes))))

/-- What keeps a stream in step (R406, R408, R409): 1 µs after the last request everything executed is acknowledged; a RESYNC of the next
epoch begins it with PSN 0, and of another one changes nothing; CONGESTION halves the requester's rate, at most once in 50 µs, and the
timer raises it again by a sixteenth of the port's, after a time without one. -/
def Sys2Proof.Claims.NimserKeepsInStep : Prop :=
  (∀ (r : StreamRef) (s : State), ((s.dev.nim (streamKey r)).unacked = 0 → exec (.nimserAckTimer r) s = .next s) ∧
    (0 < (s.dev.nim (streamKey r)).unacked → ∃ u : Dev, exec (.nimserAckTimer r) s = .next (s.withDev u) ∧
      (u.nim (streamKey r)).unacked = 0 ∧ (u.nim (streamKey r)).expected = (s.dev.nim (streamKey r)).expected)) ∧
  (∀ (p : Fin 17) (h : NimHdr) (r : StreamRef) (s : State), arrives s.dev p h r →
    let x := s.dev.nim (streamKey r)
    (h.epoch = x.epoch + 1 → ∃ u : Dev, exec (.resync p h) s = .next (s.withDev u) ∧ (u.nim (streamKey r)).epoch = h.epoch ∧
      (u.nim (streamKey r)).expected = 0 ∧ (u.nim (streamKey r)).unacked = 0 ∧ (u.nim (streamKey r)).atomics = []) ∧
    (h.epoch = x.epoch → exec (.resync p h) s = .next (s.withDev (s.dev.respond s.fuse.variant r 0x10 0 x.epoch 0xFFFFFFFF []))) ∧
    (h.epoch ≠ x.epoch + 1 → h.epoch ≠ x.epoch → exec (.resync p h) s = .next s)) ∧
  (∀ (p : Fin 17) (h : NimHdr) (r : StreamRef) (now : Nat) (s : State), arrives s.dev p h r →
    let x := s.dev.nim (streamKey r)
    (h.epoch ≠ x.reqEpoch ∨ x.resyncing = true → exec (.congestion p h now) s = .next s) ∧
    (h.epoch = x.reqEpoch → x.resyncing = false → ∃ u : Dev, exec (.congestion p h now) s = .next (s.withDev u) ∧
      (s.dev.ecnOn p.val = true → (∀ t, x.lastSlow = some t → t + 50000 ≤ now) → (u.nim (streamKey r)).slowed = true ∧
        (u.nim (streamKey r)).rate = max (x.rate / 2) 1024 ∧ (u.nim (streamKey r)).lastSlow = some now) ∧
      (s.dev.ecnOn p.val = false ∨ (∃ t, x.lastSlow = some t ∧ now < t + 50000) → (u.nim (streamKey r)).rate = x.rate))) ∧
  (∀ (i : W8) (s : State), (s.dev.conn i.toNat).kind = 1 →
    let c := s.dev.conn i.toNat
    ∃ u : Dev, exec (.rateIncreaseTimer (.conn i)) s = .next (s.withDev u) ∧ u.conn i.toNat = if c.slowed = true
      then { c with slowed := false } else { c with rate := min (c.rate + 4096) 65536 }) ∧
  ∀ (r : StreamRef) (s : State), (∀ i, r = .conn i → (s.dev.conn i.toNat).kind ≠ 1) →
    let x := s.dev.nim (streamKey r)
    ∃ u : Dev, exec (.rateIncreaseTimer r) s = .next (s.withDev u) ∧ (u.nim (streamKey r)).slowed = false ∧
      (u.nim (streamKey r)).rate = if x.slowed = true then x.rate else min (x.rate + 4096) 65536

/-- Nimser streams at their target, and what keeps them in step (R404 to R409). -/
def Obligations.NimserTargets : Prop := NimserExecutesInOrder ∧ NimserForwards ∧ NimserKeepsInStep

/-- The requester of a stream with one request outstanding (R404 to R407): an ACK of it completes a write, and of a read or an atomic
leaves it to wait for its data; a response of its kind completes these with their data, and an error response any with its status; a
NAK of what came before it, or its timeout, sends it again, and after seven times the stream fails: the request completes with
INTERFACE_RETRY_EXHAUSTED and a handshake for the next epoch begins; NOT_READY sends it again, uncounted. A response of another epoch
does nothing. -/
def Sys2Proof.Claims.NimserRequesterCompletes : Prop :=
  ∀ (p : Fin 17) (h : NimHdr) (r : StreamRef) (o : Outstanding) (data : List W8) (old : W64) (psn : W32) (s : State),
    let k := streamKey r
    let x := s.dev.nim k
    arrives s.dev p h r → x.resyncing = false → x.outstanding = [o] → o.sent = true → o.tag ≠ 0 →
    let completes := fun (out : Host.Outcome State Fault Refusal) (st : W8) (y : List W8) => ∃ u : Dev, out = .next (s.withDev u) ∧
      (u.nim k).outstanding = [] ∧ u.answered o.tag = some (st, y)
    let again := fun (out : Host.Outcome State Fault Refusal) =>
      (o.tries < 7 → ∃ u : Dev, out = .next (s.withDev u) ∧ (u.nim k).outstanding = [{ o with tries := o.tries + 1 }]) ∧
      (7 ≤ o.tries → ∃ u : Dev, out = .next (s.withDev u) ∧ (u.nim k).outstanding = [] ∧ u.answered o.tag = some (sRetryExhausted, []) ∧
        (u.nim k).resyncing = true ∧ (u.nim k).reqEpoch = x.reqEpoch + 1)
    (h.epoch ≠ x.reqEpoch → exec (.nimserAck p h) s = .next s ∧ exec (.nimserNak p h) s = .next s ∧
      exec (.readResp p h data) s = .next s ∧ exec (.atomicResp p h old) s = .next s ∧ exec (.errorResp p h) s = .next s) ∧
    (h.epoch = x.reqEpoch →
      (o.op ≠ 0x02 → o.op ≠ 0x03 → (h.ackPsn - o.psn).toNat < 2 ^ 31 → completes (exec (.nimserAck p h) s) 0 []) ∧
      (o.op = 0x02 ∨ o.op = 0x03 → (h.ackPsn - o.psn).toNat < 2 ^ 31 → ∃ u : Dev, exec (.nimserAck p h) s = .next (s.withDev u) ∧
        (u.nim k).outstanding = [{ o with acked := true }]) ∧
      (o.op = 0x02 → o.psn = h.ackPsn → completes (exec (.readResp p h data) s) 0 data) ∧
      (o.op = 0x03 → o.psn = h.ackPsn → completes (exec (.atomicResp p h old) s) 0 (toLE 8 old.toNat)) ∧
      (o.psn = h.ackPsn → completes (exec (.errorResp p h) s) h.status []) ∧
      (o.acked = false → 2 ^ 31 ≤ (h.ackPsn - o.psn).toNat →
        (h.status ≠ 1 → again (exec (.nimserNak p h) s)) ∧
        (h.status = 1 → ∃ u : Dev, exec (.nimserNak p h) s = .next (s.withDev u) ∧ (u.nim k).outstanding = [o]))) ∧
    again (exec (.nimserRtoExpiry ⟨r, o.psn⟩) s) ∧
    (psn ≠ o.psn → exec (.nimserRtoExpiry ⟨r, psn⟩) s = .next s)

/-- A handshake for the next epoch (R408): the ACK with ACK_PSN 0xFFFFFFFF of that epoch ends it, and the requests that wait go out; any
other answer leaves it, and at its timeout RESYNC is sent again. -/
def Sys2Proof.Claims.NimserHandshakes : Prop :=
  ∀ (p : Fin 17) (h : NimHdr) (r : StreamRef) (psn : W32) (s : State),
    let k := streamKey r
    let x := s.dev.nim k
    x.resyncing = true →
    (arrives s.dev p h r → h.epoch = x.reqEpoch → h.ackPsn = 0xFFFFFFFF → ∃ u : Dev, exec (.nimserAck p h) s = .next (s.withDev u) ∧
      (u.nim k).resyncing = false ∧ (u.nim k).reqEpoch = x.reqEpoch) ∧
    (arrives s.dev p h r → h.epoch ≠ x.reqEpoch ∨ h.ackPsn ≠ 0xFFFFFFFF → exec (.nimserAck p h) s = .next s) ∧
    ∃ u : Dev, exec (.nimserRtoExpiry ⟨r, psn⟩) s = .next (s.withDev u) ∧ (u.nim k).resyncing = true ∧
      (u.nim k).outstanding = x.outstanding ∧ (u.nim k).reqEpoch = x.reqEpoch

/-- The requester of a Nimser stream: completions, resends, failures and handshakes (R404 to R408). -/
def Obligations.NimserRequesters : Prop := NimserRequesterCompletes ∧ NimserHandshakes

/-! ## Flits in direct mode (R410 to R414) -/

/-- A port in direct mode: a DATA flit with a good CRC and the SEQ expected moves that on and joins the packet of its channel, where
it does not end it; any other is discarded, with one NAK until the right one comes; an IDLE flit's ACK frees what it names and its
credits come back, and a corrupt one is counted alone; 2 µs without an ACK sends every unacknowledged flit again, and after eight times
the port trains again; the timer acknowledges what has been received. On another port, or with nothing to do, none of these does
anything. -/
def Sys2Proof.Claims.FlitsAreAcknowledgedAndReplayed : Prop :=
  ∀ (p : Fin 16) (f : Flit) (s : State),
    let x := s.dev.port p.val
    (x.up = false ∨ x.mode ≠ 1 → exec (.flitData p f) s = .next s ∧ exec (.flitIdle p f) s = .next s ∧
      exec (.flitReplayTimeout p) s = .next s ∧ exec (.flitAckTimer p) s = .next s) ∧
    (x.up = true → x.mode = 1 →
    (flitGood false f = true → f.seq = x.rxSeq → f.eop = false → f.nak = false → x.rxUnacked < 255 →
      let was := Tab.look ([], 0) x.assembling f.vc.toNat
      ∃ u : Dev, exec (.flitData p f) s = .next (s.withDev u) ∧ (u.port p.val).rxSeq = x.rxSeq + 1 ∧ (u.port p.val).rxNak = false ∧
        (u.port p.val).rxUnacked = x.rxUnacked + 1 ∧ Tab.look ([], 0) (u.port p.val).assembling f.vc.toNat =
          ((if f.sop then [] else was.1) ++ f.payload.take 244, was.2 + 1)) ∧
    (flitGood false f = false ∨ f.seq ≠ x.rxSeq → ∃ u : Dev, exec (.flitData p f) s = .next (s.withDev u) ∧
      (u.port p.val).rxSeq = x.rxSeq ∧ (u.port p.val).rxNak = true ∧ (u.port p.val).assembling = x.assembling ∧
      (x.rxNak = true → u.outbox = s.dev.outbox) ∧
      (x.rxNak = false → ∃ g : Flit, u.outbox = s.dev.outbox ++ [.flit p.val true g] ∧ g.nak = true ∧ g.ack = x.rxSeq - 1)) ∧
    (flitGood true f = false → ∃ t : Tab W32, exec (.flitIdle p f) s = .next (s.withDev { s.dev with csr := t })) ∧
    (flitGood true f = true → f.nak = false → x.txQueue = [] → ∃ u : Dev, exec (.flitIdle p f) s = .next (s.withDev u) ∧
      Tab.look 0 (u.port p.val).spent f.crvc.toNat = Tab.look 0 x.spent f.crvc.toNat - f.credits.toNat ∧
      (f.ackValid = false → (u.port p.val).replayBuf = x.replayBuf) ∧
      ∀ (pre : List Flit) (g : Flit) (post : List Flit), x.replayBuf = pre ++ g :: post → (∀ y ∈ pre, y.seq ≠ g.seq) → f.ackValid = true →
        f.ack = g.seq → (u.port p.val).replayBuf = post ∧ (u.port p.val).replays = 0) ∧
    (flitGood true f = true → f.nak = true → f.ackValid = false → f.credits = 0 → x.txQueue = [] →
      exec (.flitIdle p f) s = exec (.flitReplayTimeout p) s) ∧
    (x.replayBuf = [] → exec (.flitReplayTimeout p) s = .next s) ∧
    (x.replayBuf ≠ [] → x.replays < 8 → ∃ u : Dev, exec (.flitReplayTimeout p) s = .next (s.withDev u) ∧
      (u.port p.val).replays = x.replays + 1 ∧ u.outbox = s.dev.outbox ++ x.replayBuf.map (fun g => .flit p.val false g)) ∧
    (x.replayBuf ≠ [] → 8 ≤ x.replays → ∃ u : Dev, exec (.flitReplayTimeout p) s = .next (s.withDev u) ∧ (u.port p.val).up = false) ∧
    (x.rxUnacked = 0 → exec (.flitAckTimer p) s = .next s) ∧
    (0 < x.rxUnacked → ∃ u : Dev, exec (.flitAckTimer p) s = .next (s.withDev u) ∧ (u.port p.val).rxUnacked = 0 ∧
      ∃ g : Flit, u.outbox = s.dev.outbox ++ [.flit p.val true g] ∧ g.ackValid = true ∧ g.nak = false ∧ g.ack = x.rxSeq - 1))

/-- A packet that flits have brought has the meaning of its command (R402, R403): header and payload, as bytes, do what the command with
that header and payload does. -/
def Sys2Proof.Claims.FlitsCarryCommands : Prop :=
  ∀ (p : Fin 17) (h : NimHdr) (c : Instr) (q : NimReq) (op : W8) (bytes : List W8) (s : State), h.ce = none → bytes.length = h.length.toNat →
    asks p h c q op bytes ∨ (brings p h c op bytes ∧ op ≠ 0x16) →
    exec c s = .next (s.withDev (s.dev.packetIn s.fuse p (headerBytes op h ++ bytes)))

/-- Flits in direct mode and the packets that they carry (R402, R403, R410 to R414). -/
def Obligations.DirectMode : Prop := FlitsAreAcknowledgedAndReplayed ∧ FlitsCarryCommands

/-! ## CSR access and the management path (R9 to R13, R528 to R534) -/

/-- A direct CSR access of a requester: a read (none) or a write of a value. -/
def Sys2Proof.Claims.csrAsk (r : Requester) (addr : Nat) (c : Instr) (w : Option W32) : Prop :=
  (∃ a : W32, (c = .csrLoRead r a ∨ c = .rcRead r a) ∧ a.toNat = addr ∧ w = none) ∨
    ∃ (a : W32) (v : W32), c = .generalCsrWrite r a v ∧ a.toNat = addr ∧ w = some v

/-- Nothing keeps a requester from CSRs: the management path is there and no reset goes on (R532). -/
def Sys2Proof.Claims.csrFree (s : State) (r : Requester) : Prop := ∀ k, r = .mgmt k → s.fuse.state ≠ lcScrapped ∧ s.dev.mgmtFenced = false

/-- CSR accesses (R10 to R12, R86, R532, R543, R544). An offset that is no multiple of 4, lies in no block, or lies outside a program's own
tile window is answered TRANSLATION and changes nothing else. A read of a `_LO` register answers its value and holds its upper half for
the requester; the `_HI` read answers and ends what is held, else the register as it is; a read of a register with clear-on-read fields
clears them and no other bit of the CSR file. A management stream's access in a reset is answered FENCED but for reads of SEC, and
in SCRAPPED not at all. CORE_CYCLES and DUMP_DATA, which count as they are read, have their own rules. -/
def Sys2Proof.Claims.CsrReadsAreAnswered : Prop :=
  ∀ (r : Requester) (addr : Nat) (c : Instr) (w : Option W32) (s : State), csrAsk r addr c w →
    let f := s.fuse
    let tells := fun (st : W8) (v : W32) => s.dev.outbox ++ [OutMsg.csr r st v]
    (csrFree s r → csrPlace r addr = none → exec c s = .next (s.withDev (s.dev.send (.csr r sTranslation 0)))) ∧
    (∀ k, r = .mgmt k → f.state = lcScrapped → exec c s = .next s) ∧
    (∀ k l, r = .mgmt k → f.state ≠ lcScrapped → s.dev.mgmtFenced = true → csrPlace r addr = some l → w.isSome = true ∨ l.block ≠ .sec →
      exec c s = .next (s.withDev (s.dev.send (.csr r sFenced 0)))) ∧
    ∀ (l : CsrLoc) (x : RegDesc), csrFree s r → w = none → csrPlace r addr = some l → l.desc = some x → l.blockId f.variant = none →
      l.there f.variant = true → ¬ (l.block = .sect ∧ (l.off = 0x020 ∨ l.off = 0x024)) → ¬ (l.block = .gander ∧ l.off = 0x028) →
      (x.half = 1 → ∃ u : Dev, exec c s = .next (s.withDev u) ∧ u.outbox = tells 0 (s.dev.shown f l) ∧ u.csr = s.dev.csr ∧
        (u.held r).readHi.find? (fun e => e.1 == l.home x.scope) = some (l.home x.scope, s.dev.shown f { l with off := l.off + 4 })) ∧
      (x.half = 2 →
        let key := { l with off := l.off - 4 }.home x.scope
        ∃ u : Dev, exec c s = .next (s.withDev u) ∧ u.csr = s.dev.csr ∧ (u.held r).readHi.find? (fun e => e.1 == key) = none ∧
          u.outbox = tells 0 (match (s.dev.held r).readHi.find? (fun e => e.1 == key) with
            | some e => e.2
            | none => s.dev.shown f l)) ∧
      (x.half = 0 → ∃ u : Dev, exec c s = .next (s.withDev u) ∧ u.outbox = tells 0 (s.dev.shown f l) ∧
        u.reg l = s.dev.reg l &&& ~~~x.mask (fun a => decide (a = .rc)) ∧
        ∀ l' x', l'.desc = some x' → l'.home x'.scope ≠ l.home x.scope → u.reg l' = s.dev.reg l')

/-- CSR writes (R10, R11, R86, R289). A write of a `_LO` register is held for its requester and changes no register; a register without a
writable field takes nothing; a regulator's budget that is written reads back as written, while the budget in force stays until the
next edge; a program writes CORE_TRAP_EN, CORE_TRAP_VEC, CORE_TRAP_PC and CORE_STICKY of its own tile alone. -/
def Sys2Proof.Claims.CsrWritesTakeEffect : Prop :=
  ∀ (r : Requester) (addr : Nat) (c : Instr) (v : W32) (s : State), csrAsk r addr c (some v) → csrFree s r →
    let f := s.fuse
    let tells := fun (st : W8) => s.dev.outbox ++ [OutMsg.csr r st 0]
    (∀ (l : CsrLoc) (t : TileRef), csrPlace r addr = some l → r = .core t → programWrites l.off = false →
      exec c s = .next (s.withDev (s.dev.send (.csr r sTranslation 0)))) ∧
    (∀ (l : CsrLoc) (x : RegDesc), csrPlace r addr = some l → (∀ t, r ≠ .core t) → l.desc = some x →
      (x.mask (fun a => decide (a ≠ .ro) && decide (a ≠ .rc)) = 0 ∨ l.there f.variant = false →
        exec c s = .next (s.withDev (s.dev.send (.csr r 0 0)))) ∧
      (x.mask (fun a => decide (a ≠ .ro) && decide (a ≠ .rc)) ≠ 0 → l.there f.variant = true → x.half = 1 →
        ∃ u : Dev, exec c s = .next (s.withDev u) ∧ u.outbox = tells 0 ∧ u.csr = s.dev.csr ∧
          (u.held r).writeLo.find? (fun e => e.1 == l.home x.scope) = some (l.home x.scope, v))) ∧
    (∀ (n : Fin 12) (k : Fin 4), (∀ t, r ≠ .core t) → n.val < f.variant.sectors → addr = 0x2000000 + n.val * 0x100000 + 0x030 + 4 * k.val →
      let at_ := At.hub n.val (0x030 + 4 * k.val)
      ∃ u : Dev, exec c s = .next (s.withDev u) ∧ u.outbox = tells 0 ∧ u.reg at_ = v ∧
        Tab.look none (u.hub n.val).budgets k.val = some ((Tab.look none (s.dev.hub n.val).budgets k.val).getD (s.dev.reg at_))) ∧
    (∀ t : TileRef, r = .core t → t.sector.val < f.variant.sectors → addr = Block.base .sect t.sector.val + t.tile.val * 0x10000 + 0x004 →
      ∃ u : Dev, exec c s = .next (s.withDev u) ∧ u.outbox = tells 0 ∧ (u.tile t).trapEn = v.setWidth 8 &&& 0xF7)

/-- CSR reads and writes by every requester (R10 to R12, R86, R289, R532, R543, R544). -/
def Obligations.CsrRequestsAreAnswered : Prop := CsrReadsAreAnswered ∧ CsrWritesTakeEffect

/-- A command that carries a request of a management stream. -/
def Sys2Proof.Claims.mgmtRow (q : MgmtReq) (c : Instr) : Prop :=
  (∃ x, c = .csrReadRequest q.toVia q.hdr x) ∨ (∃ x v, c = .csrWriteRequest q.toVia q.hdr x v) ∨ (∃ b x, c = .imageWrite q.toVia q.hdr b x) ∨ (∃ a n, c = .memRead q.toVia q.hdr a n) ∨
    (∃ x, c = .memWrite q.toVia q.hdr x) ∨ (∃ a n, c = .ledgerRead q a n) ∨ (∃ a n, c = .dumpRead q.toVia q.hdr a n) ∨ (∃ a, c = .eventLog q a) ∨
    (∃ (e : MgmtReq → Token → Instr) (t : Token), tokenRow e ∧ c = e q t) ∨ c = .getVersion q ∨ c = .getCapabilities q ∨
    (∃ a b, c = .negotiateAlgorithms q a b) ∨ c = .getDigests q ∨ (∃ a b l, c = .getCertificate q a b l) ∨
    (∃ a b, c = .challenge q a b) ∨ (∃ a b, c = .getMeasurements q a b) ∨ ∃ a, c = .spdmUnsupportedRequest q a

/-- Requests of the management path (R9, R404, R406, R408, R528, R530, R532): none is answered in SCRAPPED; one of another epoch is
dropped, one ahead of its PSN is answered NAK and one behind it is acknowledged again; on a stream that is not a management stream it
is answered TRANSLATION. A CSR request in its turn does what the access by its stream does, and CSR_RESP carries its status and value;
one that is not 8 bytes long is refused. -/
def Sys2Proof.Claims.ManagementRequestsArrive : Prop :=
  (∀ (q : MgmtReq) (c : Instr) (s : State), mgmtRow q c →
    let r := askedOn q
    let x := s.dev.nim (streamKey r)
    let v := s.fuse.variant
    let d := s.dev.notify v q.port.val r q.hdr.ce
    let taken := fun (d : Dev) => d.onNim (streamKey r) fun x => { x with expected := x.expected + 1, unacked := x.unacked + 1 }
    (s.fuse.state = lcScrapped → q.port.val = 16 ∨ q.hdr.dst = s.dev.deviceId → exec c s = .next s) ∧
    (s.fuse.state ≠ lcScrapped → arrives s.dev q.port q.hdr r →
      (q.hdr.epoch ≠ x.epoch → exec c s = .next s) ∧
      (q.hdr.epoch = x.epoch → q.hdr.psn ≠ x.expected → (q.hdr.psn - x.expected).toNat < 2 ^ 31 →
        exec c s = .next (s.withDev (d.respond v r 0x11 0 x.epoch (x.expected - 1) []))) ∧
      (q.hdr.epoch = x.epoch → 2 ^ 31 ≤ (q.hdr.psn - x.expected).toNat → exec c s = .next (s.withDev (d.sendAck v r))) ∧
      (q.hdr.epoch = x.epoch → q.hdr.psn = x.expected → askedOnMgmt q = false →
        repliesTo q (exec c s) s (taken d) sTranslation []))) ∧
  ∀ (q : MgmtReq) (a : W32) (v : W32) (c access : Instr) (s : State), asksInTurn s q → s.dev.mgmtFenced = false →
    a.toNat = q.hdr.addr.toNat →
    let k := streamKey (askedOn q)
    ((∃ x, c = .csrReadRequest q.toVia q.hdr x) ∧ access = .csrLoRead (.mgmt k) a) ∨
      ((∃ x, c = .csrWriteRequest q.toVia q.hdr x v) ∧ access = .generalCsrWrite (.mgmt k) a v) →
    (q.hdr.length ≠ 8 → exec c s = .next (s.withDev ((requestTaken s q).mgmtSay s.fuse.variant ⟨askedOn q, q.hdr.psn⟩ 0x15 sTranslation
      (toLE 4 0)))) ∧
    (q.hdr.length = 8 → ∃ (u : Dev) (st : W8) (w : W32),
      exec access (s.withDev (requestTaken s q)) = .next (s.withDev (u.send (.csr (.mgmt k) st w))) ∧
      exec c s = .next (s.withDev (u.mgmtSay s.fuse.variant ⟨askedOn q, q.hdr.psn⟩ 0x15 st (toLE 4 w.toNat))))

/-- The management path's sub-operations in their turn, outside a reset and recovery (R451, R486, R531): IMAGE_WRITE stores its bytes in
the bank that does not run; MEM_READ answers physical bytes, or a context's, at debug level 1 or above; MEM_WRITE stores bytes in the
life-cycle states that allow it; LEDGER_READ, DUMP_READ and EVENT_LOG answer what they name and change nothing. One outside these bounds
is answered TRANSLATION; in a reset each is answered FENCED. -/
def Sys2Proof.Claims.ManagementOperations : Prop :=
  ∀ (q : MgmtReq) (s : State), asksInTurn s q →
    let d := requestTaken s q
    let v := s.fuse.variant
    let at_ := q.hdr.addr.toNat
    let replies := fun (c : Instr) (d : Dev) (data : List W8) => repliesTo q (exec c s) s d 0 data
    let refused := fun (c : Instr) => repliesTo q (exec c s) s d sTranslation []
    (s.dev.mgmtFenced = true → ∀ (b a : W32) (n : W64) (x : List W8) (c : Instr), c = .imageWrite q.toVia q.hdr b x ∨ c = .memRead q.toVia q.hdr a n ∨ c = .memWrite q.toVia q.hdr x ∨
      c = .ledgerRead q a n ∨ c = .dumpRead q.toVia q.hdr a n ∨ c = .eventLog q n → repliesTo q (exec c s) s d sFenced []) ∧
    (s.dev.mgmtFenced = false → s.dev.sec.recovery = false →
      (∀ (bank : W32) (data : List W8),
        let k := decide (bank = 1)
        let fits := bank.toNat < 2 ∧ k ≠ s.dev.sec.running ∧ at_ % 64 = 0 ∧ 64 ≤ data.length ∧ data.length ≤ 4032 ∧ at_ + data.length ≤ 0x1000000
        (fits → replies (.imageWrite q.toVia q.hdr bank data) { d with sec := s.dev.sec.setBank k ((s.dev.sec.bank k).store at_ data) } []) ∧
        (¬ fits → refused (.imageWrite q.toVia q.hdr bank data))) ∧
      (∀ (arg0 : W32) (len : W64),
        let fits := (s.fuse.lc = 0 ∨ 1 ≤ s.dev.sec.debugLevel.toNat) ∧ len ≠ 0 ∧ len.toNat ≤ 4096
        let r := if arg0.getLsbD 0 then d.virtLook v (arg0.toNat / 16 % 16) at_ len.toNat else d.physBytes v at_ len.toNat
        (fits → r.st = 0 → replies (.memRead q.toVia q.hdr arg0 len) r.d r.data) ∧
        (fits → r.st ≠ 0 → repliesTo q (exec (.memRead q.toVia q.hdr arg0 len) s) s r.d r.st []) ∧
        (¬ fits → refused (.memRead q.toVia q.hdr arg0 len))) ∧
      (∀ data : List W8,
        let fits := s.fuse.state ≠ lcReturned ∧ data ≠ [] ∧ data.length ≤ 4080 ∧ inQuireOrScratch at_ data.length = true
        let r := d.physStore v at_ data
        (fits → r.st = 0 → replies (.memWrite q.toVia q.hdr data) r.d []) ∧ (fits → r.st ≠ 0 → repliesTo q (exec (.memWrite q.toVia q.hdr data) s) s r.d r.st []) ∧
        (¬ fits → refused (.memWrite q.toVia q.hdr data))) ∧
      (∀ (first : W32) (count : W64),
        (count ≠ 0 → count.toNat ≤ 4096 → first.toNat + count.toNat ≤ 65536 →
          replies (.ledgerRead q first count) d ((List.range count.toNat).map fun i =>
            let e := s.dev.entry v (BitVec.ofNat 16 (first.toNat + i))
            e.seen ++ e.state)) ∧
        (count = 0 ∨ 4096 < count.toNat → refused (.ledgerRead q first count))) ∧
      (∀ (slot : W32) (len : W64),
        (slot.toNat < 4 → len ≠ 0 → len.toNat ≤ 4096 → replies (.dumpRead q.toVia q.hdr slot len) d (s.dev.dumpBytes s.fuse.lc slot.toNat at_ len.toNat)) ∧
        (4 ≤ slot.toNat ∨ len = 0 ∨ 4096 < len.toNat → refused (.dumpRead q.toVia q.hdr slot len))) ∧
      ∀ first : W64, ∃ rs : List EventRec, replies (.eventLog q first) d (rs.flatMap (·.bytes)) ∧ rs.length ≤ 63 ∧
        ∀ e ∈ rs, first.toNat ≤ e.seq.toNat ∧ (e ∈ s.dev.events.recent ∨ e ∈ s.dev.events.held))

/-- Requests of the management path as they arrive, and its sub-operations (R9, R404, R451, R486, R528, R530 to R532). -/
def Obligations.ManagementPath : Prop := ManagementRequestsArrive ∧ ManagementOperations

/-- The SPDM responder (R499 to R501, R532; codes and layouts are the model's, log 46): to a request in its turn it answers version 1.2
alone, negotiates P-521 and SHA-512 or refuses, answers the digest and portions of slot 0's chain and no other slot's, signs
challenges and measurements, and refuses any other request by its code. In a reset it answers FENCED, but in a device warm reset
measurements are Busy. -/
def Obligations.SpdmAnswers : Prop :=
  ∀ (q : MgmtReq) (s : State), asksInTurn s q →
    let d := requestTaken s q
    let tells := fun (c : Instr) (code : W8) (data : List W8) =>
      repliesTo q (exec c s) s d 0 ((if code = 0x04 then 0x10 else 0x12) :: code :: data)
    let tells' := fun (c : Instr) (code : W8) => ∃ (n : Nat) (body : List W8),
      repliesTo q (exec c s) s { d with free := d.free + n } 0 (0x12 :: code :: body)
    (∀ (i : W8) (n : BitVec 256), s.dev.dev.inWarm = true → s.dev.dev.inReset = false →
      tells (.getMeasurements q i n) 0x7F [0x03, 0]) ∧
    (s.dev.mgmtFenced = true → ∀ c : Instr, c = .getVersion q ∨ c = .getCapabilities q ∨ c = .getDigests q ∨
      (∃ a b, c = .negotiateAlgorithms q a b) ∨ (∃ a b l, c = .getCertificate q a b l) ∨ (∃ a b, c = .challenge q a b) ∨
      (∃ a, a ≠ 0xE0 ∧ c = .spdmUnsupportedRequest q a) → repliesTo q (exec c s) s d sFenced []) ∧
    (s.dev.mgmtFenced = false →
      tells (.getVersion q) 0x04 [0, 0, 0, 1, 0x00, 0x12] ∧ tells' (.getCapabilities q) 0x61 ∧
      (∀ asym hash : W32, if asym.getLsbD 8 && hash.getLsbD 2 then tells' (.negotiateAlgorithms q asym hash) 0x63
        else tells (.negotiateAlgorithms q asym hash) 0x7F [0x01, 0]) ∧
      tells (.getDigests q) 0x01 ([0, 1] ++ digestBytes (Config.sha512 (s.dev.chain s.fuse))) ∧
      (∀ (slot : W8) (off len : W16),
        let c := s.dev.chain s.fuse
        let part := (c.drop off.toNat).take (min len.toNat 4088)
        if slot ≠ 0 ∨ c.length ≤ off.toNat then tells (.getCertificate q slot off len) 0x7F [0x01, 0]
        else tells (.getCertificate q slot off len) 0x02
          ([0, 0] ++ toLE 2 part.length ++ toLE 2 (c.length - off.toNat - part.length) ++ part)) ∧
      (∀ (slot : W8) (n : BitVec 256), if slot = 0 then tells' (.challenge q slot n) 0x03
        else tells (.challenge q slot n) 0x7F [0x01, 0]) ∧
      (∀ (i : W8) (n : BitVec 256), if i.toNat ≤ 9 ∨ i = 0xFF then tells' (.getMeasurements q i n) 0x60
        else tells (.getMeasurements q i n) 0x7F [0x01, 0]) ∧
      ∀ code : W8, tells (.spdmUnsupportedRequest q code) 0x7F [0x07, code])

/-- The sideband and the TAP (R486, R512, R533, R534): from step 2 of the boot on, the I3C target takes a dynamic address where it has
none, answers ENTDAA with bytes 0 to 5 of DEVICE_UID, and with an address sets its pointer by a private write and answers a private
read from the pointer on, which moves by the bytes read; else none of these does anything. BYPASS shifts 0 and then what came in; a
preload is held by the boundary register; a scan dump below debug level 2 behaves as BYPASS (log 47). -/
def Obligations.SidebandAndTap : Prop :=
  ∀ s : State,
    let pins := fun (d : Dev) (p : Pins) => s.withDev { d with pins := p }
    let q := s.dev.pins
    let free := 2 ≤ s.dev.sec.bootStep.toNat ∧ q.i3cAddr = none
    let addressed := 2 ≤ s.dev.sec.bootStep.toNat ∧ q.i3cAddr.isSome = true
    (∀ a : BitVec 7, (free → exec (.setdasa a) s = .next (pins s.dev { q with i3cAddr := some a }) ∧
        exec (.entdaa a) s = .next (pins (s.dev.send (.i3c ((toLE 16 s.fuse.uid.toNat).take 6))) { q with i3cAddr := some a })) ∧
      (¬ free → exec (.setdasa a) s = .next s ∧ exec (.entdaa a) s = .next s)) ∧
    (∀ (p : W8) (n : Nat), (¬ addressed → exec (.i3cPrivateWrite p) s = .next s ∧ exec (.i3cPrivateRead n) s = .next s) ∧
      (addressed → exec (.i3cPrivateWrite p) s = .next (pins s.dev { q with i3cPtr := p }) ∧
        exec (.i3cPrivateRead n) s = .next (pins (s.dev.send (.i3c ((List.range n).map fun i =>
          s.dev.sidebandByte s.fuse ((q.i3cPtr.toNat + i) % 256)))) { q with i3cPtr := q.i3cPtr + BitVec.ofNat 8 n }))) ∧
    (∀ k : Nat, k < 16 → s.dev.sidebandByte s.fuse k = (toLE 16 s.fuse.uid.toNat).getD k 0) ∧
    (∀ k : Nat, 0x20 ≤ k → s.fuse.state = lcScrapped → s.dev.sidebandByte s.fuse k = 0) ∧
    (∀ b : Bool, exec (.jtagBypass b) s = .next (pins (s.dev.send (.jtag [false, b])) { q with jtagInstr := 0xFF })) ∧
    (∃ (u : Dev) (bits : List Bool), exec .jtagIdcode s = .next (s.withDev u) ∧ u.outbox = s.dev.outbox ++ [.jtag bits] ∧ bits.length = 32 ∧
      u.pins = { q with jtagInstr := 0x02 }) ∧
    (∀ bits : List Bool, ∃ (u : Dev) (out : List Bool), exec (.jtagSamplePreload bits) s = .next (s.withDev u) ∧
      u.pins = { q with jtagInstr := 0x01, boundary := bits } ∧ u.outbox = s.dev.outbox ++ [.jtag out] ∧ out.length = bits.length) ∧
    exec .jtagExtest s = .next (pins s.dev { q with jtagInstr := 0 }) ∧
    (s.fuse.lc ≠ 0 → s.dev.sec.debugLevel.toNat < 2 →
      exec .jtagScanDump s = .next (pins (s.dev.send (.jtag [false])) { q with jtagInstr := 0xFF })) ∧
    (s.fuse.lc = 0 ∨ 2 ≤ s.dev.sec.debugLevel.toNat → ∃ (u : Dev) (bits : List Bool), exec .jtagScanDump s = .next (s.withDev u) ∧
      u.outbox = s.dev.outbox ++ [.jtag bits] ∧ u.pins = { q with jtagInstr := 0x03 })

/-! ## The unit ledger, events and reset (R535 to R551) -/

/-- The ledger against the units (R538, R539): an acknowledgement of a pending transition sets the unit's latch to the state and ends
the wait; a sweep that finds every unit as the ledger says records what it read and changes no state; a unit found in another state, and
a transition that no unit acknowledged in time, are a mismatch, counted and reconciled: by the recovery of the unit's partition, a
retrain of its port, a takeover from the active sequencer core or a reset of the standby, and for other units a warm reset (log 52). -/
def Obligations.LedgerMatchesTheUnits : Prop :=
  (∀ (u : BitVec 16) (s : State),
    let e := s.dev.entry s.fuse.variant u
    (e.pending = false → exec (.ledgerAck u) s = .next s) ∧
    (e.pending = true → ∃ x : Dev, exec (.ledgerAck u) s = .next (s.withDev x) ∧
      x.entry s.fuse.variant u = { e with latch := e.state, pending := false } ∧
      ∀ v, v ≠ u → x.entry s.fuse.variant v = s.dev.entry s.fuse.variant v)) ∧
  (∀ (reads : List (BitVec 16 × BitVec 4)) (s : State),
    (∀ r ∈ reads, (s.dev.entry s.fuse.variant r.1).state = r.2) → reads.Pairwise (fun a b => a.1 ≠ b.1) →
    ∃ x : Dev, exec (.ledgerSweep reads) s = .next (s.withDev x) ∧ x.ledgerMismatches = s.dev.ledgerMismatches ∧
      ∀ v, (x.entry s.fuse.variant v).state = (s.dev.entry s.fuse.variant v).state ∧
        (x.entry s.fuse.variant v).latch = (s.dev.entry s.fuse.variant v).latch ∧
        (∀ r ∈ reads, r.1 = v → r.2 ≠ stAbsent → (x.entry s.fuse.variant v).seen = r.2)) ∧
  ∀ (u : BitVec 16) (seen : BitVec 4) (c : Instr) (s : State),
    let e := s.dev.entry s.fuse.variant u
    let checked := e.state ≠ stAbsent ∧ unitKind u ≠ 0x17 ∧ ∀ n, unitPart u = some n → s.dev.gander.recovery n = none
    (c = .ledgerAckTimeout u ∧ (e.pending = false ∨ ¬ checked) → exec c s = .next s) ∧
    ((c = .ledgerSweep [(u, seen)] ∧ e.pending = false ∧ e.state ≠ seen) ∨ (c = .ledgerAckTimeout u ∧ e.pending = true) → checked →
      (∃ x : Dev, exec c s = .next (s.withDev x) ∧
        x.ledgerMismatches = (if s.dev.ledgerMismatches = 0xFF then 0xFF else s.dev.ledgerMismatches + 1) ∧
        (unitKind u = 0x14 → unitIndex u ≠ s.dev.activeCore → x.seq.standbyReady = false ∧
          (x.entry s.fuse.variant u).latch = e.state ∧ (x.entry s.fuse.variant u).pending = false) ∧
        (unitKind u = 0x14 → unitIndex u = s.dev.activeCore → s.dev.seq.standbyReady = true → s.dev.seq.ckpt.isSome = true →
          x.seq.active = !s.dev.seq.active) ∧
        (unitKind u = 0x11 → (x.port (unitIndex u)).up = false) ∧ (unitKind u = 0x13 → (x.port 16).up = false)) ∧
      (∀ n, unitPart u = some n → recoveryBegins (exec c s) s (partBit n) 0x03 u) ∧
      (unitPart u = none → ¬ unitKind u ∈ [0x11, 0x12, 0x13, 0x14] → s.dev.dev.inWarm = false → warmBegins (exec c s) s 0x03))

/-- Event records (R547 to R549): a code that is masked raises none and takes no number; any other takes the next number, and is held
while fewer than 4,096 are. EVENT_RECORD_WRITE with the interface on and room in the ring, by the consumed counter read again where it
shows none, takes the first held record, in order; without room the interface is stalled; with no connection, or none held, it does
nothing. -/
def Obligations.EventsAreNumberedAndHeld : Prop :=
  (∀ (d : Dev) (code : Nat) (i : EventInfo),
    (d.bit (At.dev 0x124) code = true → d.raise code i = d) ∧
    (d.bit (At.dev 0x124) code = false → d.events.held.length < 4096 → (d.raise code i).events.nextSeq = d.events.nextSeq + 1 ∧
      ∃ e : EventRec, (d.raise code i).events.held = d.events.held ++ [e] ∧ e.seq = d.events.nextSeq ∧ e.code = BitVec.ofNat 8 code ∧
        e.tick = d.tick.number ∧ e.step = d.tick.step)) ∧
  ∀ s : State,
    (s.dev.events.held = [] ∨ s.dev.eventConn = none → exec .eventRecordWrite s = .next s) ∧
    (∀ (r : EventRec) (rest : List EventRec), s.dev.events.held = r :: rest → s.dev.eventConn.isSome = true →
      let d := if s.dev.eventRoom r.seq.toNat then s.dev else s.dev.readConsumed s.fuse.variant
      (d.eventRoom r.seq.toNat = true → ∃ (u : Dev) (more : List EventRec), exec .eventRecordWrite s = .next (s.withDev u) ∧
        u.events.held = rest ++ more ∧ u.events.stalled = false ∧ (s.dev.events.lostFirst = none → more = [])) ∧
      (d.eventRoom r.seq.toNat = false → exec .eventRecordWrite s = .next (s.withDev { d with events := { d.events with stalled := true } })))

/-- What reset leaves, of what the manual states (R40, R41, R56, R71, R91, R106, R111, R480, R541): READY, a life-cycle state of R480,
ticks of 500 µs not yet running, tick and step 0, every core idle at offset 0 of its instruction memory, out of any trap, with
CORE_TRAP_EN 0xA2, every token CLEAR, every queue empty; no plan, no window open, no recovery, no security command; memories with
nothing listed, all in canonical form. That reset is the state after a first boot, and what unlisted memory reads, are the model's
choices (log 20, log 22). -/
def Obligations.ResetIsAsStated : Prop :=
  let d := State.reset.dev
  State.reset.pending = [] ∧ State.reset.fuse.lifeCycleLegal ∧ d.dev.ready = true ∧ d.tick.periodUs = 500 ∧ d.tick.number = 0 ∧ d.tick.step = 0 ∧ d.tick.begun = false ∧
    d.bit (At.tick 0) 0 = false ∧
    (∀ t : TileRef, (d.tile t).run = .idle ∧ (d.tile t).pc = 0 ∧ (d.tile t).inTrap = false ∧ (d.tile t).trapEn = 0xA2 ∧
      (d.tile t).queues = [] ∧ ∀ k, ((d.tile t).regs.rt k).state = .clear) ∧
    d.seq.plans = [] ∧ (∀ n w, (d.window n w).isOpen = false) ∧ d.gander.recoveries = [] ∧ d.sec.busy = none ∧
    d.tileMem = [] ∧ d.quire = [] ∧ d.scratch = [] ∧ d.imem = [] ∧ d.acc = [] ∧ d.sectBuf = []
end

