-- ==== Sys2Proof/Laws/Tab.lean ====
section
/-!
SUPPORT. Sys2Proof/Laws/Tab.lean: what sparse tables and byte memories do: reading after writing, and that every operation keeps the
canonical form.
-/

namespace Sys2Proof

/-! ## Reading after writing -/

theorem Tab.look_drop {α : Type} (d : α) (k : Nat) (m : Tab α) (j : Nat) :
    Tab.look d (Tab.drop k m) j = if j = k then d else Tab.look d m j := by
  induction m with
  | nil => simp [Tab.drop, Tab.look]
  | cons e r ih =>
    obtain ⟨a, b⟩ := e
    simp only [Tab.drop, List.filter] at ih ⊢
    by_cases h : a = k
    · subst h
      by_cases h1 : j = a
      · subst h1; simp [ih]
      · simp [Tab.look, ih, h1, Ne.symm h1]
    · have h2 : (a != k) = true := by simp [h]
      simp only [h2, Tab.look, ih]
      by_cases h1 : a = j
      · subst h1; simp [h]
      · simp [h1]

theorem Tab.look_ins {α : Type} (d : α) (k : Nat) (v : α) (m : Tab α) (hm : ∀ e ∈ m, e.1 ≠ k) (j : Nat) :
    Tab.look d (Tab.ins k v m) j = if j = k then v else Tab.look d m j := by
  induction m with
  | nil => simp [Tab.ins, Tab.look, eq_comm]
  | cons e r ih =>
    obtain ⟨a, b⟩ := e
    have ha : a ≠ k := hm (a, b) (by simp)
    simp only [Tab.ins]
    split
    · simp only [Tab.look, eq_comm (a := j)]
    · simp only [Tab.look, ih (fun e he => hm e (by simp [he]))]
      by_cases h1 : a = j
      · subst h1; simp [ha]
      · simp [h1]

theorem Tab.drop_free {α : Type} (k : Nat) (m : Tab α) : ∀ e ∈ Tab.drop k m, e.1 ≠ k := by
  intro e he
  simpa using (List.mem_filter.1 he).2

/-- A key holds what was last written to it, and every other key what it held. -/
theorem Tab.look_put {α : Type} [DecidableEq α] (d : α) (m : Tab α) (k : Nat) (v : α) (j : Nat) :
    Tab.look d (Tab.put d m k v) j = if j = k then v else Tab.look d m j := by
  unfold Tab.put
  split
  · rename_i h; subst h; exact Tab.look_drop v k m j
  · rw [Tab.look_ins d k v _ (Tab.drop_free k m), Tab.look_drop]
    split <;> simp_all

@[simp] theorem Tab.look_put_self {α : Type} [DecidableEq α] (d : α) (m : Tab α) (k : Nat) (v : α) :
    Tab.look d (Tab.put d m k v) k = v := by simp [Tab.look_put]

theorem Tab.look_alter {α : Type} [DecidableEq α] (d : α) (m : Tab α) (k : Nat) (f : α → α) (j : Nat) :
    Tab.look d (Tab.alter d m k f) j = if j = k then f (Tab.look d m k) else Tab.look d m j := Tab.look_put ..

@[simp] theorem Tab.look_nil {α : Type} (d : α) (k : Nat) : Tab.look d [] k = d := rfl

/-! ## The canonical form -/

/-- Keys that rise strictly. -/
abbrev Tab.rising {α : Type} (m : Tab α) : Prop := (m.map (·.1)).Pairwise (· < ·)

theorem Tab.wf_iff {α : Type} [DecidableEq α] (d : α) (m : Tab α) :
    Tab.wf d m = true ↔ Tab.rising m ∧ ∀ e ∈ m, e.2 ≠ d := by
  simp [Tab.wf, Tab.rising]

theorem Tab.rising_filter {α : Type} (m : Tab α) (p : Nat × α → Bool) (h : Tab.rising m) : Tab.rising (m.filter p) :=
  List.Pairwise.sublist (List.Sublist.map _ List.filter_sublist) h

theorem Tab.wf_filter {α : Type} [DecidableEq α] (d : α) (m : Tab α) (p : Nat × α → Bool) (h : Tab.wf d m = true) :
    Tab.wf d (m.filter p) = true := by
  rw [Tab.wf_iff] at h ⊢
  exact ⟨Tab.rising_filter m p h.1, fun e he => h.2 e (List.mem_filter.1 he).1⟩

theorem Tab.mem_ins {α : Type} (k : Nat) (v : α) (m : Tab α) (e : Nat × α) :
    e ∈ Tab.ins k v m ↔ e = (k, v) ∨ e ∈ m := by
  induction m with
  | nil => simp [Tab.ins]
  | cons x r ih =>
    obtain ⟨a, b⟩ := x
    simp only [Tab.ins]
    split
    · simp
    · simp only [List.mem_cons, ih]; tauto

theorem Tab.rising_ins {α : Type} (k : Nat) (v : α) (m : Tab α) (h : Tab.rising m) (hk : ∀ e ∈ m, e.1 ≠ k) :
    Tab.rising (Tab.ins k v m) := by
  induction m with
  | nil => simp [Tab.ins, Tab.rising]
  | cons x r ih =>
    obtain ⟨a, b⟩ := x
    simp only [Tab.rising, List.map_cons, List.pairwise_cons] at h
    have ha : a ≠ k := hk (a, b) (by simp)
    simp only [Tab.ins]
    split
    · rename_i hlt
      simp only [Tab.rising, List.map_cons, List.pairwise_cons, List.mem_cons]
      refine ⟨?_, h.1, h.2⟩
      rintro y (rfl | hy)
      · exact hlt
      · exact lt_trans hlt (h.1 y hy)
    · rename_i hge
      have hrec := ih h.2 (fun e he => hk e (by simp [he]))
      simp only [Tab.rising, List.map_cons, List.pairwise_cons]
      refine ⟨?_, hrec⟩
      intro y hy
      obtain ⟨e, he, rfl⟩ := List.mem_map.1 hy
      rcases (Tab.mem_ins k v r e).1 he with rfl | he
      · show a < k; omega
      · exact h.1 e.1 (List.mem_map_of_mem he)

/-- A write keeps the canonical form: writing the default lists nothing. -/
theorem Tab.wf_put {α : Type} [DecidableEq α] (d : α) (m : Tab α) (k : Nat) (v : α) (h : Tab.wf d m = true) :
    Tab.wf d (Tab.put d m k v) = true := by
  have hd : Tab.wf d (Tab.drop k m) = true := Tab.wf_filter d m _ h
  unfold Tab.put
  split
  · exact hd
  · rename_i hv
    rw [Tab.wf_iff] at hd ⊢
    refine ⟨Tab.rising_ins k v _ hd.1 (Tab.drop_free k m), fun e he => ?_⟩
    rcases (Tab.mem_ins k v _ e).1 he with rfl | he
    · exact hv
    · exact hd.2 e he

theorem Tab.wf_alter {α : Type} [DecidableEq α] (d : α) (m : Tab α) (k : Nat) (f : α → α) (h : Tab.wf d m = true) :
    Tab.wf d (Tab.alter d m k f) = true := Tab.wf_put d m k _ h

/-! ## Little-endian words (R8) -/

@[simp] theorem toLE_length (n v : Nat) : (toLE n v).length = n := by
  induction n generalizing v with
  | zero => rfl
  | succ n ih => simp [toLE, ih]

theorem toLE_getD (n v i : Nat) (h : i < n) : (toLE n v).getD i 0 = BitVec.ofNat 8 (v / 256 ^ i) := by
  induction n generalizing v i with
  | zero => omega
  | succ n ih =>
    cases i with
    | zero => simp [toLE]
    | succ i =>
      simp only [toLE, List.getD_cons_succ, ih (v / 256) i (by omega), Nat.div_div_eq_div_mul]
      congr 2; ring

/-- The bytes of a value that fits spell it. -/
theorem leNat_toLE (n v : Nat) (h : v < 256 ^ n) : leNat (toLE n v) = v := by
  induction n generalizing v with
  | zero => simp at h; simp [toLE, leNat, h]
  | succ n ih =>
    rw [pow_succ] at h
    have := ih (v / 256) (by omega)
    simp only [toLE, leNat, this, BitVec.toNat_ofNat]
    omega

theorem leNat_lt (bs : List W8) : leNat bs < 256 ^ bs.length := by
  induction bs with
  | nil => simp [leNat]
  | cons b r ih =>
    have hb : b.toNat < 256 := b.isLt
    simp only [leNat, List.length_cons, pow_succ]
    omega

namespace Machine

/-! ## Byte memories -/

/-- A byte reads what was stored to it last; every byte outside the stored ones reads as before. -/
theorem Mem.store_byte (m : Mem) (a : Nat) (bs : List W8) (b : Nat) :
    Mem.byte (Mem.store m a bs) b = if a ≤ b ∧ b < a + bs.length then bs.getD (b - a) 0 else Mem.byte m b := by
  induction bs generalizing m a with
  | nil => rw [if_neg (by simp)]; rfl
  | cons x r ih =>
    simp only [Mem.store]
    rw [ih]
    simp only [Mem.byte, Tab.look_put, List.length_cons]
    by_cases h : b = a
    · subst h; simp
    · by_cases h2 : a + 1 ≤ b ∧ b < a + 1 + r.length
      · obtain ⟨k, hk⟩ : ∃ k, b - a = k + 1 := ⟨b - a - 1, by omega⟩
        rw [if_pos h2, if_pos (by omega), hk, show b - (a + 1) = k by omega]; rfl
      · rw [if_neg h2, if_neg h, if_neg (by omega)]

theorem Mem.store_wf (m : Mem) (a : Nat) (bs : List W8) (h : Mem.wf m = true) : Mem.wf (Mem.store m a bs) = true := by
  induction bs generalizing m a with
  | nil => exact h
  | cons x r ih => exact ih _ _ (Tab.wf_put 0 m a x h)

theorem Mem.clear_wf (m : Mem) (a n : Nat) (h : Mem.wf m = true) : Mem.wf (Mem.clear m a n) = true :=
  Tab.wf_filter 0 m _ h

/-- A cleared byte reads as one never written; every other byte reads as before. -/
theorem Mem.clear_byte (m : Mem) (a n b : Nat) :
    Mem.byte (Mem.clear m a n) b = if a ≤ b ∧ b < a + n then 0 else Mem.byte m b := by
  induction m with
  | nil => simp [Mem.clear, Mem.byte]
  | cons e r ih =>
    obtain ⟨k, v⟩ := e
    simp only [Mem.clear, Mem.byte, List.filter] at ih ⊢
    by_cases hk : a ≤ k ∧ k < a + n
    · simp only [hk, decide_true, Bool.and_true, Bool.not_true, ih, Tab.look]
      split
      · rfl
      · rename_i hb
        rw [if_neg (by rintro rfl; exact hb hk)]
    · have h2 : (!(decide (a ≤ k) && decide (k < a + n))) = true := by simp; omega
      simp only [h2, Tab.look, ih]
      by_cases h1 : k = b
      · subst h1; simp [hk]
      · simp [h1]

@[simp] theorem Mem.read_length (m : Mem) (a n : Nat) : (Mem.read m a n).length = n := by simp [Mem.read]

/-- What was stored is read back. -/
theorem Mem.read_store (m : Mem) (a : Nat) (bs : List W8) : Mem.read (Mem.store m a bs) a bs.length = bs := by
  apply List.ext_getElem
  · simp
  · intro i h1 h2
    simp [Mem.read, Mem.store_byte, h2]

/-- Bytes outside the stored ones are read as before. -/
theorem Mem.read_store_apart (m : Mem) (a : Nat) (bs : List W8) (b n : Nat) (h : b + n ≤ a ∨ a + bs.length ≤ b) :
    Mem.read (Mem.store m a bs) b n = Mem.read m b n := by
  simp only [Mem.read]
  apply List.map_congr_left
  intro i hi
  have := List.mem_range.1 hi
  rw [Mem.store_byte, if_neg (by omega)]

end Machine

end Sys2Proof
end

