-- ==== Sys2Proof/Laws/State.lean ====
section
/-!
SUPPORT. Sys2Proof/Laws/State.lean: each named update of the state, field by field: what it sets, and that the other fields
stand. With these no proof unfolds a record update.
-/

namespace Sys2Proof.Machine

open Sys2Proof

/-! ## The state -/

@[simp] theorem State.withDev_dev (s : State) (d : Dev) : (s.withDev d).dev = d := rfl
@[simp] theorem State.withDev_fuse (s : State) (d : Dev) : (s.withDev d).fuse = s.fuse := rfl
@[simp] theorem State.withDev_pending (s : State) (d : Dev) : (s.withDev d).pending = s.pending := rfl
@[simp] theorem State.withDev_withDev (s : State) (d e : Dev) : (s.withDev d).withDev e = s.withDev e := rfl
@[simp] theorem State.withDev_same (s : State) : s.withDev s.dev = s := rfl
@[simp] theorem State.setTile_dev (s : State) (t : TileRef) (x : Tile) : (s.setTile t x).dev = s.dev.setTile t x := rfl
@[simp] theorem State.setTile_fuse (s : State) (t : TileRef) (x : Tile) : (s.setTile t x).fuse = s.fuse := rfl
@[simp] theorem State.setTile_pending (s : State) (t : TileRef) (x : Tile) : (s.setTile t x).pending = s.pending := rfl

/-! ## Dev.setTile -/

@[simp] theorem Dev.setTile_tick (d : Dev) (t : TileRef) (x : Tile) : (d.setTile t x).tick = d.tick := rfl
@[simp] theorem Dev.setTile_seq (d : Dev) (t : TileRef) (x : Tile) : (d.setTile t x).seq = d.seq := rfl
@[simp] theorem Dev.setTile_tileMem (d : Dev) (t : TileRef) (x : Tile) : (d.setTile t x).tileMem = d.tileMem := rfl
@[simp] theorem Dev.setTile_tileBad (d : Dev) (t : TileRef) (x : Tile) : (d.setTile t x).tileBad = d.tileBad := rfl
@[simp] theorem Dev.setTile_imem (d : Dev) (t : TileRef) (x : Tile) : (d.setTile t x).imem = d.imem := rfl
@[simp] theorem Dev.setTile_imemBad (d : Dev) (t : TileRef) (x : Tile) : (d.setTile t x).imemBad = d.imemBad := rfl
@[simp] theorem Dev.setTile_acc (d : Dev) (t : TileRef) (x : Tile) : (d.setTile t x).acc = d.acc := rfl
@[simp] theorem Dev.setTile_accBad (d : Dev) (t : TileRef) (x : Tile) : (d.setTile t x).accBad = d.accBad := rfl
@[simp] theorem Dev.setTile_sectors (d : Dev) (t : TileRef) (x : Tile) : (d.setTile t x).sectors = d.sectors := rfl
@[simp] theorem Dev.setTile_sectBuf (d : Dev) (t : TileRef) (x : Tile) : (d.setTile t x).sectBuf = d.sectBuf := rfl
@[simp] theorem Dev.setTile_hubs (d : Dev) (t : TileRef) (x : Tile) : (d.setTile t x).hubs = d.hubs := rfl
@[simp] theorem Dev.setTile_quire (d : Dev) (t : TileRef) (x : Tile) : (d.setTile t x).quire = d.quire := rfl
@[simp] theorem Dev.setTile_check (d : Dev) (t : TileRef) (x : Tile) : (d.setTile t x).check = d.check := rfl
@[simp] theorem Dev.setTile_scratch (d : Dev) (t : TileRef) (x : Tile) : (d.setTile t x).scratch = d.scratch := rfl
@[simp] theorem Dev.setTile_xlCache (d : Dev) (t : TileRef) (x : Tile) : (d.setTile t x).xlCache = d.xlCache := rfl
@[simp] theorem Dev.setTile_xlDropping (d : Dev) (t : TileRef) (x : Tile) : (d.setTile t x).xlDropping = d.xlDropping := rfl
@[simp] theorem Dev.setTile_notes (d : Dev) (t : TileRef) (x : Tile) : (d.setTile t x).notes = d.notes := rfl
@[simp] theorem Dev.setTile_links (d : Dev) (t : TileRef) (x : Tile) : (d.setTile t x).links = d.links := rfl
@[simp] theorem Dev.setTile_gander (d : Dev) (t : TileRef) (x : Tile) : (d.setTile t x).gander = d.gander := rfl
@[simp] theorem Dev.setTile_power (d : Dev) (t : TileRef) (x : Tile) : (d.setTile t x).power = d.power := rfl
@[simp] theorem Dev.setTile_sec (d : Dev) (t : TileRef) (x : Tile) : (d.setTile t x).sec = d.sec := rfl
@[simp] theorem Dev.setTile_retain (d : Dev) (t : TileRef) (x : Tile) : (d.setTile t x).retain = d.retain := rfl
@[simp] theorem Dev.setTile_ledger (d : Dev) (t : TileRef) (x : Tile) : (d.setTile t x).ledger = d.ledger := rfl
@[simp] theorem Dev.setTile_ledgerMismatches (d : Dev) (t : TileRef) (x : Tile) : (d.setTile t x).ledgerMismatches = d.ledgerMismatches := rfl
@[simp] theorem Dev.setTile_events (d : Dev) (t : TileRef) (x : Tile) : (d.setTile t x).events = d.events := rfl
@[simp] theorem Dev.setTile_pins (d : Dev) (t : TileRef) (x : Tile) : (d.setTile t x).pins = d.pins := rfl
@[simp] theorem Dev.setTile_dev (d : Dev) (t : TileRef) (x : Tile) : (d.setTile t x).dev = d.dev := rfl
@[simp] theorem Dev.setTile_csr (d : Dev) (t : TileRef) (x : Tile) : (d.setTile t x).csr = d.csr := rfl
@[simp] theorem Dev.setTile_halves (d : Dev) (t : TileRef) (x : Tile) : (d.setTile t x).halves = d.halves := rfl
@[simp] theorem Dev.setTile_outbox (d : Dev) (t : TileRef) (x : Tile) : (d.setTile t x).outbox = d.outbox := rfl
@[simp] theorem Dev.setTile_free (d : Dev) (t : TileRef) (x : Tile) : (d.setTile t x).free = d.free := rfl

/-! ## Dev.onSector -/

@[simp] theorem Dev.onSector_tick (d : Dev) (n : Nat) (f : Sector → Sector) : (d.onSector n f).tick = d.tick := rfl
@[simp] theorem Dev.onSector_seq (d : Dev) (n : Nat) (f : Sector → Sector) : (d.onSector n f).seq = d.seq := rfl
@[simp] theorem Dev.onSector_tiles (d : Dev) (n : Nat) (f : Sector → Sector) : (d.onSector n f).tiles = d.tiles := rfl
@[simp] theorem Dev.onSector_tileMem (d : Dev) (n : Nat) (f : Sector → Sector) : (d.onSector n f).tileMem = d.tileMem := rfl
@[simp] theorem Dev.onSector_tileBad (d : Dev) (n : Nat) (f : Sector → Sector) : (d.onSector n f).tileBad = d.tileBad := rfl
@[simp] theorem Dev.onSector_imem (d : Dev) (n : Nat) (f : Sector → Sector) : (d.onSector n f).imem = d.imem := rfl
@[simp] theorem Dev.onSector_imemBad (d : Dev) (n : Nat) (f : Sector → Sector) : (d.onSector n f).imemBad = d.imemBad := rfl
@[simp] theorem Dev.onSector_acc (d : Dev) (n : Nat) (f : Sector → Sector) : (d.onSector n f).acc = d.acc := rfl
@[simp] theorem Dev.onSector_accBad (d : Dev) (n : Nat) (f : Sector → Sector) : (d.onSector n f).accBad = d.accBad := rfl
@[simp] theorem Dev.onSector_sectBuf (d : Dev) (n : Nat) (f : Sector → Sector) : (d.onSector n f).sectBuf = d.sectBuf := rfl
@[simp] theorem Dev.onSector_hubs (d : Dev) (n : Nat) (f : Sector → Sector) : (d.onSector n f).hubs = d.hubs := rfl
@[simp] theorem Dev.onSector_quire (d : Dev) (n : Nat) (f : Sector → Sector) : (d.onSector n f).quire = d.quire := rfl
@[simp] theorem Dev.onSector_check (d : Dev) (n : Nat) (f : Sector → Sector) : (d.onSector n f).check = d.check := rfl
@[simp] theorem Dev.onSector_scratch (d : Dev) (n : Nat) (f : Sector → Sector) : (d.onSector n f).scratch = d.scratch := rfl
@[simp] theorem Dev.onSector_xlCache (d : Dev) (n : Nat) (f : Sector → Sector) : (d.onSector n f).xlCache = d.xlCache := rfl
@[simp] theorem Dev.onSector_xlDropping (d : Dev) (n : Nat) (f : Sector → Sector) : (d.onSector n f).xlDropping = d.xlDropping := rfl
@[simp] theorem Dev.onSector_notes (d : Dev) (n : Nat) (f : Sector → Sector) : (d.onSector n f).notes = d.notes := rfl
@[simp] theorem Dev.onSector_links (d : Dev) (n : Nat) (f : Sector → Sector) : (d.onSector n f).links = d.links := rfl
@[simp] theorem Dev.onSector_gander (d : Dev) (n : Nat) (f : Sector → Sector) : (d.onSector n f).gander = d.gander := rfl
@[simp] theorem Dev.onSector_power (d : Dev) (n : Nat) (f : Sector → Sector) : (d.onSector n f).power = d.power := rfl
@[simp] theorem Dev.onSector_sec (d : Dev) (n : Nat) (f : Sector → Sector) : (d.onSector n f).sec = d.sec := rfl
@[simp] theorem Dev.onSector_retain (d : Dev) (n : Nat) (f : Sector → Sector) : (d.onSector n f).retain = d.retain := rfl
@[simp] theorem Dev.onSector_ledger (d : Dev) (n : Nat) (f : Sector → Sector) : (d.onSector n f).ledger = d.ledger := rfl
@[simp] theorem Dev.onSector_ledgerMismatches (d : Dev) (n : Nat) (f : Sector → Sector) : (d.onSector n f).ledgerMismatches = d.ledgerMismatches := rfl
@[simp] theorem Dev.onSector_events (d : Dev) (n : Nat) (f : Sector → Sector) : (d.onSector n f).events = d.events := rfl
@[simp] theorem Dev.onSector_pins (d : Dev) (n : Nat) (f : Sector → Sector) : (d.onSector n f).pins = d.pins := rfl
@[simp] theorem Dev.onSector_dev (d : Dev) (n : Nat) (f : Sector → Sector) : (d.onSector n f).dev = d.dev := rfl
@[simp] theorem Dev.onSector_csr (d : Dev) (n : Nat) (f : Sector → Sector) : (d.onSector n f).csr = d.csr := rfl
@[simp] theorem Dev.onSector_halves (d : Dev) (n : Nat) (f : Sector → Sector) : (d.onSector n f).halves = d.halves := rfl
@[simp] theorem Dev.onSector_outbox (d : Dev) (n : Nat) (f : Sector → Sector) : (d.onSector n f).outbox = d.outbox := rfl
@[simp] theorem Dev.onSector_free (d : Dev) (n : Nat) (f : Sector → Sector) : (d.onSector n f).free = d.free := rfl

/-! ## Dev.onHub -/

@[simp] theorem Dev.onHub_tick (d : Dev) (n : Nat) (f : Hub → Hub) : (d.onHub n f).tick = d.tick := rfl
@[simp] theorem Dev.onHub_seq (d : Dev) (n : Nat) (f : Hub → Hub) : (d.onHub n f).seq = d.seq := rfl
@[simp] theorem Dev.onHub_tiles (d : Dev) (n : Nat) (f : Hub → Hub) : (d.onHub n f).tiles = d.tiles := rfl
@[simp] theorem Dev.onHub_tileMem (d : Dev) (n : Nat) (f : Hub → Hub) : (d.onHub n f).tileMem = d.tileMem := rfl
@[simp] theorem Dev.onHub_tileBad (d : Dev) (n : Nat) (f : Hub → Hub) : (d.onHub n f).tileBad = d.tileBad := rfl
@[simp] theorem Dev.onHub_imem (d : Dev) (n : Nat) (f : Hub → Hub) : (d.onHub n f).imem = d.imem := rfl
@[simp] theorem Dev.onHub_imemBad (d : Dev) (n : Nat) (f : Hub → Hub) : (d.onHub n f).imemBad = d.imemBad := rfl
@[simp] theorem Dev.onHub_acc (d : Dev) (n : Nat) (f : Hub → Hub) : (d.onHub n f).acc = d.acc := rfl
@[simp] theorem Dev.onHub_accBad (d : Dev) (n : Nat) (f : Hub → Hub) : (d.onHub n f).accBad = d.accBad := rfl
@[simp] theorem Dev.onHub_sectors (d : Dev) (n : Nat) (f : Hub → Hub) : (d.onHub n f).sectors = d.sectors := rfl
@[simp] theorem Dev.onHub_sectBuf (d : Dev) (n : Nat) (f : Hub → Hub) : (d.onHub n f).sectBuf = d.sectBuf := rfl
@[simp] theorem Dev.onHub_quire (d : Dev) (n : Nat) (f : Hub → Hub) : (d.onHub n f).quire = d.quire := rfl
@[simp] theorem Dev.onHub_check (d : Dev) (n : Nat) (f : Hub → Hub) : (d.onHub n f).check = d.check := rfl
@[simp] theorem Dev.onHub_scratch (d : Dev) (n : Nat) (f : Hub → Hub) : (d.onHub n f).scratch = d.scratch := rfl
@[simp] theorem Dev.onHub_xlCache (d : Dev) (n : Nat) (f : Hub → Hub) : (d.onHub n f).xlCache = d.xlCache := rfl
@[simp] theorem Dev.onHub_xlDropping (d : Dev) (n : Nat) (f : Hub → Hub) : (d.onHub n f).xlDropping = d.xlDropping := rfl
@[simp] theorem Dev.onHub_notes (d : Dev) (n : Nat) (f : Hub → Hub) : (d.onHub n f).notes = d.notes := rfl
@[simp] theorem Dev.onHub_links (d : Dev) (n : Nat) (f : Hub → Hub) : (d.onHub n f).links = d.links := rfl
@[simp] theorem Dev.onHub_gander (d : Dev) (n : Nat) (f : Hub → Hub) : (d.onHub n f).gander = d.gander := rfl
@[simp] theorem Dev.onHub_power (d : Dev) (n : Nat) (f : Hub → Hub) : (d.onHub n f).power = d.power := rfl
@[simp] theorem Dev.onHub_sec (d : Dev) (n : Nat) (f : Hub → Hub) : (d.onHub n f).sec = d.sec := rfl
@[simp] theorem Dev.onHub_retain (d : Dev) (n : Nat) (f : Hub → Hub) : (d.onHub n f).retain = d.retain := rfl
@[simp] theorem Dev.onHub_ledger (d : Dev) (n : Nat) (f : Hub → Hub) : (d.onHub n f).ledger = d.ledger := rfl
@[simp] theorem Dev.onHub_ledgerMismatches (d : Dev) (n : Nat) (f : Hub → Hub) : (d.onHub n f).ledgerMismatches = d.ledgerMismatches := rfl
@[simp] theorem Dev.onHub_events (d : Dev) (n : Nat) (f : Hub → Hub) : (d.onHub n f).events = d.events := rfl
@[simp] theorem Dev.onHub_pins (d : Dev) (n : Nat) (f : Hub → Hub) : (d.onHub n f).pins = d.pins := rfl
@[simp] theorem Dev.onHub_dev (d : Dev) (n : Nat) (f : Hub → Hub) : (d.onHub n f).dev = d.dev := rfl
@[simp] theorem Dev.onHub_csr (d : Dev) (n : Nat) (f : Hub → Hub) : (d.onHub n f).csr = d.csr := rfl
@[simp] theorem Dev.onHub_halves (d : Dev) (n : Nat) (f : Hub → Hub) : (d.onHub n f).halves = d.halves := rfl
@[simp] theorem Dev.onHub_outbox (d : Dev) (n : Nat) (f : Hub → Hub) : (d.onHub n f).outbox = d.outbox := rfl
@[simp] theorem Dev.onHub_free (d : Dev) (n : Nat) (f : Hub → Hub) : (d.onHub n f).free = d.free := rfl

/-! ## Dev.onLinks -/

@[simp] theorem Dev.onLinks_tick (d : Dev) (f : Links → Links) : (d.onLinks f).tick = d.tick := rfl
@[simp] theorem Dev.onLinks_seq (d : Dev) (f : Links → Links) : (d.onLinks f).seq = d.seq := rfl
@[simp] theorem Dev.onLinks_tiles (d : Dev) (f : Links → Links) : (d.onLinks f).tiles = d.tiles := rfl
@[simp] theorem Dev.onLinks_tileMem (d : Dev) (f : Links → Links) : (d.onLinks f).tileMem = d.tileMem := rfl
@[simp] theorem Dev.onLinks_tileBad (d : Dev) (f : Links → Links) : (d.onLinks f).tileBad = d.tileBad := rfl
@[simp] theorem Dev.onLinks_imem (d : Dev) (f : Links → Links) : (d.onLinks f).imem = d.imem := rfl
@[simp] theorem Dev.onLinks_imemBad (d : Dev) (f : Links → Links) : (d.onLinks f).imemBad = d.imemBad := rfl
@[simp] theorem Dev.onLinks_acc (d : Dev) (f : Links → Links) : (d.onLinks f).acc = d.acc := rfl
@[simp] theorem Dev.onLinks_accBad (d : Dev) (f : Links → Links) : (d.onLinks f).accBad = d.accBad := rfl
@[simp] theorem Dev.onLinks_sectors (d : Dev) (f : Links → Links) : (d.onLinks f).sectors = d.sectors := rfl
@[simp] theorem Dev.onLinks_sectBuf (d : Dev) (f : Links → Links) : (d.onLinks f).sectBuf = d.sectBuf := rfl
@[simp] theorem Dev.onLinks_hubs (d : Dev) (f : Links → Links) : (d.onLinks f).hubs = d.hubs := rfl
@[simp] theorem Dev.onLinks_quire (d : Dev) (f : Links → Links) : (d.onLinks f).quire = d.quire := rfl
@[simp] theorem Dev.onLinks_check (d : Dev) (f : Links → Links) : (d.onLinks f).check = d.check := rfl
@[simp] theorem Dev.onLinks_scratch (d : Dev) (f : Links → Links) : (d.onLinks f).scratch = d.scratch := rfl
@[simp] theorem Dev.onLinks_xlCache (d : Dev) (f : Links → Links) : (d.onLinks f).xlCache = d.xlCache := rfl
@[simp] theorem Dev.onLinks_xlDropping (d : Dev) (f : Links → Links) : (d.onLinks f).xlDropping = d.xlDropping := rfl
@[simp] theorem Dev.onLinks_notes (d : Dev) (f : Links → Links) : (d.onLinks f).notes = d.notes := rfl
@[simp] theorem Dev.onLinks_links (d : Dev) (f : Links → Links) : (d.onLinks f).links = f d.links := rfl
@[simp] theorem Dev.onLinks_gander (d : Dev) (f : Links → Links) : (d.onLinks f).gander = d.gander := rfl
@[simp] theorem Dev.onLinks_power (d : Dev) (f : Links → Links) : (d.onLinks f).power = d.power := rfl
@[simp] theorem Dev.onLinks_sec (d : Dev) (f : Links → Links) : (d.onLinks f).sec = d.sec := rfl
@[simp] theorem Dev.onLinks_retain (d : Dev) (f : Links → Links) : (d.onLinks f).retain = d.retain := rfl
@[simp] theorem Dev.onLinks_ledger (d : Dev) (f : Links → Links) : (d.onLinks f).ledger = d.ledger := rfl
@[simp] theorem Dev.onLinks_ledgerMismatches (d : Dev) (f : Links → Links) : (d.onLinks f).ledgerMismatches = d.ledgerMismatches := rfl
@[simp] theorem Dev.onLinks_events (d : Dev) (f : Links → Links) : (d.onLinks f).events = d.events := rfl
@[simp] theorem Dev.onLinks_pins (d : Dev) (f : Links → Links) : (d.onLinks f).pins = d.pins := rfl
@[simp] theorem Dev.onLinks_dev (d : Dev) (f : Links → Links) : (d.onLinks f).dev = d.dev := rfl
@[simp] theorem Dev.onLinks_csr (d : Dev) (f : Links → Links) : (d.onLinks f).csr = d.csr := rfl
@[simp] theorem Dev.onLinks_halves (d : Dev) (f : Links → Links) : (d.onLinks f).halves = d.halves := rfl
@[simp] theorem Dev.onLinks_outbox (d : Dev) (f : Links → Links) : (d.onLinks f).outbox = d.outbox := rfl
@[simp] theorem Dev.onLinks_free (d : Dev) (f : Links → Links) : (d.onLinks f).free = d.free := rfl

/-! ## Dev.onTick -/

@[simp] theorem Dev.onTick_tick (d : Dev) (f : Tick → Tick) : (d.onTick f).tick = f d.tick := rfl
@[simp] theorem Dev.onTick_seq (d : Dev) (f : Tick → Tick) : (d.onTick f).seq = d.seq := rfl
@[simp] theorem Dev.onTick_tiles (d : Dev) (f : Tick → Tick) : (d.onTick f).tiles = d.tiles := rfl
@[simp] theorem Dev.onTick_tileMem (d : Dev) (f : Tick → Tick) : (d.onTick f).tileMem = d.tileMem := rfl
@[simp] theorem Dev.onTick_tileBad (d : Dev) (f : Tick → Tick) : (d.onTick f).tileBad = d.tileBad := rfl
@[simp] theorem Dev.onTick_imem (d : Dev) (f : Tick → Tick) : (d.onTick f).imem = d.imem := rfl
@[simp] theorem Dev.onTick_imemBad (d : Dev) (f : Tick → Tick) : (d.onTick f).imemBad = d.imemBad := rfl
@[simp] theorem Dev.onTick_acc (d : Dev) (f : Tick → Tick) : (d.onTick f).acc = d.acc := rfl
@[simp] theorem Dev.onTick_accBad (d : Dev) (f : Tick → Tick) : (d.onTick f).accBad = d.accBad := rfl
@[simp] theorem Dev.onTick_sectors (d : Dev) (f : Tick → Tick) : (d.onTick f).sectors = d.sectors := rfl
@[simp] theorem Dev.onTick_sectBuf (d : Dev) (f : Tick → Tick) : (d.onTick f).sectBuf = d.sectBuf := rfl
@[simp] theorem Dev.onTick_hubs (d : Dev) (f : Tick → Tick) : (d.onTick f).hubs = d.hubs := rfl
@[simp] theorem Dev.onTick_quire (d : Dev) (f : Tick → Tick) : (d.onTick f).quire = d.quire := rfl
@[simp] theorem Dev.onTick_check (d : Dev) (f : Tick → Tick) : (d.onTick f).check = d.check := rfl
@[simp] theorem Dev.onTick_scratch (d : Dev) (f : Tick → Tick) : (d.onTick f).scratch = d.scratch := rfl
@[simp] theorem Dev.onTick_xlCache (d : Dev) (f : Tick → Tick) : (d.onTick f).xlCache = d.xlCache := rfl
@[simp] theorem Dev.onTick_xlDropping (d : Dev) (f : Tick → Tick) : (d.onTick f).xlDropping = d.xlDropping := rfl
@[simp] theorem Dev.onTick_notes (d : Dev) (f : Tick → Tick) : (d.onTick f).notes = d.notes := rfl
@[simp] theorem Dev.onTick_links (d : Dev) (f : Tick → Tick) : (d.onTick f).links = d.links := rfl
@[simp] theorem Dev.onTick_gander (d : Dev) (f : Tick → Tick) : (d.onTick f).gander = d.gander := rfl
@[simp] theorem Dev.onTick_power (d : Dev) (f : Tick → Tick) : (d.onTick f).power = d.power := rfl
@[simp] theorem Dev.onTick_sec (d : Dev) (f : Tick → Tick) : (d.onTick f).sec = d.sec := rfl
@[simp] theorem Dev.onTick_retain (d : Dev) (f : Tick → Tick) : (d.onTick f).retain = d.retain := rfl
@[simp] theorem Dev.onTick_ledger (d : Dev) (f : Tick → Tick) : (d.onTick f).ledger = d.ledger := rfl
@[simp] theorem Dev.onTick_ledgerMismatches (d : Dev) (f : Tick → Tick) : (d.onTick f).ledgerMismatches = d.ledgerMismatches := rfl
@[simp] theorem Dev.onTick_events (d : Dev) (f : Tick → Tick) : (d.onTick f).events = d.events := rfl
@[simp] theorem Dev.onTick_pins (d : Dev) (f : Tick → Tick) : (d.onTick f).pins = d.pins := rfl
@[simp] theorem Dev.onTick_dev (d : Dev) (f : Tick → Tick) : (d.onTick f).dev = d.dev := rfl
@[simp] theorem Dev.onTick_csr (d : Dev) (f : Tick → Tick) : (d.onTick f).csr = d.csr := rfl
@[simp] theorem Dev.onTick_halves (d : Dev) (f : Tick → Tick) : (d.onTick f).halves = d.halves := rfl
@[simp] theorem Dev.onTick_outbox (d : Dev) (f : Tick → Tick) : (d.onTick f).outbox = d.outbox := rfl
@[simp] theorem Dev.onTick_free (d : Dev) (f : Tick → Tick) : (d.onTick f).free = d.free := rfl

/-! ## Dev.onSeq -/

@[simp] theorem Dev.onSeq_tick (d : Dev) (f : Seq → Seq) : (d.onSeq f).tick = d.tick := rfl
@[simp] theorem Dev.onSeq_seq (d : Dev) (f : Seq → Seq) : (d.onSeq f).seq = f d.seq := rfl
@[simp] theorem Dev.onSeq_tiles (d : Dev) (f : Seq → Seq) : (d.onSeq f).tiles = d.tiles := rfl
@[simp] theorem Dev.onSeq_tileMem (d : Dev) (f : Seq → Seq) : (d.onSeq f).tileMem = d.tileMem := rfl
@[simp] theorem Dev.onSeq_tileBad (d : Dev) (f : Seq → Seq) : (d.onSeq f).tileBad = d.tileBad := rfl
@[simp] theorem Dev.onSeq_imem (d : Dev) (f : Seq → Seq) : (d.onSeq f).imem = d.imem := rfl
@[simp] theorem Dev.onSeq_imemBad (d : Dev) (f : Seq → Seq) : (d.onSeq f).imemBad = d.imemBad := rfl
@[simp] theorem Dev.onSeq_acc (d : Dev) (f : Seq → Seq) : (d.onSeq f).acc = d.acc := rfl
@[simp] theorem Dev.onSeq_accBad (d : Dev) (f : Seq → Seq) : (d.onSeq f).accBad = d.accBad := rfl
@[simp] theorem Dev.onSeq_sectors (d : Dev) (f : Seq → Seq) : (d.onSeq f).sectors = d.sectors := rfl
@[simp] theorem Dev.onSeq_sectBuf (d : Dev) (f : Seq → Seq) : (d.onSeq f).sectBuf = d.sectBuf := rfl
@[simp] theorem Dev.onSeq_hubs (d : Dev) (f : Seq → Seq) : (d.onSeq f).hubs = d.hubs := rfl
@[simp] theorem Dev.onSeq_quire (d : Dev) (f : Seq → Seq) : (d.onSeq f).quire = d.quire := rfl
@[simp] theorem Dev.onSeq_check (d : Dev) (f : Seq → Seq) : (d.onSeq f).check = d.check := rfl
@[simp] theorem Dev.onSeq_scratch (d : Dev) (f : Seq → Seq) : (d.onSeq f).scratch = d.scratch := rfl
@[simp] theorem Dev.onSeq_xlCache (d : Dev) (f : Seq → Seq) : (d.onSeq f).xlCache = d.xlCache := rfl
@[simp] theorem Dev.onSeq_xlDropping (d : Dev) (f : Seq → Seq) : (d.onSeq f).xlDropping = d.xlDropping := rfl
@[simp] theorem Dev.onSeq_notes (d : Dev) (f : Seq → Seq) : (d.onSeq f).notes = d.notes := rfl
@[simp] theorem Dev.onSeq_links (d : Dev) (f : Seq → Seq) : (d.onSeq f).links = d.links := rfl
@[simp] theorem Dev.onSeq_gander (d : Dev) (f : Seq → Seq) : (d.onSeq f).gander = d.gander := rfl
@[simp] theorem Dev.onSeq_power (d : Dev) (f : Seq → Seq) : (d.onSeq f).power = d.power := rfl
@[simp] theorem Dev.onSeq_sec (d : Dev) (f : Seq → Seq) : (d.onSeq f).sec = d.sec := rfl
@[simp] theorem Dev.onSeq_retain (d : Dev) (f : Seq → Seq) : (d.onSeq f).retain = d.retain := rfl
@[simp] theorem Dev.onSeq_ledger (d : Dev) (f : Seq → Seq) : (d.onSeq f).ledger = d.ledger := rfl
@[simp] theorem Dev.onSeq_ledgerMismatches (d : Dev) (f : Seq → Seq) : (d.onSeq f).ledgerMismatches = d.ledgerMismatches := rfl
@[simp] theorem Dev.onSeq_events (d : Dev) (f : Seq → Seq) : (d.onSeq f).events = d.events := rfl
@[simp] theorem Dev.onSeq_pins (d : Dev) (f : Seq → Seq) : (d.onSeq f).pins = d.pins := rfl
@[simp] theorem Dev.onSeq_dev (d : Dev) (f : Seq → Seq) : (d.onSeq f).dev = d.dev := rfl
@[simp] theorem Dev.onSeq_csr (d : Dev) (f : Seq → Seq) : (d.onSeq f).csr = d.csr := rfl
@[simp] theorem Dev.onSeq_halves (d : Dev) (f : Seq → Seq) : (d.onSeq f).halves = d.halves := rfl
@[simp] theorem Dev.onSeq_outbox (d : Dev) (f : Seq → Seq) : (d.onSeq f).outbox = d.outbox := rfl
@[simp] theorem Dev.onSeq_free (d : Dev) (f : Seq → Seq) : (d.onSeq f).free = d.free := rfl

/-! ## Dev.onGander -/

@[simp] theorem Dev.onGander_tick (d : Dev) (f : Gander → Gander) : (d.onGander f).tick = d.tick := rfl
@[simp] theorem Dev.onGander_seq (d : Dev) (f : Gander → Gander) : (d.onGander f).seq = d.seq := rfl
@[simp] theorem Dev.onGander_tiles (d : Dev) (f : Gander → Gander) : (d.onGander f).tiles = d.tiles := rfl
@[simp] theorem Dev.onGander_tileMem (d : Dev) (f : Gander → Gander) : (d.onGander f).tileMem = d.tileMem := rfl
@[simp] theorem Dev.onGander_tileBad (d : Dev) (f : Gander → Gander) : (d.onGander f).tileBad = d.tileBad := rfl
@[simp] theorem Dev.onGander_imem (d : Dev) (f : Gander → Gander) : (d.onGander f).imem = d.imem := rfl
@[simp] theorem Dev.onGander_imemBad (d : Dev) (f : Gander → Gander) : (d.onGander f).imemBad = d.imemBad := rfl
@[simp] theorem Dev.onGander_acc (d : Dev) (f : Gander → Gander) : (d.onGander f).acc = d.acc := rfl
@[simp] theorem Dev.onGander_accBad (d : Dev) (f : Gander → Gander) : (d.onGander f).accBad = d.accBad := rfl
@[simp] theorem Dev.onGander_sectors (d : Dev) (f : Gander → Gander) : (d.onGander f).sectors = d.sectors := rfl
@[simp] theorem Dev.onGander_sectBuf (d : Dev) (f : Gander → Gander) : (d.onGander f).sectBuf = d.sectBuf := rfl
@[simp] theorem Dev.onGander_hubs (d : Dev) (f : Gander → Gander) : (d.onGander f).hubs = d.hubs := rfl
@[simp] theorem Dev.onGander_quire (d : Dev) (f : Gander → Gander) : (d.onGander f).quire = d.quire := rfl
@[simp] theorem Dev.onGander_check (d : Dev) (f : Gander → Gander) : (d.onGander f).check = d.check := rfl
@[simp] theorem Dev.onGander_scratch (d : Dev) (f : Gander → Gander) : (d.onGander f).scratch = d.scratch := rfl
@[simp] theorem Dev.onGander_xlCache (d : Dev) (f : Gander → Gander) : (d.onGander f).xlCache = d.xlCache := rfl
@[simp] theorem Dev.onGander_xlDropping (d : Dev) (f : Gander → Gander) : (d.onGander f).xlDropping = d.xlDropping := rfl
@[simp] theorem Dev.onGander_notes (d : Dev) (f : Gander → Gander) : (d.onGander f).notes = d.notes := rfl
@[simp] theorem Dev.onGander_links (d : Dev) (f : Gander → Gander) : (d.onGander f).links = d.links := rfl
@[simp] theorem Dev.onGander_gander (d : Dev) (f : Gander → Gander) : (d.onGander f).gander = f d.gander := rfl
@[simp] theorem Dev.onGander_power (d : Dev) (f : Gander → Gander) : (d.onGander f).power = d.power := rfl
@[simp] theorem Dev.onGander_sec (d : Dev) (f : Gander → Gander) : (d.onGander f).sec = d.sec := rfl
@[simp] theorem Dev.onGander_retain (d : Dev) (f : Gander → Gander) : (d.onGander f).retain = d.retain := rfl
@[simp] theorem Dev.onGander_ledger (d : Dev) (f : Gander → Gander) : (d.onGander f).ledger = d.ledger := rfl
@[simp] theorem Dev.onGander_ledgerMismatches (d : Dev) (f : Gander → Gander) : (d.onGander f).ledgerMismatches = d.ledgerMismatches := rfl
@[simp] theorem Dev.onGander_events (d : Dev) (f : Gander → Gander) : (d.onGander f).events = d.events := rfl
@[simp] theorem Dev.onGander_pins (d : Dev) (f : Gander → Gander) : (d.onGander f).pins = d.pins := rfl
@[simp] theorem Dev.onGander_dev (d : Dev) (f : Gander → Gander) : (d.onGander f).dev = d.dev := rfl
@[simp] theorem Dev.onGander_csr (d : Dev) (f : Gander → Gander) : (d.onGander f).csr = d.csr := rfl
@[simp] theorem Dev.onGander_halves (d : Dev) (f : Gander → Gander) : (d.onGander f).halves = d.halves := rfl
@[simp] theorem Dev.onGander_outbox (d : Dev) (f : Gander → Gander) : (d.onGander f).outbox = d.outbox := rfl
@[simp] theorem Dev.onGander_free (d : Dev) (f : Gander → Gander) : (d.onGander f).free = d.free := rfl

/-! ## Dev.onPower -/

@[simp] theorem Dev.onPower_tick (d : Dev) (f : Power → Power) : (d.onPower f).tick = d.tick := rfl
@[simp] theorem Dev.onPower_seq (d : Dev) (f : Power → Power) : (d.onPower f).seq = d.seq := rfl
@[simp] theorem Dev.onPower_tiles (d : Dev) (f : Power → Power) : (d.onPower f).tiles = d.tiles := rfl
@[simp] theorem Dev.onPower_tileMem (d : Dev) (f : Power → Power) : (d.onPower f).tileMem = d.tileMem := rfl
@[simp] theorem Dev.onPower_tileBad (d : Dev) (f : Power → Power) : (d.onPower f).tileBad = d.tileBad := rfl
@[simp] theorem Dev.onPower_imem (d : Dev) (f : Power → Power) : (d.onPower f).imem = d.imem := rfl
@[simp] theorem Dev.onPower_imemBad (d : Dev) (f : Power → Power) : (d.onPower f).imemBad = d.imemBad := rfl
@[simp] theorem Dev.onPower_acc (d : Dev) (f : Power → Power) : (d.onPower f).acc = d.acc := rfl
@[simp] theorem Dev.onPower_accBad (d : Dev) (f : Power → Power) : (d.onPower f).accBad = d.accBad := rfl
@[simp] theorem Dev.onPower_sectors (d : Dev) (f : Power → Power) : (d.onPower f).sectors = d.sectors := rfl
@[simp] theorem Dev.onPower_sectBuf (d : Dev) (f : Power → Power) : (d.onPower f).sectBuf = d.sectBuf := rfl
@[simp] theorem Dev.onPower_hubs (d : Dev) (f : Power → Power) : (d.onPower f).hubs = d.hubs := rfl
@[simp] theorem Dev.onPower_quire (d : Dev) (f : Power → Power) : (d.onPower f).quire = d.quire := rfl
@[simp] theorem Dev.onPower_check (d : Dev) (f : Power → Power) : (d.onPower f).check = d.check := rfl
@[simp] theorem Dev.onPower_scratch (d : Dev) (f : Power → Power) : (d.onPower f).scratch = d.scratch := rfl
@[simp] theorem Dev.onPower_xlCache (d : Dev) (f : Power → Power) : (d.onPower f).xlCache = d.xlCache := rfl
@[simp] theorem Dev.onPower_xlDropping (d : Dev) (f : Power → Power) : (d.onPower f).xlDropping = d.xlDropping := rfl
@[simp] theorem Dev.onPower_notes (d : Dev) (f : Power → Power) : (d.onPower f).notes = d.notes := rfl
@[simp] theorem Dev.onPower_links (d : Dev) (f : Power → Power) : (d.onPower f).links = d.links := rfl
@[simp] theorem Dev.onPower_gander (d : Dev) (f : Power → Power) : (d.onPower f).gander = d.gander := rfl
@[simp] theorem Dev.onPower_power (d : Dev) (f : Power → Power) : (d.onPower f).power = f d.power := rfl
@[simp] theorem Dev.onPower_sec (d : Dev) (f : Power → Power) : (d.onPower f).sec = d.sec := rfl
@[simp] theorem Dev.onPower_retain (d : Dev) (f : Power → Power) : (d.onPower f).retain = d.retain := rfl
@[simp] theorem Dev.onPower_ledger (d : Dev) (f : Power → Power) : (d.onPower f).ledger = d.ledger := rfl
@[simp] theorem Dev.onPower_ledgerMismatches (d : Dev) (f : Power → Power) : (d.onPower f).ledgerMismatches = d.ledgerMismatches := rfl
@[simp] theorem Dev.onPower_events (d : Dev) (f : Power → Power) : (d.onPower f).events = d.events := rfl
@[simp] theorem Dev.onPower_pins (d : Dev) (f : Power → Power) : (d.onPower f).pins = d.pins := rfl
@[simp] theorem Dev.onPower_dev (d : Dev) (f : Power → Power) : (d.onPower f).dev = d.dev := rfl
@[simp] theorem Dev.onPower_csr (d : Dev) (f : Power → Power) : (d.onPower f).csr = d.csr := rfl
@[simp] theorem Dev.onPower_halves (d : Dev) (f : Power → Power) : (d.onPower f).halves = d.halves := rfl
@[simp] theorem Dev.onPower_outbox (d : Dev) (f : Power → Power) : (d.onPower f).outbox = d.outbox := rfl
@[simp] theorem Dev.onPower_free (d : Dev) (f : Power → Power) : (d.onPower f).free = d.free := rfl

/-! ## Dev.onSec -/

@[simp] theorem Dev.onSec_tick (d : Dev) (f : Sec → Sec) : (d.onSec f).tick = d.tick := rfl
@[simp] theorem Dev.onSec_seq (d : Dev) (f : Sec → Sec) : (d.onSec f).seq = d.seq := rfl
@[simp] theorem Dev.onSec_tiles (d : Dev) (f : Sec → Sec) : (d.onSec f).tiles = d.tiles := rfl
@[simp] theorem Dev.onSec_tileMem (d : Dev) (f : Sec → Sec) : (d.onSec f).tileMem = d.tileMem := rfl
@[simp] theorem Dev.onSec_tileBad (d : Dev) (f : Sec → Sec) : (d.onSec f).tileBad = d.tileBad := rfl
@[simp] theorem Dev.onSec_imem (d : Dev) (f : Sec → Sec) : (d.onSec f).imem = d.imem := rfl
@[simp] theorem Dev.onSec_imemBad (d : Dev) (f : Sec → Sec) : (d.onSec f).imemBad = d.imemBad := rfl
@[simp] theorem Dev.onSec_acc (d : Dev) (f : Sec → Sec) : (d.onSec f).acc = d.acc := rfl
@[simp] theorem Dev.onSec_accBad (d : Dev) (f : Sec → Sec) : (d.onSec f).accBad = d.accBad := rfl
@[simp] theorem Dev.onSec_sectors (d : Dev) (f : Sec → Sec) : (d.onSec f).sectors = d.sectors := rfl
@[simp] theorem Dev.onSec_sectBuf (d : Dev) (f : Sec → Sec) : (d.onSec f).sectBuf = d.sectBuf := rfl
@[simp] theorem Dev.onSec_hubs (d : Dev) (f : Sec → Sec) : (d.onSec f).hubs = d.hubs := rfl
@[simp] theorem Dev.onSec_quire (d : Dev) (f : Sec → Sec) : (d.onSec f).quire = d.quire := rfl
@[simp] theorem Dev.onSec_check (d : Dev) (f : Sec → Sec) : (d.onSec f).check = d.check := rfl
@[simp] theorem Dev.onSec_scratch (d : Dev) (f : Sec → Sec) : (d.onSec f).scratch = d.scratch := rfl
@[simp] theorem Dev.onSec_xlCache (d : Dev) (f : Sec → Sec) : (d.onSec f).xlCache = d.xlCache := rfl
@[simp] theorem Dev.onSec_xlDropping (d : Dev) (f : Sec → Sec) : (d.onSec f).xlDropping = d.xlDropping := rfl
@[simp] theorem Dev.onSec_notes (d : Dev) (f : Sec → Sec) : (d.onSec f).notes = d.notes := rfl
@[simp] theorem Dev.onSec_links (d : Dev) (f : Sec → Sec) : (d.onSec f).links = d.links := rfl
@[simp] theorem Dev.onSec_gander (d : Dev) (f : Sec → Sec) : (d.onSec f).gander = d.gander := rfl
@[simp] theorem Dev.onSec_power (d : Dev) (f : Sec → Sec) : (d.onSec f).power = d.power := rfl
@[simp] theorem Dev.onSec_sec (d : Dev) (f : Sec → Sec) : (d.onSec f).sec = f d.sec := rfl
@[simp] theorem Dev.onSec_retain (d : Dev) (f : Sec → Sec) : (d.onSec f).retain = d.retain := rfl
@[simp] theorem Dev.onSec_ledger (d : Dev) (f : Sec → Sec) : (d.onSec f).ledger = d.ledger := rfl
@[simp] theorem Dev.onSec_ledgerMismatches (d : Dev) (f : Sec → Sec) : (d.onSec f).ledgerMismatches = d.ledgerMismatches := rfl
@[simp] theorem Dev.onSec_events (d : Dev) (f : Sec → Sec) : (d.onSec f).events = d.events := rfl
@[simp] theorem Dev.onSec_pins (d : Dev) (f : Sec → Sec) : (d.onSec f).pins = d.pins := rfl
@[simp] theorem Dev.onSec_dev (d : Dev) (f : Sec → Sec) : (d.onSec f).dev = d.dev := rfl
@[simp] theorem Dev.onSec_csr (d : Dev) (f : Sec → Sec) : (d.onSec f).csr = d.csr := rfl
@[simp] theorem Dev.onSec_halves (d : Dev) (f : Sec → Sec) : (d.onSec f).halves = d.halves := rfl
@[simp] theorem Dev.onSec_outbox (d : Dev) (f : Sec → Sec) : (d.onSec f).outbox = d.outbox := rfl
@[simp] theorem Dev.onSec_free (d : Dev) (f : Sec → Sec) : (d.onSec f).free = d.free := rfl

/-! ## Dev.onRetain -/

@[simp] theorem Dev.onRetain_tick (d : Dev) (f : Retain → Retain) : (d.onRetain f).tick = d.tick := rfl
@[simp] theorem Dev.onRetain_seq (d : Dev) (f : Retain → Retain) : (d.onRetain f).seq = d.seq := rfl
@[simp] theorem Dev.onRetain_tiles (d : Dev) (f : Retain → Retain) : (d.onRetain f).tiles = d.tiles := rfl
@[simp] theorem Dev.onRetain_tileMem (d : Dev) (f : Retain → Retain) : (d.onRetain f).tileMem = d.tileMem := rfl
@[simp] theorem Dev.onRetain_tileBad (d : Dev) (f : Retain → Retain) : (d.onRetain f).tileBad = d.tileBad := rfl
@[simp] theorem Dev.onRetain_imem (d : Dev) (f : Retain → Retain) : (d.onRetain f).imem = d.imem := rfl
@[simp] theorem Dev.onRetain_imemBad (d : Dev) (f : Retain → Retain) : (d.onRetain f).imemBad = d.imemBad := rfl
@[simp] theorem Dev.onRetain_acc (d : Dev) (f : Retain → Retain) : (d.onRetain f).acc = d.acc := rfl
@[simp] theorem Dev.onRetain_accBad (d : Dev) (f : Retain → Retain) : (d.onRetain f).accBad = d.accBad := rfl
@[simp] theorem Dev.onRetain_sectors (d : Dev) (f : Retain → Retain) : (d.onRetain f).sectors = d.sectors := rfl
@[simp] theorem Dev.onRetain_sectBuf (d : Dev) (f : Retain → Retain) : (d.onRetain f).sectBuf = d.sectBuf := rfl
@[simp] theorem Dev.onRetain_hubs (d : Dev) (f : Retain → Retain) : (d.onRetain f).hubs = d.hubs := rfl
@[simp] theorem Dev.onRetain_quire (d : Dev) (f : Retain → Retain) : (d.onRetain f).quire = d.quire := rfl
@[simp] theorem Dev.onRetain_check (d : Dev) (f : Retain → Retain) : (d.onRetain f).check = d.check := rfl
@[simp] theorem Dev.onRetain_scratch (d : Dev) (f : Retain → Retain) : (d.onRetain f).scratch = d.scratch := rfl
@[simp] theorem Dev.onRetain_xlCache (d : Dev) (f : Retain → Retain) : (d.onRetain f).xlCache = d.xlCache := rfl
@[simp] theorem Dev.onRetain_xlDropping (d : Dev) (f : Retain → Retain) : (d.onRetain f).xlDropping = d.xlDropping := rfl
@[simp] theorem Dev.onRetain_notes (d : Dev) (f : Retain → Retain) : (d.onRetain f).notes = d.notes := rfl
@[simp] theorem Dev.onRetain_links (d : Dev) (f : Retain → Retain) : (d.onRetain f).links = d.links := rfl
@[simp] theorem Dev.onRetain_gander (d : Dev) (f : Retain → Retain) : (d.onRetain f).gander = d.gander := rfl
@[simp] theorem Dev.onRetain_power (d : Dev) (f : Retain → Retain) : (d.onRetain f).power = d.power := rfl
@[simp] theorem Dev.onRetain_sec (d : Dev) (f : Retain → Retain) : (d.onRetain f).sec = d.sec := rfl
@[simp] theorem Dev.onRetain_retain (d : Dev) (f : Retain → Retain) : (d.onRetain f).retain = f d.retain := rfl
@[simp] theorem Dev.onRetain_ledger (d : Dev) (f : Retain → Retain) : (d.onRetain f).ledger = d.ledger := rfl
@[simp] theorem Dev.onRetain_ledgerMismatches (d : Dev) (f : Retain → Retain) : (d.onRetain f).ledgerMismatches = d.ledgerMismatches := rfl
@[simp] theorem Dev.onRetain_events (d : Dev) (f : Retain → Retain) : (d.onRetain f).events = d.events := rfl
@[simp] theorem Dev.onRetain_pins (d : Dev) (f : Retain → Retain) : (d.onRetain f).pins = d.pins := rfl
@[simp] theorem Dev.onRetain_dev (d : Dev) (f : Retain → Retain) : (d.onRetain f).dev = d.dev := rfl
@[simp] theorem Dev.onRetain_csr (d : Dev) (f : Retain → Retain) : (d.onRetain f).csr = d.csr := rfl
@[simp] theorem Dev.onRetain_halves (d : Dev) (f : Retain → Retain) : (d.onRetain f).halves = d.halves := rfl
@[simp] theorem Dev.onRetain_outbox (d : Dev) (f : Retain → Retain) : (d.onRetain f).outbox = d.outbox := rfl
@[simp] theorem Dev.onRetain_free (d : Dev) (f : Retain → Retain) : (d.onRetain f).free = d.free := rfl

/-! ## Dev.send -/

@[simp] theorem Dev.send_tick (d : Dev) (m : OutMsg) : (d.send m).tick = d.tick := rfl
@[simp] theorem Dev.send_seq (d : Dev) (m : OutMsg) : (d.send m).seq = d.seq := rfl
@[simp] theorem Dev.send_tiles (d : Dev) (m : OutMsg) : (d.send m).tiles = d.tiles := rfl
@[simp] theorem Dev.send_tileMem (d : Dev) (m : OutMsg) : (d.send m).tileMem = d.tileMem := rfl
@[simp] theorem Dev.send_tileBad (d : Dev) (m : OutMsg) : (d.send m).tileBad = d.tileBad := rfl
@[simp] theorem Dev.send_imem (d : Dev) (m : OutMsg) : (d.send m).imem = d.imem := rfl
@[simp] theorem Dev.send_imemBad (d : Dev) (m : OutMsg) : (d.send m).imemBad = d.imemBad := rfl
@[simp] theorem Dev.send_acc (d : Dev) (m : OutMsg) : (d.send m).acc = d.acc := rfl
@[simp] theorem Dev.send_accBad (d : Dev) (m : OutMsg) : (d.send m).accBad = d.accBad := rfl
@[simp] theorem Dev.send_sectors (d : Dev) (m : OutMsg) : (d.send m).sectors = d.sectors := rfl
@[simp] theorem Dev.send_sectBuf (d : Dev) (m : OutMsg) : (d.send m).sectBuf = d.sectBuf := rfl
@[simp] theorem Dev.send_hubs (d : Dev) (m : OutMsg) : (d.send m).hubs = d.hubs := rfl
@[simp] theorem Dev.send_quire (d : Dev) (m : OutMsg) : (d.send m).quire = d.quire := rfl
@[simp] theorem Dev.send_check (d : Dev) (m : OutMsg) : (d.send m).check = d.check := rfl
@[simp] theorem Dev.send_scratch (d : Dev) (m : OutMsg) : (d.send m).scratch = d.scratch := rfl
@[simp] theorem Dev.send_xlCache (d : Dev) (m : OutMsg) : (d.send m).xlCache = d.xlCache := rfl
@[simp] theorem Dev.send_xlDropping (d : Dev) (m : OutMsg) : (d.send m).xlDropping = d.xlDropping := rfl
@[simp] theorem Dev.send_notes (d : Dev) (m : OutMsg) : (d.send m).notes = d.notes := rfl
@[simp] theorem Dev.send_links (d : Dev) (m : OutMsg) : (d.send m).links = d.links := rfl
@[simp] theorem Dev.send_gander (d : Dev) (m : OutMsg) : (d.send m).gander = d.gander := rfl
@[simp] theorem Dev.send_power (d : Dev) (m : OutMsg) : (d.send m).power = d.power := rfl
@[simp] theorem Dev.send_sec (d : Dev) (m : OutMsg) : (d.send m).sec = d.sec := rfl
@[simp] theorem Dev.send_retain (d : Dev) (m : OutMsg) : (d.send m).retain = d.retain := rfl
@[simp] theorem Dev.send_ledger (d : Dev) (m : OutMsg) : (d.send m).ledger = d.ledger := rfl
@[simp] theorem Dev.send_ledgerMismatches (d : Dev) (m : OutMsg) : (d.send m).ledgerMismatches = d.ledgerMismatches := rfl
@[simp] theorem Dev.send_events (d : Dev) (m : OutMsg) : (d.send m).events = d.events := rfl
@[simp] theorem Dev.send_pins (d : Dev) (m : OutMsg) : (d.send m).pins = d.pins := rfl
@[simp] theorem Dev.send_dev (d : Dev) (m : OutMsg) : (d.send m).dev = d.dev := rfl
@[simp] theorem Dev.send_csr (d : Dev) (m : OutMsg) : (d.send m).csr = d.csr := rfl
@[simp] theorem Dev.send_halves (d : Dev) (m : OutMsg) : (d.send m).halves = d.halves := rfl
@[simp] theorem Dev.send_outbox (d : Dev) (m : OutMsg) : (d.send m).outbox = d.outbox ++ [m] := rfl
@[simp] theorem Dev.send_free (d : Dev) (m : OutMsg) : (d.send m).free = d.free := rfl

/-! ## Parts by number -/

@[simp] theorem TileRef.ix_lt (t : TileRef) : t.ix < 192 := by
  have := t.sector.isLt; have := t.tile.isLt; simp only [TileRef.ix]; omega

/-- Tiles are apart: their numbers tell them apart. -/
theorem TileRef.ix_inj {t u : TileRef} : t.ix = u.ix ↔ t = u := by
  constructor
  · intro h
    have h1 := t.tile.isLt; have h2 := u.tile.isLt
    simp only [TileRef.ix] at h
    obtain ⟨⟨a, ha⟩, ⟨b, hb⟩⟩ := t
    obtain ⟨⟨a', ha'⟩, ⟨b', hb'⟩⟩ := u
    simp only at h h1 h2
    obtain ⟨rfl, rfl⟩ : a = a' ∧ b = b' := by omega
    rfl
  · rintro rfl; rfl

@[simp] theorem Dev.tile_setTile (d : Dev) (t : TileRef) (x : Tile) : (d.setTile t x).tile t = x := Tab.look_put_self ..

theorem Dev.tile_setTile_ne (d : Dev) {t u : TileRef} (x : Tile) (h : u ≠ t) : (d.setTile t x).tile u = d.tile u := by
  simp [Dev.tile, Dev.setTile, Tab.look_put, TileRef.ix_inj, h]

@[simp] theorem Dev.sector_onSector (d : Dev) (n : Nat) (f : Sector → Sector) : (d.onSector n f).sector n = f (d.sector n) :=
  Tab.look_put_self ..

theorem Dev.sector_onSector_ne (d : Dev) {n m : Nat} (f : Sector → Sector) (h : m ≠ n) : (d.onSector n f).sector m = d.sector m := by
  simp [Dev.sector, Dev.onSector, Tab.look_alter, h]

@[simp] theorem Dev.hub_onHub (d : Dev) (n : Nat) (f : Hub → Hub) : (d.onHub n f).hub n = f (d.hub n) := Tab.look_put_self ..

theorem Dev.hub_onHub_ne (d : Dev) {n m : Nat} (f : Hub → Hub) (h : m ≠ n) : (d.onHub n f).hub m = d.hub m := by
  simp [Dev.hub, Dev.onHub, Tab.look_alter, h]

@[simp] theorem Dev.port_onPort (d : Dev) (p : Nat) (f : Port → Port) : (d.onPort p f).port p = f (d.port p) :=
  Tab.look_put_self ..

theorem Dev.port_onPort_ne (d : Dev) {p q : Nat} (f : Port → Port) (h : q ≠ p) : (d.onPort p f).port q = d.port q := by
  simp [Dev.port, Dev.onPort, Dev.onLinks, Tab.look_alter, h]

@[simp] theorem Dev.conn_onConn (d : Dev) (i : Nat) (f : Conn → Conn) : (d.onConn i f).conn i = f (d.conn i) :=
  Tab.look_put_self ..

theorem Dev.conn_onConn_ne (d : Dev) {i j : Nat} (f : Conn → Conn) (h : j ≠ i) : (d.onConn i f).conn j = d.conn j := by
  simp [Dev.conn, Dev.onConn, Dev.onLinks, Tab.look_alter, h]

/-! ## A core goes on, traps and returns -/

@[simp] theorem Tile.withRegs_regs (x : Tile) (r : CoreRegs) : (x.withRegs r).regs = r := rfl
@[simp] theorem Tile.withRegs_pc (x : Tile) (r : CoreRegs) : (x.withRegs r).pc = x.pc := rfl
@[simp] theorem Tile.withRegs_past (x : Tile) (r : CoreRegs) : (x.withRegs r).past = x.past := rfl
@[simp] theorem Tile.withRegs_run (x : Tile) (r : CoreRegs) : (x.withRegs r).run = x.run := rfl
@[simp] theorem Tile.withRegs_late (x : Tile) (r : CoreRegs) : (x.withRegs r).late = x.late := rfl
@[simp] theorem Tile.withRegs_repeating (x : Tile) (r : CoreRegs) : (x.withRegs r).repeating = x.repeating := rfl
@[simp] theorem Tile.withRegs_inTrap (x : Tile) (r : CoreRegs) : (x.withRegs r).inTrap = x.inTrap := rfl
@[simp] theorem Tile.withRegs_ctx (x : Tile) (r : CoreRegs) : (x.withRegs r).ctx = x.ctx := rfl
@[simp] theorem Tile.withRegs_trapEn (x : Tile) (r : CoreRegs) : (x.withRegs r).trapEn = x.trapEn := rfl
@[simp] theorem Tile.withRegs_vecOffset (x : Tile) (r : CoreRegs) : (x.withRegs r).vecOffset = x.vecOffset := rfl
@[simp] theorem Tile.withRegs_vecValid (x : Tile) (r : CoreRegs) : (x.withRegs r).vecValid = x.vecValid := rfl
@[simp] theorem Tile.withRegs_trapPc (x : Tile) (r : CoreRegs) : (x.withRegs r).trapPc = x.trapPc := rfl
@[simp] theorem Tile.withRegs_cause (x : Tile) (r : CoreRegs) : (x.withRegs r).cause = x.cause := rfl
@[simp] theorem Tile.withRegs_info (x : Tile) (r : CoreRegs) : (x.withRegs r).info = x.info := rfl
@[simp] theorem Tile.withRegs_sticky (x : Tile) (r : CoreRegs) : (x.withRegs r).sticky = x.sticky := rfl
@[simp] theorem Tile.withRegs_bracket (x : Tile) (r : CoreRegs) : (x.withRegs r).bracket = x.bracket := rfl
@[simp] theorem Tile.withRegs_queues (x : Tile) (r : CoreRegs) : (x.withRegs r).queues = x.queues := rfl
@[simp] theorem Tile.withRegs_outstanding (x : Tile) (r : CoreRegs) : (x.withRegs r).outstanding = x.outstanding := rfl
@[simp] theorem Tile.withRegs_sb0 (x : Tile) (r : CoreRegs) : (x.withRegs r).sb0 = x.sb0 := rfl
@[simp] theorem Tile.withRegs_sb1 (x : Tile) (r : CoreRegs) : (x.withRegs r).sb1 = x.sb1 := rfl
@[simp] theorem Tile.withRegs_rec0 (x : Tile) (r : CoreRegs) : (x.withRegs r).rec0 = x.rec0 := rfl
@[simp] theorem Tile.withRegs_rec1 (x : Tile) (r : CoreRegs) : (x.withRegs r).rec1 = x.rec1 := rfl
@[simp] theorem Tile.withRegs_opens (x : Tile) (r : CoreRegs) : (x.withRegs r).opens = x.opens := rfl
@[simp] theorem Tile.withRegs_cur (x : Tile) (r : CoreRegs) : (x.withRegs r).cur = x.cur := rfl
@[simp] theorem Tile.withRegs_skip (x : Tile) (r : CoreRegs) : (x.withRegs r).skip = x.skip := rfl
@[simp] theorem Tile.withRegs_waiting (x : Tile) (r : CoreRegs) : (x.withRegs r).waiting = x.waiting := rfl
@[simp] theorem Tile.withRegs_stall (x : Tile) (r : CoreRegs) : (x.withRegs r).stall = x.stall := rfl
@[simp] theorem Tile.withRegs_rowsUsed (x : Tile) (r : CoreRegs) : (x.withRegs r).rowsUsed = x.rowsUsed := rfl
@[simp] theorem Tile.withRegs_colsUsed (x : Tile) (r : CoreRegs) : (x.withRegs r).colsUsed = x.colsUsed := rfl
@[simp] theorem Tile.withRegs_spared (x : Tile) (r : CoreRegs) : (x.withRegs r).spared = x.spared := rfl
@[simp] theorem Tile.onward_regs (x : Tile) (n : Nat) : (x.onward n).regs = x.regs := rfl
@[simp] theorem Tile.onward_run (x : Tile) (n : Nat) : (x.onward n).run = x.run := rfl
@[simp] theorem Tile.onward_late (x : Tile) (n : Nat) : (x.onward n).late = x.late := rfl
@[simp] theorem Tile.onward_repeating (x : Tile) (n : Nat) : (x.onward n).repeating = x.repeating := rfl
@[simp] theorem Tile.onward_inTrap (x : Tile) (n : Nat) : (x.onward n).inTrap = x.inTrap := rfl
@[simp] theorem Tile.onward_ctx (x : Tile) (n : Nat) : (x.onward n).ctx = x.ctx := rfl
@[simp] theorem Tile.onward_trapEn (x : Tile) (n : Nat) : (x.onward n).trapEn = x.trapEn := rfl
@[simp] theorem Tile.onward_vecOffset (x : Tile) (n : Nat) : (x.onward n).vecOffset = x.vecOffset := rfl
@[simp] theorem Tile.onward_vecValid (x : Tile) (n : Nat) : (x.onward n).vecValid = x.vecValid := rfl
@[simp] theorem Tile.onward_trapPc (x : Tile) (n : Nat) : (x.onward n).trapPc = x.trapPc := rfl
@[simp] theorem Tile.onward_cause (x : Tile) (n : Nat) : (x.onward n).cause = x.cause := rfl
@[simp] theorem Tile.onward_info (x : Tile) (n : Nat) : (x.onward n).info = x.info := rfl
@[simp] theorem Tile.onward_sticky (x : Tile) (n : Nat) : (x.onward n).sticky = x.sticky := rfl
@[simp] theorem Tile.onward_bracket (x : Tile) (n : Nat) : (x.onward n).bracket = x.bracket := rfl
@[simp] theorem Tile.onward_queues (x : Tile) (n : Nat) : (x.onward n).queues = x.queues := rfl
@[simp] theorem Tile.onward_outstanding (x : Tile) (n : Nat) : (x.onward n).outstanding = x.outstanding := rfl
@[simp] theorem Tile.onward_sb0 (x : Tile) (n : Nat) : (x.onward n).sb0 = x.sb0 := rfl
@[simp] theorem Tile.onward_sb1 (x : Tile) (n : Nat) : (x.onward n).sb1 = x.sb1 := rfl
@[simp] theorem Tile.onward_rec0 (x : Tile) (n : Nat) : (x.onward n).rec0 = x.rec0 := rfl
@[simp] theorem Tile.onward_rec1 (x : Tile) (n : Nat) : (x.onward n).rec1 = x.rec1 := rfl
@[simp] theorem Tile.onward_opens (x : Tile) (n : Nat) : (x.onward n).opens = x.opens := rfl
@[simp] theorem Tile.onward_cur (x : Tile) (n : Nat) : (x.onward n).cur = x.cur := rfl
@[simp] theorem Tile.onward_skip (x : Tile) (n : Nat) : (x.onward n).skip = x.skip := rfl
@[simp] theorem Tile.onward_waiting (x : Tile) (n : Nat) : (x.onward n).waiting = x.waiting := rfl
@[simp] theorem Tile.onward_stall (x : Tile) (n : Nat) : (x.onward n).stall = x.stall := rfl
@[simp] theorem Tile.onward_rowsUsed (x : Tile) (n : Nat) : (x.onward n).rowsUsed = x.rowsUsed := rfl
@[simp] theorem Tile.onward_colsUsed (x : Tile) (n : Nat) : (x.onward n).colsUsed = x.colsUsed := rfl
@[simp] theorem Tile.onward_spared (x : Tile) (n : Nat) : (x.onward n).spared = x.spared := rfl
@[simp] theorem Tile.enterTrap_regs (x : Tile) (c : Nat) (i : W64) : (x.enterTrap c i).regs = x.regs := rfl
@[simp] theorem Tile.enterTrap_pc (x : Tile) (c : Nat) (i : W64) : (x.enterTrap c i).pc = x.vecOffset ++ 0#2 := rfl
@[simp] theorem Tile.enterTrap_past (x : Tile) (c : Nat) (i : W64) : (x.enterTrap c i).past = false := rfl
@[simp] theorem Tile.enterTrap_run (x : Tile) (c : Nat) (i : W64) : (x.enterTrap c i).run = x.run := rfl
@[simp] theorem Tile.enterTrap_late (x : Tile) (c : Nat) (i : W64) : (x.enterTrap c i).late = x.late := rfl
@[simp] theorem Tile.enterTrap_repeating (x : Tile) (c : Nat) (i : W64) : (x.enterTrap c i).repeating = x.repeating := rfl
@[simp] theorem Tile.enterTrap_inTrap (x : Tile) (c : Nat) (i : W64) : (x.enterTrap c i).inTrap = true := rfl
@[simp] theorem Tile.enterTrap_ctx (x : Tile) (c : Nat) (i : W64) : (x.enterTrap c i).ctx = x.ctx := rfl
@[simp] theorem Tile.enterTrap_trapEn (x : Tile) (c : Nat) (i : W64) : (x.enterTrap c i).trapEn = x.trapEn := rfl
@[simp] theorem Tile.enterTrap_vecOffset (x : Tile) (c : Nat) (i : W64) : (x.enterTrap c i).vecOffset = x.vecOffset := rfl
@[simp] theorem Tile.enterTrap_vecValid (x : Tile) (c : Nat) (i : W64) : (x.enterTrap c i).vecValid = x.vecValid := rfl
@[simp] theorem Tile.enterTrap_trapPc (x : Tile) (c : Nat) (i : W64) : (x.enterTrap c i).trapPc = x.pc &&& 0xFFFC := rfl
@[simp] theorem Tile.enterTrap_cause (x : Tile) (c : Nat) (i : W64) : (x.enterTrap c i).cause = BitVec.ofNat 8 c := rfl
@[simp] theorem Tile.enterTrap_info (x : Tile) (c : Nat) (i : W64) : (x.enterTrap c i).info = i := rfl
@[simp] theorem Tile.enterTrap_sticky (x : Tile) (c : Nat) (i : W64) : (x.enterTrap c i).sticky = x.sticky := rfl
@[simp] theorem Tile.enterTrap_bracket (x : Tile) (c : Nat) (i : W64) : (x.enterTrap c i).bracket = x.bracket := rfl
@[simp] theorem Tile.enterTrap_queues (x : Tile) (c : Nat) (i : W64) : (x.enterTrap c i).queues = x.queues := rfl
@[simp] theorem Tile.enterTrap_outstanding (x : Tile) (c : Nat) (i : W64) : (x.enterTrap c i).outstanding = x.outstanding := rfl
@[simp] theorem Tile.enterTrap_sb0 (x : Tile) (c : Nat) (i : W64) : (x.enterTrap c i).sb0 = x.sb0 := rfl
@[simp] theorem Tile.enterTrap_sb1 (x : Tile) (c : Nat) (i : W64) : (x.enterTrap c i).sb1 = x.sb1 := rfl
@[simp] theorem Tile.enterTrap_rec0 (x : Tile) (c : Nat) (i : W64) : (x.enterTrap c i).rec0 = x.rec0 := rfl
@[simp] theorem Tile.enterTrap_rec1 (x : Tile) (c : Nat) (i : W64) : (x.enterTrap c i).rec1 = x.rec1 := rfl
@[simp] theorem Tile.enterTrap_opens (x : Tile) (c : Nat) (i : W64) : (x.enterTrap c i).opens = x.opens := rfl
@[simp] theorem Tile.enterTrap_cur (x : Tile) (c : Nat) (i : W64) : (x.enterTrap c i).cur = x.cur := rfl
@[simp] theorem Tile.enterTrap_skip (x : Tile) (c : Nat) (i : W64) : (x.enterTrap c i).skip = x.skip := rfl
@[simp] theorem Tile.enterTrap_waiting (x : Tile) (c : Nat) (i : W64) : (x.enterTrap c i).waiting = x.waiting := rfl
@[simp] theorem Tile.enterTrap_stall (x : Tile) (c : Nat) (i : W64) : (x.enterTrap c i).stall = x.stall := rfl
@[simp] theorem Tile.enterTrap_rowsUsed (x : Tile) (c : Nat) (i : W64) : (x.enterTrap c i).rowsUsed = x.rowsUsed := rfl
@[simp] theorem Tile.enterTrap_colsUsed (x : Tile) (c : Nat) (i : W64) : (x.enterTrap c i).colsUsed = x.colsUsed := rfl
@[simp] theorem Tile.enterTrap_spared (x : Tile) (c : Nat) (i : W64) : (x.enterTrap c i).spared = x.spared := rfl
@[simp] theorem Tile.leaveTrap_regs (x : Tile) : x.leaveTrap.regs = x.regs := rfl
@[simp] theorem Tile.leaveTrap_pc (x : Tile) : x.leaveTrap.pc = x.trapPc := rfl
@[simp] theorem Tile.leaveTrap_past (x : Tile) : x.leaveTrap.past = false := rfl
@[simp] theorem Tile.leaveTrap_run (x : Tile) : x.leaveTrap.run = x.run := rfl
@[simp] theorem Tile.leaveTrap_late (x : Tile) : x.leaveTrap.late = x.late := rfl
@[simp] theorem Tile.leaveTrap_repeating (x : Tile) : x.leaveTrap.repeating = x.repeating := rfl
@[simp] theorem Tile.leaveTrap_inTrap (x : Tile) : x.leaveTrap.inTrap = false := rfl
@[simp] theorem Tile.leaveTrap_ctx (x : Tile) : x.leaveTrap.ctx = x.ctx := rfl
@[simp] theorem Tile.leaveTrap_trapEn (x : Tile) : x.leaveTrap.trapEn = x.trapEn := rfl
@[simp] theorem Tile.leaveTrap_vecOffset (x : Tile) : x.leaveTrap.vecOffset = x.vecOffset := rfl
@[simp] theorem Tile.leaveTrap_vecValid (x : Tile) : x.leaveTrap.vecValid = x.vecValid := rfl
@[simp] theorem Tile.leaveTrap_trapPc (x : Tile) : x.leaveTrap.trapPc = x.trapPc := rfl
@[simp] theorem Tile.leaveTrap_cause (x : Tile) : x.leaveTrap.cause = x.cause := rfl
@[simp] theorem Tile.leaveTrap_info (x : Tile) : x.leaveTrap.info = x.info := rfl
@[simp] theorem Tile.leaveTrap_sticky (x : Tile) : x.leaveTrap.sticky = x.sticky := rfl
@[simp] theorem Tile.leaveTrap_bracket (x : Tile) : x.leaveTrap.bracket = x.bracket := rfl
@[simp] theorem Tile.leaveTrap_queues (x : Tile) : x.leaveTrap.queues = x.queues := rfl
@[simp] theorem Tile.leaveTrap_outstanding (x : Tile) : x.leaveTrap.outstanding = x.outstanding := rfl
@[simp] theorem Tile.leaveTrap_sb0 (x : Tile) : x.leaveTrap.sb0 = x.sb0 := rfl
@[simp] theorem Tile.leaveTrap_sb1 (x : Tile) : x.leaveTrap.sb1 = x.sb1 := rfl
@[simp] theorem Tile.leaveTrap_rec0 (x : Tile) : x.leaveTrap.rec0 = x.rec0 := rfl
@[simp] theorem Tile.leaveTrap_rec1 (x : Tile) : x.leaveTrap.rec1 = x.rec1 := rfl
@[simp] theorem Tile.leaveTrap_opens (x : Tile) : x.leaveTrap.opens = x.opens := rfl
@[simp] theorem Tile.leaveTrap_cur (x : Tile) : x.leaveTrap.cur = x.cur := rfl
@[simp] theorem Tile.leaveTrap_skip (x : Tile) : x.leaveTrap.skip = x.skip := rfl
@[simp] theorem Tile.leaveTrap_waiting (x : Tile) : x.leaveTrap.waiting = x.waiting := rfl
@[simp] theorem Tile.leaveTrap_stall (x : Tile) : x.leaveTrap.stall = x.stall := rfl
@[simp] theorem Tile.leaveTrap_rowsUsed (x : Tile) : x.leaveTrap.rowsUsed = x.rowsUsed := rfl
@[simp] theorem Tile.leaveTrap_colsUsed (x : Tile) : x.leaveTrap.colsUsed = x.colsUsed := rfl
@[simp] theorem Tile.leaveTrap_spared (x : Tile) : x.leaveTrap.spared = x.spared := rfl

/-! ## Register files (R70 to R72) -/

theorem get_set {α : Type} {n : Nat} (v : Vector α n) {i j : Nat} (hi : i < n) (hj : j < n) (x : α) :
    (v.set i x hi).get ⟨j, hj⟩ = if i = j then x else v.get ⟨j, hj⟩ := Vector.getElem_set hi hj


@[simp] theorem CoreRegs.rg_zero (r : CoreRegs) : r.rg 0 = 0 := rfl
@[simp] theorem CoreRegs.rp_zero (r : CoreRegs) : r.rp 0 = true := rfl
@[simp] theorem CoreRegs.wg_zero (r : CoreRegs) (v : W64) : r.wg 0 v = r := rfl
@[simp] theorem CoreRegs.wp_zero (r : CoreRegs) (v : Bool) : r.wp 0 v = r := rfl

theorem CoreRegs.rg_wg (r : CoreRegs) (i j : BitVec 5) (v : W64) :
    (r.wg i v).rg j = if j = i ∧ i ≠ 0 then v else r.rg j := by
  by_cases hi : i = 0
  · rw [hi, CoreRegs.wg_zero, if_neg (by simp)]
  · simp only [CoreRegs.wg, hi, if_false, CoreRegs.rg, ne_eq, not_false_eq_true, and_true, get_set, BitVec.toNat_inj]
    by_cases hj : i = j
    · subst hj; simp only [hi, if_false, if_true]
    · simp [hj, Ne.symm hj]

theorem CoreRegs.rp_wp (r : CoreRegs) (i j : BitVec 3) (v : Bool) :
    (r.wp i v).rp j = if j = i ∧ i ≠ 0 then v else r.rp j := by
  by_cases hi : i = 0
  · rw [hi, CoreRegs.wp_zero, if_neg (by simp)]
  · simp only [CoreRegs.wp, hi, if_false, CoreRegs.rp, ne_eq, not_false_eq_true, and_true, get_set, BitVec.toNat_inj]
    by_cases hj : i = j
    · subst hj; simp only [hi, if_false, if_true]
    · simp [hj, Ne.symm hj]

theorem CoreRegs.rs_ws (r : CoreRegs) (i j : BitVec 3) (v : Summary) : (r.ws i v).rs j = if j = i then v else r.rs j := by
  simp only [CoreRegs.ws, CoreRegs.rs, get_set, BitVec.toNat_inj, eq_comm (a := i)]

theorem CoreRegs.rd_wd (r : CoreRegs) (i j : BitVec 5) (v : BitVec 256) : (r.wd i v).rd j = if j = i then v else r.rd j := by
  simp only [CoreRegs.wd, CoreRegs.rd, get_set, BitVec.toNat_inj, eq_comm (a := i)]

theorem CoreRegs.rt_wt (r : CoreRegs) (i j : BitVec 6) (v : TokenReg) : (r.wt i v).rt j = if j = i then v else r.rt j := by
  simp only [CoreRegs.wt, CoreRegs.rt, get_set, BitVec.toNat_inj, eq_comm (a := i)]

@[simp] theorem CoreRegs.wg_p (r : CoreRegs) (i : BitVec 5) (v : W64) : (r.wg i v).p = r.p := by unfold CoreRegs.wg; split <;> rfl
@[simp] theorem CoreRegs.wg_s (r : CoreRegs) (i : BitVec 5) (v : W64) : (r.wg i v).s = r.s := by unfold CoreRegs.wg; split <;> rfl
@[simp] theorem CoreRegs.wg_d (r : CoreRegs) (i : BitVec 5) (v : W64) : (r.wg i v).d = r.d := by unfold CoreRegs.wg; split <;> rfl
@[simp] theorem CoreRegs.wg_t (r : CoreRegs) (i : BitVec 5) (v : W64) : (r.wg i v).t = r.t := by unfold CoreRegs.wg; split <;> rfl
@[simp] theorem CoreRegs.wp_g (r : CoreRegs) (i : BitVec 3) (v : Bool) : (r.wp i v).g = r.g := by unfold CoreRegs.wp; split <;> rfl
@[simp] theorem CoreRegs.wp_s (r : CoreRegs) (i : BitVec 3) (v : Bool) : (r.wp i v).s = r.s := by unfold CoreRegs.wp; split <;> rfl
@[simp] theorem CoreRegs.wp_d (r : CoreRegs) (i : BitVec 3) (v : Bool) : (r.wp i v).d = r.d := by unfold CoreRegs.wp; split <;> rfl
@[simp] theorem CoreRegs.wp_t (r : CoreRegs) (i : BitVec 3) (v : Bool) : (r.wp i v).t = r.t := by unfold CoreRegs.wp; split <;> rfl
@[simp] theorem CoreRegs.ws_g (r : CoreRegs) (i : BitVec 3) (v : Summary) : (r.ws i v).g = r.g := rfl
@[simp] theorem CoreRegs.ws_p (r : CoreRegs) (i : BitVec 3) (v : Summary) : (r.ws i v).p = r.p := rfl
@[simp] theorem CoreRegs.ws_d (r : CoreRegs) (i : BitVec 3) (v : Summary) : (r.ws i v).d = r.d := rfl
@[simp] theorem CoreRegs.ws_t (r : CoreRegs) (i : BitVec 3) (v : Summary) : (r.ws i v).t = r.t := rfl
@[simp] theorem CoreRegs.wd_g (r : CoreRegs) (i : BitVec 5) (v : BitVec 256) : (r.wd i v).g = r.g := rfl
@[simp] theorem CoreRegs.wd_p (r : CoreRegs) (i : BitVec 5) (v : BitVec 256) : (r.wd i v).p = r.p := rfl
@[simp] theorem CoreRegs.wd_s (r : CoreRegs) (i : BitVec 5) (v : BitVec 256) : (r.wd i v).s = r.s := rfl
@[simp] theorem CoreRegs.wd_t (r : CoreRegs) (i : BitVec 5) (v : BitVec 256) : (r.wd i v).t = r.t := rfl
@[simp] theorem CoreRegs.wt_g (r : CoreRegs) (i : BitVec 6) (v : TokenReg) : (r.wt i v).g = r.g := rfl
@[simp] theorem CoreRegs.wt_p (r : CoreRegs) (i : BitVec 6) (v : TokenReg) : (r.wt i v).p = r.p := rfl
@[simp] theorem CoreRegs.wt_s (r : CoreRegs) (i : BitVec 6) (v : TokenReg) : (r.wt i v).s = r.s := rfl
@[simp] theorem CoreRegs.wt_d (r : CoreRegs) (i : BitVec 6) (v : TokenReg) : (r.wt i v).d = r.d := rfl

end Sys2Proof.Machine
end

