-- ==== Sys2Proof/Laws/Ops.lean ====
section
/-!
SUPPORT. Sys2Proof/Laws/Ops.lean: what each shared operation can do, said once: lifting to the state, a fetch, a trap, a register of
the CSR file, an event, a ledger transition, a free value, stores to tile memory.
-/

namespace Sys2Proof.Machine

open Sys2Proof

/-! ## Lifting to the state -/

/-- A command on the device answers a next state, in which the device alone has changed. -/
theorem State.onDev_next (s : State) (f : Dev → Dev) : s.onDev f = .next (s.withDev (f s.dev)) := rfl

/-- A command on device and fuses answers a next state with the queue untouched. -/
theorem State.onAll_next (s : State) (f : Fuses → Dev → Fuses × Dev) :
    s.onAll f = .next { s with fuse := (f s.fuse s.dev).1, dev := (f s.fuse s.dev).2 } := rfl

theorem step_idle (s : State) (h : s.pending = []) : step s = .next s := by simp [step, h]

theorem step_front (s : State) (c : Instr) (rest : List Instr) (h : s.pending = c :: rest) :
    step s = exec c { s with pending := rest } := by simp [step, h]

/-! ## A core meets an instruction -/

theorem Dev.runInstr_word {d : Dev} {t : TileRef} {w : CtisWord} (h : d.fetch t = .word w) (f : Dev → Dev) :
    d.runInstr t w f = f d := by simp [Dev.runInstr, h]

theorem Dev.runInstr_other {d : Dev} {t : TileRef} {v w : CtisWord} (h : d.fetch t = .word v) (hne : v ≠ w) (f : Dev → Dev) :
    d.runInstr t w f = d := by simp [Dev.runInstr, h, hne]

theorem Dev.runInstr_cause {d : Dev} {t : TileRef} {w : CtisWord} {c : Nat} {i : W64} (h : d.fetch t = .cause c i)
    (f : Dev → Dev) : d.runInstr t w f = d.trap t c i := by simp [Dev.runInstr, h]

/-- All that an instruction's arrival at a core can lead to. -/
theorem Dev.runInstr_cases (d : Dev) (t : TileRef) (w : CtisWord) (f : Dev → Dev) :
    d.runInstr t w f = d ∨ (∃ c i, d.fetch t = .cause c i ∧ d.runInstr t w f = d.trap t c i) ∨
      (d.fetch t = .word w ∧ d.runInstr t w f = f d) := by
  unfold Dev.runInstr
  cases h : d.fetch t with
  | idle => exact .inl rfl
  | stalled => exact .inl rfl
  | cause c i => exact .inr (.inl ⟨c, i, rfl, rfl⟩)
  | word v =>
    by_cases hv : v = w
    · subst hv; simp
    · simp [hv]

/-- The next place of an instruction of at most 16 bytes. -/
theorem Tile.skip4_onward (x : Tile) (n : Nat) (hn : n ≤ 16) : x.skip4 n = x.onward n := by
  have := x.pc.isLt
  have h2 : (x.pc.toNat + n) % 18446744073709551616 = x.pc.toNat + n := by omega
  simp only [Tile.skip4, Tile.goto, Tile.onward, BitVec.toNat_ofNat]
  congr 1
  · apply BitVec.eq_of_toNat_eq; simp
  · simp [h2]

/-! ## Traps (R108, R109) -/

theorem Dev.trap_enters (d : Dev) (t : TileRef) (c : Nat) (i : W64) (h1 : (d.tile t).inTrap = false)
    (h2 : (d.tile t).vecValid = true) : d.trap t c i = d.setTile t ((d.tile t).enterTrap c i) := by
  simp [Dev.trap, h1, h2]

theorem Dev.trap_nested (d : Dev) (t : TileRef) (c : Nat) (i : W64) (h : (d.tile t).inTrap = true) :
    d.trap t c i = d.haltTile t cDouble i := by simp [Dev.trap, h]

theorem Dev.trap_unhandled (d : Dev) (t : TileRef) (c : Nat) (i : W64) (h1 : (d.tile t).inTrap = false)
    (h2 : (d.tile t).vecValid = false) : d.trap t c i = d.haltTile t c i := by simp [Dev.trap, h1, h2]

/-! ## The CSR file -/

theorem Dev.reg_setReg (d : Dev) (l : CsrLoc) (v : W32) (h : l.desc.isSome = true) : (d.setReg l v).reg l = v := by
  obtain ⟨r, hr⟩ := Option.isSome_iff_exists.1 h
  simp [Dev.reg, Dev.setReg, hr]

/-- A write to the CSR file changes nothing but the file. -/
theorem Dev.setReg_frame (d : Dev) (l : CsrLoc) (v : W32) : d.setReg l v = { d with csr := (d.setReg l v).csr } := by
  unfold Dev.setReg; split <;> rfl

theorem Dev.count_frame (d : Dev) (l : CsrLoc) (lo w n : Nat) : d.count l lo w n = { d with csr := (d.count l lo w n).csr } :=
  Dev.setReg_frame ..

/-! ## Events (R546 to R549) -/

theorem Dev.raise_masked (d : Dev) (c : Nat) (i : EventInfo) (h : d.bit (At.dev 0x124) c = true) : d.raise c i = d := by
  simp [Dev.raise, h]

theorem Events.add_room (e : Events) (r : EventRec) (h : e.held.length < 4096) :
    (e.add r).2 = false ∧ (e.add r).1.held = e.held ++ [r] ∧ (e.add r).1.nextSeq = e.nextSeq + 1 := by
  simp [Events.add, h]

theorem Events.add_full (e : Events) (r : EventRec) (h : ¬ e.held.length < 4096) :
    (e.add r).2 = true ∧ (e.add r).1.held = e.held ∧ (e.add r).1.nextSeq = e.nextSeq + 1 ∧
      (e.add r).1.lostCount = e.lostCount + 1 := by
  simp [Events.add, h]

/-- An event touches the event records and, where it is dropped, the CSR file's count of it; nothing else. -/
theorem Dev.raise_frame (d : Dev) (c : Nat) (i : EventInfo) :
    d.raise c i = { d with events := (d.raise c i).events, csr := (d.raise c i).csr } := by
  unfold Dev.raise
  split
  · rfl
  · dsimp only
    split
    · rw [Dev.count_frame]
    · rfl

/-! ## The ledger (R535 to R538) -/

@[simp] theorem Dev.entry_setEntry (v : Variant) (d : Dev) (u : BitVec 16) (e : LedgerEntry) :
    (d.setEntry v u e).entry v u = e := Tab.look_put_self ..

theorem Dev.moveUnit_refused (v : Variant) (d : Dev) (u : BitVec 16) (st : BitVec 4)
    (h : ledgerMoves (d.entry v u).state st = false) : d.moveUnit v u st = d := by simp [Dev.moveUnit, h]

/-- A unit moves only along a transition of R537. -/
theorem Dev.moveUnit_state (v : Variant) (d : Dev) (u : BitVec 16) (st : BitVec 4)
    (h : ledgerMoves (d.entry v u).state st = true) : ((d.moveUnit v u st).entry v u).state = st := by
  have key : ∀ (e : LedgerEntry) (c : Nat) (i : EventInfo),
      ((d.setEntry v u e).raise c i).entry v u = e := by
    intro e c i
    rw [Dev.raise_frame]
    exact Dev.entry_setEntry v d u e
  simp only [Dev.moveUnit, h, if_true]
  split
  · rw [key]
  · rw [Dev.entry_setEntry]

/-! ## Free values -/

/-- Drawing a free value moves only the count of them. -/
@[simp] theorem Dev.draw_dev (d : Dev) : d.draw.2 = { d with free := d.free + 1 } := rfl
@[simp] theorem Dev.draw_value (d : Dev) : d.draw.1 = Config.freeWord d.free := rfl
@[simp] theorem Dev.drawBytes_dev (d : Dev) (n : Nat) : (d.drawBytes n).2 = { d with free := d.free + n } := rfl
@[simp] theorem Dev.drawBytes_length (d : Dev) (n : Nat) : (d.drawBytes n).1.length = n := by simp [Dev.drawBytes]

end Sys2Proof.Machine
end

