-- ==== Sys2Proof/Laws/Memory.lean ====
section
/-!
SUPPORT. Sys2Proof/Laws/Memory.lean: sets of lines, tile memory, the sector buffer and stack lines: what a store writes, what stands,
and that every memory keeps its canonical form.
-/

namespace Sys2Proof.Machine

open Sys2Proof

/-! ## Sets of lines -/

theorem LineSet.has_add (s : LineSet) (k j : Nat) : (s.add k).has j = (decide (j = k) || s.has j) := by
  unfold LineSet.add LineSet.has
  cases h : s.all
  · by_cases hc : s.except.contains k
    · by_cases hj : j = k
      · subst hj; simp_all
      · simp_all
    · by_cases hj : j = k
      · subst hj; simp_all
      · simp_all
  · by_cases hj : j = k
    · subst hj; simp
    · simp [hj]

theorem LineSet.has_del (s : LineSet) (k j : Nat) : (s.del k).has j = (!decide (j = k) && s.has j) := by
  unfold LineSet.del LineSet.has
  cases h : s.all
  · by_cases hj : j = k
    · subst hj; simp
    · simp [hj]
  · by_cases hc : s.except.contains k
    · by_cases hj : j = k
      · subst hj; simp_all
      · simp_all
    · by_cases hj : j = k
      · subst hj; simp_all
      · simp_all

/-! ## Tile memory (R552) -/

/-- A write that succeeds changes the bytes written and no other byte of any tile. -/
theorem Dev.tileWrite_byte (d : Dev) (t u : TileRef) (a b : Nat) (bytes : List W8) (h : (d.tileWrite t a bytes).st = 0) :
    (d.tileWrite t a bytes).d.tileByte u b =
      if t.ix * tileMemSize + a ≤ u.ix * tileMemSize + b ∧ u.ix * tileMemSize + b < t.ix * tileMemSize + a + bytes.length then
        bytes.getD (u.ix * tileMemSize + b - (t.ix * tileMemSize + a)) 0
      else d.tileByte u b := by
  unfold Dev.tileWrite at h ⊢
  unfold Dev.tileByte
  split
  · exact Mem.store_byte ..
  · rename_i h1
    rw [if_neg h1] at h
    split
    · rename_i h2
      rw [if_pos h2] at h
      exact absurd h (by show (sEcc : W8) ≠ 0; decide)
    · exact Mem.store_byte ..

/-- A write that fails changes nothing. -/
theorem Dev.tileWrite_failed (d : Dev) (t : TileRef) (a : Nat) (bytes : List W8) (h : (d.tileWrite t a bytes).st ≠ 0) :
    (d.tileWrite t a bytes).d = d := by
  unfold Dev.tileWrite at h ⊢
  split
  · rename_i h1; rw [if_pos h1] at h; exact absurd rfl h
  · rename_i h1
    rw [if_neg h1] at h
    split
    · rfl
    · rename_i h2; rw [if_neg h2] at h; exact absurd rfl h

theorem Dev.tileWrite_wf (d : Dev) (t : TileRef) (a : Nat) (bytes : List W8) (h : d.tileMem.wf = true) :
    (d.tileWrite t a bytes).d.tileMem.wf = true := by
  unfold Dev.tileWrite
  split
  · exact Mem.store_wf _ _ _ h
  · split
    · exact h
    · exact Mem.store_wf _ _ _ h

/-- A poisoned line fails every read of it. -/
theorem Dev.tileRead_poisoned (d : Dev) (t : TileRef) (a len : Nat) :
    ((d.tilePoison t (a / 64)).tileRead t a len).st = sEcc := by
  simp [Dev.tileRead, Dev.tilePoison, Dev.tileLineBad, Tab.look_alter, LineSet.has_add]

/-! ## The sector buffer and stack lines -/

theorem Dev.bufWrite_wf (d : Dev) (n a : Nat) (bytes : List W8) (h : d.sectBuf.wf = true) :
    (d.bufWrite n a bytes).d.sectBuf.wf = true := by
  unfold Dev.bufWrite
  split
  · exact Mem.store_wf _ _ _ h
  · split
    · exact h
    · exact Mem.store_wf _ _ _ h

theorem Dev.storeRaw_wf (d : Dev) (n line : Nat) (data chk : List W8) (h : d.quire.wf = true ∧ d.check.wf = true) :
    (d.storeRaw n line data chk).quire.wf = true ∧ (d.storeRaw n line data chk).check.wf = true :=
  ⟨Mem.store_wf _ _ _ h.1, Mem.store_wf _ _ _ h.2⟩

/-- What a line was stored with is what it holds. -/
theorem Dev.storeRaw_data (d : Dev) (n line : Nat) (data chk : List W8) (h : data.length = 64) :
    (d.storeRaw n line data chk).storedData n line = data := by
  have := Mem.read_store d.quire (lineAddr n line) data
  rw [h] at this
  exact this

theorem Dev.count_scratch (d : Dev) (l : CsrLoc) (lo w n : Nat) : (d.count l lo w n).scratch = d.scratch := by
  rw [Dev.count_frame]

/-! ## At reset -/

theorem reset_memories_wf :
    State.reset.dev.tileMem.wf = true ∧ State.reset.dev.sectBuf.wf = true ∧ State.reset.dev.quire.wf = true ∧
      State.reset.dev.check.wf = true ∧ State.reset.dev.scratch.wf = true ∧ State.reset.dev.imem.wf = true ∧
      State.reset.dev.acc.wf = true := by decide

/-! ## Values that the manual leaves open -/

/-- Freeing a range keeps the canonical form. -/
theorem Mem.freed_wf (m : Mem) (a n f : Nat) (h : m.wf = true) : (Mem.freed m a n f).wf = true := by
  simp only [Mem.wf, Tab.wf_iff] at h ⊢
  obtain ⟨h1, h2⟩ := h
  simp only [Tab.rising] at h1 ⊢
  rw [List.pairwise_map] at h1 ⊢
  have key : ∀ e ∈ (List.range n).filterMap (fun i =>
      let b : W8 := (Config.freeWord (f + i)).setWidth 8
      if b = 0 then none else some (a + i, b)), a ≤ e.1 ∧ e.1 < a + n ∧ e.2 ≠ 0 := by
    intro e he
    simp only [List.mem_filterMap, List.mem_range] at he
    obtain ⟨i, hi, he⟩ := he
    split at he
    · cases he
    · rename_i hb
      cases he
      exact ⟨by simp, by simpa using hi, hb⟩
  refine ⟨?_, ?_⟩
  · rw [Mem.freed, List.pairwise_append, List.pairwise_append]
    refine ⟨⟨h1.filter _, ?_, ?_⟩, h1.filter _, ?_⟩
    · rw [List.pairwise_filterMap]
      refine List.pairwise_lt_range.imp ?_
      intro i j hij x hx y hy
      simp only [Option.ite_none_left_eq_some] at hx hy
      rw [← (Option.some.inj hx.2), ← (Option.some.inj hy.2)]
      simpa using hij
    · intro x hx y hy
      have := (key y hy).1
      simp only [List.mem_filter, decide_eq_true_eq] at hx
      omega
    · intro x hx y hy
      simp only [List.mem_filter, decide_eq_true_eq] at hy
      rcases List.mem_append.1 hx with hx | hx
      · simp only [List.mem_filter, decide_eq_true_eq] at hx
        omega
      · have := key x hx
        omega
  · intro e he
    rw [Mem.freed, List.mem_append, List.mem_append] at he
    rcases he with (he | he) | he
    · exact h2 e (List.mem_filter.1 he).1
    · exact (key e he).2.2
    · exact h2 e (List.mem_filter.1 he).1

/-- A span whose bytes are freed leaves every memory in its canonical form. -/
theorem Dev.blur_wf (d : Dev) (t : TileRef) (s : Span) (h : d.tileMem.wf = true ∧ d.sectBuf.wf = true ∧ d.acc.wf = true) :
    (d.blur t s).tileMem.wf = true ∧ (d.blur t s).sectBuf.wf = true ∧ (d.blur t s).acc.wf = true := by
  obtain ⟨h1, h2, h3⟩ := h
  unfold Dev.blur
  split <;> exact ⟨by first | exact h1 | exact Mem.freed_wf _ _ _ _ h1, by first | exact h2 | exact Mem.freed_wf _ _ _ _ h2,
    by first | exact h3 | exact Mem.freed_wf _ _ _ _ h3⟩
end Sys2Proof.Machine
end

