-- ==== Sys2Proof/WellFormed.lean ====
section
/-!
DEFINITION. Sys2Proof/WellFormed.lean: which commands the spec's layouts admit: the counts, lengths and places that the types of
the operands leave open. A meaning is total and does not ask for it; a command that fails a check is one that no sender of
the spec makes.
-/

namespace Sys2Proof

/-- Readings of the 12 sectors (R459). -/
def Telemetry.ok (t : Telemetry) : Bool := decide (t.pd.length = 12)

/-- A request names bytes of one 64-byte line (R255, R270), and each place of the line that has changed once. -/
def SliceReq.ok (q : SliceReq) : Bool := decide (0 < q.len) && decide (q.addr % 64 + q.len ≤ 64) && decide (q.upset.map (·.1)).Nodup

/-- A line is sent at most 4 times (R257), each time in 32 beats (R251). -/
def Burst.ok (b : Burst) : Bool := decide (b.transfers.length ≤ 4) && b.transfers.all (fun t => decide (t.noise.length ≤ 32))

/-- A whole line at a line's offset (R276). -/
def RedLine.ok (l : RedLine) : Bool := decide (l.offset % 64 = 0) && decide (l.data.length = 64)

/-- A fit has the local resistance of every sector (R467). -/
def CharFit.ok (f : CharFit) : Bool := decide (f.loc.length = 12)

/-- Bring-up names a failed unit once, and its fit is whole (R514). -/
def BootReport.ok (b : BootReport) : Bool := decide b.failedUnits.Nodup && b.fit.ok

/-- A port has 8 lanes, each named once (R392). -/
def TrainReport.ok (r : TrainReport) : Bool := decide (r.lanes ≤ 8) && decide r.badLanes.Nodup

/-- Packet sequence numbers of RoCEv2 have 24 bits (R397). -/
def RoceHdr.ok (h : RoceHdr) : Bool := decide (h.psn.toNat < 2 ^ 24)

/-- A header that has travelled at most 15 hops (R402). -/
def NimHdr.ok (h : NimHdr) : Bool := decide (h.hops.toNat ≤ 15)

/-- LENGTH is the length of what the packet carries (R402). -/
def NimHdr.carries (h : NimHdr) (data : List W8) : Bool := h.ok && decide (h.length.toNat = data.length)

/-- A flit carries 244 bytes, of which USED belong to the packet (R411). -/
def Flit.ok (f : Flit) : Bool := decide (f.payload.length = 244) && decide (f.used.toNat ≤ 244)

/-- The codes of the SPDM requests that the device supports (R499; the numbers are DMTF SPDM 1.2's, PRESUMED, log 46). -/
def spdmSupported : List W8 := [0x84, 0xE1, 0xE3, 0x81, 0x82, 0x83, 0xE0]

/-- Whether an offset of CSR space names a register that satisfies a test (R9, R542). -/
def registerIs (addr : W32) (p : Machine.RegDesc → Bool) : Bool :=
  match (Machine.locate addr.toNat).bind (·.desc) with
  | some r => p r
  | none => false


/-- What the spec requires of a command's operands, row by row. A row with no requirement beyond the types of its operands is
always well formed: an instruction word with reserved bits set, an unknown register or a bad address is a command of the
machine, whose meaning says what it does with it. -/
def Instr.wellFormed : Instr → Bool
  | .tickEdge tel _ => tel.ok
  | .guardStart tel samples => tel.ok && decide (samples.map (·.unit)).Nodup
  | .plan => true
  | .cancel => true
  | .batch => true
  | .step => true
  | .reservedWorkListType => true
  | .announceLead _ => true
  | .marker _ _ _ => true
  | .announce _ _ => true
  | .stretchReq _ _ => true
  | .period _ _ => true
  | .tickNextAtHiWrite _ _ => true
  | .tickRunSet _ => true
  | .ppsInRise _ => true
  | .maintenanceReserveEnd => true
  | .seqEdgeDutyTimeout => true
  | .failedCoreSelftestDone _ => true
  | .add _ _ => true
  | .sub _ _ => true
  | .and _ _ => true
  | .or _ _ => true
  | .xor _ _ => true
  | .sll _ _ => true
  | .srl _ _ => true
  | .sra _ _ => true
  | .mul _ _ => true
  | .mulh _ _ => true
  | .mulhu _ _ => true
  | .div _ _ => true
  | .divu _ _ => true
  | .rem _ _ => true
  | .remu _ _ => true
  | .min _ _ => true
  | .max _ _ => true
  | .minu _ _ => true
  | .maxu _ _ => true
  | .cmpeq _ _ => true
  | .cmplt _ _ => true
  | .cmpltu _ _ => true
  | .ldb _ _ => true
  | .ldh _ _ => true
  | .ldw _ _ => true
  | .ldd _ _ => true
  | .ldbu _ _ => true
  | .ldhu _ _ => true
  | .ldwu _ _ => true
  | .stb _ _ => true
  | .sth _ _ => true
  | .stw _ _ => true
  | .std _ _ => true
  | .dld _ _ => true
  | .dst _ _ => true
  | .csrr _ _ => true
  | .csrw _ _ => true
  | .fenceM _ _ => true
  | .amoAdd _ _ => true
  | .amoFadd _ _ => true
  | .amoMin _ _ => true
  | .amoMax _ _ => true
  | .amoAnd _ _ => true
  | .amoOr _ _ => true
  | .amoXor _ _ => true
  | .amoSwap _ _ => true
  | .amoCas _ _ => true
  | .scalarMemComplete _ => true
  | .jal _ _ _ => true
  | .jalr _ _ _ _ _ => true
  | .br _ _ _ _ _ => true
  | .brs _ _ _ _ => true
  | .lsh _ _ _ => true
  | .pset _ _ _ _ _ _ _ => true
  | .smov _ _ _ _ => true
  | .tstat _ _ _ _ => true
  | .twait _ _ _ _ => true
  | .tclr _ _ _ _ => true
  | .dbase _ _ _ _ _ => true
  | .eret _ _ => true
  | .brk _ _ => true
  | .engineHeadBegin _ _ => true
  | .tensorComplete _ _ _ => true
  | .mload _ _ => true
  | .mzero _ _ => true
  | .mmaE4 _ _ => true
  | .mmaE5 _ _ => true
  | .mmaC4 _ _ => true
  | .mmaBf _ _ => true
  | .mmaHf _ _ => true
  | .mmaF32 _ _ => true
  | .vadd _ _ => true
  | .vsub _ _ => true
  | .vmul _ _ => true
  | .vfma _ _ => true
  | .vmax _ _ => true
  | .vmin _ _ => true
  | .vabs _ _ => true
  | .vneg _ _ => true
  | .vcmp _ _ => true
  | .vsel _ _ => true
  | .vmov _ _ => true
  | .vand _ _ => true
  | .vor _ _ => true
  | .vxor _ _ => true
  | .vexp _ _ => true
  | .vlog _ _ => true
  | .vrcp _ _ => true
  | .vrsq _ _ => true
  | .vsin _ _ => true
  | .vcos _ _ => true
  | .vcvt _ _ => true
  | .vquant _ _ => true
  | .vimport _ _ => true
  | .vexport _ _ => true
  | .vperm _ _ => true
  | .vgather _ _ => true
  | .vrsum _ _ => true
  | .vrmax _ _ => true
  | .vrmin _ _ => true
  | .vrssq _ _ => true
  | .vramax _ _ => true
  | .vacc _ _ => true
  | .drvGo _ _ => true
  | .drvCancel _ _ => true
  | .drvPut _ _ => true
  | .attn _ _ => true
  | .merge _ _ => true
  | .kvappend _ _ => true
  | .kvprefix _ _ => true
  | .conv2 _ _ => true
  | .conv3 _ _ => true
  | .stip _ _ => true
  | .trgPush _ _ => true
  | .trgPop _ _ => true
  | .trgDrop _ _ => true
  | .trgFlush _ _ => true
  | .syncTick _ _ => true
  | .sliceEnd _ => true
  | .layerOpen _ _ => true
  | .layerClose _ _ => true
  | .syncJoin _ _ => true
  | .bracketVoteClose k => decide (k.level ≤ 2)
  | .oxRule _ _ => true
  | .oxProg _ _ => true
  | .oxCommandEnqueue _ => true
  | .oxPass1 _ => true
  | .oxPass2 _ => true
  | .oxPass2WindowsReady _ => true
  | .oxPass2WaitTimeout _ => true
  | .oxPassComplete _ => true
  | .scaleFetch _ _ _ => true
  | .scaleNote => true
  | .sliceRead _ q => q.ok
  | .sliceWrite _ q data => q.ok && decide (data.length = q.len)
  | .sliceAtomic _ q _ w _ _ => q.ok && decide (q.len = if w then 4 else 8) && decide (q.addr % q.len = 0)
  | .cacheFillComplete _ _ => true
  | .quireBurstComplete _ _ b => b.ok
  | .scrubRead _ _ b => b.ok
  | .poisonFillGroup _ _ => true
  | .stackTempReading _ _ _ => true
  | .marginStart _ => true
  | .marginSweepDone _ margins => decide (margins.length = 136)
  | .xlInvalHiWrite _ _ => true
  | .xlInvalDone => true
  | .redLineWrite _ l => l.ok
  | .windowGraceExpiry _ _ => true
  | .windowWaitExpiry _ _ => true
  | .streamBegin _ => true
  | .streamLineResponse _ _ => true
  | .streamComplete _ _ => true
  | .drvCancelComplete _ => true
  | .troughAutoSwap _ _ => true
  | .troughStaleTimeout _ _ => true
  | .hostMessageDrain _ => true
  | .hang _ => true
  | .fenceEnd _ => true
  | .sidePathReadTimeout _ _ => true
  | .snapshotTimeout _ => true
  | .snapshotComplete _ => true
  | .partitionResetDone _ badWays viaChannels => decide badWays.Nodup && decide viaChannels.Nodup
  | .resetLevelTimeout _ => true
  | .controlStateParityError _ => true
  | .ganderLost => true
  | .custodyWatchdogExpiry => true
  | .ownerResetRequest => true
  | .unitDisableRequest => true
  | .unitEnableRequest => true
  | .dumpSlotFree _ => true
  | .dumpDataRead _ => true
  | .resInject _ _ => true
  | .clockForecast tel => tel.ok
  | .timingEmergency _ => true
  | .timingEmergencyEnd => true
  | .thermalTrip _ _ _ => true
  | .thermTripN => true
  | .charStart => true
  | .charPhaseEnd fit => fit.ok
  | .ageingRefit fits lanes => decide (fits.length = 12) && decide lanes.Nodup
  | .refclkLost => true
  | .pwrOkAssert => true
  | .pwrOkFall => true
  | .resetNAssert _ => true
  | .resetNRelease b => b.ok
  | .settingsWrite => true
  | .settingsWriteDone => true
  | .retainWriteNow => true
  | .retainFactory => true
  | .portRetrain _ => true
  | .hostRetrain => true
  | .linkDown _ => true
  | .portTrainingDone _ r => r.ok
  | .unsupportedFrame _ => true
  | .arpRequest _ _ _ => true
  | .neighborSolicitation _ _ _ => true
  | .pfcFrame _ _ _ => true
  | .ptpSync _ _ _ _ => true
  | .ptpFollowUp _ _ => true
  | .ptpDelayResp _ _ _ => true
  | .ptpAnnounce _ _ _ => true
  | .connOpen _ => true
  | .connClose _ => true
  | .roceSend h _ => h.ok
  | .roceRdmaWrite h data => h.ok && decide (data.length ≤ h.len)
  | .roceRdmaRead h => h.ok
  | .roceAck h => h.ok
  | .roceNak h _ => h.ok
  | .roceReadResponse h _ => h.ok
  | .cnp _ _ => true
  | .roceRetryTimeout _ => true
  | .write _ h data => h.carries data
  | .readReq _ h => h.ok
  | .atomic _ h _ _ _ _ => h.ok
  | .redWrite _ h data => h.carries data
  | .push _ h data => h.carries data
  | .nimserAck _ h => h.ok
  | .nimserNak _ h => h.ok
  | .readResp _ h data => h.carries data
  | .atomicResp _ h _ => h.ok
  | .errorResp _ h => h.ok
  | .congestion _ h _ => h.ok
  | .resync _ h => h.ok
  | .nimserRtoExpiry _ => true
  | .nimserAckTimer _ => true
  | .rateIncreaseTimer _ => true
  | .flitData _ f => f.ok
  | .flitIdle _ f => decide (f.used.toNat ≤ 244)
  | .flitReplayTimeout _ => true
  | .flitAckTimer _ => true
  | .routeLoad => true
  | .routeLoadCopied => true
  | .csrReadRequest _ _ _ => true
  | .csrWriteRequest _ _ _ _ => true
  | .imageWrite _ _ _ _ => true
  | .memRead _ _ _ _ => true
  | .memWrite _ _ _ => true
  | .ledgerRead _ _ _ => true
  | .dumpRead _ _ _ _ => true
  | .eventLog _ _ => true
  | .debug _ tok => decide (tok.kind = 1)
  | .vendorDebug _ tok => decide (tok.kind = 2)
  | .ownership _ tok => decide (tok.kind = 3)
  | .ownerKey _ tok => decide (tok.kind = 4)
  | .returnAuth _ tok => decide (tok.kind = 5)
  | .returnVendor _ tok => decide (tok.kind = 6)
  | .scrap _ tok => decide (tok.kind = 7)
  | .blankToVendor _ vendorHashes => decide (vendorHashes.length ≤ 4)
  | .debugLevelExpiry => true
  | .debugClose => true
  | .returnArmedExpiry => true
  | .fwVerify => true
  | .fwActivate => true
  | .fwCommit => true
  | .getVersion _ => true
  | .getCapabilities _ => true
  | .negotiateAlgorithms _ _ _ => true
  | .getDigests _ => true
  | .getCertificate _ _ _ _ => true
  | .challenge _ _ _ => true
  | .getMeasurements _ _ _ => true
  | .spdmUnsupportedRequest _ code => !(spdmSupported.contains code)
  | .jtagBypass _ => true
  | .jtagIdcode => true
  | .jtagSamplePreload _ => true
  | .jtagExtest => true
  | .jtagScanDump => true
  | .setdasa _ => true
  | .entdaa _ => true
  | .i3cPrivateWrite _ => true
  | .i3cPrivateRead _ => true
  | .ledgerAck _ => true
  | .ledgerSweep reads => decide (reads.map (·.1)).Nodup
  | .ledgerAckTimeout _ => true
  | .eventRecordWrite => true
  | .workListReconfigure _ _ _ => true
  | .replayStart => true
  | .csrLoRead _ addr => registerIs addr (fun r => r.half == 1)
  | .rcRead _ addr => registerIs addr (fun r => r.fields.any (fun f => f.acc == .rc))
  | .generalCsrWrite _ _ _ => true
  | .sequencerCoreFault => true
  | .thermAlertN _ => true
  | .securityCommandDone => true
  | .avsbusVoltageConfirm _ _ => true
  | .frameFcsError _ => true

end Sys2Proof
end

