-- ==== Sys2Proof/Tests/Slice0.lean ====
section
/-!
SUPPORT. Sys2Proof/Tests/Slice0.lean: witnesses, one for each statement that has hypotheses, that something meets them; single
steps and worked examples of the manual; and the ill-formed commands that WellFormed.lean refuses.
-/

namespace Sys2Proof.Tests

open Sys2Proof Sys2Proof.Machine Sys2Proof.Claims

set_option Elab.async false

/-! ## States that the tests use -/

/-- Tile 0 of sector 0. -/
def t0 : TileRef := ⟨0, 0⟩

/-- A state with device `d`. -/
def at_ (d : Dev) : State := { dev := d }

/-- What a command leaves. -/
def after (o : Host.Outcome State Fault Refusal) : State :=
  match o with
  | .next s => s
  | _ => {}

/-- The bytes of an instruction. -/
def word (w : CtisWord) : List W8 :=
  match w with
  | .scalar w => toLE 4 w.toNat
  | .tensor w => toLE 16 w.toNat

/-- Tile 0 of sector 0 running from offset 0 of its instruction memory, which holds one instruction; its trap handler is at 0x100. -/
def core (w : CtisWord) (f : Tile → Tile := id) : State :=
  at_ { imem := Mem.store [] 0 (word w), tiles := [(0, f { run := .running, vecValid := true, vecOffset := 64 })] }

/-- Tile 0 of sector 0 with these register files. -/
def withG (i : BitVec 5) (v : W64) (x : Tile) : Tile := { x with regs := x.regs.wg i v }

/-- Operands of an OP instruction: g31 and IMM14 −1. -/
def opA : OpArgs := ⟨0x3FFF, true, 1, 31⟩

/-- Operands of a MEM access: the address in g1. -/
def memA : MemArgs := ⟨0, false, 1, 2⟩

/-! ## The block and its encodings -/

/-- Fuses of an OWNED device whose owner has revoked a key slot. -/
def ownedFuses : Fuses :=
  { lcFuses := lcOwned, lcTwins := lcOwned, ownerSigReq := true, vendor := Vector.replicate 4 { hash := some 1, revoked := true }
    owner := Vector.replicate 4 { hash := some 2, revoked := true } }

/-- A COMMIT of firmware with SVN 7, in progress. -/
def committing : State :=
  { pending := [.securityCommandDone], fuse := ownedFuses
    dev := { sec := { svnRun := 7, busy := some (.firmware false false false true, none) } } }

theorem witness_StepTakesFrontOrIdles :
    ({ pending := [.tickRunSet 0, .plan] } : State).pending = .tickRunSet 0 :: [.plan] ∧ ({} : State).pending = [] := by decide +kernel

theorem witness_FusesAreOneWay :
    step committing = .next (after (step committing)) ∧ (after (step committing)).fuse ≠ committing.fuse ∧
      committing.fuse.ownerSigReq = true ∧ ∀ i : Fin 4, committing.fuse.vendor[i].revoked = true ∧
        committing.fuse.owner[i].revoked = true ∧ committing.fuse.vendor[i].hash.isSome = true ∧
        committing.fuse.owner[i].hash.isSome = true :=
  ⟨rfl, by decide +kernel, by decide +kernel, by decide +kernel⟩

theorem witness_LifeCycleStaysLegal :
    committing.fuse.lifeCycleLegal ∧ step committing = .next (after (step committing)) := ⟨.inr (.inr (.inl rfl)), rfl⟩

theorem witness_DecodeOfEncode : ctisEncode (.add t0 opA) = some (t0, encOp 1 opA) ∧
    ctisEncode (.jal t0 0x80000 31) = some (t0, encCtrl 0x01 (0x80000#20 ++ 31#5)) := by decide +kernel

theorem witness_EncodeOfDecode : ctisDecode t0 (encOp 1 opA) = some (.add t0 opA) := by decide +kernel

/-- The fields of a tensor instruction, all zero. -/
def tenA : TensorArgs := { wait := 0, greg := 0, mod := 0, dc := 0, db := 0, da := 0, sreg := 0, se := false, token := 0, te := false }

theorem core_free (w : CtisWord) : (core w).dev.coreFree t0 :=
  ⟨rfl, rfl, by intro b h; exact absurd h (by simp [core, at_, Dev.tile, Tab.look, t0, TileRef.ix]), rfl, rfl⟩

theorem witness_FetchMeetsTheWordAtPc :
    ((core (encOp 1 opA)).dev.coreFree t0 ∧ (core (encOp 1 opA)).dev.imemUnreadable t0 0 = false ∧
      CtisWord.scalar ((core (encOp 1 opA)).dev.imemWord t0 0) = encOp 1 opA ∧
      ctisEncode (.add t0 opA) = some (t0, .scalar ((core (encOp 1 opA)).dev.imemWord t0 0))) ∧
    (core (encTensor 7 1 tenA)).dev.coreFree t0 ∧
    ∃ w, ctisEncode (.syncTick t0 tenA) = some (t0, .tensor w) ∧
      ∀ k, k < 4 → (core (encTensor 7 1 tenA)).dev.imemUnreadable t0 (4 * k) = false ∧
        (core (encTensor 7 1 tenA)).dev.imemWord t0 (4 * k) = w.extractLsb' (32 * k) 32 := by
  refine ⟨⟨core_free _, by decide +kernel, by decide +kernel, by decide +kernel⟩, core_free _, _, rfl, by decide +kernel⟩

/-! ## Scalar instructions -/

theorem witness_OpWritesItsResult :
    (∀ e ∈ opRows, (core (encOp e.2.1 opA)).dev.fetch t0 = .word (encOp e.2.1 opA) ∧ (opA.i = false → opA.hi.extractLsb' 5 9 = 0)) ∧
    ∀ e ∈ cmpRows, (core (encOp e.2.1 ⟨31, false, 30, 7⟩)).dev.fetch t0 = .word (encOp e.2.1 ⟨31, false, 30, 7⟩) ∧
      (31#14).extractLsb' 5 9 = 0 ∧ (7#5).extractLsb' 3 2 = 0 := by decide +kernel

theorem witness_DivisionLimits :
    (∀ o ∈ [0x0C#5, 0x0D, 0x0E, 0x0F], (core (encOp o ⟨2, false, 1, 3⟩)).dev.fetch t0 = .word (encOp o ⟨2, false, 1, 3⟩) ∧
      secondOperand ((core (encOp o ⟨2, false, 1, 3⟩)).dev.tile t0).regs ⟨2, false, 1, 3⟩ = 0 ∧ (2#14).extractLsb' 5 9 = 0) ∧
    ∀ o ∈ [0x0C#5, 0x0E],
      let s := core (encOp o ⟨2, false, 1, 3⟩) fun x => withG 1 0x8000000000000000 (withG 2 0xFFFFFFFFFFFFFFFF x)
      s.dev.fetch t0 = .word (encOp o ⟨2, false, 1, 3⟩) ∧ (s.dev.tile t0).regs.rg 1 = 0x8000000000000000 ∧
        secondOperand (s.dev.tile t0).regs ⟨2, false, 1, 3⟩ = 0xFFFFFFFFFFFFFFFF := by decide +kernel

theorem witness_HardwiredRegisters : (31 : BitVec 5) ≠ 0 ∧ (31 : BitVec 5) ≠ 0 ∧ (7 : BitVec 3) ≠ 0 ∧ (7 : BitVec 3) ≠ 1 := by decide

/-- A core about to make an access at an address. -/
def accessAt (o : BitVec 5) (a : W64) : State := core (encMem o memA) (withG 1 a)

/-- VADD of bytes 0 to 255 of tile memory, in flight and not waited on. -/
def inFlight : Queued :=
  { engine := 1, opcode := 0x0B, args := { wait := 0, greg := 0, mod := 63, dc := 3, db := 0, da := 1, sreg := 0, se := false, token := 0, te := true }
    da := BitVec.ofNat 256 (2 ^ 50 * nFP32 + 2 ^ 60 + 2 ^ 85 * 63), db := 0
    dc := BitVec.ofNat 256 (2 ^ 50 * nFP32 + 2 ^ 60 + 2 ^ 85 * 63), gval := 0, ctx := 0, step := 0 }

theorem witness_LoadsReadTileMemory :
    (∀ e ∈ loadRows, let s := core (encMem e.2.1 memA) fun x => withG 1 0xF8 { x with unwaited := [inFlight] }
      s.dev.fetch t0 = .word (encMem e.2.1 memA) ∧ memAddress (s.dev.tile t0).regs memA = 0xF8 ∧ 0xF8 % e.2.2.1 = 0 ∧
        s.dev.tileLineBad t0 3 = false ∧ s.dev.unsettled s.fuse.variant t0 0 0xF8 e.2.2.1 = true) ∧
    (∀ e ∈ loadRows, ∀ ad ∈ [0, 0x200000 - e.2.2.1],
      let s := accessAt e.2.1 (BitVec.ofNat 64 ad)
      s.dev.fetch t0 = .word (encMem e.2.1 memA) ∧ memA.v = false ∧ memAddress (s.dev.tile t0).regs memA = ad ∧ ad % e.2.2.1 = 0 ∧
        ad < 0x200000 ∧ s.dev.tileLineBad t0 (ad / 64) = false ∧ s.dev.unsettled s.fuse.variant t0 0 ad e.2.2.1 = false) ∧
    let s := accessAt 0x0C 0x1FFFE0
    s.dev.fetch t0 = .word (encMem 0x0C memA) ∧ memAddress (s.dev.tile t0).regs memA = 0x1FFFE0 ∧ 0x1FFFE0 % 32 = 0 ∧
      s.dev.tileLineBad t0 (0x1FFFE0 / 64) = false ∧ s.dev.unsettled s.fuse.variant t0 0 0x1FFFE0 32 = false := by decide +kernel

theorem witness_StoresWriteTileMemory :
    (∀ e ∈ storeRows, ∀ ad ∈ [0, 0x200000 - e.2.2],
      let s := accessAt e.2.1 (BitVec.ofNat 64 ad)
      s.dev.fetch t0 = .word (encMem e.2.1 memA) ∧ memA.v = false ∧ memAddress (s.dev.tile t0).regs memA = ad ∧ ad % e.2.2 = 0 ∧
        ad < 0x200000 ∧ s.dev.tileLineBad t0 (ad / 64) = false ∧ s.dev.unsettled s.fuse.variant t0 0 ad e.2.2 = false) ∧
    let s := accessAt 0x0D 0x1FFFE0
    s.dev.fetch t0 = .word (encMem 0x0D memA) ∧ memAddress (s.dev.tile t0).regs memA = 0x1FFFE0 ∧ 0x1FFFE0 % 32 = 0 ∧
      s.dev.tileLineBad t0 (0x1FFFE0 / 64) = false ∧ s.dev.unsettled s.fuse.variant t0 0 0x1FFFE0 32 = false := by decide +kernel

theorem witness_BadAccessesTrap :
    (∀ e ∈ accessRows, (accessAt e.2.1 0x200000).dev.fetch t0 = .word (encMem e.2.1 memA) ∧
      memAddress ((accessAt e.2.1 0x200000).dev.tile t0).regs memA = 0x200000 ∧ 0x200000 % e.2.2.1 = 0 ∧ memA.v = false) ∧
    (∀ e ∈ accessRows, 1 < e.2.2.1 → (accessAt e.2.1 1).dev.fetch t0 = .word (encMem e.2.1 memA) ∧
      memAddress ((accessAt e.2.1 1).dev.tile t0).regs memA % e.2.2.1 ≠ 0) ∧
    ∀ e ∈ amoRows,
      let bad : AmoArgs := ⟨0, true, 3, 2, false, 1, 4⟩
      let good : AmoArgs := ⟨0, true, 3, 2, true, 1, 4⟩
      (core (encAmo e.2.1 bad)).dev.fetch t0 = .word (encAmo e.2.1 bad) ∧ bad.bit17 = false ∧
      (core (encAmo e.2.1 good) (withG 1 2)).dev.fetch t0 = .word (encAmo e.2.1 good) ∧ good.rsv = 0 ∧ good.bit17 = true ∧
        good.w = true ∧ (((core (encAmo e.2.1 good) (withG 1 2)).dev.tile t0).regs.rg 1).toNat % 4 ≠ 0 := by decide +kernel

/-- The context table at 0x1040 and the tables at 0x1000 that put page 1 of context 0 at physical page 0, with write permission. -/
def tables : List (Nat × CacheLine) :=
  [(64, { data := toLE 8 0x1001 ++ toLE 8 7 ++ List.replicate 48 0, dirty := false, stamp := 0 }),
   (65, { data := toLE 8 0x1001 ++ List.replicate 56 0, dirty := false, stamp := 0 })]

/-- A device whose context table is at 0x1040; tile 0's translation cache and that of its engines hold page 1 of context 0. -/
def mapped (d : Dev) : Dev :=
  { d with csr := d.csr ++ [((At.hub 0 0x100).home 0, 0x1040)], xlCache := [(.tile 0, 0, 1, 7), (.engine 0, 0, 1, 7)] }

/-- Line 0 of stack 0 in its slice's cache, all zeros. -/
def cached0 (d : Dev) : Dev :=
  { d with hubs := [(0, { cache := [(0, { data := List.replicate 64 0, dirty := false, stamp := 0 })], clock := 1 })] }

/-- An outstanding access of tile 0 answered over the links with a status and bytes. -/
def answered (q : ScalarReq) (st : W8) (data : List W8) : State :=
  at_ { tiles := [(0, { run := .running, outstanding := some q })], links := { answers := [(1, some (st, data))], nextTag := 1 } }

/-- A window access of an opcode. -/
def windowReq (op : Nat) : ScalarReq :=
  { op := op, addr := 0x200000, phys := 0x100000000000, rd := 5, data := [], w := true, operand := 0, compare := 0, tag := 1 }

theorem witness_AtomicsBeginAnAccess : ∀ e ∈ amoRows,
    let a : AmoArgs := ⟨0, true, 3, 2, true, 1, 4⟩
    let s := core (encAmo e.2.1 a) (withG 1 0x2001FC)
    let s' : State := { s with dev := mapped s.dev }
    s.dev.fetch t0 = .word (encAmo e.2.1 a) ∧ a.rsv = 0 ∧ a.bit17 = true ∧ a.w = true ∧
      ((s.dev.tile t0).regs.rg 1).toNat % 4 = 0 ∧
      (s.dev.translate s.fuse.variant (.tile t0.ix) 0 0x2001FC true (s.dev.evalMember 0)).1 = sTranslation ∧
      s'.dev.fetch t0 = .word (encAmo e.2.1 a) ∧ (s'.dev.tile t0).ctx.toNat = 0 ∧ ((s'.dev.tile t0).regs.rg 1).toNat = 0x2001FC ∧
      let r := s'.dev.translate s'.fuse.variant (.tile t0.ix) 0 0x2001FC true (s'.dev.evalMember 0)
      r.1 = 0 ∧ isWindow r.2.1 = false := by decide +kernel

theorem witness_ScalarAnswersResumeTheCore :
    (∀ op ∈ [1, 7, 8, 0x11, 0x19], ∀ e ∈ [(sEcc, ([] : List W8)), (sRetryExhausted, []), (sTranslation, []), (sFenced, []),
        (0, List.replicate (memSize op true) 1)],
      let s := answered (windowReq op) e.1 e.2
      (s.dev.tile t0).outstanding = some (windowReq op) ∧ s.dev.dropsAnswer t0 (windowReq op) = false ∧ (windowReq op).open_ = false ∧
        (windowReq op).tag ≠ 0 ∧ (s.dev.performScalar s.fuse.variant t0 (windowReq op)).any
          (fun r => decide (r.st = e.1 ∧ (e.1 = 0 → r.data.length = memSize op true))) = true) := by decide +kernel

/-! ## Control flow and tokens -/

/-- A token set with a status, in token register k. -/
def withT (k : BitVec 6) (y : TokenReg) (x : Tile) : Tile := { x with regs := x.regs.wt k y }

theorem witness_ControlMovesAndJumps :
    (core (encCtrl 0x01 (0x80000#20 ++ 31#5))).dev.fetch t0 = .word (encCtrl 0x01 (0x80000#20 ++ 31#5)) ∧
    (let w := encCtrl 0x02 (0x3FFC#14 ++ 0#1 ++ 1#5 ++ 2#5)
     (core w (withG 1 8)).dev.fetch t0 = .word w ∧ (((core w (withG 1 8)).dev.tile t0).regs.rg 1 + BitVec.ofInt 64 (0x3FFC#14).toInt).toNat % 4 = 0 ∧
     (core w (withG 1 9)).dev.fetch t0 = .word w ∧ (((core w (withG 1 9)).dev.tile t0).regs.rg 1 + BitVec.ofInt 64 (0x3FFC#14).toInt).toNat % 4 ≠ 0) ∧
    (core (encCtrl 0x05 (0xFFFFF#20 ++ 31#5))).dev.fetch t0 = .word (encCtrl 0x05 (0xFFFFF#20 ++ 31#5)) ∧
    (let w := encCtrl 0x06 (0#10 ++ 6#4 ++ 1#3 ++ 2#3 ++ 0#2 ++ 7#3); (core w).dev.fetch t0 = .word w) ∧
    (let w := encCtrl 0x08 (0#14 ++ 63#6 ++ 31#5); (core w).dev.fetch t0 = .word w) ∧
    ∀ acc : Bool, let w := encCtrl 0x0B (0#14 ++ BitVec.ofBool acc ++ 1#5 ++ 31#5); (core w).dev.fetch t0 = .word w := by decide +kernel

theorem witness_BranchesAndSummaryReads :
    (∀ n : Bool, let w := encCtrl 0x03 (0x7FFFF#20 ++ 0#1 ++ BitVec.ofBool n ++ 7#3); (core w).dev.fetch t0 = .word w) ∧
    (∀ c : BitVec 2, let w := encCtrl 0x04 (0x7FFFF#20 ++ c ++ 7#3); (core w).dev.fetch t0 = .word w) ∧
    (let w := encCtrl 0x07 (0#17 ++ 7#3 ++ 31#5); (core w).dev.fetch t0 = .word w) := by decide +kernel

/-- TWAIT or TCLR of tokens 48 and 63. -/
def waitWord (o : BitVec 5) : CtisWord := encCtrl o (0x8001#16 ++ 0#7 ++ 3#2)

theorem witness_TwaitWaitsThenTrapsOrGoesOn :
    (core (waitWord 0x09)).dev.fetch t0 = .word (waitWord 0x09) ∧
    (∃ k, selects 0x8001 3 k = true ∧ (((core (waitWord 0x09)).dev.tile t0).regs.rt k).state = .clear) ∧
    (let s := core (waitWord 0x09) fun x => withT 48 { state := .pending } (withT 63 { state := .set } x)
     s.dev.fetch t0 = .word (waitWord 0x09) ∧ (∀ k, selects 0x8001 3 k = true → ((s.dev.tile t0).regs.rt k).state ≠ .clear) ∧
      ∃ k, selects 0x8001 3 k = true ∧ ((s.dev.tile t0).regs.rt k).state = .pending) ∧
    (let s := core (waitWord 0x09) fun x => withT 48 { state := .set } (withT 63 { state := .set } x)
     s.dev.fetch t0 = .word (waitWord 0x09) ∧ (∀ k, selects 0x8001 3 k = true → ((s.dev.tile t0).regs.rt k).state = .set) ∧
      ∀ k, selects 0x8001 3 k = true → trapEnabled (s.dev.tile t0).trapEn ((s.dev.tile t0).regs.rt k).status = false) ∧
    let s := core (waitWord 0x09) fun x => withT 48 { state := .set } (withT 63 { state := .set, status := 0x7F } x)
    s.dev.fetch t0 = .word (waitWord 0x09) ∧ (∀ k, selects 0x8001 3 k = true → ((s.dev.tile t0).regs.rt k).state = .set) ∧
      trapEnabled (s.dev.tile t0).trapEn ((s.dev.tile t0).regs.rt 63).status = true ∧
      ∀ j, selects 0x8001 3 j = true ∧ trapEnabled (s.dev.tile t0).trapEn ((s.dev.tile t0).regs.rt j).status = true →
        (63 : BitVec 6).toNat ≤ j.toNat := by decide +kernel

theorem witness_TclrClearsSelectedTokens :
    (let s := core (waitWord 0x0A) (withT 63 { state := .pending })
     s.dev.fetch t0 = .word (waitWord 0x0A) ∧ ∃ k, selects 0x8001 3 k = true ∧ ((s.dev.tile t0).regs.rt k).state = .pending) ∧
    (let s := core (waitWord 0x0A) (withT 63 { state := .set })
     s.dev.fetch t0 = .word (waitWord 0x0A) ∧ ∀ k, selects 0x8001 3 k = true → ((s.dev.tile t0).regs.rt k).state ≠ .pending) ∧
    (core (.scalar (0#25 ++ 0x10#5 ++ 0b01#2))).dev.fetch t0 = .word (.scalar (0#25 ++ 0x10#5 ++ 0b01#2)) := by decide +kernel

/-! ## Traps and core registers -/

theorem witness_TrapEntry : ((core (encOp 1 opA)).dev.tile t0).inTrap = false ∧ ((core (encOp 1 opA)).dev.tile t0).vecValid = true := by
  decide +kernel

theorem witness_BreakAndReturn :
    (core (encCtrl 0x0D 0x1FFFFFF)).dev.fetch t0 = .word (encCtrl 0x0D 0x1FFFFFF) ∧
    ((core (encCtrl 0x0D 0x1FFFFFF)).dev.tile t0).inTrap = false ∧ ((core (encCtrl 0x0D 0x1FFFFFF)).dev.tile t0).vecValid = true ∧
    (core (encCtrl 0x0C 0)).dev.fetch t0 = .word (encCtrl 0x0C 0) := by decide +kernel

theorem witness_TrapWithoutHandlerHalts :
    ∀ f ∈ [fun (x : Tile) => { x with inTrap := true }, fun (x : Tile) => { x with vecValid := false }],
      let d := (core (encOp 1 opA) f).dev
      ((d.tile t0).inTrap = true ∨ (d.tile t0).vecValid = false) ∧ d.bit (At.dev 0x124) 0x03 = false ∧ d.events.held.length < 4096 := by
  decide +kernel

/-- A CSR access of program register k. -/
def csrA (k : BitVec 14) : MemArgs := ⟨k, false, 0, 5⟩

/-- A core about to write or read a program register. -/
abbrev csrMeets (o : BitVec 5) (k : BitVec 14) : Prop := (core (encMem o (csrA k))).dev.fetch t0 = .word (encMem o (csrA k))

theorem witness_ProgramsWriteCoreRegisters :
    t0.sector.val < Variant.f.sectors ∧ csrMeets 0x0F 0 ∧ csrMeets 0x0F 1 ∧ csrMeets 0x0F 2 ∧ csrMeets 0x0F 3 ∧ csrMeets 0x0F 7 ∧
    csrMeets 0x0F 0x3FFF ∧ ((core (encMem 0x0F (csrA 1))).dev.tile t0).quiet = true ∧
    let s := core (encMem 0x0F (csrA 1)) (withT 0 { state := .pending })
    s.dev.fetch t0 = .word (encMem 0x0F (csrA 1)) ∧ (s.dev.tile t0).quiet = false := by decide +kernel

/-- Nothing of a core's register in the CSR file beyond the mask. -/
abbrev csrPlain (k : BitVec 14) (m : W32) : Prop := (core (encMem 0x0E (csrA k))).dev.reg (At.tile t0 (4 * k.toNat)) &&& ~~~m = 0

theorem witness_ProgramsReadCoreRegisters :
    csrMeets 0x0E 0 ∧ csrPlain 0 0xFFFFFF ∧ ((core (encMem 0x0E (csrA 0))).dev.tile t0).repeating = false ∧
    csrMeets 0x0E 1 ∧ csrPlain 1 0xFF ∧ csrMeets 0x0E 2 ∧ csrPlain 2 0xFFFD ∧ csrMeets 0x0E 3 ∧ csrPlain 3 0xFFFF ∧
    csrMeets 0x0E 4 ∧ csrPlain 4 0xFF ∧ csrMeets 0x0E 7 ∧ csrPlain 7 0xF := by decide +kernel

/-! ## Tensor instructions -/

/-- A descriptor: space, format, extents and strides in bytes, at byte `base`. -/
def desc (space fmt : Nat) (es : List Nat) (ss : List Nat := []) (base : Nat := 0) : BitVec 256 :=
  BitVec.ofNat 256 (base + 2 ^ 48 * space + 2 ^ 50 * fmt + 2 ^ 60 * es.length +
    2 ^ 85 * (es.getD 0 1 - 1) + 2 ^ 105 * (es.getD 1 1 - 1) + 2 ^ 121 * (es.getD 2 1 - 1) + 2 ^ 137 * (es.getD 3 1 - 1) +
    2 ^ 153 * (es.getD 4 1 - 1) + 2 ^ 169 * (ss.getD 0 0 / 32) + 2 ^ 190 * (ss.getD 1 0 / 32) + 2 ^ 211 * (ss.getD 2 0 / 32) +
    2 ^ 232 * (ss.getD 3 0 / 32))

/-- Descriptor registers 1 to 3 set, token 63 CLEAR, token 1 SET. -/
def withD (x y z : BitVec 256) (t : Tile) : Tile :=
  { t with regs := ((((t.regs.wd 1 x).wd 2 y).wd 3 z)).wt 1 { state := .set } }

/-- Fields of a tensor instruction that waits on token 1 and sets token 63. -/
def args (da db dc : BitVec 5) (greg : BitVec 5 := 0) (se : Bool := false) (mod : BitVec 19 := 0) : TensorArgs :=
  { wait := 2, greg := greg, mod := mod, dc := dc, db := db, da := da, sreg := 7, se := se, token := 63, te := true }

/-- 64 elements of a format in tile memory. -/
def vec (fmt : Nat) : BitVec 256 := desc 0 fmt [64]

/-- A float vector instruction of two operands and a destination. -/
def binaryCase : TensorArgs × BitVec 256 × BitVec 256 × BitVec 256 := (args 1 2 3, vec nFP32, vec nFP32, vec nFP32)

/-- One of an operand and a destination. -/
def unaryCase : TensorArgs × BitVec 256 × BitVec 256 × BitVec 256 := (args 1 0 3, vec nFP32, 0, vec nFP32)

/-- A reduction. -/
def reduceCase : TensorArgs × BitVec 256 × BitVec 256 × BitVec 256 := (args 1 0 0 0 true, vec nFP32, 0, 0)

/-- One with an I32 index operand. -/
def indexCase : TensorArgs × BitVec 256 × BitVec 256 × BitVec 256 := (args 1 2 3, vec nFP32, vec nI32, vec nFP32)

/-- Fields and descriptors with which each row of `issueRows` issues. -/
def issueCases : List (TensorArgs × BitVec 256 × BitVec 256 × BitVec 256) :=
  [(args 1 0 0, desc 0 nE4 [64, 64] [64], 0, 0), (args 0 0 0 0 false (255 * 1024), 0, 0, 0)] ++
  [binaryCase, binaryCase, binaryCase, binaryCase, binaryCase, binaryCase, unaryCase, unaryCase, binaryCase, binaryCase, unaryCase,
   binaryCase, binaryCase, binaryCase] ++
  [unaryCase, unaryCase, unaryCase, unaryCase, unaryCase, unaryCase, unaryCase, unaryCase,
   (args 1 0 3, vec nOcpE4M3, 0, vec nFP32), (args 1 0 3, vec nFP32, 0, vec nOcpE4M3), indexCase, indexCase] ++
  [reduceCase, reduceCase, reduceCase, reduceCase, reduceCase, (args 1 0 3, desc 3 nFP32 [64], 0, vec nFP32)] ++
  [(args 1 0 0, vec nI32, 0, 0), (args 0 0 0, 0, 0, 0), (args 1 0 0, vec nI32, 0, 0),
   (args 1 2 3 1, vec nBF16, desc 2 nBF16 [64], vec nFP32),
   (args 1 2 3 1, desc 0 nFP32 [64, 1, 1], desc 0 nFP32 [2, 1, 1], vec nFP32), (args 1 2 3 1, vec nFP32, vec nFP32, desc 2 nBF16 [64]),
   (args 1 0 3 1, desc 0 nI32 [256], 0, desc 0 nI32 [4]),
   (args 1 2 3, desc 1 nBF16 [4, 4, 1] [32, 128], desc 1 nBF16 [1, 1, 1, 1], desc 1 nBF16 [4, 4, 1] [32, 128]),
   (args 1 2 3, desc 1 nBF16 [4, 4, 1, 1] [32, 128], desc 1 nBF16 [1, 1, 1, 1, 1], desc 1 nBF16 [4, 4, 1, 1] [32, 128]),
   (args 1 2 3 1, desc 1 nINT8 [4, 4, 1, 1] [32, 128], desc 1 nBF16 [1, 1, 1, 1, 1], desc 1 nBF16 [4, 4, 1, 1] [32, 128]),
   (args 1 0 0, vec nFP32, 0, 0), (args 0 0 3, 0, 0, vec nFP32), (args 0 0 0, 0, 0, 0), (args 0 0 0, 0, 0, 0), (args 0 0 0, 0, 0, 0)]

/-- Tile 0 about to issue a tensor instruction of an engine and opcode, with the rest of a case. -/
def issuing (engine opcode : Nat) (c : TensorArgs × BitVec 256 × BitVec 256 × BitVec 256) : State :=
  core (tensorWord engine opcode c.1) (withD c.2.1 c.2.2.1 c.2.2.2)

/-- The conditions under which a tensor instruction issues. -/
abbrev issues (engine opcode : Nat) (ok : IssueView → Bool) (a : TensorArgs) (s : State) : Prop :=
  s.dev.fetch t0 = .word (tensorWord engine opcode a) ∧
    ((s.dev.tile t0).queue engine).filter (fun q => !q.running) = [] ∧ (s.dev.tile t0).hasWaiter a.token = false ∧
    ok ((s.dev.tile t0).issueView a) = true ∧ ((s.dev.tile t0).regs.rt a.token).state ≠ .pending ∧
    ∀ k : BitVec 6, a.wait.getLsbD k.toNat = true → ((s.dev.tile t0).regs.rt k).state ≠ .clear

theorem issueCases_length : issueCases.length = issueRows.length := by decide +kernel

theorem witness_TensorIssueQueuesAndPends :
    (∀ e ∈ issueRows.zip issueCases, issues e.1.2.1 e.1.2.2.1 e.1.2.2.2.1 e.2.1 (issuing e.1.2.1 e.1.2.2.1 e.2)) := by decide +kernel

/-- A bracket of tile 0 at a level, with a promotion table. -/
def bracketAt (level : Nat) : Bracket :=
  { layer := 5, occurrence := 0, step := 0, level := level, sreg := 3, saved := {}, resume := 16, group := 1, promo := [], table := true
    voted := true, close := none }

/-- Tile 0 about to issue a multiplication at a level of a bracket, with a matching stationary buffer 0 and one streamed row of 32
elements. -/
def multiplying (op level fmt stat : Nat) : State :=
  core (tensorWord 0 op (args 1 0 0)) fun x =>
    { withD (desc 0 fmt [32]) 0 0 x with
      rec0 := some { fmt := stat, k := 32, n := 1, whole := true }, bracket := if level = 0 then none else some (bracketAt level) }

/-- The fields that a multiplication issues with, given what executes. -/
def passFields (pass : Nat) : TensorArgs := args 1 0 0 0 false (BitVec.ofNat 19 (pass * 2048))

theorem witness_MatrixIssue : ∀ e ∈ [(0x10, 0, nE4, nE4, 0x10, 0), (0x11, 0, nE5, nE4, 0x11, 0), (0x12, 0, nCF4, nCF4, 0x12, 0),
      (0x13, 0, nBF16, nBF16, 0x13, 0), (0x14, 0, nFP16, nFP16, 0x14, 0), (0x15, 0, nFP32, nFP32, 0x15, 0), (0x10, 1, nBF16, nBF16, 0x13, 0),
      (0x12, 1, nBF16, nBF16, 0x13, 0), (0x13, 1, nBF16, nBF16, 0x13, 0), (0x10, 2, nFP32, nFP32, 0x15, 2), (0x14, 2, nFP32, nFP32, 0x15, 2)],
    let s := multiplying e.1 e.2.1 e.2.2.1 e.2.2.2.1
    s.dev.fetch t0 = .word (tensorWord 0 e.1 (args 1 0 0)) ∧ ((s.dev.tile t0).queue 0).filter (fun q => !q.running) = [] ∧
      (s.dev.tile t0).hasWaiter 63 = false ∧ mmaOk e.2.2.2.2.1 e.2.2.2.2.2 ((s.dev.tile t0).issueView (passFields e.2.2.2.2.2)) = true ∧
      ((s.dev.tile t0).regs.rt 63).state ≠ .pending ∧ ((s.dev.tile t0).regs.rt 1).state ≠ .clear := by decide +kernel

theorem witness_OxIssue : ∀ e ∈ oxCommandRows, issues 8 e.2 oxOk (args 1 0 0) (issuing 8 e.2 (args 1 0 0, desc 0 nI32 [32], 0, 0)) := by
  decide +kernel

/-- An instruction of tile 0 that an engine's queue holds; it sets token 63 and summary register 7. -/
def queuedOp (engine opcode : Nat) (a : TensorArgs) (running : Bool) : Queued :=
  { engine := engine, opcode := opcode, args := a, da := 0, db := 0, dc := 0, gval := 0, ctx := 0, step := 0, running := running }

/-- What an instruction waits on when token 1 is not yet set. -/
def waits : TensorArgs := args 0 0 0 0 true

theorem witness_TensorIssueStallsOrTraps : ∀ e ∈ issueRows.zip issueCases,
    let w := tensorWord e.1.2.1 e.1.2.2.1 e.2.1
    let bad : TensorArgs := { e.2.1 with mod := 0x7FFFF, greg := 1 }
    let base := withD e.2.2.1 e.2.2.2.1 e.2.2.2.2
    let q := queuedOp e.1.2.1 e.1.2.2.1 waits false
    (let s := core w fun x => (base x).setQueue e.1.2.1 (List.replicate 8 q)
     s.dev.fetch t0 = .word w ∧ 8 ≤ (((s.dev.tile t0).queue e.1.2.1).filter fun q => !q.running).length) ∧
    (let s := core (tensorWord e.1.2.1 e.1.2.2.1 bad) base
     s.dev.fetch t0 = .word (tensorWord e.1.2.1 e.1.2.2.1 bad) ∧ (s.dev.tile t0).queue e.1.2.1 = [] ∧
      (s.dev.tile t0).hasWaiter 63 = false ∧ e.1.2.2.2.1 ((s.dev.tile t0).issueView bad) = false) ∧
    (let s := core w fun x => withT 63 { state := .pending } (base x)
     s.dev.fetch t0 = .word w ∧ (s.dev.tile t0).queue e.1.2.1 = [] ∧ (s.dev.tile t0).hasWaiter 63 = false ∧
      e.1.2.2.2.1 ((s.dev.tile t0).issueView e.2.1) = true ∧ ((s.dev.tile t0).regs.rt 63).state = .pending) ∧
    let s := core w fun x => withT 1 { state := .clear } (base x)
    s.dev.fetch t0 = .word w ∧ (s.dev.tile t0).queue e.1.2.1 = [] ∧ (s.dev.tile t0).hasWaiter 63 = false ∧
      e.1.2.2.2.1 ((s.dev.tile t0).issueView e.2.1) = true ∧ ((s.dev.tile t0).regs.rt 63).state ≠ .pending ∧
      e.2.1.wait.getLsbD 1 = true ∧ ((s.dev.tile t0).regs.rt 1).state = .clear := by decide +kernel

/-- Tile 0 with one queue holding one instruction. -/
def queueing (engine opcode : Nat) (running : Bool) (st : W8) : State :=
  at_ { tiles := [(0, withT 1 { state := .set, status := st } (({ run := .running } : Tile).setQueue engine
    [queuedOp engine opcode waits running]))] }

/-- A state whose device is changed. -/
def onDevice (s : State) (f : Dev → Dev) : State := { s with dev := f s.dev }

/-- Partition 0 DISABLED. -/
def disabledPart (d : Dev) : Dev :=
  d.setEntry .f (unitNo 0x08 0) { ledgerInit .f (unitNo 0x08 0) with state := stDisabled }

theorem witness_HeadBeginsOrIsSuppressed :
    (∀ e ∈ [0, 8], let s := queueing e 1 false 0x7F
      let q := queuedOp e 1 waits false
      (s.dev.tile t0).head e = some q ∧ (s.dev.tile t0).active e = none ∧ q.engine = e ∧
      (∀ k : BitVec 6, q.args.wait.getLsbD k.toNat = true → ((s.dev.tile t0).regs.rt k).state = .set) ∧
      (∀ j : BitVec 6, q.args.wait.getLsbD j.toNat = true ∧
        trapEnabled (s.dev.tile t0).trapEn ((s.dev.tile t0).regs.rt j).status = true ↔ j = 1)) ∧
    ∀ e ∈ [0, 1, 2, 3, 4, 6, 7], ∀ st ∈ [0, 1],
      let s := onDevice (queueing e 1 false 0) fun d => if st = 0 then d else disabledPart d
      let q := queuedOp e 1 waits false
      (s.dev.tile t0).head e = some q ∧ (s.dev.tile t0).active e = none ∧ q.engine = e ∧
      (∀ k : BitVec 6, q.args.wait.getLsbD k.toNat = true → ((s.dev.tile t0).regs.rt k).state = .set ∧
        trapEnabled (s.dev.tile t0).trapEn ((s.dev.tile t0).regs.rt k).status = false) ∧
      (s.dev.tile t0).ordered q = false ∧
      (if st = 0 then s.dev.engineRefuses s.fuse.variant t0 e = 0 else s.dev.engineRefuses s.fuse.variant t0 e ≠ 0) := by decide +kernel

/-- What an engine reports that found no residue mismatch. -/
def quietReport : EngineReport := { hits := [], stall := 0, waits := 0 }

/-- The MZERO of row 255 of bank 3. -/
def zeroTop : TensorArgs := { waits with mod := 3 + 4 * 255 }

theorem witness_TensorCompletes :
    (∀ e ∈ [(0, 2), (7, 4)], let s := queueing e.1 e.2 true 0
      let q := queuedOp e.1 e.2 waits true
      (s.dev.tile t0).active e.1 = some q ∧ q.scalesIn = true ∧
        ((s.dev.engineOutcome s.fuse.variant t0 q quietReport).1.any fun o => decide (o.st = sDone)) = true) ∧
    (({} : State).dev.tile t0).active 0 = none ∧
    let q := queuedOp 0 2 zeroTop true
    let s := at_ { tiles := [(0, ({ run := .running } : Tile).setQueue 0 [q])] }
    ((queueing 7 4 true 0).dev.tile t0).active 7 = some (queuedOp 7 4 waits true) ∧
    (s.dev.tile t0).active 0 = some q ∧ q.engine = 0 ∧ q.opcode = 2 ∧ q.args.mod.toNat / 4 % 256 + (q.args.mod.toNat / 2 ^ 10 % 256 + 1) ≤ 256 := by
  decide +kernel

/-- R141: a vector destination in place is defined; one element further on it is not. -/
theorem test_shifted_destination_is_undefined :
    ({ queuedOp 1 0x0B (args 1 0 3 0 false 63) true with da := vec nFP32, dc := vec nFP32 } : Queued).crossed = false ∧
    ({ queuedOp 1 0x0B (args 1 0 3 0 false 63) true with da := vec nFP32, dc := desc 0 nFP32 [64] [] 4 } : Queued).crossed = true := by
  decide +kernel

/-- R140: an MZERO that ends marks the rows it wrote in the vector instruction that runs beside it. -/
theorem test_mzero_marks_the_vector_instruction :
    let q := queuedOp 0 2 zeroTop true
    let y := { queuedOp 1 0x0B (args 1 0 3 0 false 63) true with da := desc 3 nFP32 [64] [] (3 + 4 * 255), dc := vec nFP32 }
    let x := (({ run := .running } : Tile).setQueue 0 [q]).setQueue 1 [y]
    ((({ tiles := [(0, x)] } : Dev).markOthers t0 q).tile t0).active 1 = some { y with veils := [⟨3, 3, 65280, 256⟩] } ∧
    (({ tiles := [(0, x)] } : Dev).veiled t0 y) = [⟨3, 3, 65280, 256⟩] := by
  decide +kernel

/-! ## Slices and brackets -/

/-- The end of a tile's slice, with token 1 SET. -/
def tickArgs : TensorArgs :=
  { wait := 2, greg := 0, mod := 0, dc := 0, db := 0, da := 0, sreg := 0, se := false, token := 0, te := false }

theorem witness_SyncTickEndsTheSlice :
    (let s := core (tensorWord 7 1 tickArgs) (withT 1 { state := .set })
     s.dev.fetch t0 = .word (tensorWord 7 1 tickArgs) ∧ (∀ k : BitVec 6, tickArgs.wait.getLsbD k.toNat = true →
      ((s.dev.tile t0).regs.rt k).state ≠ .clear) ∧ (s.dev.tile t0).quiet = true ∧ (s.dev.tile t0).bracket = none ∧
      ∀ k : BitVec 6, ((s.dev.tile t0).regs.rt k).state = .set → trapEnabled (s.dev.tile t0).trapEn ((s.dev.tile t0).regs.rt k).status = false) ∧
    let s := at_ { tiles := [(0, { run := .ending })] }
    let l := s.dev.curIsLast s.fuse.variant t0
    (s.dev.tile t0).run = .ending ∧ (∀ y ∈ (l.2.sector 0).streams, y.tile ≠ 0) ∧
      (∀ k, k < 32 → (l.2.trough 0 k).swapPlanned = 0) ∧ (l.2.tile t0).waiting = [] := by decide +kernel

/-- LAYER.OPEN of layer 65,535, and LAYER.CLOSE. -/
def openArgs : TensorArgs :=
  { wait := 2, greg := 0, mod := 0xFFFF, dc := 0, db := 0, da := 0, sreg := 7, se := true, token := 63, te := true }

theorem witness_BracketsOpenAndVote :
    (let s := core (tensorWord 7 2 openArgs) (withT 1 { state := .set })
     s.dev.fetch t0 = .word (tensorWord 7 2 openArgs) ∧ openArgs.mod.toNat < 2 ^ 16 ∧ (s.dev.tile t0).bracket = none ∧
      (s.dev.tile t0).head 7 = none ∧
      (s.dev.tile t0).hasWaiter 63 = false ∧ ((s.dev.tile t0).regs.rt 63).state ≠ .pending ∧
      ∀ k : BitVec 6, openArgs.wait.getLsbD k.toNat = true → ((s.dev.tile t0).regs.rt k).state = .set ∧
        trapEnabled (s.dev.tile t0).trapEn ((s.dev.tile t0).regs.rt k).status = false) ∧
    (let s := at_ { tileMem := Mem.store [] 0x40 [1] }
     (s.dev.promoTable s.fuse.variant t0 0x40).toOption = some (1, [])) ∧
    let a : TensorArgs := { openArgs with mod := 0 }
    let s := core (tensorWord 7 3 a) fun x => withT 1 { state := .set } { x with bracket := some { bracketAt 2 with voted := false } }
    s.dev.fetch t0 = .word (tensorWord 7 3 a) ∧ (s.dev.tile t0).bracket = some { bracketAt 2 with voted := false } ∧
      (s.dev.tile t0).quiet = true ∧ (s.dev.tile t0).hasWaiter 63 = false ∧ ((s.dev.tile t0).regs.rt 63).state ≠ .pending ∧
      ∀ k : BitVec 6, a.wait.getLsbD k.toNat = true → ((s.dev.tile t0).regs.rt k).state = .set ∧
        trapEnabled (s.dev.tile t0).trapEn ((s.dev.tile t0).regs.rt k).status = false := by decide +kernel

/-- The key of the bracket of layer 5 at level 1. -/
def voteKey : VoteKey := ⟨0, 0, 5, 0, 1⟩

theorem witness_VoteOfOneTile : ∀ set_ : Bool,
    let b : Bracket := { bracketAt 1 with close := some openArgs }
    let s := at_ { seq := { votes := [{ key := voteKey, group := 1, cast := [(0, set_)] }] }
                   tiles := [(0, { run := .running, bracket := some b })], csr := [((At.dev 0x124).home 0, 0x40)] }
    s.dev.seq.votes.find? (fun y => decide (y.key = voteKey)) = some { key := voteKey, group := 1, cast := [(0, set_)] } ∧
      s.dev.seq.replay = none ∧ s.dev.bit (At.seq 0x40C) 31 = false ∧ s.dev.bit (At.dev 0x124) 0x06 = true ∧
      (s.dev.tile t0).bracket = some b ∧ b.close = some openArgs ∧ b.key 0 = voteKey ∧ b.level < 2 ∧
      s.dev.reg (At.tile t0 0x780) = 0 := by decide +kernel

/-! ## Streams and troughs -/

/-- A block list of one COPY entry of 128 bytes, from tile memory 0x1000 to the end of tile memory. -/
def blockList : List W8 :=
  toLE 4 1 ++ toLE 4 0x1000 ++ List.replicate 24 0 ++
  toLE 8 0x1000 ++ toLE 8 0x1FFF80 ++ toLE 4 128 ++ List.replicate 12 0

/-- DRV.GO of that list, at the head of tile 0's Drover queue. -/
def droverHead : Queued := { queuedOp 2 1 waits false with da := desc 0 nI32 [16], waited := true }

/-- The stream of that list at its first line. -/
def streamOne : Stream :=
  { id := 0, tile := 0, put := false, ctx := 0, list := desc 0 nI32 [16], args := waits, entries := 1, buffer := 0x1000, rate := 0
    priority := 0, tag := 0, starts := 0, place := 0x600000, startTick := 0, step := 0, cur := blockList.drop 32 }

/-- A sector 0 with one stream. -/
def streaming (x : Stream) : State := at_ { sectors := [(0, { streams := [x], nextStream := 1 })] }

theorem witness_StreamsBeginAndEnd :
    (let s := at_ { tileMem := Mem.store [] 0 blockList, tiles := [(0, ({ run := .running } : Tile).setQueue 2 [droverHead])] }
     let h := s.dev.listBytes s.fuse.variant t0 0 droverHead.da 0
     s.dev.drvReady t0 = some droverHead ∧
      (∀ k, k < 16 → (s.dev.drvReady (tileOf (16 * 0 + k))).any (fun y => decide (y.reached.getD 0 < droverHead.reached.getD 0)) = false) ∧
      h.st = 0 ∧ headerOk h.data (descOf droverHead.da).e0 (s.dev.poolStart 0) = true ∧ (s.dev.sector 0).streams.length < 64 ∧
      (s.dev.placeBuffer 0 (recNat h.data 4 4)).isSome = true) ∧
    (let s := streaming { streamOne with done := true }
     s.dev.stream 0 0 = some { streamOne with done := true } ∧ ∀ k, k < 16 → (s.dev.tile (tileOf (16 * 0 + k))).waiting = []) ∧
    let s := queueing 2 2 true 0
    (s.dev.tile t0).active 2 = some (queuedOp 2 2 waits true) ∧ (s.dev.sector 0).streams = [] := by decide +kernel

theorem witness_CopyStreamMovesOneLine :
    let s := streaming streamOne
    let e := drvEntryOf streamOne.cur
    s.dev.stream 0 0 = some streamOne ∧ s.dev.eligible s.fuse.variant 0 streamOne = true ∧
      (∀ k, k < 16 → (s.dev.tile (tileOf (16 * 0 + k))).waiting = []) ∧ streamOne.spoiled = false ∧ e.mode = 0 ∧ e.sk = 0 ∧ e.dk = 0 ∧ e.sa % 64 = 0 ∧
      e.da % 64 = 0 ∧ e.sa + 64 ≤ 0x200000 ∧ e.da + 64 ≤ 0x200000 ∧ s.dev.tileLineBad t0 (e.sa / 64) = false ∧ 0 + 64 < e.size := by
  decide +kernel

/-- A trough with these banks. -/
def troughOf (fill drain : List TWord) (stale : Nat := 0) : Trough :=
  { producer := 0, fill := fill, drain := drain, stale := stale, staleRaised := decide (stale ≠ 0) }

/-- Trough 31 of sector 0. -/
def troughing (x : Trough) : State := at_ { sectors := [(0, { troughs := [(31, x)] })] }

/-- A trough word, and one that ends a packet. -/
def tword (e : Bool) : TWord := ⟨1, e, false⟩

theorem witness_TroughsAreFirstInFirstOut :
    ((troughOf [] []).drain = [] ∧ (troughOf [] []).fill = [] ∧ (troughOf [] []).dropPending = false) ∧
    (let x := (troughing (troughOf (List.replicate 64 (tword false)) [])).dev.trough 0 31
     x.producer ≠ 0xFF ∧ x.ticked = false ∧ x.drain = [] ∧ 64 ≤ x.fill.length) ∧
    (let x := (troughing (troughOf [tword true] [])).dev.trough 0 31
     x.producer ≠ 0xFF ∧ x.ticked = false ∧ x.drain = [] ∧ x.fill.getLast? = some (tword true) ∧ (tword true).endMark = true) ∧
    ((troughing (troughOf [] [tword true])).dev.trough 0 31).drain ≠ [] ∧ (({} : State).dev.trough 0 31).producer = 0xFF := by
  decide +kernel

theorem witness_StaleTroughsAndHostWords :
    (let x := (troughing (troughOf [tword true] [] 1)).dev.trough 0 31
     x.stale ≠ 0 ∧ x.fill ≠ [] ∧ x.staleRaised = true) ∧
    let s := troughing { troughOf (List.replicate 64 (tword false)) [] with producer := 0x11, hostq := 63 }
    s.dev.hostTrough 63 = some (0, 31) ∧ (s.dev.trough 0 31).dropPending = false := by decide +kernel

/-! ## Ox units and scale records -/

/-- Pads to 64 bytes. -/
def line64 (b : List W8) : List W8 := (b ++ List.replicate 64 0).take 64

/-- A slice 0 that caches these lines, the first at line 0. -/
def caching (lines : List (List W8)) : Hub :=
  { cache := lines.zipIdx.map (fun e => (e.2, ({ data := line64 e.1, dirty := false, stamp := e.2 } : CacheLine))) ++ tables, clock := lines.length }

/-- A shard state record of rule 4 with no elements, at virtual 0x200000; a version block of `w` at 0x200080; a window's status line
with flags `fl` for step 1, 64 bytes above a result at 0x2000C0. -/
def oxLines (w : Nat) (fl : Nat) : List (List W8) :=
  [List.replicate 16 0 ++ [4, 0, 0xFF, 0] ++ List.replicate 28 0 ++ toLE 8 0x200000 ++ List.replicate 8 0, [],
   toLE 8 0 ++ toLE 8 w ++ toLE 8 w, [], toLE 16 0 ++ toLE 8 1 ++ List.replicate 28 0 ++ toLE 4 fl]

/-- An Ox command of step 1, of a pass, with a layer window or none. -/
def oxCmd (pass2 win : Bool) : OxCmd :=
  { tile := t0, prog := false, pass2 := pass2, args := waits, ctx := 0, step := 1, recStatus := 0
    record := toLE 8 0x200000 ++ toLE 8 0x200080 ++ toLE 8 (if win then 2 ^ 24 else 0) ++ toLE 8 0 ++ toLE 8 0x2000C0 ++
      List.replicate 88 0 }

/-- An Ox unit of slice 0 with a queue and a pass. -/
def oxing (h : Hub) (q : List OxCmd) (p : Option OxPass) : State :=
  at_ { (mapped {}) with hubs := [(0, { h with oxQueue := q, oxPass := p })] }

theorem witness_OxUnitCommands :
    (let q : Queued := { queuedOp 8 1 waits false with begun := List.replicate 129 0 }
     let s := at_ { tiles := [(0, withT 1 { state := .set } (({ run := .running } : Tile).setQueue 8 [q]))] }
     (s.dev.tile t0).head 8 = some q ∧ q.engine = 8 ∧ s.dev.oxRefuses s.fuse.variant q.moved = 0 ∧
      (∀ k : BitVec 6, q.args.wait.getLsbD k.toNat = true → ((s.dev.tile t0).regs.rt k).state = .set ∧
        trapEnabled (s.dev.tile t0).trapEn ((s.dev.tile t0).regs.rt k).status = false) ∧ (s.dev.hub 0).oxQueue.length < 64) ∧
    (∀ p2 : Bool, let s := oxing (caching []) [oxCmd p2 false] none
      let d := (s.dev.onHub 0 fun h => { h with fenced := true, oxQueue := [] })
      (s.dev.hub 0).oxPass = none ∧ (s.dev.hub 0).oxQueue = [oxCmd p2 false] ∧
        (d.oxPrepare s.fuse.variant 0 (oxCmd p2 false)).1.stop = some (sFenced, 0)) ∧
    ((oxing (caching []) [] (some { cmd := oxCmd true false, waiting := true })).dev.hub 0).oxPass =
      some { cmd := oxCmd true false, waiting := true } ∧
    ((oxing (caching []) [] (some { cmd := oxCmd true false, finished := true })).dev.hub 0).oxPass =
      some { cmd := oxCmd true false, finished := true } := by decide +kernel

theorem witness_OxPassesApply :
    (∀ p2 : Bool, ∀ w ∈ [0, 2 ^ 63],
      let s := oxing (caching (oxLines w 0)) [oxCmd p2 false] none
      let d := s.dev.onHub 0 fun h => { h with oxQueue := [] }
      let p := d.oxPrepare s.fuse.variant 0 (oxCmd p2 false)
      (s.dev.hub 0).oxPass = none ∧ (s.dev.hub 0).oxQueue = [oxCmd p2 false] ∧ p.1.stop = none ∧
        (p.2.virtLoad s.fuse.variant 0 (p.2.evalMember 0) (0x200080 + 8 + 8 * 1) 8).st = 0) ∧
    (∀ fl ∈ [0, 1], let c := oxCmd true true
      let s := oxing (caching (oxLines 0 fl)) [] (some { cmd := c, waiting := true })
      let r := s.dev.virtLoad s.fuse.variant 0 (s.dev.evalMember 0) (recNat c.record 0 8) 128
      let a := r.d.oxLine s.fuse.variant 0 c 0x10 0x20 (oxLayerN r.data)
      let b := a.2.oxLine s.fuse.variant 0 c 0x18 0x28 16
      (s.dev.hub 0).oxPass = some { cmd := c, waiting := true } ∧ a.1 = (if fl = 1 then .failed else .ready) ∧ b.1 = .none_) ∧
    (let c := { oxCmd true true with step := 2 }
      let s := oxing (caching (oxLines 0 0)) [] (some { cmd := c, waiting := true })
      let r := s.dev.virtLoad s.fuse.variant 0 (s.dev.evalMember 0) (recNat c.record 0 8) 128
      let a := r.d.oxLine s.fuse.variant 0 c 0x10 0x20 (oxLayerN r.data)
      a.1 = .notYet ∧ (a.2.oxLine s.fuse.variant 0 c 0x18 0x28 16).1 = .none_) := by decide +kernel

/-- A scale record of E4M3 with a step and flags. -/
def scaleRecord (step cold : Nat) : List W8 :=
  List.replicate 32 0 ++ toLE 8 step ++ List.replicate 7 0 ++ [3] ++ [15, 16, 0, BitVec.ofNat 8 cold] ++ List.replicate 11 0 ++ [0xC5]

theorem witness_ScalesAreFetchedAndNoted :
    (let q : Queued := { queuedOp 0 1 waits true with da := vec nE4 }
     let s := at_ { (mapped {}) with hubs := [(0, caching [scaleRecord 0 0])], tiles := [(0, ({} : Tile).setQueue 0 [q])]
                                     csr := [((At.tile t0 0x700).home 1, 0x200000)] }
     (s.dev.tile t0).active 0 = some q ∧ q.scaled.contains 0 = true ∧ q.sigma = [] ∧
      (s.dev.fetchScale s.fuse.variant t0 0 (q.operand 0).scaleRec (q.operand 0).fmt q.step).1 = some 0) ∧
    ({ notes := [⟨t0, 0, 0, 0, 0⟩] } : Dev).notes = ⟨t0, 0, 0, 0, 0⟩ :: [] := by decide +kernel

theorem witness_ScaleHistoryRolls :
    (∀ step ∈ [9, 10, 20], ∀ cold ∈ [0, 1], (scaleRecord step cold).length = 64 ∧ recNat (scaleRecord step cold) 0x20 8 = step ∧
      recNat (scaleRecord step cold) 0x33 1 = cold ∧ recNat (scaleRecord step cold) 0x30 1 = 15 ∧
      recNat (scaleRecord step cold) 0x31 1 = 16) ∧ (10 : W64).toNat = 10 ∧ (10 - 1 : W64).toNat = 9 := by decide +kernel

/-! ## Hub slices -/

/-- The last line of the cache of a slice with bytes of 0, clean. -/
def zeroLine : CacheLine := { data := List.replicate 64 0, dirty := false, stamp := 0 }

/-- The last line of an SWK-CW12-F's stack. -/
def lastLine : Nat := 0x30000000 - 1

/-- Slice 11 with its last line cached. -/
def sliced : State := at_ { hubs := [(11, { cache := [(lastLine, zeroLine)], clock := 1 })] }

/-- A request of sector 11's own, at an offset of that line. -/
def atLast (off len : Nat) : SliceReq :=
  { from_ := .sector 11, ctx := 15, tile := some 15, tag := 7, addr := 11 * 0xC00000000 + lastLine * 64 + off, len := len, upset := [] }

/-- A check byte that a read can correct. -/
def oneByteOff : List (Fin 72 × W8) := [(0, 0x80)]

/-- Whether a slice's cache holds a line that it answers from. -/
theorem sliced_holds : cacheHolds sliced 11 lastLine zeroLine :=
  ⟨by decide +kernel, by decide +kernel, by decide +kernel, by decide +kernel, by decide +kernel, by decide +kernel, rfl, by decide +kernel⟩

theorem witness_SliceServesCachedLine :
    cacheHolds sliced 11 lastLine zeroLine ∧ zeroLine.data.length = 64 ∧
      judge (flipData oneByteOff zeroLine.data) (flipCheck oneByteOff (rsCheck zeroLine.data)) = .corrected zeroLine.data ∧
      (atLast 63 1).addr = 11 * 0xC00000000 + lastLine * 64 + 63 ∧ passesPort sliced.dev ⟨atLast 63 1, .read⟩ ∧
      passesPort sliced.dev ⟨atLast 63 1, .write [1]⟩ ∧ (60 + ([1, 2, 3, 4] : List W8).length ≤ 64) ∧
      ∀ op w, passesPort sliced.dev ⟨{ atLast 56 8 with from_ := .host }, .atomic op w 1 2⟩ := by
  refine ⟨sliced_holds, by decide, by decide +kernel, by decide +kernel, ?_, ?_, by decide, ?_⟩
  · intro m k _ h; rw [show SliceJob.cls ⟨atLast 63 1, .read⟩ = none by decide +kernel] at h; cases h
  · intro m k _ h; rw [show SliceJob.cls ⟨atLast 63 1, .write [1]⟩ = none by decide +kernel] at h; cases h
  · intro op w m k h1; exact absurd h1 (by simp [portOf])

/-- A slice whose line 5 is being filled, for one read that waits. -/
def filling (o : Option (W8 × List W8)) : State :=
  at_ { hubs := [(0, { fills := [{ line := 5, waiters := [⟨{ from_ := .host, ctx := 0, tile := none, tag := 3, addr := 5 * 64 + 63, len := 1, upset := [] }, .read⟩], outcome := o }] })] }

theorem witness_MissesFillTheCache :
    (let q : SliceReq := { atLast 63 1 with from_ := .host }
     let h := ({} : State).dev.hub 11
     q.addr = 11 * 0xC00000000 + lastLine * 64 + 63 ∧ lastLine < Variant.f.stackGiB * 2 ^ 30 / 64 ∧ 11 < Variant.f.sectors ∧
      h.fenced = false ∧ h.lost lastLine = false ∧ h.unfilledAt lastLine = false ∧ h.cached lastLine = none ∧ h.fills = [] ∧
      portOf q.from_ = none) ∧
    (let s := filling none
     let h := s.dev.hub 0
     5 < s.fuse.variant.stackGiB * 2 ^ 30 / 64 ∧ h.lost 5 = false ∧ h.unfilledAt 5 = false ∧
      s.dev.storedCheck 0 5 = rsCheck (s.dev.storedData 0 5) ∧ (h.fills.find? (fun g => g.line == 5)).any (fun f => f.outcome.isNone) = true) ∧
    let s := filling (some (0, List.replicate 64 9))
    let h := s.dev.hub 0
    h.lost 5 = false ∧ h.cached 5 = none ∧
      (h.fills.find? (fun g => g.line == 5)).any (fun f => decide (f.outcome = some (0, List.replicate 64 9) ∧
        ∀ j ∈ f.waiters, j.op = .read ∧ j.req.addr / 64 = 0 * 0x30000000 + 5)) = true := by decide +kernel

theorem witness_StackUpkeep :
    (let h : Hub := { unfilled := [(127, [0])] }
     h.unfilled = [(16255 % 128, [0])] ∧ ([0] : List Nat).contains (16255 / 128) = false) ∧
    (({} : State).dev.hub 11).marginOn = false ∧ 11 < Variant.f.sectors ∧
    let h : Hub := { marginOn := true }
    let m : List (W16 × W16) := List.replicate 136 (63, 30)
    h.marginOn = true ∧ h.marginDone = false ∧ h.chanMap = [] ∧ m.length = 136 ∧ ∀ x ∈ m, 125 ≤ 2 * x.1.toNat ∧ 30 ≤ x.2.toNat := by
  refine ⟨by decide +kernel, by decide +kernel, by decide +kernel, rfl, rfl, rfl, by simp, ?_⟩
  intro x hx
  rw [List.eq_of_mem_replicate hx]
  decide

theorem witness_InvalidationDropsTranslations :
    (∀ t, Requester.mgmt 0 ≠ .core t) ∧ ({} : State).dev.xlDropping = none ∧
      ({ xlDropping := some (1, 2) } : Dev).xlDropping = some (1, 2) := ⟨nofun, rfl, rfl⟩

/-! ## Reduction windows -/

/-- A window entry of slice 0, window 63, with `slots` slots of N elements, a close mode and a buffer at virtual 0x200000. -/
def winEntry (mode : W8) (slots : Nat) : WinEntry :=
  { serial := 0, planId := 1, ctx := 0, index := 0, openTick := 1, closeTick := 2, slice := 0, window := 63, slots := slots, mode := mode
    n := 16, grace := 0, wait := 5, next := 0, nextWindow := none, slotBuf := 0x200000, result := 0x200800, fwd := 0, watch := 0
    capture := 0, opened := true }

/-- The open window 63 of slice 0, with context 0's page 1 mapped. -/
def windowed (x : Window) (tick : W64 := 0) : State :=
  at_ { (mapped {}) with hubs := [(0, { (caching []) with windows := [(63, x)] })], tick := { number := tick } }

/-- A line contributed to slot 0. -/
def redLine (step : W64) : RedLine := { window := 63, slot := 0, offset := 0, step := step, remote := false, data := List.replicate 64 1 }

/-- What a line of step 4 needs to enter window 63, whose step is `st`. -/
abbrev taking (st : Option W64) : Prop :=
  let x : Window := { entry := some (winEntry 0 1), isOpen := true, step := st }
  let s := windowed x
  let e := winEntry 0 1
  (s.dev.hub 0).fenced = false ∧ s.dev.window 0 63 = x ∧ (redLine 4).slot.toNat < e.slots ∧ (redLine 4).offset < e.slotBytes ∧
    (redLine 4).offset % 64 = 0 ∧ (redLine 4).data.length = 64 ∧ (x.step = none ∨ x.step = some 4) ∧
    let r := s.dev.virtStore s.fuse.variant e.ctx (s.dev.evalMember 0) e.slotBuf.toNat ((redLine 4).data.take (min 64 e.slotBytes))
    r.st = 0 ∧ r.d.window 0 63 = x

theorem witness_WindowTakesLines :
    taking none ∧ taking (some 4) ∧
    let x : Window := { entry := some (winEntry 0 1), isOpen := true, step := some 4 }
    x.step = some 4 ∧ (4 : W64) ≠ (redLine 5).step ∧ (windowed x).dev.window 0 63 = x ∧ x.blocked = none ∧ x.expect = none ∧ x.waiting = false := by decide +kernel

theorem witness_WindowsCloseOnTime :
    (∀ m ∈ [0x00, 0x10, 0x20], let x : Window := { entry := some (winEntry m 0), isOpen := true }
      let s := windowed x 2
      s.dev.window 0 63 = x ∧ (winEntry m 0).closeTick.toNat ≤ s.dev.tick.number.toNat ∧
        ((winEntry m 0).mode.extractLsb' 4 2 ≠ 2 ∨ x.complete (winEntry m 0) [] = true)) ∧
    (let x : Window := { entry := some (winEntry 0x20 1), isOpen := true }
     (windowed x 2).dev.window 0 63 = x ∧ (winEntry 0x20 1).mode.extractLsb' 4 2 = 2 ∧ x.complete (winEntry 0x20 1) [] = false) ∧
    let x : Window := { entry := some (winEntry 0x20 1), isOpen := true, waiting := true }
    (windowed x 2).dev.window 0 63 = x := by decide +kernel

/-! ## The tick -/

/-- The CSR file with bits of TICK.CTRL, which bit 0 starts. -/
def ctrl (v : W32) : Tab W32 := [((At.tick 0).home 0, v)]

/-- A device whose ticks run, with these fields. -/
def ticking (t : Tick) (v : W32 := 0x21) : State := at_ { tick := t, csr := ctrl v }

/-- A tick message of root 3. -/
def tickMsg (tick : W64) : TickMsg := { hops := 0, root := 3, value := 7, tick := tick, step := 4, time := 500000 }

theorem witness_TickEdgeBeginsTheNextTick :
    let s := ticking { begun := true, nextEdge := some 1000, pending := true, nextAt := 1 }
    s.dev.tick.nextEdge = some 1000 ∧ (999 : Nat) < 1000 ∧ (1000 : Nat) ≤ 1000 ∧ s.dev.bit (At.tick 0) 0 = true ∧
      s.dev.power.clocksOn = true ∧ s.dev.tick.begun = true ∧ s.dev.seq.collected = [] := by decide +kernel

/-- A slice of tick 3. -/
def slice3 : Slice := { serial := 0, ctx := 0, planId := 1, tick := 3, entry := 0 }

theorem witness_GuardStartFindsLateSlices :
    let s := at_ { tick := { number := 3, begun := true, nextEdge := some 1000 }, tiles := [(0, { run := .running, cur := some slice3 })] }
    s.dev.tick.begun = true ∧ s.dev.tick.nextEdge.isSome = true ∧ s.dev.gander.resetArmed = false ∧ 0 < s.fuse.variant.sectors ∧
      (s.dev.tile t0).run = .running ∧ (s.dev.tile t0).cur = some slice3 ∧ slice3.tick.toNat ≤ s.dev.tick.number.toNat ∧
      slice3.entry.getLsbD 16 = false ∧ slice3.late = false ∧ (s.dev.tile t0).skip.contains slice3.serial = false := by decide +kernel

/-- A write of NEXT_AT_HI with this period and low half. -/
def arming (us lo : W32) : State :=
  at_ { csr := [((At.tick 0).home 0, 0x21), ((At.tick 8).home 0, us), ((At.tick 0x18).home 0, lo)] }

/-- Whether that write keeps the limits. -/
def armsWell (us lo : W32) : Bool :=
  let d := (arming us lo).dev
  d.isRoot && !d.tick.pending && decide (64 ≤ d.fld (At.tick 0x008) 0 12 ∧ d.fld (At.tick 0x008) 0 12 ≤ 4000 ∧
    d.tick.number.toNat + 16 ≤ ((0 : W32) ++ (d.takeLow (.mgmt 0) (At.tick 0x018)).1).toNat)

theorem witness_RootStretchesAndArms :
    (let s := ticking { number := 3, begun := true, nextEdge := some 1000 }
     s.dev.isRoot = true ∧ s.dev.tick.number.toNat ≤ (tickMsg 3).tick.toNat ∧ s.dev.tick.announced ≠ some ((tickMsg 3).tick + 1) ∧
      s.dev.tick.begun = true ∧ s.dev.tick.nextEdge = some 1000 ∧ s.dev.tick.announced ≠ some (s.dev.tick.number + 1) ∧
      1000 ≤ 1000 + 1000 * min (s.dev.fld (At.tick 0x00C) 24 8) ((s.dev.tick.periodUs - 2) / 2)) ∧
    (let s := ticking { number := 3, begun := true, nextEdge := some 1000, upstream := some (15, 0) } 0x41
     s.dev.isRoot = false ∧ s.dev.tick.upstream = some (15, 0) ∧ Tab.look 0 s.dev.tick.requests (tickMsg 3).tick.toNat < (tickMsg 3).value.toNat) ∧
    (∀ t, Requester.mgmt 0 ≠ .core t) ∧
    armsWell 63 16 = false ∧ armsWell 64 15 = false ∧ armsWell 64 16 = true ∧ armsWell 4000 16 = true ∧ armsWell 4001 16 = false :=
  ⟨by decide +kernel, by decide +kernel, nofun, by decide +kernel⟩

/-- A follower in tick 3 whose last edge was at 5000. -/
def following (v : W32) (take : Bool := false) : State :=
  let t : Tick := { number := 3, begun := true, lastEdge := 5000, nextEdge := some 505000, roots := [(3, 3)], upstream := some (15, 0)
                    takeNumber := take }
  at_ { tick := t, csr := ctrl v, links := { ptpPort := 15 } }

theorem witness_FollowersTakeAnnouncements :
    (following 0x41).dev.fromUpstream 14 = false ∧
    ∀ direct : Bool, ∀ m ∈ [tickMsg 4, tickMsg 5],
      let s := following (if direct then 0x41 else 0x81)
      s.dev.fromUpstream 15 = true ∧ m.root = s.dev.rootId ∧ s.dev.tick.announced ≠ some m.tick ∧ s.dev.tick.begun = true ∧
        (s.dev.fld (At.tick 0) 6 2 = if direct then 1 else 2) := by decide +kernel

theorem witness_FollowersTakeMarkers :
    (∀ direct : Bool, let s := following (if direct then 0x41 else 0x81)
      s.dev.isRoot = false ∧ s.dev.bit (At.tick 0) 0 = true ∧ s.dev.tick.roots = [((tickMsg 3).root, 3)] ∧
        s.dev.tick.number.toNat ≤ (3 : W64).toNat + 2 ∧ s.dev.tick.takeNumber = false ∧
        (s.dev.fld (At.tick 0) 6 2 = if direct then 1 else 2) ∧ s.dev.tick.upstream = some (15, (tickMsg 3).hops.toNat) ∧
        s.dev.links.ptpPort = 15) ∧
    (following 0x41 true).dev.tick.takeNumber = true ∧
    (tickMsg 2).tick < (3 : W64) ∧ (tickMsg 3).tick = (3 : W64) ∧ (3 : W64) < (tickMsg 4).tick ∧ (tickMsg 4).tick = (3 : W64) + 1 ∧
    (2 : W16) < (tickMsg 3).root := by decide +kernel

theorem witness_TicksStart :
    ((ticking {} 0x20).dev.isRoot = true ∧ (ticking {} 0x20).dev.bit (At.tick 0) 0 = false) ∧
    ((ticking {} 0x28).dev.isRoot = true ∧ (ticking {} 0x28).dev.bit (At.tick 0) 3 = true ∧ (ticking {} 0x28).dev.bit (At.tick 0) 0 = false) ∧
    ({} : State).dev.tick.reserve = false ∧ (ticking { reserve := true }).dev.tick.reserve = true := by decide +kernel

/-! ## The sequencer -/

/-- A plan header: first tick 1, a count, context 15, no tables. -/
def planHeader (count : Nat) : List (List W8) :=
  [toLE 8 9 ++ toLE 8 1 ++ toLE 4 count ++ toLE 2 1 ++ [15, 0], []]

/-- A collected entry, with the header at physical address 0. -/
def collected (type : W8) (x : Seq) (h : List (List W8)) (tick : W64 := 0) (v : W32 := 0x20) : State :=
  at_ { seq := { x with collected := [{ type := type, address := 0, planId := 9 }] }, hubs := [(0, caching h)], tick := { number := tick }
        csr := ctrl v }

/-- An accepted plan. -/
def somePlan : Plan :=
  { serial := 0, id := 9, first := 5, count := 1, ctx := 0, slices := 0, budgets := 0, programs := 0, drover := 0, troughs := 0, windows := 0 }

/-- The device once the entry is consumed, the header it then reads, and the plan of the header. -/
def consumedDev (s : State) : Dev := { s.dev with seq := { s.dev.seq with collected := [] } }
def headerRead (s : State) : Acc := (consumedDev s).physBytes s.fuse.variant 0 128
def headerPlan (s : State) : Plan := planOfHeader s.dev.seq.nextSerial (headerRead s).data

/-- The fields of a header are in order, as `headerInOrder` has it. -/
abbrev orderly (h : List W8) : Prop :=
  recNat h 0x14 2 = 1 ∧ 1 ≤ recNat h 0x10 4 ∧ recNat h 0x10 4 ≤ 1048576 ∧ recNat h 0x16 1 ≤ 15 ∧ recNat h 0x17 1 = 0 ∧ recNat h 0x48 56 = 0

theorem orderly_eq (h : List W8) : headerInOrder h = orderly h := rfl

/-- What PLAN needs to accept a plan of `count` ticks without windows. -/
abbrev accepting (count : Nat) : Prop :=
  let s := collected 1 {} (planHeader count)
  let v := s.fuse.variant
  let d := (headerRead s).d
  let p := headerPlan s
  let c := (d.planTable v p).2.tileHeld v []
  let w := c.2.planWindows v p (d.tick.number.toNat + 1)
  (headerRead s).st = 0 ∧ s.dev.tick.number.toNat < p.first.toNat ∧ p.count = count ∧ orderly (headerRead s).data ∧
    d.seq.charHold = false ∧ (d.planTable v p).1 = some [] ∧ c.1 = false ∧ w.1 = some [] ∧ w.2.evalRefuses p.ctx [] = false

theorem witness_PlansAreAccepted :
    firstCollected (collected 1 {} (planHeader 1)) 1 0 9 [] ∧ accepting 1 ∧ accepting 1048576 ∧
    (headerPlan (collected 1 {} (planHeader 1) 1)).first.toNat ≤ (collected 1 {} (planHeader 1) 1).dev.tick.number.toNat ∧
    ¬ orderly (headerRead (collected 1 {} (planHeader 0))).data ∧
    ¬ orderly (headerRead (collected 1 {} (planHeader 1048577))).data ∧
    (headerRead (collected 1 { charHold := true } (planHeader 1))).d.seq.charHold = true :=
  ⟨rfl, by decide +kernel, by decide +kernel, by decide +kernel, by decide +kernel, by decide +kernel, by decide +kernel⟩

theorem witness_PlansAreCancelled :
    firstCollected (collected 2 { plans := [somePlan] } []) 2 0 9 [] ∧
    (collected 2 { plans := [somePlan] } []).dev.seq.plans.any
      (fun p => decide (p.id = 9) && p.cancelAt.isNone && decide (0 + 1 < p.endTick)) = true ∧
    firstCollected (collected 2 {} []) 2 0 9 [] ∧ (collected 2 {} []).dev.seq.plans = [] := ⟨rfl, by decide +kernel, rfl, rfl⟩

theorem witness_SequencerEntries :
    (let s := at_ { seq := { collected := [{ type := 4, address := 1, planId := 1 }] }, csr := ctrl 0x20 }
     firstCollected s 4 1 1 [] ∧ s.dev.isRoot = true ∧ s.dev.tick.number.toNat < (1 : W64).toNat ∧ s.dev.tick.step < 1 ∧
      s.dev.seq.stepTop < 1) ∧
    (collected 4 {} [] 0 0).dev.isRoot = false ∧
    (let s := collected 3 {} [[]]
     firstCollected s 3 0 9 [] ∧
      (({ s.dev with seq := { s.dev.seq with collected := [] } } : Dev).physBytes s.fuse.variant 0 64).st = 0) ∧
    (let s := at_ { seq := { collected := [{ type := 4, address := 1, planId := 1 }] }, csr := ctrl 0x20, tick := { number := 1 } }
     s.dev.isRoot = true ∧ (1 : W64).toNat ≤ s.dev.tick.number.toNat) ∧
    (let s := at_ { seq := { collected := [{ type := 4, address := 1, planId := 1 }], stepTop := 1 }, csr := ctrl 0x20 }
     s.dev.isRoot = true ∧ s.dev.tick.number.toNat < (1 : W64).toNat ∧ (1 : W64) ≤ s.dev.seq.stepTop) ∧
    firstCollected (collected 0 {} []) 0 0 9 [] ∧ firstCollected (collected 5 {} []) 5 0 9 [] ∧ (4 : W8) < 5 ∧
    (∀ t, Requester.custody ≠ .core t) := by
  refine ⟨⟨rfl, by decide +kernel, by decide +kernel, by decide +kernel, by decide +kernel⟩, by decide +kernel, ⟨rfl, by decide +kernel⟩,
    by decide +kernel, by decide +kernel, rfl, rfl, by decide, nofun⟩

/-! ## Hangs, resets and recovery -/

/-- Gander with AUTO_RECOVER as given and a unit stalled for 255 samples. -/
def stalled (u : BitVec 16) (auto : W32) : State :=
  at_ { gander := { samples := [(u.toNat, (0, 255))] }, csr := [((At.gander 0).home 0, auto)]
        seq := { standbyReady := true } }

/-- Units of each kind of treatment, and the first level of their recovery. -/
def hangCases : List (BitVec 16 × FirstLevel) :=
  [(unitNo 0x01 0, .local_ (.tile t0)), (unitNo 0x02 0, .local_ (.engine t0 0)), (unitNo 0x03 11, .parts (partBit 11)),
   (unitNo 0x0F 3, .parts (partBit 9 ||| partBit 10 ||| partBit 11)), (unitNo 0x00 0, .warm), (unitNo 0x14 0, .core 0), (unitNo 0x14 1, .core 1)]

theorem witness_HungUnitsAreTreated :
    (∀ e ∈ hangCases, ∀ auto : Bool,
      let d := (stalled e.1 (if auto then 0x1F else 0x0F)).dev
      d.dev.inWarm = false ∧ (unitPart e.1).any (fun n => d.cutOff n) = false ∧ d.fld (At.gander 0x000) 0 4 + 1 ≤ (d.sampled e.1).2 ∧
        d.firstLevel e.1 = e.2 ∧ d.bit (At.gander 0x000) 4 = auto) ∧
    (let d := ({} : State).dev
     ¬ d.fld (At.gander 0x000) 0 4 + 1 ≤ (d.sampled (unitNo 0x03 0)).2 ∧ d.firstLevel (unitNo 0x03 0) = .parts (partBit 0)) ∧
    (at_ { dev := { inWarm := true } }).dev.dev.inWarm = true ∧ ({} : State).dev.activeCore = 0 := by decide +kernel

/-- A device in the recovery of partition 11 at a step. -/
def recoveringAt (st : RecStep) : State := at_ { gander := { recoveries := [(4, { step := st, parts := partBit 11, cause := 1 })] } }

theorem recoveringAt_holds (st : RecStep) : recovering (recoveringAt st).dev 11 { step := st, parts := partBit 11, cause := 1 } 4 := by
  refine ⟨by cases st <;> decide +kernel, rfl, rfl, ?_⟩
  intro e he _
  simpa [recoveringAt, at_] using he

theorem witness_ParityErrorsAreTreated :
    unitPart (unitNo 0x03 11) = some 11 ∧ ({} : State).dev.gander.recovery 11 = none ∧
    (∀ st, (recoveringAt st).dev.gander.recovery 11 = some (4, { step := st, parts := partBit 11, cause := 1 })) ∧
    unitPart (unitNo 0x14 0) = none ∧ unitKind (unitNo 0x14 1) = 0x14 ∧ unitIndex (unitNo 0x14 0) = ({} : State).dev.activeCore ∧
    unitIndex (unitNo 0x14 1) ≠ ({} : State).dev.activeCore ∧ unitPart (unitNo 0x0F 3) = none ∧ unitKind (unitNo 0x0F 3) = 0x0F ∧
    unitPart (unitNo 0x15 0) = none ∧ unitKind (unitNo 0x15 0) = 0x15 ∧ ({} : State).dev.dev.inWarm = false ∧
    (at_ { dev := { inWarm := true } }).dev.dev.inWarm = true := by
  refine ⟨by decide, by decide +kernel, fun st => by cases st <;> decide +kernel, ?_⟩
  decide +kernel

theorem witness_RecoveriesGoStepByStep :
    (∀ st, recovering (recoveringAt st).dev 11 { step := st, parts := partBit 11, cause := 1 } 4) ∧
    ({ step := .fence, parts := partBit 11, cause := 1 } : Recovery).answers 11 = true ∧
    ({ step := .reset, parts := partBit 11, cause := 1 } : Recovery).restored.getLsbD 11 = false ∧
    (0 : BitVec 12) ||| partBit 11 = partBit 11 ∧ (recoveringAt .snapshot).dev.gander.slot < 4 ∧
    (recoveringAt .reset).dev.dev.inWarm = false ∧ ({} : Retain).intact {} = true ∧
    ({ copy0 := { valid := false }, copy1 := { valid := false } } : Retain).intact {} = false := by
  refine ⟨recoveringAt_holds, by decide +kernel, by decide +kernel, by decide +kernel, by decide +kernel, by decide +kernel, by decide +kernel, by decide +kernel⟩

theorem witness_FailedRecoveriesEscalate :
    ({} : State).dev.dev.inWarm = false ∧ (at_ { dev := { inWarm := true } }).dev.dev.inWarm = true ∧
    (let s := at_ { gander := { lastReset := some (.tile t0, 2) } }
     s.dev.gander.lastReset = some (.tile t0, 2) ∧ s.dev.gander.recovery 0 = none ∧ 0 < s.fuse.variant.sectors) ∧
    (at_ { gander := { lastReset := some (.engine t0 8, 3) } }).dev.gander.lastReset = some (.engine t0 8, 3) ∧
    (recoveringAt .reset).dev.gander.recovery 11 = some (4, { step := .reset, parts := partBit 11, cause := 1 }) ∧
    (recoveringAt .fence).dev.gander.recovery 11 = some (4, { step := .fence, parts := partBit 11, cause := 1 }) := by decide +kernel

theorem witness_StandbySequencerTakesOver :
    (let s := at_ { seq := { standbyReady := true, ckpt := some (Seq.toStandby {} 0) } }
     s.dev.seq.standbyReady = true ∧ s.dev.seq.ckpt.isSome = true) ∧ ({} : State).dev.seq.standbyReady = false ∧
      ({} : State).dev.dev.inWarm = false ∧ (at_ { seq := { failedCore := true } }).dev.seq.failedCore = true := by decide +kernel

/-- A device with DISABLE naming a unit. -/
def naming (u : BitVec 16) (d : Dev) : State := at_ { d with csr := [((At.gander 0x02C).home 0, u.setWidth 32)] }

/-- Whether a unit may be disabled or enabled, by its kind, as the statement has it. -/
abbrev mayDisable (u : BitVec 16) : Bool := [0x01, 0x04, 0x05, 0x08, 0x0B, 0x11].contains (u.toNat / 2048)

theorem witness_OwnerRequests :
    (let s := naming (unitNo 0x0B 11) {}
     let u := BitVec.ofNat 16 (s.dev.fld (At.gander 0x02C) 0 16)
     s.dev.gander.disabling = none ∧ mayDisable u = true ∧ (s.dev.entry s.fuse.variant u).state = stReady) ∧
    (let s := naming (unitNo 0x11 0)
       (({} : Dev).setEntry .f (unitNo 0x11 0) { ledgerInit .f (unitNo 0x11 0) with state := stDisabled })
     let u := BitVec.ofNat 16 (s.dev.fld (At.gander 0x02C) 0 16)
     s.dev.gander.disabling = none ∧ mayDisable u = true ∧ (s.dev.entry s.fuse.variant u).state = stDisabled) ∧
    mayDisable (BitVec.ofNat 16 (({} : State).dev.fld (At.gander 0x02C) 0 16)) = false ∧
    (at_ { gander := { disabling := some ⟨0, 0⟩ } }).dev.gander.disabling.isSome = true ∧
    ({} : State).fuse.lc ≠ 0 ∧ ({} : State).dev.sec.debugLevel.toNat < 2 ∧ 2 ≤ ({ debugLevel := 2 } : Sec).debugLevel.toNat := by
  decide +kernel

/-! ## Clocks, temperatures and ageing -/

theorem witness_EmergenciesAndTrips :
    (at_ { power := { emergency := true } }).dev.power.emergency = true ∧ ({} : State).dev.power.emergency = false ∧
    (0 : Fin 3).val ≠ 2 ∧ (1 : Fin 3).val ≠ 2 ∧ (109 : W8).toNat < 110 ∧ 110 ≤ (110 : W8).toNat ∧ ({} : State).dev.power.trip = false ∧
    ∀ k, k < ({} : State).fuse.variant.sectors → (({} : State).dev.hub k).refresh < 2 := by decide +kernel

theorem witness_CharacterisationRuns :
    ∀ k ∈ [1, 2, 3, 4], (at_ { power := { charPhase := k } }).dev.power.charPhase = k := by decide +kernel

/-- A reading with every sector idle. -/
def coolReading : Telemetry :=
  { pu := 0, pd := List.replicate 12 0, thot := 0x42000000, totalW := 100, computeW := 50, hottestC := 32, hotSector := 0 }

/-- The clock chosen rises by 100 MHz at most, from 950 on. -/
theorem choose_le (v : Variant) (p : Power) (tel : Telemetry) (us top : Nat) (held : Bool) :
    (p.choose v tel us top held).1 ≤ max 950 (p.clock + 100) := by
  simp only [Power.choose]
  generalize hx : clockSteps.find? _ = o
  cases o with
  | none => simp
  | some f =>
    have h := List.find?_some hx
    simp only [Bool.and_eq_true, decide_eq_true_eq] at h
    simp only [Option.getD_some]
    omega

theorem witness_ForecastsAndRefits :
    (∃ f, f = (({ floorMhz := 1900 } : Power).choose .f coolReading 500 1900 false).1 ∧ f < ({ floorMhz := 1900 } : Power).floorMhz) ∧
    ({} : State).dev.tick.begun = false ∧ (at_ { tick := { begun := true } }).dev.tick.begun = true ∧
    (at_ { power := { maintCount := 1 } }).dev.power.maintCount % 1024 ≠ 0 ∧
    (at_ { power := { maintCount := 1024 } }).dev.power.maintCount % 1024 = 0 ∧ 950 ≤ ({} : State).dev.power.fAge := by
  refine ⟨⟨_, rfl, lt_of_le_of_lt (choose_le ..) (by decide)⟩, by decide +kernel⟩

/-! ## Cold resets and the settings record -/

theorem witness_PinsStartColdResets :
    (999 : Nat) < 1000 ∧ (1000 : Nat) ≤ 1000 ∧ ({} : State).dev.pins.pwrOk = true ∧ ({} : State).dev.dev.inReset = false ∧
    (let s := at_ { dev := { inReset := true }, pins := { pwrOk := false } }
     s.dev.dev.inReset = true ∧ s.dev.pins.pwrOk = false) ∧ ({} : State).dev.dev.bootHeld = none := by decide +kernel

/-- A boot that meets nothing wrong. -/
def cleanBoot : BootReport :=
  { powerUp := false, testMode := false, failedUnits := [], sidePathOk := true
    fit := { thetaF := 0, tauF := 0, thetaS := 0, tauS := 0, loc := [], rms := 0, coolant := 0, sustain := 0 } }

theorem witness_BootsToReadyOrRecovery :
    (let s := at_ { dev := { inReset := true, ready := false }, pins := { faultN := false } }
     s.dev.pins.pwrOk = true ∧ s.dev.dev.inReset = true ∧ s.dev.dev.ready = false ∧ s.dev.pins.faultN = false ∧
      s.dev.sec.recovery = false ∧ s.fuse.state ≠ lcScrapped ∧ cleanBoot.testMode = false ∧ cleanBoot.sidePathOk = true) ∧
    let s := at_ { dev := { inReset := true, ready := false, bootHeld := some cleanBoot }, pins := { faultN := false, pwrOk := false } }
    s.dev.dev.bootHeld = some cleanBoot ∧ s.dev.pins.resetN = true := by decide +kernel

theorem witness_SettingsAreWrittenCopyByCopy :
    (let s := at_ { retain := { changed := true } }
     s.dev.retain.changed = true ∧ s.dev.retain.writing = none ∧ s.dev.dev.inReset = false) ∧
    ∀ k : Bool, (at_ { retain := { writing := some (k, {}) } }).dev.retain.writing = some (k, {}) := by decide +kernel

/-! ## Security -/

/-- A token of kind 1 that names another device. -/
def someToken : Token :=
  { magic := 0, kind := 1, level := 2, slot := 0, rsv007 := 0, uid := 0, nonce := 0, validTicks := 5, rsv03c := 0, keyHash := 0
    newSlot := 0, revoke := 0, policy := 0, rsv083 := 0, signerPub := 0, signature := 0 }

/-- A device with a security command in progress. -/
def securing (c : SecCmd) : State := at_ { sec := { busy := some (c, none) } }

/-- A request of device 3's management stream at port 15, with a PSN. -/
def mgmtAt (psn : W32) (epoch : BitVec 4 := 0) (vc : BitVec 2 := 3) (addr : W64 := 0) (len : W16 := 8) : MgmtReq :=
  { port := 15, onMgmt := false
    hdr := { epoch := epoch, retx := false, host := false, hops := 0, src := 3, dst := 0, stream := 0, vc := vc, ctx := 0, psn := psn
             ackPsn := 0, length := len, status := 0, queue := 0, addr := addr, aux := 0, ce := none } }

/-- A device whose port 15 is up. -/
def managed (d : Dev) (f : Fuses := {}) : State :=
  { dev := { d with links := { ports := [(15, { up := true, mode := 1 })] } }, fuse := f }

theorem managed_asked (d : Dev) (addr : W64 := 0) (len : W16 := 8) : asksInTurn (managed d) (mgmtAt 0 0 3 addr len) := by
  refine ⟨?_, ⟨rfl, .inl ⟨?_, rfl, rfl, rfl⟩⟩, rfl, rfl, rfl, rfl⟩
  · exact fun h => absurd h (by decide : ({} : Fuses).state ≠ lcScrapped)
  · exact (by decide : (15 : Nat) ≠ 16)

theorem witness_TokensArriveOneAtATime :
    tokenRow .debug ∧ tokenRow .vendorDebug ∧ tokenRow .ownership ∧ tokenRow .ownerKey ∧ tokenRow .returnAuth ∧ tokenRow .returnVendor ∧
    tokenRow .scrap ∧ ({ fuse := { lcFuses := lcScrapped, lcTwins := lcScrapped } } : State).fuse.state = lcScrapped ∧
    (∀ d, asksInTurn (managed d) (mgmtAt 0)) ∧ (managed {}).dev.mgmtFenced = false ∧ (managed {}).dev.sec.busy = none ∧
    (let s := managed { sec := { busy := some (.token someToken, none) } }
     s.dev.mgmtFenced = false ∧ s.dev.sec.busy.isSome = true) ∧
    (managed { dev := { inReset := true }, sec := { bootStep := 3 } }).dev.mgmtFenced = true := by
  refine ⟨.inl rfl, .inr (.inl rfl), .inr (.inr (.inl rfl)), .inr (.inr (.inr (.inl rfl))), .inr (.inr (.inr (.inr (.inl rfl)))),
    .inr (.inr (.inr (.inr (.inr (.inl rfl))))), .inr (.inr (.inr (.inr (.inr (.inr rfl))))), by decide +kernel,
    fun d => managed_asked d, by decide +kernel⟩

theorem witness_TokensTakeEffect :
    ({} : State).dev.sec.busy = none ∧ (securing (.token someToken)).dev.sec.busy = some (.token someToken, none) ∧
    tokenCheck someToken ({} : State).fuse ({} : State).dev.sec.nonce ({} : State).dev.sec.armed ≠ 0 := by decide +kernel

theorem witness_FirmwareControlAndExpiries :
    (securing (.toVendor 1 [1])).dev.sec.busy = some (.toVendor 1 [1], none) ∧
    ({} : State).dev.takesCommands ({} : State).fuse = true ∧ ({} : State).dev.sec.busy = none ∧
    (securing (.firmware true true true true)).dev.takesCommands {} = true ∧
    (securing (.firmware true true true true)).dev.sec.busy = some (.firmware true true true true, none) ∧
    (at_ { dev := { inReset := true }, sec := { bootStep := 3 } }).dev.takesCommands {} = false ∧
    (let s : State := { fuse := { lcFuses := lcBlank, lcTwins := lcBlank }, dev := { pins := { testMode := true } } }
     s.fuse.state = lcBlank ∧ s.dev.pins.testMode = true ∧ s.dev.sec.busy = none ∧ s.dev.dev.inReset = false) ∧
    ({} : State).fuse.state ≠ lcBlank ∧ ({} : State).dev.pins.testMode = false := by decide +kernel

/-! ## Ports, frames and the clock -/

/-- A device with one port. -/
def porting (p : Nat) (x : Port) (d : Dev := {}) : State := at_ { d with links := { d.links with ports := [(p, x)] } }

/-- A training that finds every lane good. -/
def trained (lanes : Nat) : TrainReport := { up := true, lanes := lanes, badLanes := [], eq := some 5, latencyNs := 12, peer := 7, peerPort := 15 }

theorem witness_PortsTrain :
    (porting 16 { up := true } {}).dev.port 16 = { up := true } ∧ (15 : Nat) < Variant.f.ports ∧
    (({} : State).dev.port 16).up = false ∧
    let s := porting 15 {} { csr := [((At.port 15 0).home 0, 1)] }
    s.dev.portOn s.fuse.variant 15 = true ∧ (s.dev.port 15).up = false ∧ s.dev.fld (At.port 15 0) 0 2 = 1 ∧ (s.dev.port 15).due = 0 ∧
      (trained 4).badLanes = [] ∧ (trained 4).up = true ∧ Variant.f.ports ≤ 16 ∧
      ¬ (s.dev.portOn s.fuse.variant 14 = true) := by decide +kernel

theorem witness_FramesAtPorts :
    (({} : State).dev.frames 16 = false) ∧ (porting 16 { up := true, mode := 2 }).dev.frames 16 = true ∧
    (porting 0 { up := true, mode := 2 }).dev.frames 0 = true ∧
    (({} : State).dev.bit (At.host 0x000) 9 = false ∨ ({} : State).dev.frames 16 = false) ∧
    let s := porting 16 { up := true, mode := 2 } { csr := [((At.host 0).home 0, 0x200)] }
    s.dev.frames 16 = true ∧ s.dev.bit (At.host 0x000) 9 = true := by decide +kernel

/-- The PTP time receiver on port 0, an Ethernet port that is up. -/
def ptpOn (x : Ptp) : State := at_ { links := { ports := [(0, { up := true, mode := 2 })], ptpPort := 0, ptp := x } }

theorem witness_PtpFollowsItsMaster :
    (0 : Nat) = (ptpOn {}).dev.links.ptpPort ∧ (ptpOn {}).dev.frames 0 = true ∧ (ptpOn {}).dev.links.ptp.master = none ∧
    (let y := (ptpOn { master := some (5, 9) }).dev.links.ptp
     y.master = some (5, 9) ∧ (4 : W64) ≠ 5 ∧ y.master.isSome = true) ∧
    (ptpOn { awaiting := some 100 }).dev.links.ptp.awaiting = some 100 ∧
    (ptpOn { syncAt := some (90, 100) }).dev.links.ptp.syncAt = some (90, 100) := by decide +kernel

theorem witness_PacketsLeaveInFrames :
    (porting 0 { up := true, mode := 2 }).dev.port 0 = { up := true, mode := 2 } ∧ (({} : State).dev.port 16).mode ≠ 1 ∧
    (porting 0 { up := true, mode := 2, paused := 0xFF }).dev.port 0 = { up := true, mode := 2, paused := 0xFF } := by decide +kernel

theorem witness_ConnectionsAndRoutes :
    (let s := at_ { hubs := [(0, caching [[2]])] }
     let d := s.dev.setFld (At.host 0x040) 0 8 0
     let r := d.physBytes s.fuse.variant (d.connAddr 0) 64
     (s.dev.conn 0).state = 0 ∧ r.st = 0 ∧ (recNat r.data 0 1 = 1 ∨ recNat r.data 0 1 = 2)) ∧
    (let s := at_ { hubs := [(0, caching [[3]])] }
     let d := s.dev.setFld (At.host 0x040) 0 8 0
     let r := d.physBytes s.fuse.variant (d.connAddr 0) 64
     (s.dev.conn 0).state = 0 ∧ r.st = 0 ∧ ¬ (recNat r.data 0 1 = 1 ∨ recNat r.data 0 1 = 2)) ∧
    (at_ { links := { conns := [(255, { state := 2 })] } }).dev.conn 255 = { state := 2 } ∧
    ({} : State).dev.links.routeLoading = false ∧ (at_ { links := { routeLoading := true } }).dev.links.routeLoading = true := by
  decide +kernel

/-! ## RoCEv2 connections -/

/-- Connection 255 of a kind, open, behind a host port that is up, with a grant of everything for key 0 and line 1 behind it. -/
def connected (c : Conn) (d : Dev := {}) : State :=
  at_ { d with links := { ports := [(16, { up := true, mode := 2 })], conns := [(255, c)] }
               hubs := [(0, caching [[0, 0, 0, 0, 7, 0, 0xFF, 0xFF] ++ toLE 8 0 ++ toLE 8 0x1000, []])] }

/-- An open RoCEv2 connection at PSN 16,777,215, with requests outstanding. -/
def roceConn (os : List Outstanding := []) (tries : Nat := 0) : Conn :=
  { state := 1, kind := 1, expected := 0xFFFFFF, outstanding := os, tries := tries }

/-- The headers of a packet of one message on it, at address 0x40. -/
def roceHdr (psn : W32) (key : W32) (len : Nat) : RoceHdr :=
  { qp := localQp 255, psn := psn, addr := 0x40, rkey := key, len := len, first := true, last := true, ce := none }

theorem roce_open (os : List Outstanding) (n : Nat) : roceOpen (connected (roceConn os n)).dev 255 := ⟨rfl, rfl, rfl⟩

theorem witness_RoceRequestsInTurn :
    (roceHdr 0xFFFFFF 0 64).qp = localQp (255 : W8).toNat ∧ roceOpen (connected roceConn).dev 255 ∧
    psn24 ((roceHdr 0xFFFFFF 0 64).psn - ((connected roceConn).dev.conn 255).expected) = 0 ∧
    (let s := connected roceConn { sectors := [(0, { troughs := [(0, { producer := 0x11, hostq := 0 })] })] }
     (s.dev.takeMessage (s.dev.conn 255).queue [1, 2]).1 = true) ∧
    (let s := connected { roceConn with queue := 64 }
     (s.dev.takeMessage (s.dev.conn 255).queue [1, 2]).1 = false) ∧
    (let s := connected roceConn
     let p := s.dev.admitHost s.fuse.variant 255 0 0x40 64 false true
     let q := p.2.2.admitHost s.fuse.variant 255 0 0x40 4 false true
     p.1 = 0 ∧ q.1 = 0 ∧ (q.2.2.writeIn s.fuse.variant q.2.2.tick.step q.2.1 [1, 2, 3, 4]).st = 0 ∧
      (s.dev.admitHost s.fuse.variant 255 0x100 0x40 64 false true).1 ≠ 0) ∧
    (let s := connected roceConn
     let p := s.dev.admitHost s.fuse.variant 255 0 0x40 64 true false
     p.1 = 0 ∧ (p.2.2.readOut s.fuse.variant p.2.1).st = 0 ∧ (s.dev.admitHost s.fuse.variant 255 0x100 0x40 64 true false).1 ≠ 0) := by
  refine ⟨rfl, roce_open [] 0, by decide +kernel, by decide +kernel, by decide +kernel, by decide +kernel, by decide +kernel⟩

theorem witness_RoceRequestsOutOfTurn :
    (let a := (psn24 ((roceHdr 0 0 64).psn - ((connected roceConn).dev.conn 255).expected)).toNat
     0 < a ∧ a < 2 ^ 23) ∧
    2 ^ 23 ≤ (psn24 ((roceHdr 0xFFFFFE 0 64).psn - ((connected roceConn).dev.conn 255).expected)).toNat ∧
    (let s := connected { roceConn with lastNotify := some 1 } { csr := [((At.host 0).home 0, 0x100)] }
     s.dev.bit (At.host 0x000) 8 = true ∧ (s.dev.conn 255).lastNotify = some 1 ∧ 50000 < 1 + 50000 ∧ 1 + 50000 ≤ 50001) ∧
    (∀ i : W8, ¬ roceOpen ({} : State).dev i) := by
  refine ⟨by decide +kernel, by decide +kernel, by decide +kernel, ?_⟩
  intro i h
  have : (({} : State).dev.port 16).up = true := h.1
  exact absurd this (by decide +kernel)

/-- A request sent and not answered. -/
def sentReq (op : W8) (psn : W32) (tries : Nat := 0) : Outstanding := { psn := psn, op := op, addr := 0, data := [], tag := 9, sent := true, tries := tries }

theorem witness_RoceRequesterCompletes :
    (∀ op n, let s := connected (roceConn [sentReq op 5] n)
      roceOpen s.dev 255 ∧ (s.dev.conn 255).outstanding = [sentReq op 5] ∧ (s.dev.conn 255).tries = n) ∧
    (1 : W8) ≠ 0x02 ∧ (psn24 (5 - 5)).toNat < 2 ^ 23 ∧ (sentReq 2 5).psn = (roceHdr 5 0 0).psn ∧
    2 ^ 23 ≤ (psn24 (psn24 (5 - 1) - 5)).toNat ∧ (0x20 : W8).toNat / 32 = 1 ∧ (0x61 : W8) ≠ nakSequence ∧ (0x61 : W8).toNat / 32 ≠ 1 ∧
    (let s := connected roceConn { csr := [((At.host 0).home 0, 0x100)] }
     s.dev.bit (At.host 0x000) 8 = true ∧ (s.dev.conn 255).lastSlow = none) ∧ (({} : State).dev.conn 255).state ≠ 1 := by
  refine ⟨fun op n => ⟨roce_open _ _, rfl, rfl⟩, by decide, by decide, rfl, by decide, by decide, by decide, by decide, by decide +kernel, by decide +kernel⟩

/-! ## Nimser streams -/

/-- A header from device 3 on channel 2. -/
def nimHdr (psn ackPsn : W32) (status : W8 := 0) (epoch : BitVec 4 := 0) : NimHdr :=
  { epoch := epoch, retx := false, host := false, hops := 0, src := 3, dst := 0, stream := 0, vc := 2, ctx := 0, psn := psn, ackPsn := ackPsn
    length := 0, status := status, queue := 0, addr := 0, aux := 0, ce := none }

/-- The stream of that channel behind port 15. -/
def streamed (x : NimStream) : State :=
  at_ { links := { ports := [(15, { up := true, mode := 1 })], streams := [(streamKey (.peer 3 2), x)] } }

theorem streamed_arrives (x : NimStream) (h : NimHdr) (a : h.host = false) (b : h.dst = 0) (c : h.src = 3) (e : h.vc = 2) :
    arrives (streamed x).dev 15 h (.peer 3 2) := ⟨rfl, .inl ⟨by decide, a, b, by rw [c, e]⟩⟩

/-- The same for an open Nimser host connection. -/
theorem host_arrives : arrives (connected { state := 1, kind := 2 }).dev 16 { nimHdr 0 0 with host := true, stream := 255 } (.conn 255) :=
  ⟨rfl, .inr ⟨rfl, rfl, by decide, rfl, rfl, by decide⟩⟩

theorem witness_NimserExecutesInOrder :
    (∀ psn, arrives (streamed {}).dev 15 (nimHdr psn 0) (.peer 3 2)) ∧ (nimHdr 0 0).ce = none ∧
    asks 15 (nimHdr 0 0) (.readReq 15 (nimHdr 0 0)) .read 0x02 [] ∧ asks 15 (nimHdr 0 0) (.push 15 (nimHdr 0 0) [1]) (.push [1]) 0x05 [1] ∧
    (nimHdr 0 0 0 1).epoch ≠ ((streamed {}).dev.nim (streamKey (.peer 3 2))).epoch ∧
    (nimHdr 0 0).psn = ((streamed {}).dev.nim (streamKey (.peer 3 2))).expected ∧ ((1 : W32) - 0).toNat < 2 ^ 31 ∧
    2 ^ 31 ≤ ((0xFFFFFFFF : W32) - 0).toNat :=
  ⟨fun _ => streamed_arrives _ _ rfl rfl rfl rfl, rfl, .inr (.inl ⟨rfl, rfl, rfl, rfl⟩), .inr (.inr (.inr (.inr ⟨rfl, rfl, rfl⟩))), by decide,
    by decide +kernel, by decide, by decide⟩

/-- A device whose table sends traffic for device 9 out of port 14, which is up. -/
def routing : State :=
  at_ { links := { ports := [(14, { up := true, mode := 1, peer := 9 }), (15, { up := true, mode := 1 })] } }

theorem witness_NimserForwards :
    (({} : State).dev.port 15).up = false ∧ (({} : State).dev.conn 0).state ≠ 1 ∧
    (let h := { nimHdr 0 0 with dst := 9 }
     (routing.dev.port 15).up = true ∧ h.host = false ∧ h.dst ≠ routing.dev.deviceId ∧ h.hops.toNat < 15 ∧
      asks 15 h (.readReq 15 h) .read 0x02 [] ∧ brings 15 h (.nimserAck 15 h) 0x10 []) ∧
    15 ≤ ({ nimHdr 0 0 with hops := 15 } : NimHdr).hops.toNat := by
  refine ⟨by decide +kernel, by decide +kernel, ⟨rfl, rfl, by decide +kernel, by decide, .inr (.inl ⟨rfl, rfl, rfl, rfl⟩), .inl ⟨rfl, rfl, rfl⟩⟩, by decide⟩

theorem witness_NimserHandshakes :
    let s := streamed { resyncing := true, reqEpoch := 1 }
    (s.dev.nim (streamKey (.peer 3 2))).resyncing = true ∧ arrives s.dev 15 (nimHdr 0 0xFFFFFFFF 0 1) (.peer 3 2) ∧
      (nimHdr 0 0xFFFFFFFF 0 1).epoch = (s.dev.nim (streamKey (.peer 3 2))).reqEpoch ∧ (nimHdr 0 0xFFFFFFFF 0 1).ackPsn = 0xFFFFFFFF ∧
      (nimHdr 0 0xFFFFFFFF 0 0).epoch ≠ (s.dev.nim (streamKey (.peer 3 2))).reqEpoch ∧ (nimHdr 0 0 0 1).ackPsn ≠ 0xFFFFFFFF :=
  ⟨rfl, streamed_arrives _ _ rfl rfl rfl rfl, rfl, rfl, by decide +kernel, by decide⟩

theorem witness_NimserKeepsInStep :
    ((streamed {}).dev.nim (streamKey (.peer 3 2))).unacked = 0 ∧ 0 < ((streamed { unacked := 1 }).dev.nim (streamKey (.peer 3 2))).unacked ∧
    arrives (streamed {}).dev 15 (nimHdr 0 0 0 1) (.peer 3 2) ∧
    (nimHdr 0 0 0 1).epoch = ((streamed {}).dev.nim (streamKey (.peer 3 2))).epoch + 1 ∧
    (let s := connected { state := 1, kind := 2 } { csr := [((At.host 0).home 0, 0x100)] }
     s.dev.ecnOn 16 = true ∧ (s.dev.nim (streamKey (.conn 255))).lastSlow = none ∧ (nimHdr 0 0).epoch = (s.dev.nim (streamKey (.conn 255))).reqEpoch) := by
  refine ⟨by decide +kernel, by decide +kernel, streamed_arrives _ _ rfl rfl rfl rfl, by decide +kernel, by decide +kernel⟩

theorem witness_NimserRequesterCompletes :
    (∀ op n, let s := streamed { outstanding := [sentReq op 5 n] }
      arrives s.dev 15 (nimHdr 0 5) (.peer 3 2) ∧ (s.dev.nim (streamKey (.peer 3 2))).outstanding = [sentReq op 5 n] ∧
        (s.dev.nim (streamKey (.peer 3 2))).resyncing = false ∧ (nimHdr 0 5).epoch = (s.dev.nim (streamKey (.peer 3 2))).reqEpoch) ∧
    (sentReq 1 5).sent = true ∧ (sentReq 1 5).tag ≠ 0 ∧ (sentReq 1 5).acked = false ∧ ((nimHdr 0 5).ackPsn - 5).toNat < 2 ^ 31 ∧
    (sentReq 2 5).psn = (nimHdr 0 5).ackPsn ∧ 2 ^ 31 ≤ ((nimHdr 0 4).ackPsn - 5).toNat ∧ (nimHdr 0 4).status ≠ 1 := by
  refine ⟨fun op n => ⟨streamed_arrives _ _ rfl rfl rfl rfl, rfl, rfl, rfl⟩, rfl, by decide, rfl, by decide, rfl, by decide, by decide⟩

/-! ## Flits -/

/-- A flit with these fields and a CRC of 0. -/
def flitOf (seq ack : BitVec 12) (ackValid : Bool) : Flit :=
  { seq := seq, ack := ack, ackValid := ackValid, nak := false, vc := 3, sop := true, eop := false, used := 244, crvc := 0, credits := 0
    payload := List.replicate 244 1, crc := 0 }

/-- A flit that carries the CRC of its bytes is good. -/
theorem sealed_good (idle : Bool) (f : Flit) : flitGood idle (flitSealed idle f) = true := by
  cases idle <;> exact decide_eq_true rfl

theorem witness_FlitsAreAcknowledgedAndReplayed :
    (let x := (porting 15 { up := true, mode := 1, rxSeq := 0xFFF }).dev.port 15
     let f := flitSealed false (flitOf 0xFFF 0 false)
     x.up = true ∧ x.mode = 1 ∧ f.seq = x.rxSeq ∧ f.eop = false ∧ f.ackValid = false ∧ f.nak = false ∧ x.rxUnacked < 255 ∧
      (flitSealed false (flitOf 0 0 false)).seq ≠ x.rxSeq) ∧
    (∀ idle f, flitGood idle (flitSealed idle f) = true) ∧
    (let g := flitSealed false (flitOf 9 0 false)
     let x := (porting 15 { up := true, mode := 1, replayBuf := [g], rxUnacked := 1 }).dev.port 15
     x.up = true ∧ x.mode = 1 ∧ x.txQueue = [] ∧ x.replayBuf = [g] ∧ (flitSealed true (flitOf 0 9 true)).ack = g.seq ∧ x.replays < 8 ∧
      0 < x.rxUnacked) ∧
    (porting 15 { up := true, mode := 1, replays := 8, replayBuf := [flitOf 9 0 false] }).dev.port 15 =
      { up := true, mode := 1, replays := 8, replayBuf := [flitOf 9 0 false] } ∧ (({} : State).dev.port 15).up = false :=
  ⟨⟨rfl, rfl, rfl, rfl, rfl, rfl, by decide +kernel, by decide +kernel⟩, sealed_good,
    ⟨rfl, rfl, rfl, rfl, rfl, by decide +kernel, by decide +kernel⟩, rfl, rfl⟩

theorem witness_FlitsCarryCommands :
    (nimHdr 0 0).ce = none ∧ ([] : List W8).length = (nimHdr 0 0).length.toNat ∧
    asks 15 (nimHdr 0 0) (.readReq 15 (nimHdr 0 0)) .read 0x02 [] ∧ brings 15 (nimHdr 0 0) (.resync 15 (nimHdr 0 0)) 0x17 [] ∧
    (0x17 : W8) ≠ 0x16 :=
  ⟨rfl, rfl, .inr (.inl ⟨rfl, rfl, rfl, rfl⟩), .inr (.inr (.inr (.inr (.inr (.inr ⟨rfl, rfl, rfl⟩))))), by decide⟩

/-! ## CSR access and the management path -/

/-- A register that an access by a management stream finds, of a half. -/
abbrev placed (addr half : Nat) : Prop :=
  (csrPlace (.mgmt 0) addr).any (fun l => decide (l.desc.any (fun x => decide (x.half = half)) = true ∧ l.blockId .f = none ∧
    l.there .f = true ∧ l.block ≠ .gander ∧ l.block ≠ .sect)) = true

theorem witness_CsrReadsAreAnswered :
    csrAsk (.mgmt 0) 0x110 (.rcRead (.mgmt 0) 0x110) none ∧ csrAsk (.mgmt 0) 0x110 (.csrLoRead (.mgmt 0) 0x110) none ∧
    ({} : State).fuse.state ≠ lcScrapped ∧ ({} : State).dev.mgmtFenced = false ∧ csrPlace (.mgmt 0) 0x111 = none ∧
    csrPlace (.mgmt 0) 0xFFFFFFC = none ∧ csrPlace (.core t0) 0x110 = none ∧ placed 0x100 1 ∧ placed 0x104 2 ∧ placed 0x004 0 ∧
    ({ fuse := { lcFuses := lcScrapped, lcTwins := lcScrapped } } : State).fuse.state = lcScrapped ∧
    (at_ { dev := { inReset := true }, sec := { bootStep := 3 } }).dev.mgmtFenced = true := by
  refine ⟨.inl ⟨0x110, .inr rfl, rfl, rfl⟩, .inl ⟨0x110, .inl rfl, rfl, rfl⟩, ?_⟩
  decide +kernel

theorem witness_CsrWritesTakeEffect :
    csrAsk (.mgmt 0) 0x2B00030 (.generalCsrWrite (.mgmt 0) 0x2B00030 5) (some 5) ∧ 0x2000000 + 11 * 0x100000 + 0x030 = 0x2B00030 ∧
    (csrPlace (.core t0) (Block.base .sect 0 + 0)).any (fun l => !programWrites l.off) = true ∧
    (csrPlace (.core t0) (Block.base .sect 0 + 4)).isSome = true ∧
    (csrPlace (.mgmt 0) 0).any (fun l => l.desc.any fun x => decide (x.mask (fun a => decide (a ≠ .ro) && decide (a ≠ .rc)) = 0)) = true ∧
    (csrPlace (.mgmt 0) (Block.base .hub 0 + 0x110)).any (fun l => l.desc.any fun x => decide (x.half = 1 ∧ l.there .f = true ∧
      x.mask (fun a => decide (a ≠ .ro) && decide (a ≠ .rc)) ≠ 0)) = true := by
  refine ⟨.inr ⟨0x2B00030, 5, rfl, rfl, rfl⟩, by decide, ?_⟩
  decide +kernel

theorem witness_ManagementRequestsArrive :
    mgmtRow (mgmtAt 0) (.csrReadRequest (mgmtAt 0).toVia (mgmtAt 0).hdr 0) ∧ mgmtRow (mgmtAt 0) (.getVersion (mgmtAt 0)) ∧
    ({ fuse := { lcFuses := lcScrapped, lcTwins := lcScrapped } } : State).fuse.state = lcScrapped ∧
    (mgmtAt 0).hdr.dst = (managed {}).dev.deviceId ∧ (managed {}).fuse.state ≠ lcScrapped ∧
    (∀ psn e vc, arrives (managed {}).dev (mgmtAt psn e vc).port (mgmtAt psn e vc).hdr (askedOn (mgmtAt psn e vc))) ∧
    (let x := (managed {}).dev.nim (streamKey (askedOn (mgmtAt 0)))
     (mgmtAt 0 1).hdr.epoch ≠ x.epoch ∧ (mgmtAt 1).hdr.psn ≠ x.expected ∧ ((mgmtAt 1).hdr.psn - x.expected).toNat < 2 ^ 31 ∧
      2 ^ 31 ≤ ((mgmtAt 0xFFFFFFFF).hdr.psn - x.expected).toNat) ∧ askedOnMgmt (mgmtAt 0 0 2) = false ∧
    asksInTurn (managed {}) (mgmtAt 0 0 3 0x110 8) ∧ asksInTurn (managed {}) (mgmtAt 0 0 3 0x110 4) ∧
    (managed {}).dev.mgmtFenced = false ∧ (0x110 : W32).toNat = (mgmtAt 0 0 3 0x110 8).hdr.addr.toNat := by
  refine ⟨.inl ⟨0, rfl⟩, .inr (.inr (.inr (.inr (.inr (.inr (.inr (.inr (.inr (.inl rfl))))))))), by decide +kernel, rfl, by decide +kernel,
    fun _ _ _ => ⟨rfl, .inl ⟨(by decide : (15 : Nat) ≠ 16), rfl, rfl, rfl⟩⟩, by decide +kernel, by decide +kernel, managed_asked .., managed_asked ..,
    by decide +kernel⟩

theorem witness_ManagementOperations :
    (∀ a d, asksInTurn (managed d) (mgmtAt 0 0 3 a)) ∧
    (managed { dev := { inReset := true }, sec := { bootStep := 3 } }).dev.mgmtFenced = true ∧
    let s := managed { hubs := [(0, caching [[]])], sec := { debugLevel := 1 } }
    s.dev.mgmtFenced = false ∧ s.dev.sec.recovery = false ∧ true ≠ s.dev.sec.running ∧
      (0xFFFFC0 : W64).toNat % 64 = 0 ∧ (List.replicate 64 (0 : W8)).length = 64 ∧ (0xFFFFC0 : W64).toNat + 64 ≤ 0x1000000 ∧
      1 ≤ s.dev.sec.debugLevel.toNat ∧ ((requestTaken s (mgmtAt 0)).physBytes s.fuse.variant 0 64).st = 0 ∧
      ((requestTaken s (mgmtAt 0)).physBytes s.fuse.variant (2 ^ 47) 64).st ≠ 0 ∧ s.fuse.state ≠ lcReturned ∧
      inQuireOrScratch 0 4 = true ∧ ((requestTaken s (mgmtAt 0)).physStore s.fuse.variant 0 [1, 2, 3, 4]).st = 0 ∧
      (65535 : W32).toNat + (1 : W64).toNat ≤ 65536 ∧ (3 : W32).toNat < 4 :=
  ⟨fun a d => managed_asked d a, by decide +kernel, by decide +kernel⟩

theorem witness_SpdmAnswers :
    (∀ d, asksInTurn (managed d) (mgmtAt 0)) ∧ (managed {}).dev.mgmtFenced = false ∧
    (managed { dev := { inReset := true }, sec := { bootStep := 3 } }).dev.mgmtFenced = true ∧
    (managed { dev := { inWarm := true } }).dev.dev.inWarm = true ∧ (managed { dev := { inWarm := true } }).dev.dev.inReset = false :=
  ⟨fun d => managed_asked d, by decide +kernel⟩

theorem witness_SidebandAndTap :
    2 ≤ ({} : State).dev.sec.bootStep.toNat ∧ ({} : State).dev.pins.i3cAddr = none ∧
    (at_ { sec := { bootStep := 1 } }).dev.sec.bootStep.toNat < 2 ∧ (at_ { pins := { i3cAddr := some 8 } }).dev.pins.i3cAddr.isSome = true ∧
    ({ fuse := { lcFuses := lcScrapped, lcTwins := lcScrapped } } : State).fuse.state = lcScrapped ∧
    ({} : State).fuse.lc ≠ 0 ∧ ({} : State).dev.sec.debugLevel.toNat < 2 ∧ ({ fuse := { lcFuses := 0, lcTwins := 0 } } : State).fuse.lc = 0 := by
  decide +kernel

/-! ## The ledger, events and reset -/

/-- A unit with a transition that waits for its acknowledgement. -/
def movingUnit (u : BitVec 16) : State :=
  at_ (({} : Dev).setEntry .f u { ledgerInit .f u with state := stFenced, pending := true })

theorem witness_LedgerMatchesTheUnits :
    (({} : State).dev.entry .f 0).pending = false ∧ ((movingUnit 0).dev.entry .f 0).pending = true ∧
    (({} : State).dev.entry .f 0).state = stReady ∧ (({} : State).dev.entry .f (unitNo 0x1F 0)).state = stAbsent ∧
    ([(0, stReady), (unitNo 0x1F 0, stAbsent)] : List (BitVec 16 × BitVec 4)).Pairwise (fun a b => a.1 ≠ b.1) ∧
    (let u := unitNo 0x14 1
     let s := movingUnit u
     unitKind u = 0x14 ∧ unitIndex u = 1 - s.dev.activeCore ∧ (s.dev.entry .f u).pending = true ∧ (s.dev.entry .f u).state ≠ stAbsent ∧
      s.dev.ledgerMismatches < 0xFF) ∧
    [unitNo 0x14 0, unitNo 0x11 15, unitNo 0x13 0, unitNo 0x03 11, unitNo 0x10 0].all (fun u =>
      decide ((({} : State).dev.entry .f u).pending = false ∧ (({} : State).dev.entry .f u).state ≠ stFenced ∧
        (({} : State).dev.entry .f u).state ≠ stAbsent ∧ unitKind u ≠ 0x17) &&
        (unitPart u).all (fun n => decide (({} : State).dev.gander.recovery n = none))) = true := by decide +kernel

/-- A held record of number 1. -/
def heldRecord : EventRec := ({} : Dev).record 0x03 {}

theorem witness_EventsAreNumberedAndHeld :
    (at_ { csr := [((At.dev 0x124).home 0, 0x20)] }).dev.bit (At.dev 0x124) 5 = true ∧ ({} : State).dev.bit (At.dev 0x124) 5 = false ∧
    ({} : State).dev.events.held.length < 4096 ∧ ({} : State).dev.eventConn = none ∧
    (let s := connected roceConn { csr := [((At.host 0).home 0, 0x1FF0000)], events := { held := [heldRecord] } }
     s.dev.events.held = heldRecord :: [] ∧ s.dev.eventConn.isSome = true ∧ s.dev.eventRoom heldRecord.seq.toNat = true ∧
      s.dev.events.lostFirst = none) := by decide +kernel

/-! ## The manual's worked examples, and one step each of a few commands -/

/-- ADD g5, g5, 64 is 0x0102_5284 (worked example on encodings). -/
theorem test_add_word : encOp 0x01 ⟨64, true, 5, 5⟩ = .scalar 0x01025284 ∧
    ctisDecode t0 (.scalar 0x01025284) = some (.add t0 ⟨64, true, 5, 5⟩) := by decide +kernel

/-- LAYER.OPEN of layer 17 => s6 -> t9 (same example). -/
theorem test_layer_open_word : ctisDecode t0 (.tensor 0x00000000000000000000110001A4C09F) =
    some (.layerOpen t0 { wait := 0, greg := 0, mod := 17, dc := 0, db := 0, da := 0, sreg := 6, se := true, token := 9, te := true }) := by
  decide +kernel

/-- SYNC.TICK wait(t0, t3) (same example). -/
theorem test_sync_tick_word : ctisDecode t0 (.tensor 0x0000000000000009000000000000005F) =
    some (.syncTick t0 { wait := 9, greg := 0, mod := 0, dc := 0, db := 0, da := 0, sreg := 0, se := false, token := 0, te := false }) := by
  decide +kernel

/-- The block with 1,000, 3.0, −0.75 and 0.004 (worked example on an outlier): its last four bytes and three element codes. -/
theorem test_outlier_block :
    let xs := (List.range 32).map fun i => if i = 5 then FVal.ofInt 1000 else if i = 9 then FVal.ofInt 3
      else if i = 20 then .fin true 3 (-2) else if i = 30 then bf16 0x3B83 else .zero
    let b := writeBlock nCB8E4 (encodeBlock nCB8E4 xs).1
    b.drop 32 = [0x79, 0x85, 0x7A, 0x44] ∧ b[9]? = some 0x74 ∧ b[20]? = some 0xE4 ∧ b[30]? = some 0x28 := by decide +kernel

/-- 1 + 2^−10 times 1 + 2^−9 under P1, P2 and P3 (worked example on pass order). -/
theorem test_pass_order :
    let a := splitHiLo true (.fin false 1025 (-10))
    let b := splitHiLo true (.fin false 513 (-9))
    (accElement 0 0 [(a, b)]).1 = 0x3F800000 ∧ (accElement 0 1 [(a, b)]).1 = 0x3F802000 ∧ (accElement 0 2 [(a, b)]).1 = 0x3F806000 := by
  decide +kernel

/-- Groups 0 and 1 of the worked example on truncation: 1, and then 1 + 2^−23. -/
theorem test_group_truncation :
    let one := (FVal.ofInt 1, FVal.ofInt 1)
    let small := (FVal.fin false 3 (-15), FVal.fin false 1 (-14))
    let zero := (FVal.zero, FVal.zero)
    let g0 := one :: (List.replicate 16 small ++ List.replicate 15 zero)
    let g1 := zero :: (List.replicate 16 small ++ List.replicate 15 zero)
    (accPass 0 g0).1 = 0x3F800000 ∧ (accPass 0 (g0 ++ g1)).1 = 0x3F800001 := by decide +kernel

/-- The CF4 block coded by hand (worked example): its 30 bytes, and the codes they decode to. -/
theorem test_coded_block :
    let codes := (List.range 256).map fun i => if i = 0 then 2 else if i = 9 then 0xB else if i = 17 then 7 else 0
    let hdr : List W8 := [0x08, 0x14, 0, 0, 2, 4, 2, 2, 2, 2, 2, 2]
    let body : List W8 := [0xC1, 0x9F, 0xA0, 0x2F, 0xFE, 0x00, 0xFC, 0x0D, 0xFC, 0x0D, 0xFC, 0x0D, 0xFC, 0x0D, 0xFC, 0x0D, 0xFC, 0x0D]
    codeBlock nCF4 8 true codes [] = (hdr ++ body, false) ∧ judgeBlock nCF4 8 hdr body = (0, codes) := by decide +kernel

/-- A substream declared one byte short (same example): OPERAND_LONG. -/
theorem test_short_substream :
    let hdr : List W8 := [0x08, 0x14, 0, 0, 2, 3, 2, 2, 2, 2, 2, 2]
    let body : List W8 := [0xC1, 0x9F, 0xA0, 0x2F, 0xFE, 0xFC, 0x0D, 0xFC, 0x0D, 0xFC, 0x0D, 0xFC, 0x0D, 0xFC, 0x0D, 0xFC, 0x0D]
    (judgeBlock nCF4 8 hdr body).1 = sOperandLong := by decide +kernel

/-- The window of the worked example on a straggler: slots 1, 1, 4 + 1 and 1 with a mean over 5 contributions. -/
theorem test_deferred_mean :
    let one : List W8 := [0, 0, 0x80, 0x3F] ++ List.replicate 60 0
    let four : List W8 := [0, 0, 0x80, 0x40] ++ List.replicate 60 0
    let e : WinEntry := winEntry 0x04 4
    (foldWindow e [⟨0, 0, 1, one⟩, ⟨1, 0, 1, one⟩, ⟨2, 0, 1, one⟩, ⟨3, 0, 1, one⟩] [⟨2, 0, 0, four⟩] 0xF 0x4 5).head? = some 0x3FCCCCCD := by
  decide +kernel

/-- The roll of the worked example on a scale: a maximum of 600 gives σ = 3, and one of 180 gives 1. -/
theorem test_scale_roll :
    let r := fun (m : Nat) => List.replicate 32 (0 : W8) ++ toLE 8 999 ++ toLE 4 m ++ [0, 0, 1, 3] ++ List.replicate 15 0 ++ [0xC5]
    (scaleFetch nE4 1000 (r 0x44160000)).2 = some 3 ∧ (scaleFetch nE4 1000 (r 0x43340000)).2 = some 1 := by decide +kernel

/-- Physical tile 5 of sector 2 is unit 0x0827 (the manual's example after R535). -/
theorem test_unit_number : unitNo 0x01 (17 * 2 + 5) = 0x0827 := by decide

/-- A dividend of −2^63 by −1 (R81). -/
theorem test_div_limit :
    let s := core (encOp 0x0C ⟨2, false, 1, 3⟩) fun x => withG 1 0x8000000000000000 (withG 2 0xFFFFFFFFFFFFFFFF x)
    ((after (exec (.div t0 ⟨2, false, 1, 3⟩) s)).dev.tile t0).regs.rg 3 = 0x8000000000000000 := by decide +kernel

/-- Every bit of a sum past 2^64 is dropped, and the core goes on 4 bytes further. -/
theorem test_add_wraps :
    let y := (after (exec (.add t0 ⟨1, true, 1, 3⟩) (core (encOp 0x01 ⟨1, true, 1, 3⟩) (withG 1 0xFFFFFFFFFFFFFFFF)))).dev.tile t0
    y.regs.rg 3 = 0 ∧ y.pc = 4 := by decide +kernel

/-- LDB of 0x80 is sign-extended (R82). -/
theorem test_ldb_sign :
    let s := accessAt 0x01 5
    let s' : State := { s with dev := { s.dev with tileMem := [(5, 0x80)] } }
    ((after (exec (.ldb t0 memA) s')).dev.tile t0).regs.rg 2 = 0xFFFFFFFFFFFFFF80 := by decide +kernel

/-- A misaligned word: the trap saves pc, cause 0x09 and the address, and goes on at the vector (R83, R108). -/
theorem test_misaligned_trap :
    let y := (after (exec (.ldw t0 memA) (accessAt 0x03 6))).dev.tile t0
    y.cause = 0x09 ∧ y.info = 6 ∧ y.trapPc = 0 ∧ y.pc = 0x100 ∧ y.inTrap = true := by decide +kernel

/-- A jump backwards: the link and the target (R87). -/
theorem test_jal_back :
    let w := encCtrl 0x01 (0xFFFFF#20 ++ 1#5)
    let s := core w
    let s' : State := { s with dev := { s.dev with imem := Mem.store [] 8 (word w), tiles := [(0, { run := .running, pc := 8 })] } }
    let y := (after (exec (.jal t0 0xFFFFF 1) s')).dev.tile t0
    y.regs.rg 1 = 12 ∧ y.pc = 4 := by decide +kernel

/-- The table gives no command a word (Decode.lean). -/
theorem test_table_gives_no_words : decodeTableWord 32 0x01025284 = none := by decide

/-! ## Ill-formed commands are refused (WellFormed.lean), and well-formed ones beside them are not -/

theorem test_wf_telemetry :
    (Instr.tickEdge { coolReading with pd := [] } 0).wellFormed = false ∧ (Instr.tickEdge coolReading 0).wellFormed = true ∧
    (Instr.clockForecast { coolReading with pd := [0] }).wellFormed = false ∧
    (Instr.guardStart { coolReading with pd := [] } []).wellFormed = false ∧
    (Instr.guardStart coolReading [⟨1, true, 0⟩, ⟨1, false, 0⟩]).wellFormed = false ∧
    (Instr.guardStart coolReading [⟨1, true, 0⟩, ⟨2, false, 0⟩]).wellFormed = true := by decide +kernel

theorem test_wf_slice_requests :
    (Instr.sliceRead 0 (atLast 1 64)).wellFormed = false ∧ (Instr.sliceRead 0 (atLast 0 0)).wellFormed = false ∧
    (Instr.sliceRead 0 (atLast 0 64)).wellFormed = true ∧ (Instr.sliceWrite 0 (atLast 0 2) [1]).wellFormed = false ∧
    (Instr.sliceWrite 0 (atLast 63 2) [1, 2]).wellFormed = false ∧
    (Instr.sliceAtomic 0 (atLast 0 4) .add false 0 0).wellFormed = false ∧ (Instr.sliceAtomic 0 (atLast 2 4) .add true 0 0).wellFormed = false ∧
    (Instr.sliceAtomic 0 (atLast 65 4) .add true 0 0).wellFormed = false ∧
    (Instr.sliceAtomic 0 (atLast 8 8) .add false 0 0).wellFormed = true := by decide +kernel

theorem test_wf_stacks :
    (Instr.quireBurstComplete 0 0 ⟨List.replicate 5 ⟨true, []⟩⟩).wellFormed = false ∧
    (Instr.scrubRead 0 0 ⟨[⟨false, List.replicate 33 ⟨0, 0, false⟩⟩]⟩).wellFormed = false ∧
    (Instr.scrubRead 0 0 ⟨[⟨false, List.replicate 32 ⟨0, 0, false⟩⟩]⟩).wellFormed = true ∧ (Instr.marginSweepDone 0 []).wellFormed = false ∧
    (Instr.redLineWrite 0 { redLine 0 with offset := 1 }).wellFormed = false ∧
    (Instr.redLineWrite 0 { redLine 0 with data := [1] }).wellFormed = false ∧ (Instr.redLineWrite 0 (redLine 0)).wellFormed = true ∧
    (Instr.partitionResetDone 0 [1, 1] []).wellFormed = false ∧ (Instr.partitionResetDone 0 [] [1, 1]).wellFormed = false := by decide +kernel

theorem test_wf_power_and_boot :
    (Instr.charPhaseEnd cleanBoot.fit).wellFormed = false ∧ (Instr.ageingRefit [] []).wellFormed = false ∧
    (Instr.ageingRefit (List.replicate 12 ⟨0, 0, none, 0, 0, 0⟩) [(0, 0), (0, 0)]).wellFormed = false ∧
    (Instr.ageingRefit (List.replicate 12 ⟨0, 0, none, 0, 0, 0⟩) [(0, 0), (1, 0)]).wellFormed = true ∧
    (Instr.resetNRelease cleanBoot).wellFormed = false ∧
    (let f : CharFit := { cleanBoot.fit with loc := List.replicate 12 0 }
     (Instr.resetNRelease { cleanBoot with fit := f }).wellFormed = true ∧
     (Instr.resetNRelease { cleanBoot with fit := f, failedUnits := [1, 1] }).wellFormed = false) ∧
    (Instr.bracketVoteClose ⟨0, 0, 0, 0, 3⟩).wellFormed = false := by decide +kernel

theorem test_wf_links :
    (Instr.portTrainingDone 0 (trained 9)).wellFormed = false ∧ (Instr.portTrainingDone 0 { trained 4 with badLanes := [1, 1] }).wellFormed = false ∧
    (Instr.roceAck (roceHdr 0x1000000 0 0)).wellFormed = false ∧ (Instr.roceRdmaWrite (roceHdr 0 0 1) [1, 2]).wellFormed = false ∧
    (Instr.readReq 0 { nimHdr 0 0 with hops := 16 }).wellFormed = false ∧ (Instr.write 0 (nimHdr 0 0) [1]).wellFormed = false ∧
    (Instr.write 0 { nimHdr 0 0 with length := 1 } [1]).wellFormed = true ∧
    (Instr.flitData 0 { flitOf 0 0 false with payload := [] }).wellFormed = false ∧
    (Instr.flitIdle 0 { flitOf 0 0 false with used := 245 }).wellFormed = false ∧
    (Instr.flitData 0 (flitOf 0 0 false)).wellFormed = true := by decide +kernel

theorem test_wf_custody : let m := mgmtAt 0
    (Instr.debug m { someToken with kind := 2 }).wellFormed = false ∧ (Instr.debug m someToken).wellFormed = true ∧
    (Instr.vendorDebug m someToken).wellFormed = false ∧ (Instr.ownership m someToken).wellFormed = false ∧
    (Instr.ownerKey m someToken).wellFormed = false ∧ (Instr.returnAuth m someToken).wellFormed = false ∧
    (Instr.returnVendor m someToken).wellFormed = false ∧ (Instr.scrap m someToken).wellFormed = false ∧
    (Instr.blankToVendor 0 [1, 2, 3, 4, 5]).wellFormed = false ∧ (Instr.spdmUnsupportedRequest m 0x84).wellFormed = false ∧
    (Instr.ledgerSweep [(1, 0), (1, 1)]).wellFormed = false := by decide +kernel

/-- DEV.VARIANT_LO at 0x014 is a half (R10, R541), DEV.ID at 0 is none; no register lies at 0xFFFFFFC. -/
theorem test_wf_registers :
    (Instr.csrLoRead .custody 0x014).wellFormed = true ∧ (Instr.csrLoRead .custody 0).wellFormed = false ∧
    (Instr.rcRead .custody 0).wellFormed = false ∧ (Instr.rcRead .custody 0xFFFFFFC).wellFormed = false := by decide +kernel

end Sys2Proof.Tests
end

section
/-!
SUPPORT. CSR accesses (R9 to R13, R86, R289, R532, R542 to R544): the held halves of a requester, what reads and writes of one register do,
and what an access answers.
-/

namespace Sys2Proof

/-! ## Entries of a table found by key -/

theorem Tab.find?_drop {α : Type} (k : Nat) (m : Tab α) : (Tab.drop k m).find? (fun e => e.1 == k) = none := by
  simpa [List.find?_eq_none] using Tab.drop_free k m

theorem Tab.find?_ins {α : Type} (k : Nat) (v : α) (m : Tab α) (hm : ∀ e ∈ m, e.1 ≠ k) :
    (Tab.ins k v m).find? (fun e => e.1 == k) = some (k, v) := by
  induction m with
  | nil => simp [Tab.ins]
  | cons e r ih =>
    obtain ⟨a, b⟩ := e
    have ha : a ≠ k := hm (a, b) (by simp)
    simp only [Tab.ins]
    split
    · simp
    · simp [ha, ih fun e he => hm e (by simp [he])]

/-- An entry written over what its key had is the one found. -/
theorem Tab.find?_ins_drop {α : Type} (k : Nat) (v : α) (m : Tab α) :
    (Tab.ins k v (Tab.drop k m)).find? (fun e => e.1 == k) = some (k, v) :=
  Tab.find?_ins k v _ (Tab.drop_free k m)

/-- A write at one key leaves what another reads, whatever value each takes where none is listed. -/
theorem Tab.look_put_ne {α : Type} [DecidableEq α] (d d' : α) (m : Tab α) {k j : Nat} (v : α) (h : j ≠ k) :
    Tab.look d' (Tab.put d m k v) j = Tab.look d' m j := by
  unfold Tab.put
  split
  · rw [Tab.look_drop, if_neg h]
  · rw [Tab.look_ins _ _ _ _ (Tab.drop_free k m), if_neg h, Tab.look_drop, if_neg h]

namespace Machine

open Sys2Proof.Claims

/-! ## Held halves (R10) -/

@[simp] theorem Dev.setHeld_csr (d : Dev) (h : Halves) : (d.setHeld h).csr = d.csr := rfl
@[simp] theorem Dev.setHeld_outbox (d : Dev) (h : Halves) : (d.setHeld h).outbox = d.outbox := rfl
@[simp] theorem Dev.setHeld_links (d : Dev) (h : Halves) : (d.setHeld h).links = d.links := rfl
@[simp] theorem Dev.held_send (d : Dev) (m : OutMsg) (r : Requester) : (d.send m).held r = d.held r := rfl
@[simp] theorem Dev.captureHi_csr (d : Dev) (r : Requester) (k : Nat) (w : W32) : (d.captureHi r k w).csr = d.csr := rfl
@[simp] theorem Dev.captureHi_outbox (d : Dev) (r : Requester) (k : Nat) (w : W32) : (d.captureHi r k w).outbox = d.outbox := rfl
@[simp] theorem Dev.captureHi_links (d : Dev) (r : Requester) (k : Nat) (w : W32) : (d.captureHi r k w).links = d.links := rfl

@[simp] theorem Dev.held_requester (d : Dev) (r : Requester) : (d.held r).requester = r := by
  unfold Dev.held
  split
  · next h hf => simpa using List.find?_some hf
  · rfl

/-- What was set is what its requester holds; where that is nothing, no entry is kept. -/
theorem Dev.held_setHeld (d : Dev) {h : Halves} {r : Requester} (hr : h.requester = r) : (d.setHeld h).held r = h := by
  obtain ⟨q, hi, lo⟩ := h
  obtain rfl : q = r := hr
  unfold Dev.held Dev.setHeld
  by_cases he : (hi.isEmpty && lo.isEmpty) = true
  · have hnone : (d.halves.filter (fun x => !decide (x.requester = q))).find? (fun x => decide (x.requester = q)) = none := by
      simp [List.find?_eq_none]
    simp only [he, if_true, hnone]
    simp_all
  · simp [he]

/-- A captured upper half is what the requester holds for its register. -/
theorem Dev.held_captureHi (d : Dev) (r : Requester) (k : Nat) (w : W32) :
    ((d.captureHi r k w).held r).readHi.find? (fun e => e.1 == k) = some (k, w) := by
  rw [Dev.captureHi, Dev.held_setHeld]
  · exact Tab.find?_ins_drop ..
  · exact d.held_requester r

/-- The device once a requester has read the upper half it held for a register. -/
def Dev.dropHi (d : Dev) (r : Requester) (k : Nat) : Dev :=
  d.setHeld { d.held r with readHi := Tab.drop k (d.held r).readHi }

theorem Dev.held_dropHi (d : Dev) (r : Requester) (k : Nat) :
    ((d.dropHi r k).held r).readHi.find? (fun e => e.1 == k) = none := by
  rw [Dev.dropHi, Dev.held_setHeld]
  · exact Tab.find?_drop ..
  · exact d.held_requester r

/-- The device once a requester holds a lower half for a register. -/
def Dev.holdLo (d : Dev) (r : Requester) (k : Nat) (w : W32) : Dev :=
  d.setHeld { d.held r with writeLo := Tab.ins k w (Tab.drop k (d.held r).writeLo) }

theorem Dev.held_holdLo (d : Dev) (r : Requester) (k : Nat) (w : W32) :
    ((d.holdLo r k w).held r).writeLo.find? (fun e => e.1 == k) = some (k, w) := by
  rw [Dev.holdLo, Dev.held_setHeld]
  · exact Tab.find?_ins_drop ..
  · exact d.held_requester r

/-! ## The CSR file -/

@[simp] theorem Dev.reg_send (d : Dev) (m : OutMsg) (l : CsrLoc) : (d.send m).reg l = d.reg l := rfl
@[simp] theorem Dev.hub_send (d : Dev) (m : OutMsg) (n : Nat) : (d.send m).hub n = d.hub n := rfl
@[simp] theorem Dev.tile_send (d : Dev) (m : OutMsg) (t : TileRef) : (d.send m).tile t = d.tile t := rfl
@[simp] theorem Dev.tile_onTile (d : Dev) (t : TileRef) (f : Tile → Tile) : (d.onTile t f).tile t = f (d.tile t) :=
  Dev.tile_setTile ..
@[simp] theorem Dev.reg_onRetain (d : Dev) (f : Retain → Retain) (l : CsrLoc) : (d.onRetain f).reg l = d.reg l := rfl

@[simp] theorem Dev.setReg_outbox (d : Dev) (l : CsrLoc) (v : W32) : (d.setReg l v).outbox = d.outbox := by rw [Dev.setReg_frame]
@[simp] theorem Dev.setReg_hubs (d : Dev) (l : CsrLoc) (v : W32) : (d.setReg l v).hubs = d.hubs := by rw [Dev.setReg_frame]
@[simp] theorem Dev.setReg_links (d : Dev) (l : CsrLoc) (v : W32) : (d.setReg l v).links = d.links := by rw [Dev.setReg_frame]

/-- A register with another home reads as before. -/
theorem Dev.reg_setReg_ne (d : Dev) {l l' : CsrLoc} {x x' : RegDesc} (v : W32) (hx : l.desc = some x) (hx' : l'.desc = some x')
    (h : l'.home x'.scope ≠ l.home x.scope) : (d.setReg l v).reg l' = d.reg l' := by
  simp [Dev.reg, Dev.setReg, hx, hx', Tab.look_put_ne _ _ _ _ h]

/-! ## Reads of one register (R10, R11) -/

@[simp] theorem Dev.clearRead_outbox (d : Dev) (l : CsrLoc) (x : RegDesc) : (d.clearRead l x).outbox = d.outbox := by
  unfold Dev.clearRead; dsimp only; split_ifs <;> simp

@[simp] theorem Dev.clearRead_links (d : Dev) (l : CsrLoc) (x : RegDesc) : (d.clearRead l x).links = d.links := by
  unfold Dev.clearRead; dsimp only; split_ifs <;> simp

/-- In the CSR file a read clears the RC fields of its register, and no more. -/
theorem Dev.clearRead_csr (d : Dev) (l : CsrLoc) (x : RegDesc) :
    (d.clearRead l x).csr =
      if x.mask (fun a => decide (a = .rc)) = 0 then d.csr
      else (d.setReg l (d.reg l &&& ~~~x.mask (fun a => decide (a = .rc)))).csr := by
  unfold Dev.clearRead; dsimp only; split_ifs <;> rfl

theorem Dev.reg_congr {d e : Dev} (h : d.csr = e.csr) (l : CsrLoc) : d.reg l = e.reg l := by simp [Dev.reg, h]

/-- A read clears the RC fields. -/
theorem Dev.reg_clearRead (d : Dev) {l : CsrLoc} {x : RegDesc} (hx : l.desc = some x) :
    (d.clearRead l x).reg l = d.reg l &&& ~~~x.mask (fun a => decide (a = .rc)) := by
  by_cases hm : x.mask (fun a => decide (a = .rc)) = 0
  · rw [Dev.reg_congr (e := d) (by simp [Dev.clearRead_csr, hm]), hm]
    exact BitVec.and_allOnes.symm
  · rw [Dev.reg_congr ((d.clearRead_csr l x).trans (if_neg hm))]
    exact Dev.reg_setReg d l _ (by simp [hx])

/-- A read changes no register with another home. -/
theorem Dev.reg_clearRead_ne (d : Dev) {l l' : CsrLoc} {x x' : RegDesc} (hx : l.desc = some x) (hx' : l'.desc = some x')
    (h : l'.home x'.scope ≠ l.home x.scope) : (d.clearRead l x).reg l' = d.reg l' := by
  by_cases hm : x.mask (fun a => decide (a = .rc)) = 0
  · exact Dev.reg_congr (by simp [Dev.clearRead_csr, hm]) l'
  · rw [Dev.reg_congr ((d.clearRead_csr l x).trans (if_neg hm))]
    exact Dev.reg_setReg_ne d _ hx hx' h

section
variable {f : Fuses} {d : Dev} {r : Requester} {l : CsrLoc} {x : RegDesc}

/-- A read of a `_LO` register, CORE_CYCLES apart. -/
theorem Dev.readReg_lo (hx : l.desc = some x) (hb : l.blockId f.variant = none) (ht : l.there f.variant = true)
    (hc : ¬ (l.block = .sect ∧ (l.off = 0x020 ∨ l.off = 0x024))) (h1 : x.half = 1) :
    d.readReg f r l = (d.shown f l, d.captureHi r (l.home x.scope) (d.shown f { l with off := l.off + 4 })) := by
  have hc' : (decide (l.block = .sect) && (decide (l.off = 0x020) || decide (l.off = 0x024))) = false := by
    simpa using hc
  simp [Dev.readReg, hb, hx, ht, hc', h1]

/-- A read of an `_HI` register, CORE_CYCLES apart: the half its requester holds, else the register. -/
theorem Dev.readReg_hi (hx : l.desc = some x) (hb : l.blockId f.variant = none) (ht : l.there f.variant = true)
    (hc : ¬ (l.block = .sect ∧ (l.off = 0x020 ∨ l.off = 0x024))) (h2 : x.half = 2) :
    d.readReg f r l =
      match (d.held r).readHi.find? (fun e => e.1 == ({ l with off := l.off - 4 } : CsrLoc).home x.scope) with
      | some e => (e.2, d.dropHi r (({ l with off := l.off - 4 } : CsrLoc).home x.scope))
      | none => (d.shown f l, d) := by
  have hc' : (decide (l.block = .sect) && (decide (l.off = 0x020) || decide (l.off = 0x024))) = false := by
    simpa using hc
  simp only [Dev.readReg, hb, hx, ht, hc', h2]
  rfl

/-- A read of a 32-bit register, DUMP_DATA apart. -/
theorem Dev.readReg_whole (hx : l.desc = some x) (hb : l.blockId f.variant = none) (ht : l.there f.variant = true)
    (hd : ¬ (l.block = .gander ∧ l.off = 0x028)) (h0 : x.half = 0) : d.readReg f r l = (d.shown f l, d.clearRead l x) := by
  simp [Dev.readReg, hb, hx, ht, hd, h0]

/-! ## Writes of one register (R10, R11) -/

/-- A write of a register takes nothing where it has no writable field, or where its unit is absent. -/
theorem Dev.writeReg_takes_nothing (w : W32) (hx : l.desc = some x)
    (h : x.mask (fun a => decide (a ≠ .ro) && decide (a ≠ .rc)) = 0 ∨ l.there f.variant = false) : d.writeReg f r l w = d := by
  rcases h with h | h
  · simp only [Dev.writeReg, hx, h, if_true, ite_self]
  · simp [Dev.writeReg, hx, h]

/-- A write of a `_LO` register is held. -/
theorem Dev.writeReg_lo (w : W32) (hx : l.desc = some x) (hm : x.mask (fun a => decide (a ≠ .ro) && decide (a ≠ .rc)) ≠ 0)
    (ht : l.there f.variant = true) (h1 : x.half = 1) : d.writeReg f r l w = d.holdLo r (l.home x.scope) w := by
  simp only [Dev.writeReg, hx, ht, Bool.not_true, Bool.false_eq_true, if_false, hm, h1, if_true]
  rfl

/-- A write of a 32-bit register that starts no command of its own: its fields, then what the write does beyond them. -/
theorem Dev.writeReg_whole (w : W32) (hx : l.desc = some x) (hm : x.mask (fun a => decide (a ≠ .ro) && decide (a ≠ .rc)) ≠ 0)
    (ht : l.there f.variant = true) (h0 : x.half = 0) (hs : l.block ≠ .seq) (hf : l.block ≠ .sec) :
    d.writeReg f r l w =
      (d.plainWrite l (d.admitted f.variant l w)).writeActs f l (d.reg l) (d.admitted f.variant l w) := by
  simp only [Dev.writeReg, hx, ht, Bool.not_true, Bool.false_eq_true, if_false, hm, h0, hs, hf, false_and]
  rfl
end

@[simp] theorem Dev.plainWrite_outbox (d : Dev) (l : CsrLoc) (w : W32) : (d.plainWrite l w).outbox = d.outbox := by
  unfold Dev.plainWrite; split
  · rfl
  · dsimp only; split <;> simp

@[simp] theorem Dev.plainWrite_links (d : Dev) (l : CsrLoc) (w : W32) : (d.plainWrite l w).links = d.links := by
  unfold Dev.plainWrite; split
  · rfl
  · dsimp only; split <;> simp

@[simp] theorem Dev.plainWrite_hubs (d : Dev) (l : CsrLoc) (w : W32) : (d.plainWrite l w).hubs = d.hubs := by
  unfold Dev.plainWrite; split
  · rfl
  · dsimp only; split <;> simp

/-- A plain write leaves its register as the field map says, W1S bits not stored. -/
theorem Dev.reg_plainWrite (d : Dev) {l : CsrLoc} {x : RegDesc} (w : W32) (hx : l.desc = some x) :
    (d.plainWrite l w).reg l = x.write (d.reg l) (w &&& ~~~x.mask (fun a => decide (a = .w1s))) := by
  simp only [Dev.plainWrite, hx]
  split
  · exact Dev.reg_setReg d l _ (by simp [hx])
  · rw [Dev.reg_onRetain]; exact Dev.reg_setReg d l _ (by simp [hx])

/-- The budget of a class in force stays until the next edge (R289). -/
theorem Dev.keepBudget_in_force (d : Dev) (n k : Nat) (was : W32) :
    Tab.look none ((d.keepBudget n k was).hub n).budgets k = some ((Tab.look none (d.hub n).budgets k).getD was) := by
  rw [Dev.keepBudget, Dev.hub_onHub]
  split
  · next h => obtain ⟨b, hb⟩ := Option.isSome_iff_exists.1 h; simp [hb]
  · next h => rw [Tab.look_put_self]; simp_all

@[simp] theorem Dev.keepBudget_outbox (d : Dev) (n k : Nat) (was : W32) : (d.keepBudget n k was).outbox = d.outbox := rfl
@[simp] theorem Dev.reg_keepBudget (d : Dev) (n k : Nat) (was : W32) (l : CsrLoc) : (d.keepBudget n k was).reg l = d.reg l := rfl

/-! ## Access by offset -/

theorem blockOf_sect {n : Nat} (hn : n < 12) : blockOf (0x10 + n) = some (.sect, n) := by
  interval_cases n <;> rfl

theorem blockOf_hub {n : Nat} (hn : n < 12) : blockOf (0x20 + n) = some (.hub, n) := by
  interval_cases n <;> rfl

theorem locate_of_sect {a n : Nat} (h : blockOf (a / 0x100000) = some (.sect, n)) :
    locate a = some ⟨.sect, n, a % 0x100000 / 0x10000, a % 0x10000⟩ := by simp only [locate, h]

theorem locate_of_hub {a n : Nat} (h : blockOf (a / 0x100000) = some (.hub, n)) :
    locate a = some ⟨.hub, n, 0, a % 0x100000⟩ := by simp only [locate, h]

/-- The place of an offset in the window of a tile (R542, R544). -/
theorem locate_tile {a o : Nat} (t : TileRef) (ha : a = 0x1000000 + t.sector.val * 0x100000 + t.tile.val * 0x10000 + o)
    (ho : o < 0x10000) : locate a = some (At.tile t o) := by
  have hn := t.sector.isLt
  have ht := t.tile.isLt
  have h1 : a / 0x100000 = 0x10 + t.sector.val := by omega
  have h2 : a % 0x100000 / 0x10000 = t.tile.val := by omega
  have h3 : a % 0x10000 = o := by omega
  rw [locate_of_sect (h1 ▸ blockOf_sect hn), h2, h3]
  rfl

/-- The place of an offset in a HUB block (R542). -/
theorem locate_hub {a n o : Nat} (hn : n < 12) (ha : a = 0x2000000 + n * 0x100000 + o) (ho : o < 0x100000) :
    locate a = some (At.hub n o) := by
  have h1 : a / 0x100000 = 0x20 + n := by omega
  have h2 : a % 0x100000 = o := by omega
  rw [locate_of_hub (h1 ▸ blockOf_hub hn), h2]
  rfl

theorem csrPlace_of_locate {r : Requester} {a : Nat} {l : CsrLoc} (ha : a % 4 = 0) (hl : locate a = some l)
    (hr : l.reachedBy r = true) : csrPlace r a = some l := by
  simp [csrPlace, ha, hl, hr]

/-- Only a program is kept to some places (R86, R544). -/
theorem CsrLoc.reachedBy_of_not_core {r : Requester} (l : CsrLoc) (hr : ∀ t, r ≠ .core t) : l.reachedBy r = true := by
  cases r with
  | core t => exact absurd rfl (hr t)
  | mgmt _ => rfl
  | custody => rfl

/-! ## What an access answers (R532) -/

/-- A requester that nothing keeps away is answered, and meets no fence. -/
theorem csrFree_answers {s : State} {r : Requester} (h : csrFree s r) : s.fuse.answers r = true := by
  cases r with
  | mgmt k => simpa [Fuses.answers] using (h k rfl).1
  | core _ => rfl
  | custody => rfl

theorem csrFree_not_fenced {s : State} {r : Requester} (h : csrFree s r) (l : CsrLoc) (w : Bool) :
    s.dev.csrFenced r l w = false := by
  cases r with
  | mgmt k => simp [Dev.csrFenced, (h k rfl).2]
  | core _ => rfl
  | custody => rfl

section
variable {r : Requester} {addr : Nat} {c : Instr} {s : State}

/-- A read that is asked is what `Dev.answerRead` does. -/
theorem exec_csrAsk_read (h : csrAsk r addr c none) : exec c s = .next (s.withDev (s.dev.answerRead s.fuse r addr)) := by
  obtain ⟨a, rfl | rfl, rfl, -⟩ | ⟨a, v, -, -, hv⟩ := h
  · rfl
  · rfl
  · exact nomatch hv

/-- A write that is asked is what `Dev.answerWrite` does. -/
theorem exec_csrAsk_write {v : W32} (h : csrAsk r addr c (some v)) :
    exec c s = .next (s.withDev (s.dev.answerWrite s.fuse r addr v)) := by
  obtain ⟨a, -, -, hv⟩ | ⟨a, u, rfl, rfl, hv⟩ := h
  · exact nomatch hv
  · cases hv; rfl

/-- A read of a place that its requester reaches answers DONE with what the register gives. -/
theorem answerRead_place {l : CsrLoc} (hf : csrFree s r) (hl : csrPlace r addr = some l) :
    s.dev.answerRead s.fuse r addr =
      (s.dev.readReg s.fuse r l).2.send (.csr r 0 (s.dev.readReg s.fuse r l).1) := by
  simp [Dev.answerRead, csrFree_answers hf, Dev.csrRead, hl, csrFree_not_fenced hf]

theorem answerRead_nowhere (hf : csrFree s r) (hl : csrPlace r addr = none) :
    s.dev.answerRead s.fuse r addr = s.dev.send (.csr r sTranslation 0) := by
  cases r with
  | mgmt k => simp [Dev.answerRead, csrFree_answers hf, Dev.csrRead, hl, (hf k rfl).2]
  | core t => simp [Dev.answerRead, csrFree_answers hf, Dev.csrRead, hl]
  | custody => simp [Dev.answerRead, csrFree_answers hf, Dev.csrRead, hl]

/-- A write by another requester than a program, of a place that it reaches, answers DONE. -/
theorem answerWrite_place {l : CsrLoc} (v : W32) (hf : csrFree s r) (hl : csrPlace r addr = some l) (hr : ∀ t, r ≠ .core t) :
    s.dev.answerWrite s.fuse r addr v = (s.dev.writeReg s.fuse r l v).send (.csr r 0 0) := by
  cases r with
  | core t => exact absurd rfl (hr t)
  | mgmt k => simp [Dev.answerWrite, csrFree_answers hf, Dev.csrWrite, hl, csrFree_not_fenced hf]
  | custody => simp [Dev.answerWrite, csrFree_answers hf, Dev.csrWrite, hl, csrFree_not_fenced hf]

/-- A program's write is answered DONE for its four registers, and TRANSLATION for any other (R86). -/
theorem answerWrite_core {t : TileRef} {l : CsrLoc} (v : W32) (hl : csrPlace (.core t) addr = some l) :
    s.dev.answerWrite s.fuse (.core t) addr v =
      if programWrites l.off then (s.dev.writeReg s.fuse (.core t) l v).send (.csr (.core t) 0 0)
      else s.dev.send (.csr (.core t) sTranslation 0) := by
  simp only [Dev.answerWrite, Fuses.answers, Bool.not_true, Bool.false_eq_true, if_false, Dev.csrWrite, hl, Dev.csrFenced]
  split <;> rfl

theorem answerWrite_nowhere (v : W32) (hf : csrFree s r) (hl : csrPlace r addr = none) :
    s.dev.answerWrite s.fuse r addr v = s.dev.send (.csr r sTranslation 0) := by
  cases r with
  | mgmt k => simp [Dev.answerWrite, csrFree_answers hf, Dev.csrWrite, hl, (hf k rfl).2]
  | core t => simp [Dev.answerWrite, csrFree_answers hf, Dev.csrWrite, hl]
  | custody => simp [Dev.answerWrite, csrFree_answers hf, Dev.csrWrite, hl]

end

/-- In SCRAPPED a management stream's access is not answered, and does nothing. -/
theorem exec_csrAsk_scrapped {k addr : Nat} {c : Instr} {w : Option W32} {s : State} (h : csrAsk (.mgmt k) addr c w)
    (hs : s.fuse.state = lcScrapped) : exec c s = .next s := by
  have ha : s.fuse.answers (.mgmt k) = false := by simp [Fuses.answers, hs]
  cases w with
  | none => rw [exec_csrAsk_read h]; simp [Dev.answerRead, ha]
  | some v => rw [exec_csrAsk_write h]; simp [Dev.answerWrite, ha]

/-- In a reset a management stream's access of a register, but for a read of SEC, is answered FENCED. -/
theorem exec_csrAsk_fenced {k addr : Nat} {c : Instr} {w : Option W32} {s : State} {l : CsrLoc} (h : csrAsk (.mgmt k) addr c w)
    (hs : s.fuse.state ≠ lcScrapped) (hf : s.dev.mgmtFenced = true) (hl : csrPlace (.mgmt k) addr = some l)
    (hw : w.isSome = true ∨ l.block ≠ .sec) : exec c s = .next (s.withDev (s.dev.send (.csr (.mgmt k) sFenced 0))) := by
  have ha : s.fuse.answers (.mgmt k) = true := by simp [Fuses.answers, hs]
  cases w with
  | none =>
    have hb : l.block ≠ .sec := hw.resolve_left (by simp)
    rw [exec_csrAsk_read h]; simp [Dev.answerRead, ha, Dev.csrRead, hl, Dev.csrFenced, hf, hb]
  | some v => rw [exec_csrAsk_write h]; simp [Dev.answerWrite, ha, Dev.csrWrite, hl, Dev.csrFenced, hf]

/-! ## Registers with rules of their own -/

/-- HUB.REG_BUDGET of a class: one field, RW, of 32 bits (R289). -/
def regBudget : RegDesc := ⟨0x030, 4, 0x4, 0, 0, [field 0 32 .rw 4294967295]⟩

theorem hubBudget_desc (n : Nat) (k : Fin 4) : (At.hub n (0x030 + 4 * k.val)).desc = some regBudget := by
  have h : ∀ k : Fin 4, (Block.regs .hub).find? (fun x => x.covers (0x030 + 4 * k.val)) = some regBudget := by decide
  exact h k

/-- Every bit of a budget takes what is written. -/
theorem regBudget_write (old v : W32) : regBudget.write old (v &&& ~~~regBudget.mask (fun a => decide (a = .w1s))) = v := by
  have hm : (field 0 32 .rw 4294967295).mask = BitVec.allOnes 32 := by decide
  have hs : regBudget.mask (fun a => decide (a = .w1s)) = 0 := by decide
  have hw : regBudget.write old (v &&& ~~~0) = (v &&& BitVec.allOnes 32) &&& (field 0 32 .rw 4294967295).mask :=
    BitVec.zero_or
  rw [hs, hw, hm, BitVec.and_allOnes, BitVec.and_allOnes]

/-- CORE_TRAP_EN (R111). -/
def coreTrapEn : RegDesc := ⟨0x004, 1, 0x4, 0, 0, [field 4 4 .rw 10, field 0 3 .rw 2]⟩

theorem coreTrapEn_desc (t : TileRef) : (At.tile t 0x004).desc = some coreTrapEn := by
  have h : (Block.regs .sect).find? (fun x => x.covers 0x004) = some coreTrapEn := by decide
  exact h

/-- A write of REG_BUDGET stores its word and keeps the budget in force (R289). -/
theorem Dev.writeReg_budget (f : Fuses) (d : Dev) (r : Requester) (n : Nat) (k : Fin 4) (v : W32) (hn : n < f.variant.sectors) :
    d.writeReg f r (At.hub n (0x030 + 4 * k.val)) v =
      (d.plainWrite (At.hub n (0x030 + 4 * k.val)) v).keepBudget n k.val (d.reg (At.hub n (0x030 + 4 * k.val))) := by
  have ht : (At.hub n (0x030 + 4 * k.val)).there f.variant = true := by
    simp [CsrLoc.there, CsrLoc.blockThere, At.hub, hn]
  rw [Dev.writeReg_whole v (hubBudget_desc n k) (by decide) ht rfl (by simp [At.hub]) (by simp [At.hub])]
  fin_cases k <;> rfl

/-- A write of CORE_TRAP_EN stores its fields in the register and in the tile (R86, R111). -/
theorem Dev.writeReg_coreTrapEn (f : Fuses) (d : Dev) (r : Requester) (t : TileRef) (v : W32) (hn : t.sector.val < f.variant.sectors) :
    d.writeReg f r (At.tile t 0x004) v =
      (d.plainWrite (At.tile t 0x004) v).onTile t (·.writeCore 0x004 v) := by
  have ht : (At.tile t 0x004).there f.variant = true := by
    simp [CsrLoc.there, CsrLoc.blockThere, At.tile, hn]
  have hi : tileOf (16 * t.sector.val + t.tile.val) = t := by
    obtain ⟨⟨n, hn⟩, ⟨i, hi⟩⟩ := t
    simp only [tileOf, TileRef.mk.injEq, Fin.ext_iff, Fin.val_ofNat]
    omega
  rw [Dev.writeReg_whole v (coreTrapEn_desc t) (by decide) ht rfl (by simp [At.tile]) (by simp [At.tile])]
  show (d.plainWrite (At.tile t 0x004) v).onTile (tileOf (16 * t.sector.val + t.tile.val)) (·.writeCore 0x004 v) = _
  rw [hi]

theorem Tile.writeCore_trapEn (x : Tile) (v : W32) : (x.writeCore 0x004 v).trapEn = v.setWidth 8 &&& 0xF7 := rfl

end Machine

namespace Proofs

open Sys2Proof.Machine Sys2Proof.Claims

theorem csrReadsAreAnswered : CsrReadsAreAnswered := by
  intro r addr c w s hc f tells
  refine ⟨fun hf hl => ?nowhere, ?scrapped, ?fenced, fun l x hf hw hl hx hb ht hcyc hdump => ?place⟩
  case nowhere =>
    cases w with
    | none => rw [exec_csrAsk_read hc, answerRead_nowhere hf hl]
    | some v => rw [exec_csrAsk_write hc, answerWrite_nowhere v hf hl]
  case scrapped => rintro k rfl hs; exact exec_csrAsk_scrapped hc hs
  case fenced => rintro k l rfl hs hf hl hw; exact exec_csrAsk_fenced hc hs hf hl hw
  case place =>
    subst hw
    have hexec := exec_csrAsk_read (s := s) hc
    rw [answerRead_place hf hl] at hexec
    refine ⟨fun h1 => ?lo, fun h2 => ?hi, fun h0 => ?whole⟩
    case lo =>
      rw [Dev.readReg_lo hx hb ht hcyc h1] at hexec
      exact ⟨_, hexec, by simp [tells, f], by simp, by simpa using Dev.held_captureHi ..⟩
    case hi =>
      rw [Dev.readReg_hi hx hb ht hcyc h2] at hexec
      intro key
      cases he : (s.dev.held r).readHi.find? (fun e => e.1 == key) with
      | some e =>
        simp only [key] at he
        simp only [he] at hexec
        exact ⟨_, hexec, by simp [Dev.dropHi], by simpa using Dev.held_dropHi .., by simp [tells, Dev.dropHi]⟩
      | none =>
        have he' := he
        simp only [key] at he'
        simp only [he'] at hexec
        exact ⟨_, hexec, by simp, by simpa using he, by simp [tells, f]⟩
    case whole =>
      rw [Dev.readReg_whole hx hb ht hdump h0] at hexec
      exact ⟨_, hexec, by simp [tells, f], by simpa using Dev.reg_clearRead s.dev hx,
        fun l' x' hx' hne => by simpa using Dev.reg_clearRead_ne s.dev hx hx' hne⟩

theorem csrWritesTakeEffect : CsrWritesTakeEffect := by
  intro r addr c v s hc hf f tells
  have hexec := exec_csrAsk_write (s := s) hc
  refine ⟨?other, fun l x hl hr hx => ⟨fun h => ?nothing, fun hm ht h1 => ?lo⟩, ?budget, ?trapEn⟩
  case other =>
    rintro l t hl rfl hp
    rw [hexec, answerWrite_core v hl, hp]; rfl
  case nothing => rw [hexec, answerWrite_place v hf hl hr, Dev.writeReg_takes_nothing v hx h]
  case lo =>
    rw [answerWrite_place v hf hl hr, Dev.writeReg_lo v hx hm ht h1] at hexec
    exact ⟨_, hexec, by simp [tells, Dev.holdLo], by simp [Dev.holdLo], by simpa using Dev.held_holdLo ..⟩
  case budget =>
    intro n k hr hn ha at_
    have hl : csrPlace r addr = some at_ :=
      csrPlace_of_locate (by omega) (locate_hub n.isLt (by rw [ha, Nat.add_assoc]) (by omega)) (CsrLoc.reachedBy_of_not_core _ hr)
    rw [answerWrite_place v hf hl hr, Dev.writeReg_budget s.fuse s.dev r n.val k v hn] at hexec
    refine ⟨_, hexec, by simp [tells], ?_, ?_⟩
    · rw [Dev.reg_send, Dev.reg_keepBudget, Dev.reg_plainWrite _ v (hubBudget_desc n.val k)]
      exact regBudget_write ..
    · rw [Dev.hub_send, Dev.keepBudget_in_force, Dev.hub, Dev.plainWrite_hubs]
      rfl
  case trapEn =>
    rintro t rfl hn ha
    have hl : csrPlace (.core t) addr = some (At.tile t 0x004) :=
      csrPlace_of_locate (by simp only [ha, Block.base]; omega) (locate_tile t (by simp only [ha, Block.base]) (by omega))
        (by simp [CsrLoc.reachedBy, At.tile])
    rw [answerWrite_core v hl, if_pos (by rfl), Dev.writeReg_coreTrapEn s.fuse s.dev _ t v hn] at hexec
    exact ⟨_, hexec, by simp [tells, Dev.onTile], by rw [Dev.tile_send, Dev.tile_onTile, Tile.writeCore_trapEn]⟩

/-- Settles O54: reads and writes of one register, as `Dev.readReg` and `Dev.writeReg` do them, and what an access answers. -/
theorem csrRequestsAreAnswered : Obligations.CsrRequestsAreAnswered := ⟨csrReadsAreAnswered, csrWritesTakeEffect⟩

end Proofs
end Sys2Proof
end

section
/-!
SUPPORT. What accesses to memory leave unchanged: the ports, connections and streams of the links.
-/

namespace Sys2Proof.Machine

open Sys2Proof

/-! ## Runs over lists -/

/-- A fold whose every step keeps a part of the device keeps it. -/
theorem foldl_keeps {α β γ : Type} (p : β → γ) (f : β → α → β) (h : ∀ b a, p (f b a) = p b) (as : List α) (b : β) :
    p (as.foldl f b) = p b := by
  induction as generalizing b with
  | nil => rfl
  | cons a as ih => rw [List.foldl_cons, ih, h]

/-- A relation of the devices before and after that holds of each piece read holds of them all. -/
theorem readPieces_keeps {R : Dev → Dev → Prop} (refl : ∀ d, R d d) (trans : ∀ {a b c}, R a b → R b c → R a c)
    {rd : Dev → Nat → Nat → Acc} (h : ∀ d a n, R d (rd d a n).d) (ps : List (Nat × Nat)) (d : Dev) :
    R d (readPieces rd ps d).d := by
  induction ps generalizing d with
  | nil => exact refl d
  | cons p ps ih => exact trans (h d p.1 p.2) (ih _)

theorem writePieces_keeps {R : Dev → Dev → Prop} (refl : ∀ d, R d d) (trans : ∀ {a b c}, R a b → R b c → R a c)
    {wr : Dev → Nat → List W8 → Acc} (h : ∀ d a bs, R d (wr d a bs).d) (ps : List (Nat × Nat)) (bytes : List W8) (d : Dev) :
    R d (writePieces wr ps bytes d).d := by
  induction ps generalizing d bytes with
  | nil => exact refl d
  | cons p ps ih =>
    simp only [writePieces]
    split
    · exact trans (h d p.1 _) (ih _ _)
    · exact h d p.1 _

/-! ## The CSR file, events and the ledger -/

@[simp] theorem Dev.setFld_links (d : Dev) (l : CsrLoc) (lo w v : Nat) : (d.setFld l lo w v).links = d.links := Dev.setReg_links ..
@[simp] theorem Dev.count_links (d : Dev) (l : CsrLoc) (lo w n : Nat) : (d.count l lo w n).links = d.links := Dev.setReg_links ..
@[simp] theorem Dev.setReg64_links (d : Dev) (l : CsrLoc) (v : W64) : (d.setReg64 l v).links = d.links := by simp [Dev.setReg64]
@[simp] theorem Dev.raise_links (d : Dev) (c : Nat) (i : EventInfo) : (d.raise c i).links = d.links := by rw [Dev.raise_frame]
@[simp] theorem Dev.setEntry_links (v : Variant) (d : Dev) (u : BitVec 16) (e : LedgerEntry) : (d.setEntry v u e).links = d.links := rfl

@[simp] theorem Dev.moveUnit_links (v : Variant) (d : Dev) (u : BitVec 16) (st : BitVec 4) : (d.moveUnit v u st).links = d.links := by
  unfold Dev.moveUnit; dsimp only; split_ifs <;> simp

/-! ## Stack lines and the cache of a slice -/

@[simp] theorem Dev.storeRaw_links (d : Dev) (n line : Nat) (data chk : List W8) : (d.storeRaw n line data chk).links = d.links := rfl
@[simp] theorem Dev.storeLine_links (d : Dev) (n line : Nat) (data : List W8) : (d.storeLine n line data).links = d.links :=
  Dev.storeRaw_links ..
@[simp] theorem Dev.poisonLine_links (d : Dev) (n line : Nat) : (d.poisonLine n line).links = d.links := Dev.storeRaw_links ..

@[simp] theorem Dev.fillGroup_links (d : Dev) (n c g : Nat) : (d.fillGroup n c g).links = d.links := by
  simp only [Dev.fillGroup]
  split
  · rw [Dev.onHub_links]
    exact foldl_keeps Dev.links (fun (x : Dev) i => x.poisonLine n ((g * 64 + i) * 128 + c)) (fun _ _ => Dev.poisonLine_links ..) _ d
  · rfl

@[simp] theorem Dev.readStored_links (d : Dev) (n line : Nat) : (d.readStored n line).d.links = d.links := by
  unfold Dev.readStored
  split
  · simp
  · split <;> simp

@[simp] theorem Dev.writeBack_links (d : Dev) (n line : Nat) (c : CacheLine) : (d.writeBack n line c).links = d.links := by
  unfold Dev.writeBack
  split
  · rfl
  · split <;> simp

@[simp] theorem Dev.evictFor_links (d : Dev) (n line : Nat) : (d.evictFor n line).links = d.links := by
  unfold Dev.evictFor
  dsimp only
  split
  · rfl
  · split <;> simp

@[simp] theorem Dev.cachePut_links (d : Dev) (n line : Nat) (data : List W8) (dirty : Bool) :
    (d.cachePut n line data dirty).links = d.links := by
  unfold Dev.cachePut
  dsimp only [Dev.onHub_links]
  split <;> simp

@[simp] theorem Dev.refetch_links (d : Dev) (n line : Nat) : (d.refetch n line).d.links = d.links := by
  unfold Dev.refetch; dsimp only; split <;> simp

@[simp] theorem Dev.cachedRead_links (d : Dev) (n line : Nat) (c : CacheLine) : (d.cachedRead n line c).d.links = d.links := by
  unfold Dev.cachedRead
  split
  · simp
  · split
    · simp
    · split <;> simp

@[simp] theorem Dev.lineRead_links (d : Dev) (n line : Nat) : (d.lineRead n line).d.links = d.links := by
  unfold Dev.lineRead
  dsimp only
  split
  · rfl
  · split <;> simp

@[simp] theorem Dev.lineWrite_links (d : Dev) (n line off : Nat) (bytes : List W8) : (d.lineWrite n line off bytes).d.links = d.links := by
  unfold Dev.lineWrite; dsimp only; split_ifs <;> simp

@[simp] theorem Dev.reply_links (d : Dev) (j : SliceJob) (st : W8) (data : List W8) : (d.reply j st data).links = d.links := rfl

@[simp] theorem Dev.serveLine_links (d : Dev) (n line : Nat) (j : SliceJob) : (d.serveLine n line j).links = d.links := by
  unfold Dev.serveLine
  dsimp only
  split
  · simp
  · simp
  · split_ifs <;> simp

@[simp] theorem Dev.drain_links (n line : Nat) (st : W8) (js : List SliceJob) (d : Dev) : (Dev.drain n line st js d).links = d.links := by
  induction js generalizing d with
  | nil => rfl
  | cons j js ih =>
    simp only [Dev.drain]
    split <;> simp [ih]

@[simp] theorem Dev.endLineFill_links (d : Dev) (n line : Nat) (f : Fill) (st : W8) (data : List W8) :
    (d.endLineFill n line f st data).links = d.links := by
  unfold Dev.endLineFill
  dsimp only
  rw [Dev.drain_links]
  split <;> simp

@[simp] theorem Dev.settleFill_links (d : Dev) (n line : Nat) : (d.settleFill n line).links = d.links := by
  unfold Dev.settleFill
  split
  · rfl
  · split
    · simp
    · split <;> simp

@[simp] theorem Dev.quireRead_links (d : Dev) (n line : Nat) : (d.quireRead n line).d.links = d.links := by simp [Dev.quireRead]
@[simp] theorem Dev.quireWrite_links (d : Dev) (n line off : Nat) (bytes : List W8) :
    (d.quireWrite n line off bytes).d.links = d.links := by simp [Dev.quireWrite]

@[simp] theorem Dev.scratchRead_links (d : Dev) (n off : Nat) : (d.scratchRead n off).d.links = d.links := by
  simp only [Dev.scratchRead]; split_ifs <;> simp

@[simp] theorem Dev.scratchWrite_links (d : Dev) (n off : Nat) (bytes : List W8) : (d.scratchWrite n off bytes).d.links = d.links := by
  simp only [Dev.scratchWrite]; split_ifs <;> simp

/-! ## Physical and virtual addresses -/

@[simp] theorem Dev.localRead_links (v : Variant) (d : Dev) (a : Nat) : (d.localRead v a).d.links = d.links := by
  unfold Dev.localRead
  split
  · split_ifs <;> simp
  · split_ifs <;> simp
  · split_ifs <;> rfl
  · rfl
  · rfl
  · rfl

@[simp] theorem Dev.localWrite_links (v : Variant) (d : Dev) (a : Nat) (bytes : List W8) : (d.localWrite v a bytes).d.links = d.links := by
  unfold Dev.localWrite
  split
  · split_ifs <;> simp
  · split_ifs <;> simp
  · rfl
  · rfl
  · rfl
  · rfl

@[simp] theorem Dev.physBytes_links (v : Variant) (d : Dev) (a len : Nat) : (d.physBytes v a len).d.links = d.links := by
  unfold Dev.physBytes
  refine readPieces_keeps (R := fun d e => e.links = d.links) (fun _ => rfl) (fun h h' => h'.trans h) (fun d a _ => ?_) _ d
  exact d.localRead_links v a

@[simp] theorem Dev.physStore_links (v : Variant) (d : Dev) (a : Nat) (bytes : List W8) : (d.physStore v a bytes).d.links = d.links := by
  unfold Dev.physStore
  exact writePieces_keeps (R := fun d e => e.links = d.links) (fun _ => rfl) (fun h h' => h'.trans h)
    (fun d a bs => d.localWrite_links v a bs) _ bytes d

@[simp] theorem Dev.physNat_links (v : Variant) (d : Dev) (a len : Nat) : (d.physNat v a len).2.2.links = d.links := Dev.physBytes_links ..
@[simp] theorem Dev.windowEntry_links (v : Variant) (d : Dev) (w : Nat) : (d.windowEntry v w).2.2.links = d.links := Dev.physBytes_links ..

@[simp] theorem Dev.charge_links (d : Dev) (n k bytes : Nat) : (d.charge n k bytes).links = d.links := by
  unfold Dev.charge; split <;> rfl

@[simp] theorem Dev.chargeFor_links (d : Dev) (src : Option Nat) (at_ wr : Bool) (cls a bytes : Nat) :
    (d.chargeFor src at_ wr cls a bytes).links = d.links := by
  unfold Dev.chargeFor
  split
  · rfl
  · split <;> simp

@[simp] theorem Dev.walkFrom_links (v : Variant) (k : Nat) (d : Dev) (tbl va : Nat) : (Dev.walkFrom v k d tbl va).2.2.links = d.links := by
  induction k generalizing d tbl with
  | zero => simp only [Dev.walkFrom]; split_ifs <;> simp
  | succ k ih => simp only [Dev.walkFrom]; split_ifs <;> simp [ih]

@[simp] theorem Dev.walk_links (v : Variant) (d : Dev) (u : XlUnit) (ctx va : Nat) : (d.walk v u ctx va).2.2.links = d.links := by
  unfold Dev.walk
  split
  · rfl
  · dsimp only; split_ifs <;> simp

@[simp] theorem Dev.touch_links (d : Dev) (ctx a : Nat) : (d.touch ctx a).links = d.links := by
  unfold Dev.touch; dsimp only; split <;> rfl

@[simp] theorem Dev.translate_links (v : Variant) (d : Dev) (u : XlUnit) (ctx va : Nat) (wr ev : Bool) :
    (d.translate v u ctx va wr ev).2.2.links = d.links := by
  unfold Dev.translate
  dsimp only
  split_ifs
  · rfl
  · simp
  · simp
  · split <;> simp

@[simp] theorem Dev.windowTarget_links (v : Variant) (d : Dev) (a : Nat) : (d.windowTarget v a).2.2.2.links = d.links := by
  unfold Dev.windowTarget
  split
  · dsimp only; split_ifs <;> simp
  · rfl

end Sys2Proof.Machine
end

section
/-!
SUPPORT. What the device's own traffic leaves unchanged (R404, R406): the states of the connections, and how many requests each stream has
executed and not acknowledged.
-/

namespace Sys2Proof.Machine

open Sys2Proof

@[simp] theorem Dev.nim_onNim (d : Dev) (k : Nat) (f : NimStream → NimStream) : (d.onNim k f).nim k = f (d.nim k) :=
  Tab.look_put_self ..

theorem Dev.nim_onNim_ne (d : Dev) {k j : Nat} (f : NimStream → NimStream) (h : j ≠ k) : (d.onNim k f).nim j = d.nim j := by
  simp [Dev.nim, Dev.onNim, Dev.onLinks, Tab.look_alter, h]

/-- Every connection is in the state it was in, and every stream has as many requests executed and not acknowledged as it had. -/
structure Dev.SameStreams (d e : Dev) : Prop where
  state : ∀ i, (e.conn i).state = (d.conn i).state
  unacked : ∀ k, (e.nim k).unacked = (d.nim k).unacked

namespace Dev.SameStreams

theorem refl (d : Dev) : SameStreams d d := ⟨fun _ => rfl, fun _ => rfl⟩

theorem trans {a b c : Dev} (h : SameStreams a b) (h' : SameStreams b c) : SameStreams a c :=
  ⟨fun i => (h'.state i).trans (h.state i), fun k => (h'.unacked k).trans (h.unacked k)⟩

/-- The connections and streams of the links are all that counts. -/
theorem of_parts {d e : Dev} (hc : e.links.conns = d.links.conns) (hs : e.links.streams = d.links.streams) : SameStreams d e :=
  ⟨fun i => by simp [Dev.conn, hc], fun k => by simp [Dev.nim, hs]⟩

theorem of_links {d e : Dev} (h : e.links = d.links) : SameStreams d e := of_parts (by rw [h]) (by rw [h])

theorem onNim (d : Dev) (k : Nat) {f : NimStream → NimStream} (h : ∀ x, (f x).unacked = x.unacked) : SameStreams d (d.onNim k f) := by
  refine ⟨fun _ => rfl, fun j => ?_⟩
  by_cases hj : j = k
  · subst hj; rw [Dev.nim_onNim, h]
  · rw [Dev.nim_onNim_ne d f hj]

theorem onConn (d : Dev) (i : Nat) {f : Conn → Conn} (h : ∀ x, (f x).state = x.state) : SameStreams d (d.onConn i f) := by
  refine ⟨fun j => ?_, fun _ => rfl⟩
  by_cases hj : j = i
  · subst hj; rw [Dev.conn_onConn, h]
  · rw [Dev.conn_onConn_ne d f hj]

theorem onPort (d : Dev) (p : Nat) (f : Port → Port) : SameStreams d (d.onPort p f) := of_parts rfl rfl

theorem send (d : Dev) (m : OutMsg) : SameStreams d (d.send m) := of_parts rfl rfl

theorem foldl {α : Type} {f : Dev → α → Dev} (h : ∀ d a, SameStreams d (f d a)) (as : List α) (d : Dev) :
    SameStreams d (as.foldl f d) := by
  induction as generalizing d with
  | nil => exact refl d
  | cons a as ih => exact (h d a).trans (ih _)

/-! ## Sending -/

theorem sendFlits (p n : Nat) (d : Dev) : SameStreams d (Dev.sendFlits p n d) := by
  induction n generalizing d with
  | zero => exact refl d
  | succ n ih =>
    simp only [Dev.sendFlits]
    split
    · exact refl d
    · split
      · exact refl d
      · exact ((onPort ..).trans (send ..)).trans (ih _)

theorem transmit (d : Dev) (p : Nat) (m : Packet) : SameStreams d (d.transmit p m) := by
  unfold Dev.transmit
  split
  · split
    · exact (onPort ..).trans (sendFlits ..)
    · exact send ..
    · exact refl d
  · split
    · exact of_parts rfl rfl
    · exact send ..

theorem pickWay (v : Variant) (d : Dev) (src dst : W16) (vc : Nat) : SameStreams d (d.pickWay v src dst vc).2 := by
  have keep : ∀ (b : Prop) [Decidable b] (k : Nat) (w : Option (Nat × Nat)),
      SameStreams d (if b then d.onNim k (fun x => { x with way := w }) else d) := by
    intro b _ k w
    split
    · exact onNim d k fun _ => rfl
    · exact refl d
  simp only [Dev.pickWay]
  split
  · exact refl d
  · split
    · split
      · exact refl d
      · exact keep ..
    · exact keep ..

theorem sendReq (v : Variant) (d : Dev) (r : StreamRef) (o : Outstanding) (again : Bool) : SameStreams d (d.sendReq v r o again) := by
  cases r with
  | conn i => simp only [Dev.sendReq]; exact transmit ..
  | peer dev vc =>
    simp only [Dev.sendReq]
    split
    · exact pickWay ..
    · exact (pickWay ..).trans (transmit ..)

theorem pump (v : Variant) (d : Dev) (r : StreamRef) : SameStreams d (d.pump v r) := by
  simp only [Dev.pump]
  split
  · exact refl d
  · exact (foldl (fun d o => sendReq v d r o false) _ d).trans (onNim _ _ fun _ => rfl)

theorem nimRequest (v : Variant) (d : Dev) (r : StreamRef) (op : W8) (addr aux : W64) (data : List W8) (tag : Nat) :
    SameStreams d (d.nimRequest v r op addr aux data tag).2 := by
  cases r with
  | conn i =>
    simp only [Dev.nimRequest]
    split
    · exact refl d
    · refine trans ?_ (pump ..)
      exact onNim d _ fun _ => rfl
  | peer dev vc =>
    simp only [Dev.nimRequest]
    split
    · exact of_links (Dev.count_links ..)
    · refine trans ?_ (pump ..)
      exact onNim d _ fun _ => rfl

theorem rocePump (d : Dev) (i : Nat) : SameStreams d (d.rocePump i) :=
  (foldl (fun _ _ => transmit ..) _ d).trans (onConn _ _ fun _ => rfl)

theorem roceRequest (d : Dev) (i : Nat) (op : W8) (addr : W64) (len : Nat) (data : List W8) (tag : Nat) :
    SameStreams d (d.roceRequest i op addr len data tag).2 := by
  simp only [Dev.roceRequest]
  split
  · exact refl d
  · refine trans ?_ (rocePump ..)
    exact onConn d i fun _ => rfl

theorem hostRequest (v : Variant) (d : Dev) (i : Nat) (op : W8) (addr : W64) (len : Nat) (data : List W8) (tag : Nat) :
    SameStreams d (d.hostRequest v i op addr len data tag).2 := by
  simp only [Dev.hostRequest]
  split
  · exact refl d
  · split
    · exact roceRequest ..
    · exact nimRequest ..

theorem windowRead (v : Variant) (src : Option Nat) (d : Dev) (a len tag : Nat) : SameStreams d (d.windowRead v src a len tag).2 := by
  simp only [Dev.windowRead]
  split
  · exact of_links (by simp)
  · split
    · exact (of_links (by simp)).trans (nimRequest ..)
    · exact (of_links (by simp)).trans (hostRequest ..)

theorem physRead (v : Variant) (src : Option Nat) (d : Dev) (a len : Nat) : SameStreams d (d.physRead v src a len).d := by
  simp only [Dev.physRead]
  split
  · split
    · exact windowRead ..
    · refine (windowRead v src d a len 0).trans ?_
      exact of_links (by simp)
  · exact of_links (by simp)

theorem virtLook (v : Variant) (ctx : Nat) (d : Dev) (va len : Nat) : SameStreams d (d.virtLook v ctx va len).d := by
  unfold Dev.virtLook
  refine readPieces_keeps refl trans (fun d a n => ?_) _ d
  dsimp only
  split
  · exact of_links (by simp)
  · exact (of_links (by simp)).trans (physRead ..)

/-- A response acknowledges as its sender has noted it (R406). -/
theorem respond (v : Variant) (d : Dev) (r : StreamRef) (op st : W8) (e : BitVec 4) (psn : W32) (data : List W8) :
    SameStreams d (d.respond v r op st e psn data) := by
  cases r with
  | conn i => simp only [Dev.respond]; exact transmit ..
  | peer dev vc =>
    simp only [Dev.respond]
    split
    · refine (pickWay v d d.deviceId dev 1).trans ?_
      exact of_links (Dev.count_links ..)
    · exact (pickWay ..).trans (transmit ..)

theorem notify (v : Variant) (d : Dev) (p : Nat) (r : StreamRef) (ce : Option Nat) : SameStreams d (d.notify v p r ce) := by
  unfold Dev.notify
  split
  · exact refl d
  · dsimp only
    split
    · refine trans ?_ (respond ..)
      exact onNim d _ fun _ => rfl
    · exact refl d

end Dev.SameStreams

end Sys2Proof.Machine
end

section
/-!
SUPPORT. What a CSR access does to the streams (R10, R86, R396): only HOST.CONN_OPEN touches them, and a connection that it closes or
opens starts with nothing to acknowledge.
-/

namespace Sys2Proof.Machine

open Sys2Proof

/-- An answer on a stream goes out: a host connection is open (R396). -/
def Dev.reaches (d : Dev) (r : StreamRef) : Prop := ∀ i, r = .conn i → (d.conn i.toNat).state = 1

/-- An answer on a stream leaves fewer requests unacknowledged than ask for an ACK of their own (R406): the answer goes out, or there are
not so many. -/
def Dev.settles (d : Dev) (r : StreamRef) : Prop :=
  d.reaches r ∨ (d.nim (streamKey r)).unacked < 16

theorem Dev.SameStreams.reaches {d e : Dev} (h : Dev.SameStreams d e) {r : StreamRef} (hd : d.reaches r) : e.reaches r :=
  fun i hi => (h.state i.toNat).trans (hd i hi)

theorem Dev.SameStreams.settles {d e : Dev} (h : Dev.SameStreams d e) {r : StreamRef} (hd : d.settles r) : e.settles r :=
  hd.imp h.reaches fun hu => by rwa [h.unacked]

theorem Dev.settles_of_links {d e : Dev} (h : e.links = d.links) {r : StreamRef} (hd : d.settles r) : e.settles r :=
  (Dev.SameStreams.of_links h).settles hd

/-! ## Host connections (R396) -/

@[simp] theorem Dev.answer_conn (d : Dev) (tag : Nat) (st : W8) (data : List W8) (i : Nat) : (d.answer tag st data).conn i = d.conn i := by
  unfold Dev.answer; split <;> rfl

@[simp] theorem Dev.answer_nim (d : Dev) (tag : Nat) (st : W8) (data : List W8) (k : Nat) : (d.answer tag st data).nim k = d.nim k := by
  unfold Dev.answer; split <;> rfl

@[simp] theorem Dev.failRequests_conn (d : Dev) (os : List Outstanding) (i : Nat) : (d.failRequests os).conn i = d.conn i :=
  foldl_keeps (fun d => d.conn i) _ (fun _ _ => Dev.answer_conn ..) os d

@[simp] theorem Dev.failRequests_nim (d : Dev) (os : List Outstanding) (k : Nat) : (d.failRequests os).nim k = d.nim k :=
  foldl_keeps (fun d => d.nim k) _ (fun _ _ => Dev.answer_nim ..) os d

/-- A connection set anew with its stream set anew disturbs no other stream, and leaves its own with nothing to acknowledge. -/
theorem Dev.settles_renewed {d : Dev} {i : Nat} (hi : i < 256) (f : Conn → Conn) {r : StreamRef} (hd : d.settles r) :
    ((d.onConn i f).onNim (streamKey (.conn (BitVec.ofNat 8 i))) fun _ => {}).settles r := by
  by_cases hk : streamKey r = streamKey (.conn (BitVec.ofNat 8 i))
  · refine .inr ?_
    rw [hk, Dev.nim_onNim]
    decide
  · refine hd.imp (fun hc j hj => ?_) (fun hu => ?_)
    · have hne : j.toNat ≠ i := by
        rintro rfl
        exact hk (by rw [hj, BitVec.ofNat_toNat, BitVec.setWidth_eq])
      exact (congrArg Conn.state (Dev.conn_onConn_ne d f hne)).trans (hc j hj)
    · rw [Dev.nim_onNim_ne _ _ hk]; exact hu

theorem Dev.closeConn_settles {d : Dev} {i : Nat} (hi : i < 256) {r : StreamRef} (hd : d.settles r) : (d.closeConn i).settles r := by
  refine Dev.settles_renewed hi _ (Dev.SameStreams.settles ⟨fun j => ?_, fun k => ?_⟩ hd) <;> simp

theorem Dev.openConn_settles (v : Variant) {d : Dev} {i : Nat} (hi : i < 256) {r : StreamRef} (hd : d.settles r) :
    (d.openConn v i).settles r := by
  unfold Dev.openConn
  dsimp only
  split
  · exact hd
  · split
    · exact Dev.settles_of_links (Dev.physBytes_links ..) hd
    · exact Dev.settles_renewed hi _ (Dev.settles_of_links (Dev.physBytes_links ..) hd)

/-! ## Writes -/

@[simp] theorem Dev.writeBits_links (d : Dev) (l : CsrLoc) (w : W32) : (d.writeBits l w).links = d.links := by
  unfold Dev.writeBits; split <;> simp

@[simp] theorem Dev.takeLow_links (d : Dev) (r : Requester) (l : CsrLoc) : (d.takeLow r l).2.links = d.links := by
  unfold Dev.takeLow; dsimp only; split <;> rfl

@[simp] theorem Dev.joinLow_links (d : Dev) (r : Requester) (l : CsrLoc) (w : W32) : (d.joinLow r l w).2.links = d.links := by
  unfold Dev.joinLow; dsimp only; split <;> simp

@[simp] theorem Dev.dropNamed_links (d : Dev) : d.dropNamed.links = d.links := by
  unfold Dev.dropNamed; split <;> rfl

@[simp] theorem Dev.armPeriod_links (d : Dev) (r : Requester) (w : W32) : (d.armPeriod r w).links = d.links := by
  unfold Dev.armPeriod
  split
  · rfl
  · dsimp only; split_ifs <;> simp

@[simp] theorem Dev.writeTick_links (d : Dev) (r : Requester) (step : Bool) (w : W32) : (d.writeTick r step w).links = d.links := by
  unfold Dev.writeTick; dsimp only; split_ifs <;> simp

@[simp] theorem Dev.reconfigure_links (d : Dev) (r : Requester) (entries : Bool) (w : W32) :
    (d.reconfigure r entries w).links = d.links := by
  unfold Dev.reconfigure
  split
  · rfl
  · dsimp only; split <;> simp

@[simp] theorem Dev.xlInval_links (d : Dev) (r : Requester) (w : W32) : (d.xlInval r w).links = d.links := by
  unfold Dev.xlInval; split <;> simp

@[simp] theorem Dev.writeHi_links (d : Dev) (r : Requester) (l : CsrLoc) (w : W32) : (d.writeHi r l w).links = d.links := by
  unfold Dev.writeHi; split <;> simp

@[simp] theorem Dev.runTicks_links (d : Dev) (now : Nat) : (d.runTicks now).links = d.links := by
  unfold Dev.runTicks; dsimp only; split_ifs <;> simp

@[simp] theorem Dev.armReplay_links (d : Dev) : d.armReplay.links = d.links := by unfold Dev.armReplay; split <;> rfl

@[simp] theorem Dev.armMargin_links (v : Variant) (d : Dev) (n : Nat) : (d.armMargin v n).links = d.links := by
  unfold Dev.armMargin; split <;> rfl

@[simp] theorem Dev.requestDisable_links (v : Variant) (d : Dev) (en : Bool) : (d.requestDisable v en).links = d.links := by
  unfold Dev.requestDisable; dsimp only; split_ifs <;> rfl

@[simp] theorem Dev.fwCommand_links (f : Fuses) (d : Dev) (b v a k : Bool) : (d.fwCommand f b v a k).links = d.links := by
  unfold Dev.fwCommand; split_ifs <;> simp

@[simp] theorem Dev.resInject_links (d : Dev) (lc : BitVec 4) (t : TileRef) : (d.resInject lc t).links = d.links := by
  unfold Dev.resInject; split <;> simp

@[simp] theorem Dev.beginEnable_links (v : Variant) (d : Dev) (mine : BitVec 16 → Bool) : (d.beginEnable v mine).links = d.links := by
  unfold Dev.beginEnable
  split
  · rfl
  · split <;> simp

/-- A retrain takes a port down, not the connections that it carries (R392, R396). -/
theorem Dev.retrain_sameStreams (v : Variant) (d : Dev) (p : Nat) : Dev.SameStreams d (d.retrain v p) := by
  have hport : ∀ e : Dev, Dev.SameStreams e
      (if e.portOn v p then e.onPort p fun x => { x with up := false, lanes := 0, used := 0, paused := 0 }
      else e.onPort p (·.cleared)) := by
    intro e; split <;> exact .onPort ..
  have hforget : ∀ e : Dev, Dev.SameStreams e ((e.forgetPort p).takeIdentity p) := by
    intro e
    simp only [Dev.forgetPort]
    split <;> exact .of_parts rfl rfl
  have hstate : ∀ (b : Bool) (e : Dev), Dev.SameStreams e (if b then e.portState p else e) := by
    intro b e
    split
    · exact .of_links (Dev.raise_links ..)
    · exact .refl e
  exact (((Dev.SameStreams.of_links (Dev.beginEnable_links ..)).trans (hport _)).trans (hforget _)).trans (hstate _ _)

theorem Dev.SameStreams.ite {d e e' : Dev} {p : Prop} [Decidable p] (h : Dev.SameStreams d e) (h' : Dev.SameStreams d e') :
    Dev.SameStreams d (if p then e else e') := by
  split
  · exact h
  · exact h'

/-- What a write does beyond its fields disturbs no stream, but for the connection that HOST.CONN_OPEN closes or opens. -/
theorem Dev.writeActs_settles (f : Fuses) {d : Dev} (l : CsrLoc) (was w : W32) {r : StreamRef} (hd : d.settles r) :
    (d.writeActs f l was w).settles r := by
  have stands : Dev.SameStreams d d := .refl d
  unfold Dev.writeActs
  dsimp only
  split
  case h_10 =>
    have hi : w.toNat % 256 < 256 := Nat.mod_lt _ (by decide)
    have hclosed : (if w.getLsbD 9 then d.closeConn (w.toNat % 256) else d).settles r := by
      split
      · exact Dev.closeConn_settles hi hd
      · exact hd
    split
    · exact Dev.openConn_settles _ hi hclosed
    · exact hclosed
  all_goals refine Dev.SameStreams.settles ?_ hd
  · exact .ite (.of_links (by simp)) (.ite (.of_links rfl) stands)
  · exact .ite (.of_links (by simp)) stands
  · exact .ite (.of_links (by simp)) stands
  · exact .of_links rfl
  · exact .of_links rfl
  · exact .of_links rfl
  · exact .of_links rfl
  · exact .ite (.of_parts rfl rfl) stands
  · exact .ite (Dev.retrain_sameStreams ..) stands
  · exact .ite (.of_links rfl) stands
  · exact .of_links rfl
  · exact .ite (.of_links (by simp)) stands
  · exact .ite (.of_links rfl) stands
  · exact .ite (.of_links rfl) stands
  · exact .trans (b := if w.getLsbD 1 then d.askFactory else d) (.ite (.of_links rfl) stands) (.ite (.of_links rfl) (.refl _))
  · exact .ite (Dev.retrain_sameStreams ..) stands
  · exact .ite (.of_links (by simp)) stands
  · exact .of_links rfl
  · exact stands

theorem Dev.writeReg_settles (f : Fuses) {d : Dev} (r : Requester) (l : CsrLoc) (w : W32) {a : StreamRef} (hd : d.settles a) :
    (d.writeReg f r l w).settles a := by
  unfold Dev.writeReg
  split
  · exact hd
  · split_ifs
    · exact hd
    · exact hd
    · exact Dev.settles_of_links rfl hd
    · exact Dev.settles_of_links (Dev.writeHi_links ..) hd
    · exact Dev.settles_of_links (Dev.reconfigure_links ..) hd
    · exact Dev.settles_of_links (Dev.fwCommand_links ..) hd
    · exact Dev.writeActs_settles f l _ _ (Dev.settles_of_links (Dev.plainWrite_links ..) hd)

theorem Dev.csrWrite_settles (f : Fuses) {d : Dev} (r : Requester) (addr : Nat) (w : W32) {a : StreamRef} (hd : d.settles a) :
    (d.csrWrite f r addr w).2.settles a := by
  unfold Dev.csrWrite
  split
  · exact hd
  · split
    · exact hd
    · split
      · split
        · exact Dev.writeReg_settles f _ _ w hd
        · exact hd
      · exact Dev.writeReg_settles f _ _ w hd

/-! ## Reads -/

@[simp] theorem Dev.countCycles_links (d : Dev) (t : TileRef) : (d.countCycles t).links = d.links := by
  unfold Dev.countCycles; dsimp only; split_ifs <;> rfl

@[simp] theorem Dev.dumpWord_links (d : Dev) (lc : BitVec 4) : (d.dumpWord lc).2.links = d.links := Dev.setFld_links ..

@[simp] theorem Dev.readReg_links (f : Fuses) (d : Dev) (r : Requester) (l : CsrLoc) : (d.readReg f r l).2.links = d.links := by
  have hcounted : ∀ (b : Bool) (t : TileRef), (if b then d.countCycles t else d).links = d.links := by
    intro b t; split <;> simp
  cases hb : l.blockId f.variant with
  | some _ => simp [Dev.readReg, hb]
  | none =>
    cases hx : l.desc with
    | none => simp [Dev.readReg, hb, hx]
    | some x =>
      simp only [Dev.readReg, hb, hx]
      split
      · rfl
      · split
        · exact hcounted ..
        · split
          · split
            · rfl
            · exact hcounted ..
          · split <;> simp

@[simp] theorem Dev.csrRead_links (f : Fuses) (d : Dev) (r : Requester) (addr : Nat) : (d.csrRead f r addr).2.2.links = d.links := by
  unfold Dev.csrRead
  split
  · rfl
  · split <;> simp

end Sys2Proof.Machine
end

section
/-!
SUPPORT. Requests of the management path (R404, R406, R408, R528 to R532): how one arrives, what its turn does, and that its answer
acknowledges it.
-/

namespace Sys2Proof.Machine

open Sys2Proof Sys2Proof.Claims

/-! ## Answers -/

/-- An answer that goes out acknowledges the request and what came before it (R406). -/
theorem Dev.mgmtSay_reaches (v : Variant) {d : Dev} {a : Asker} (op st : W8) (data : List W8) (hd : d.reaches a.ref) :
    d.mgmtSay v a op st data =
      (d.onNim (streamKey a.ref) fun x => { x with unacked := 0 }).respond v a.ref op st (d.nim (streamKey a.ref)).epoch a.psn data := by
  obtain ⟨r, psn⟩ := a
  cases r with
  | peer dev vc => rfl
  | conn i =>
    have hopen : (d.conn i.toNat).state = 1 := hd i rfl
    simp only [Dev.mgmtSay, hopen]
    rfl

/-- An answer on a connection that is open no more is lost. -/
theorem Dev.mgmtSay_lost (v : Variant) {d : Dev} {a : Asker} (op st : W8) (data : List W8) (hd : ¬ d.reaches a.ref) :
    d.mgmtSay v a op st data = d := by
  obtain ⟨r, psn⟩ := a
  cases r with
  | peer dev vc => exact absurd (fun _ hi => nomatch hi) hd
  | conn i =>
    have hclosed : (d.conn i.toNat).state ≠ 1 := fun h => hd fun j hj => by cases hj; exact h
    simp only [Dev.mgmtSay]
    exact if_pos (decide_eq_true hclosed)

/-- An answer on a stream that settles leaves no ACK of its own due. -/
theorem Dev.mgmtSay_unacked (v : Variant) {d : Dev} {a : Asker} (op st : W8) (data : List W8) (hd : d.settles a.ref) :
    ((d.mgmtSay v a op st data).nim (streamKey a.ref)).unacked < 16 := by
  by_cases hr : d.reaches a.ref
  · rw [Dev.mgmtSay_reaches v op st data hr, (Dev.SameStreams.respond ..).unacked, Dev.nim_onNim]
    exact Nat.zero_lt_succ 15
  · rw [Dev.mgmtSay_lost v op st data hr]
    exact hd.resolve_left hr

theorem Dev.mgmtReply_unacked (v : Variant) {d : Dev} {a : Asker} (st : W8) (data : List W8) (hd : d.settles a.ref) :
    ((d.mgmtReply v a st data).nim (streamKey a.ref)).unacked < 16 := by
  unfold Dev.mgmtReply
  split <;> exact Dev.mgmtSay_unacked _ _ _ _ hd

/-- A status is answered by ERROR_RESP, whatever bytes the operation gave. -/
theorem Dev.mgmtReply_error (v : Variant) (d : Dev) (a : Asker) {st : W8} (h : st ≠ 0) (data : List W8) :
    d.mgmtReply v a st data = d.mgmtReply v a st [] := by simp only [Dev.mgmtReply, if_neg h]

theorem Dev.reaches_onNim {d : Dev} (k : Nat) (f : NimStream → NimStream) {r : StreamRef} (hd : d.reaches r) :
    (d.onNim k f).reaches r := hd

/-! ## Arrival (R404, R420, R528) -/

section
variable {s : State} {q : MgmtReq}

/-- A packet that arrives for a stream is handed to it. -/
theorem Dev.withStream_arrives (v : Variant) {d : Dev} {p : Fin 17} {h : NimHdr} {r : StreamRef} (ha : arrives d p h r) (op : W8)
    (bytes : List W8) (f : StreamRef → Dev → Dev) : d.withStream v p.val op h bytes f = f r d := by
  obtain ⟨hup, ⟨hp, hh, hd, rfl⟩ | ⟨hp, hh, hs, hc, hk, rfl⟩⟩ := ha
  · simp [Dev.withStream, hup, hh, hp, hd]
  · rw [hp] at hup
    simp [Dev.withStream, hup, hh, hp, hs, hc, hk]

/-- An answer to a packet that arrives goes out. -/
theorem arrives_reaches {d : Dev} {p : Fin 17} {h : NimHdr} {r : StreamRef} (ha : arrives d p h r) : d.reaches r := by
  intro i hi
  obtain ⟨-, ⟨-, -, -, rfl⟩ | ⟨-, -, hs, hc, -, rfl⟩⟩ := ha
  · exact nomatch hi
  · cases hi
    have : (h.stream.setWidth 8).toNat = h.stream.toNat := by simp; omega
    rw [this]; exact hc

/-- What arrives is for this device. -/
theorem arrives_here {d : Dev} {p : Fin 17} {h : NimHdr} {r : StreamRef} (ha : arrives d p h r) : p.val = 16 ∨ h.dst = d.deviceId := by
  obtain ⟨-, ⟨-, -, hd, -⟩ | ⟨hp, -⟩⟩ := ha
  · exact .inr hd
  · exact .inl hp

theorem Dev.onRequest_scrapped {f : Fuses} (hs : f.state = lcScrapped) (d : Dev) (q : MgmtReq) (op : W8) (bytes : List W8)
    (run : Asker → Dev → Dev) : d.onRequest f q op bytes run = d := by simp [Dev.onRequest, hs]

variable (op : W8) (bytes : List W8) (run : Asker → Dev → Dev)

/-- A request that arrives is judged by its epoch and its PSN. -/
theorem Dev.onRequest_arrives (hs : s.fuse.state ≠ lcScrapped) (ha : arrives s.dev q.port q.hdr (askedOn q)) :
    s.dev.onRequest s.fuse q op bytes run =
      let x := s.dev.nim (streamKey (askedOn q))
      let d := s.dev.notify s.fuse.variant q.port.val (askedOn q) q.hdr.ce
      if q.hdr.epoch ≠ x.epoch then s.dev
      else if q.hdr.psn - x.expected = 0 then d.mgmtTurn s.fuse.variant q run (askedOn q)
      else if (q.hdr.psn - x.expected).toNat < 2 ^ 31 then d.respond s.fuse.variant (askedOn q) 0x11 0 x.epoch (x.expected - 1) []
      else d.sendAck s.fuse.variant (askedOn q) := by
  have hup : (s.dev.mgmtFenced && !(s.dev.port q.port.val).up) = false := by simp [ha.1]
  simp only [Dev.onRequest, hs, if_false, hup, Bool.false_eq_true, Dev.withStream_arrives _ ha]

theorem Dev.onRequest_other_epoch (hs : s.fuse.state ≠ lcScrapped) (ha : arrives s.dev q.port q.hdr (askedOn q))
    (he : q.hdr.epoch ≠ (s.dev.nim (streamKey (askedOn q))).epoch) : s.dev.onRequest s.fuse q op bytes run = s.dev := by
  rw [Dev.onRequest_arrives op bytes run hs ha]; exact if_pos he

theorem Dev.onRequest_ahead (hs : s.fuse.state ≠ lcScrapped) (ha : arrives s.dev q.port q.hdr (askedOn q))
    (he : q.hdr.epoch = (s.dev.nim (streamKey (askedOn q))).epoch) (hp : q.hdr.psn ≠ (s.dev.nim (streamKey (askedOn q))).expected)
    (hlt : (q.hdr.psn - (s.dev.nim (streamKey (askedOn q))).expected).toNat < 2 ^ 31) :
    s.dev.onRequest s.fuse q op bytes run =
      (s.dev.notify s.fuse.variant q.port.val (askedOn q) q.hdr.ce).respond s.fuse.variant (askedOn q) 0x11 0
        (s.dev.nim (streamKey (askedOn q))).epoch ((s.dev.nim (streamKey (askedOn q))).expected - 1) [] := by
  have h0 : q.hdr.psn - (s.dev.nim (streamKey (askedOn q))).expected ≠ 0 := sub_ne_zero.2 hp
  rw [Dev.onRequest_arrives op bytes run hs ha]
  dsimp only
  rw [if_neg (not_not.2 he), if_neg h0, if_pos hlt]

theorem Dev.onRequest_behind (hs : s.fuse.state ≠ lcScrapped) (ha : arrives s.dev q.port q.hdr (askedOn q))
    (he : q.hdr.epoch = (s.dev.nim (streamKey (askedOn q))).epoch)
    (hge : 2 ^ 31 ≤ (q.hdr.psn - (s.dev.nim (streamKey (askedOn q))).expected).toNat) :
    s.dev.onRequest s.fuse q op bytes run =
      (s.dev.notify s.fuse.variant q.port.val (askedOn q) q.hdr.ce).sendAck s.fuse.variant (askedOn q) := by
  have h0 : q.hdr.psn - (s.dev.nim (streamKey (askedOn q))).expected ≠ 0 := fun h => by rw [h] at hge; simp at hge
  rw [Dev.onRequest_arrives op bytes run hs ha]
  dsimp only
  rw [if_neg (not_not.2 he), if_neg h0, if_neg (not_lt.2 hge)]

theorem Dev.onRequest_expected (hs : s.fuse.state ≠ lcScrapped) (ha : arrives s.dev q.port q.hdr (askedOn q))
    (he : q.hdr.epoch = (s.dev.nim (streamKey (askedOn q))).epoch) (hp : q.hdr.psn = (s.dev.nim (streamKey (askedOn q))).expected) :
    s.dev.onRequest s.fuse q op bytes run =
      (s.dev.notify s.fuse.variant q.port.val (askedOn q) q.hdr.ce).mgmtTurn s.fuse.variant q run (askedOn q) := by
  rw [Dev.onRequest_arrives op bytes run hs ha]
  dsimp only
  rw [if_neg (not_not.2 he), if_pos (sub_eq_zero.2 hp)]

/-! ## A request in its turn -/

/-- On a stream that is no management stream the turn is an ERROR_RESP (R528). -/
theorem Dev.mgmtTurn_elsewhere (v : Variant) {d : Dev} {r : StreamRef} (hm : askedOnMgmt q = false) (hd : d.reaches r) :
    d.mgmtTurn v q run r =
      (d.onNim (streamKey r) fun x => { x with expected := x.expected + 1, unacked := x.unacked + 1 }).mgmtReply v ⟨r, q.hdr.psn⟩
        sTranslation [] := by
  have hu := Dev.mgmtReply_unacked v (a := ⟨r, q.hdr.psn⟩) sTranslation [] (.inl (Dev.reaches_onNim (streamKey r)
    (fun x => { x with expected := x.expected + 1, unacked := x.unacked + 1 }) hd))
  simp only [Dev.mgmtTurn, hm, Bool.or_false, Bool.false_eq_true, if_false]
  exact if_neg (not_le.2 hu)

/-- A request in its turn does what it asks, where its answer acknowledges it. -/
theorem Dev.onRequest_inTurn (h : asksInTurn s q)
    (hu : ((run ⟨askedOn q, q.hdr.psn⟩ (requestTaken s q)).nim (streamKey (askedOn q))).unacked < 16) :
    s.dev.onRequest s.fuse q op bytes run = run ⟨askedOn q, q.hdr.psn⟩ (requestTaken s q) := by
  obtain ⟨hs, ha, hm, he, hp, hce⟩ := h
  rw [Dev.onRequest_expected op bytes run hs ha he hp, hce]
  simp only [Dev.notify, Dev.mgmtTurn, hm, if_true, Bool.or_true]
  exact if_neg (not_le.2 hu)

end

end Sys2Proof.Machine
end

section
/-!
Requests of the management path and its sub-operations (R9, R404, R451, R486, R528, R530 to R532).
-/

namespace Sys2Proof.Proofs

open Sys2Proof.Machine Sys2Proof.Claims

/-! ## The state a request finds -/

section
variable {s : State} {q : MgmtReq}

@[simp] theorem requestTaken_sec (s : State) (q : MgmtReq) : (requestTaken s q).sec = s.dev.sec := rfl

theorem requestTaken_reaches (h : asksInTurn s q) : (requestTaken s q).reaches (askedOn q) :=
  Dev.reaches_onNim _ _ (arrives_reaches h.2.1)

/-! ## Every request arrives alike -/

/-- An SPDM request that is for this device draws nothing before it is judged. -/
theorem onSpdm_here {d : Dev} (f : Fuses) (code : W8) (op : Asker → Dev → Dev) (h : q.port.val = 16 ∨ q.hdr.dst = d.deviceId) :
    d.onSpdm f q code op =
      d.onRequest f q 0x09 (mgmtBytes 3 0 0 [0x12, code]) (Dev.spdmGate f.variant (decide (code = 0xE0)) op) := by
  have hn : ¬ (q.port.val ≠ 16 ∧ q.hdr.dst ≠ d.deviceId) := by tauto
  simp only [Dev.onSpdm, if_neg hn]

/-- A command that carries a request of a management stream is judged as a request, whatever it asks. -/
theorem exec_mgmtRow {c : Instr} (hc : mgmtRow q c) (hq : q.port.val = 16 ∨ q.hdr.dst = s.dev.deviceId) :
    ∃ op bytes run, exec c s = .next (s.withDev (s.dev.onRequest s.fuse q op bytes run)) := by
  have spdm : ∀ (code : W8) (op : Asker → Dev → Dev), ∃ o bytes run,
      State.onDev s (fun d => d.onSpdm s.fuse q code op) = .next (s.withDev (s.dev.onRequest s.fuse q o bytes run)) := fun code op =>
    ⟨_, _, _, (State.onDev_next s _).trans (by rw [onSpdm_here s.fuse code op hq])⟩
  obtain ⟨x, rfl⟩ | ⟨x, v, rfl⟩ | ⟨b, x, rfl⟩ | ⟨a, n, rfl⟩ | ⟨x, rfl⟩ | ⟨a, n, rfl⟩ | ⟨a, n, rfl⟩ | ⟨a, rfl⟩ | ⟨e, t, he, rfl⟩ |
    rfl | rfl | ⟨a, b, rfl⟩ | rfl | ⟨a, b, l, rfl⟩ | ⟨a, b, rfl⟩ | ⟨a, b, rfl⟩ | ⟨a, rfl⟩ := hc
  iterate 8 exact ⟨_, _, _, rfl⟩
  · -- a token, of any kind
    obtain rfl | rfl | rfl | rfl | rfl | rfl | rfl := he <;> exact ⟨_, _, _, rfl⟩
  all_goals exact spdm ..

/-! ## CSR requests (R9, R530) -/

/-- A CSR request in its turn: the access where the payload is 8 bytes, else a refusal; CSR_RESP answers it. -/
theorem csrTurn_inTurn (h : asksInTurn s q) (hf : s.dev.mgmtFenced = false) (bytes : List W8) (op : Dev → W8 × W32 × Dev)
    (hop : (op (requestTaken s q)).2.2.settles (askedOn q)) :
    s.dev.onRequest s.fuse q 0x08 bytes (Dev.csrTurn s.fuse q op) =
      let x := if q.hdr.length = 8 then op (requestTaken s q) else (sTranslation, 0, requestTaken s q)
      x.2.2.mgmtSay s.fuse.variant ⟨askedOn q, q.hdr.psn⟩ 0x15 x.1 (toLE 4 x.2.1.toNat) := by
  have hfenced : (requestTaken s q).mgmtFenced = false := hf
  have hx : (if q.hdr.length = 8 then op (requestTaken s q) else (sTranslation, 0, requestTaken s q)).2.2.settles (askedOn q) := by
    split
    · exact hop
    · exact .inl (requestTaken_reaches h)
  have hrun : Dev.csrTurn s.fuse q op ⟨askedOn q, q.hdr.psn⟩ (requestTaken s q) =
      let x := if q.hdr.length = 8 then op (requestTaken s q) else (sTranslation, 0, requestTaken s q)
      x.2.2.mgmtSay s.fuse.variant ⟨askedOn q, q.hdr.psn⟩ 0x15 x.1 (toLE 4 x.2.1.toNat) := by
    simp only [Dev.csrTurn, hfenced, Bool.false_eq_true, if_false]
  rw [Dev.onRequest_inTurn 0x08 bytes _ h, hrun]
  rw [hrun]
  exact Dev.mgmtSay_unacked _ _ _ _ hx

/-- A CSR request in its turn does what the access by its stream does, and its answer carries that status and value. -/
theorem csrRequest_does_access (h : asksInTurn s q) (hf : s.dev.mgmtFenced = false) {c access : Instr} (bytes : List W8)
    (op : Dev → W8 × W32 × Dev) (hop : (op (requestTaken s q)).2.2.settles (askedOn q))
    (hc : exec c s = .next (s.withDev (s.dev.onRequest s.fuse q 0x08 bytes (Dev.csrTurn s.fuse q op))))
    (ha : exec access (s.withDev (requestTaken s q)) = .next (s.withDev ((op (requestTaken s q)).2.2.send
      (.csr (.mgmt (streamKey (askedOn q))) (op (requestTaken s q)).1 (op (requestTaken s q)).2.1)))) :
    (q.hdr.length ≠ 8 → exec c s = .next (s.withDev ((requestTaken s q).mgmtSay s.fuse.variant ⟨askedOn q, q.hdr.psn⟩ 0x15 sTranslation
      (toLE 4 0)))) ∧
    (q.hdr.length = 8 → ∃ (u : Dev) (st : W8) (w : W32),
      exec access (s.withDev (requestTaken s q)) = .next (s.withDev (u.send (.csr (.mgmt (streamKey (askedOn q))) st w))) ∧
      exec c s = .next (s.withDev (u.mgmtSay s.fuse.variant ⟨askedOn q, q.hdr.psn⟩ 0x15 st (toLE 4 w.toNat)))) := by
  rw [csrTurn_inTurn h hf bytes op hop] at hc
  refine ⟨fun hl => ?_, fun hl => ⟨_, _, _, ha, ?_⟩⟩
  · rw [hc, if_neg hl]; rfl
  · rw [hc, if_pos hl]

end

theorem managementRequestsArrive : ManagementRequestsArrive := by
  refine ⟨?arrive, ?csr⟩
  case arrive =>
    intro q c s hc r x v d taken
    refine ⟨fun hs hq => ?_, fun hs ha => ?_⟩
    · obtain ⟨op, bytes, run, hexec⟩ := exec_mgmtRow (s := s) hc hq
      rw [hexec, Dev.onRequest_scrapped hs, State.withDev_same]
    · obtain ⟨op, bytes, run, hexec⟩ := exec_mgmtRow (s := s) hc (arrives_here ha)
      refine ⟨fun he => ?_, fun he hp hlt => ?_, fun he hge => ?_, fun he hp hm => ?_⟩
      · rw [hexec, Dev.onRequest_other_epoch op bytes run hs ha he, State.withDev_same]
      · rw [hexec, Dev.onRequest_ahead op bytes run hs ha he hp hlt]
      · rw [hexec, Dev.onRequest_behind op bytes run hs ha he hge]
      · have hreach : d.reaches (askedOn q) := (Dev.SameStreams.notify ..).reaches (arrives_reaches ha)
        rw [repliesTo, hexec, Dev.onRequest_expected op bytes run hs ha he hp, Dev.mgmtTurn_elsewhere run s.fuse.variant hm hreach]
  case csr =>
    intro q a v c access s h hf ha k hca
    have hreach := requestTaken_reaches h
    have hans : s.fuse.answers (.mgmt k) = true := by simpa [Fuses.answers] using h.1
    obtain ⟨⟨x, rfl⟩, rfl⟩ | ⟨⟨x, rfl⟩, rfl⟩ := hca
    · refine csrRequest_does_access h hf _ (fun d => d.csrRead s.fuse (.mgmt k) q.hdr.addr.toNat)
        (.inl ((Dev.SameStreams.of_links (Dev.csrRead_links ..)).reaches hreach)) rfl ?_
      rw [exec_csrAsk_read (.inl ⟨a, .inl rfl, ha, rfl⟩)]
      simp [Dev.answerRead, hans, k]
    · refine csrRequest_does_access h hf _ (fun d =>
        ((d.csrWrite s.fuse (.mgmt k) q.hdr.addr.toNat v).1, 0, (d.csrWrite s.fuse (.mgmt k) q.hdr.addr.toNat v).2))
        (Dev.csrWrite_settles s.fuse _ _ v (.inl hreach)) rfl ?_
      rw [exec_csrAsk_write (.inr ⟨a, v, rfl, ha, rfl⟩)]
      simp [Dev.answerWrite, hans, k]

/-! ## Sub-operations (R451, R486, R531) -/

section
variable {s : State} {q : MgmtReq} (bytes : List W8) (inRecovery : Bool) (op : Dev → W8 × List W8 × Dev)

/-- In a reset a sub-operation is answered FENCED (R532). -/
theorem onMgmt_fenced (h : asksInTurn s q) (hf : s.dev.mgmtFenced = true) :
    s.dev.onMgmt s.fuse q bytes inRecovery op = (requestTaken s q).mgmtReply s.fuse.variant ⟨askedOn q, q.hdr.psn⟩ sFenced [] := by
  have hfenced : (requestTaken s q).mgmtFenced = true := hf
  have hrun : Dev.mgmtGate s.fuse.variant inRecovery op ⟨askedOn q, q.hdr.psn⟩ (requestTaken s q) =
      (requestTaken s q).mgmtReply s.fuse.variant ⟨askedOn q, q.hdr.psn⟩ sFenced [] := by simp only [Dev.mgmtGate, hfenced, if_true]
  rw [Dev.onMgmt, Dev.onRequest_inTurn 0x09 bytes _ h, hrun]
  rw [hrun]
  exact Dev.mgmtReply_unacked _ _ _ (.inl (requestTaken_reaches h))

/-- Outside a reset and recovery a sub-operation that leaves the connections open is answered with its status and bytes. -/
theorem onMgmt_answers (h : asksInTurn s q) (hf : s.dev.mgmtFenced = false) (hr : s.dev.sec.recovery = false) {st : W8} {data : List W8}
    {u : Dev} (hop : op (requestTaken s q) = (st, data, u)) (hu : Dev.SameStreams (requestTaken s q) u) :
    s.dev.onMgmt s.fuse q bytes inRecovery op = u.mgmtReply s.fuse.variant ⟨askedOn q, q.hdr.psn⟩ st data := by
  have hfenced : (requestTaken s q).mgmtFenced = false := hf
  have hrun : Dev.mgmtGate s.fuse.variant inRecovery op ⟨askedOn q, q.hdr.psn⟩ (requestTaken s q) =
      u.mgmtReply s.fuse.variant ⟨askedOn q, q.hdr.psn⟩ st data := by
    simp only [Dev.mgmtGate, hfenced, requestTaken_sec, hr, Bool.false_and, Bool.false_eq_true, if_false, hop]
  rw [Dev.onMgmt, Dev.onRequest_inTurn 0x09 bytes _ h, hrun]
  rw [hrun]
  exact Dev.mgmtReply_unacked _ _ _ (.inl (hu.reaches (requestTaken_reaches h)))

end

/-- The log gives records that are held or were logged, from the number asked on. -/
theorem mem_logFrom {e : Events} {first : Nat} {x : EventRec} (hx : x ∈ e.logFrom first) :
    first ≤ x.seq.toNat ∧ (x ∈ e.recent ∨ x ∈ e.held) := by
  have key : ∀ (rs : List EventRec) (t : Tab EventRec) (y : Nat × EventRec),
      y ∈ rs.foldl (fun (t : Tab EventRec) r => Tab.ins r.seq.toNat r (Tab.drop r.seq.toNat t)) t → y.2 ∈ rs ∨ y ∈ t := by
    intro rs
    induction rs with
    | nil => exact fun t y hy => .inr hy
    | cons r rs ih =>
      intro t y hy
      rcases ih _ y hy with h | h
      · exact .inl (List.mem_cons_of_mem _ h)
      · rcases (Tab.mem_ins ..).1 h with rfl | h
        · exact .inl List.mem_cons_self
        · exact .inr (List.mem_filter.1 h).1
  obtain ⟨y, hy, rfl⟩ := List.mem_map.1 hx
  have hmem := (key _ _ y hy).resolve_right (List.not_mem_nil)
  rw [List.mem_filter, List.mem_append, decide_eq_true_eq] at hmem
  exact hmem.symm

section
variable {q : MgmtReq} {o : Host.Outcome State Fault Refusal} {s : State} {d : Dev} {st : W8} {data : List W8}

theorem repliesTo_status {st' : W8} (h : st = st') (hr : repliesTo q o s d st data) : repliesTo q o s d st' data := h ▸ hr

/-- An answer that is a status carries no bytes. -/
theorem repliesTo_error (h : st ≠ 0) (hr : repliesTo q o s d st data) : repliesTo q o s d st [] := by
  rwa [repliesTo, ← Dev.mgmtReply_error _ _ _ h data]

end

/-- A command whose request is a sub-operation is answered as the sub-operation says. -/
theorem repliesTo_of_onMgmt {s : State} {q : MgmtReq} {c : Instr} {bytes : List W8} {inRecovery : Bool} {op : Dev → W8 × List W8 × Dev}
    {st : W8} {data : List W8} {u : Dev} (h : asksInTurn s q) (hf : s.dev.mgmtFenced = false) (hr : s.dev.sec.recovery = false)
    (hc : exec c s = .next (s.withDev (s.dev.onMgmt s.fuse q bytes inRecovery op))) (hop : op (requestTaken s q) = (st, data, u))
    (hu : Dev.SameStreams (requestTaken s q) u) : repliesTo q (exec c s) s u st data := by
  rw [repliesTo, hc, onMgmt_answers bytes inRecovery op h hf hr hop hu]

/-- IMAGE_WRITE outside recovery stores into the bank that does not run (R531). -/
theorem imageWrite_eq {d : Dev} (hr : d.sec.recovery = false) (bank : W32) (addr : W64) (data : List W8) :
    d.imageWrite bank addr data =
      if bank.toNat < 2 ∧ decide (bank = 1) ≠ d.sec.running ∧ addr.toNat % 64 = 0 ∧ 64 ≤ data.length ∧ data.length ≤ 4032 ∧
          addr.toNat + data.length ≤ 0x1000000 then
        (0, [], { d with sec := d.sec.setBank (decide (bank = 1)) ((d.sec.bank (decide (bank = 1))).store addr.toNat data) })
      else (sTranslation, [], d) := by
  simp only [Dev.imageWrite, bankSize, hr, Bool.not_false, and_true]
  rw [← ite_not]
  refine if_congr ?_ rfl rfl
  simp only [not_or, not_lt, ne_eq, not_not]
  rw [Nat.lt_succ_iff]

/-- MEM_READ at debug level 1 or above, or in BLANK (R486, R531). -/
theorem memRead_eq (f : Fuses) (d : Dev) (arg0 : W32) (addr len : W64) :
    d.memRead f arg0 addr len =
      if (f.lc = 0 ∨ 1 ≤ d.sec.debugLevel.toNat) ∧ len ≠ 0 ∧ len.toNat ≤ 4096 then
        let r := if arg0.getLsbD 0 then d.virtLook f.variant (arg0.toNat / 16 % 16) addr.toNat len.toNat
          else d.physBytes f.variant addr.toNat len.toNat
        (r.st, r.data, r.d)
      else (sTranslation, [], d) := by
  have hlevel : 1 ≤ d.debugOpen f.lc ↔ f.lc = 0 ∨ 1 ≤ d.sec.debugLevel.toNat := by
    by_cases hb : f.lc = 0
    · simp [Dev.debugOpen, hb]
    · simp only [Dev.debugOpen, hb, if_false, false_or]
  simp only [Dev.memRead]
  rw [← ite_not]
  refine if_congr ?_ rfl rfl
  simp only [not_or, not_lt, hlevel, ne_eq]

/-- MEM_WRITE in the life-cycle states that allow it, to Quire memory or scratch (R531). -/
theorem memWrite_eq {f : Fuses} (hs : f.state ≠ lcScrapped) (d : Dev) (addr : W64) (data : List W8) :
    d.memWrite f addr data =
      if f.state ≠ lcReturned ∧ data ≠ [] ∧ data.length ≤ 4080 ∧ inQuireOrScratch addr.toNat data.length = true then
        let r := d.physStore f.variant addr.toNat data
        (r.st, [], r.d)
      else (sTranslation, [], d) := by
  have hstate : ¬ (f.state ≠ lcOwned ∧ f.state ≠ lcVendor ∧ f.state ≠ lcBlank) ↔ f.state ≠ lcReturned := by
    revert hs
    unfold Fuses.state
    generalize f.lc = c
    revert c
    decide
  simp only [Dev.memWrite]
  rw [← ite_not]
  refine if_congr ?_ rfl rfl
  simp only [not_or, not_lt, hstate, List.length_eq_zero_iff, ne_eq, Bool.not_eq_true', Bool.not_eq_false]

/-- LEDGER_READ gives SEEN above STATE of each unit that it names (R531). -/
theorem ledgerByte_eq (v : Variant) (d : Dev) {u : Nat} (h : u < 65536) :
    d.ledgerByte v u = (d.entry v (BitVec.ofNat 16 u)).seen ++ (d.entry v (BitVec.ofNat 16 u)).state := by
  simp only [Dev.ledgerByte]
  exact if_neg (not_le.2 h)

theorem managementOperations : ManagementOperations := by
  intro q s h d v at_ replies refused
  refine ⟨fun hf b a n x c hc => ?fenced, fun hf hr => ⟨?image, ?read, ?write, ?ledger, ?dump, ?log⟩⟩
  case fenced =>
    obtain rfl | rfl | rfl | rfl | rfl | rfl := hc <;>
      exact congrArg (fun u => Host.Outcome.next (s.withDev u)) (onMgmt_fenced _ _ _ h hf)
  case image =>
    intro bank data k fits
    have heq := imageWrite_eq (d := d) hr bank q.hdr.addr data
    exact ⟨fun hfit => repliesTo_of_onMgmt h hf hr rfl (heq.trans (if_pos hfit)) (.of_links rfl),
      fun hfit => repliesTo_of_onMgmt h hf hr rfl (heq.trans (if_neg hfit)) (.refl d)⟩
  case read =>
    intro arg0 len fits r
    have heq := memRead_eq s.fuse d arg0 q.hdr.addr len
    have hkept : Dev.SameStreams d r.d := by
      simp only [r]
      split
      · exact .virtLook ..
      · exact .of_links (Dev.physBytes_links ..)
    have hreply : fits → repliesTo q (exec (.memRead q.toVia q.hdr arg0 len) s) s r.d r.st r.data := fun hfit =>
      repliesTo_of_onMgmt h hf hr rfl (heq.trans (if_pos hfit)) hkept
    exact ⟨fun hfit h0 => repliesTo_status h0 (hreply hfit), fun hfit hne => repliesTo_error hne (hreply hfit),
      fun hfit => repliesTo_of_onMgmt h hf hr rfl (heq.trans (if_neg hfit)) (.refl d)⟩
  case write =>
    intro data fits r
    have heq := memWrite_eq h.1 d q.hdr.addr data
    have hreply : fits → repliesTo q (exec (.memWrite q.toVia q.hdr data) s) s r.d r.st [] := fun hfit =>
      repliesTo_of_onMgmt h hf hr rfl (heq.trans (if_pos hfit)) (.of_links (Dev.physStore_links ..))
    exact ⟨fun hfit h0 => repliesTo_status h0 (hreply hfit), fun hfit _ => hreply hfit,
      fun hfit => repliesTo_of_onMgmt h hf hr rfl (heq.trans (if_neg hfit)) (.refl d)⟩
  case ledger =>
    intro first count
    refine ⟨fun h0 hle hend => ?_, fun hout => repliesTo_of_onMgmt h hf hr rfl (if_pos hout) (.refl d)⟩
    refine repliesTo_of_onMgmt h hf hr rfl ((if_neg (not_or.2 ⟨h0, not_lt.2 hle⟩)).trans ?_) (.refl d)
    refine congrArg (fun bs => ((0 : W8), bs, d)) (List.map_congr_left fun i hi => ?_)
    exact ledgerByte_eq _ d (by have := List.mem_range.1 hi; omega)
  case dump =>
    intro slot len
    refine ⟨fun hs h0 hle => ?_, fun hout => repliesTo_of_onMgmt h hf hr rfl (if_pos hout) (.refl d)⟩
    exact repliesTo_of_onMgmt h hf hr rfl (if_neg (not_or.2 ⟨not_le.2 hs, not_or.2 ⟨h0, not_lt.2 hle⟩⟩)) (.refl d)
  case log =>
    intro first
    exact ⟨(s.dev.events.logFrom first.toNat).take 63, repliesTo_of_onMgmt h hf hr rfl rfl (.refl d), List.length_take_le ..,
      fun e he => mem_logFrom (List.mem_of_mem_take he)⟩

/-- Settles O55: a request that arrives is judged by epoch and PSN alone, and one in its turn does its operation, after which the answer
goes out and leaves no ACK due, since no operation but HOST.CONN_OPEN touches a connection. -/
theorem managementPath : Obligations.ManagementPath := ⟨managementRequestsArrive, managementOperations⟩

end Sys2Proof.Proofs
end

section
/-!
SUPPORT. What accesses to memory leave alone: the tick, the sequencer, which slices are fenced, which tiles are late, and Gander but for its
record of who used what (R433).
-/

namespace Sys2Proof.Machine

open Sys2Proof

/-! ## What most work of the device leaves alone -/

/-- The tick, Gander without its note of who used which resource, which slices are fenced and which tiles are late. -/
structure Steady where
  tick : Tick
  gander : Gander
  fenced : Nat → Bool
  late : TileRef → Bool

def Dev.steady (d : Dev) : Steady :=
  ⟨d.tick, { d.gander with active := [] }, fun n => (d.hub n).fenced, fun t => (d.tile t).late⟩

/-- With the sequencer, which no access to memory touches either. -/
def Dev.still (d : Dev) : Steady × Seq := (d.steady, d.seq)

section
variable {d e : Dev}

theorem Dev.tick_of_steady (h : e.steady = d.steady) : e.tick = d.tick := congrArg Steady.tick h
theorem Dev.fenced_of_steady (h : e.steady = d.steady) (n : Nat) : (e.hub n).fenced = (d.hub n).fenced :=
  congrFun (congrArg Steady.fenced h) n
theorem Dev.late_of_steady (h : e.steady = d.steady) (t : TileRef) : (e.tile t).late = (d.tile t).late :=
  congrFun (congrArg Steady.late h) t
theorem Dev.recoveries_of_steady (h : e.steady = d.steady) : e.gander.recoveries = d.gander.recoveries :=
  congrArg (fun x => x.gander.recoveries) h
theorem Dev.resetArmed_of_steady (h : e.steady = d.steady) : e.gander.resetArmed = d.gander.resetArmed :=
  congrArg (fun x => x.gander.resetArmed) h
theorem Dev.steady_of_still (h : e.still = d.still) : e.steady = d.steady := congrArg Prod.fst h
theorem Dev.seq_of_still (h : e.still = d.still) : e.seq = d.seq := congrArg Prod.snd h
theorem Dev.still_of_parts (h : e.steady = d.steady) (hs : e.seq = d.seq) : e.still = d.still := Prod.ext h hs

end

/-! ## Updates of one part -/

@[simp] theorem Dev.onHub_steady (d : Dev) (n : Nat) {f : Hub → Hub} (h : ∀ x, (f x).fenced = x.fenced) :
    (d.onHub n f).steady = d.steady := by
  have hf : (fun k => ((d.onHub n f).hub k).fenced) = fun k => (d.hub k).fenced := by
    funext k
    by_cases hk : k = n
    · subst hk; rw [Dev.hub_onHub, h]
    · rw [Dev.hub_onHub_ne d f hk]
  exact congrArg (fun x => (⟨d.tick, { d.gander with active := [] }, x, fun t => (d.tile t).late⟩ : Steady)) hf

@[simp] theorem Dev.onHub_still (d : Dev) (n : Nat) {f : Hub → Hub} (h : ∀ x, (f x).fenced = x.fenced) :
    (d.onHub n f).still = d.still := Dev.still_of_parts (d.onHub_steady n h) rfl

theorem Dev.setTile_steady (d : Dev) (t : TileRef) {x : Tile} (h : x.late = (d.tile t).late) : (d.setTile t x).steady = d.steady := by
  have hl : (fun u => ((d.setTile t x).tile u).late) = fun u => (d.tile u).late := by
    funext u
    by_cases hu : u = t
    · subst hu; rw [Dev.tile_setTile, h]
    · rw [Dev.tile_setTile_ne d x hu]
  exact congrArg (fun y => (⟨d.tick, { d.gander with active := [] }, fun n => (d.hub n).fenced, y⟩ : Steady)) hl

@[simp] theorem Dev.onTile_steady (d : Dev) (t : TileRef) {f : Tile → Tile} (h : ∀ x, (f x).late = x.late) :
    (d.onTile t f).steady = d.steady := d.setTile_steady t (h _)

@[simp] theorem Dev.setReg_still (d : Dev) (l : CsrLoc) (v : W32) : (d.setReg l v).still = d.still := by rw [Dev.setReg_frame]; rfl
@[simp] theorem Dev.count_still (d : Dev) (l : CsrLoc) (lo w n : Nat) : (d.count l lo w n).still = d.still := Dev.setReg_still ..
@[simp] theorem Dev.setReg64_still (d : Dev) (l : CsrLoc) (v : W64) : (d.setReg64 l v).still = d.still := by simp [Dev.setReg64]
@[simp] theorem Dev.raise_still (d : Dev) (c : Nat) (i : EventInfo) : (d.raise c i).still = d.still := by rw [Dev.raise_frame]; rfl
@[simp] theorem Dev.setEntry_still (v : Variant) (d : Dev) (u : BitVec 16) (e : LedgerEntry) : (d.setEntry v u e).still = d.still := rfl
@[simp] theorem Dev.send_still (d : Dev) (m : OutMsg) : (d.send m).still = d.still := rfl
@[simp] theorem Dev.onSector_still (d : Dev) (n : Nat) (f : Sector → Sector) : (d.onSector n f).still = d.still := rfl
@[simp] theorem Dev.onLinks_still (d : Dev) (f : Links → Links) : (d.onLinks f).still = d.still := rfl
@[simp] theorem Dev.onRetain_still (d : Dev) (f : Retain → Retain) : (d.onRetain f).still = d.still := rfl

@[simp] theorem Dev.moveUnit_still (v : Variant) (d : Dev) (u : BitVec 16) (st : BitVec 4) : (d.moveUnit v u st).still = d.still := by
  unfold Dev.moveUnit; dsimp only; split_ifs <;> simp

/-- A fold whose every step leaves alone what `still` names does so as a whole. -/
@[simp] theorem Dev.foldl_still {α : Type} {f : Dev → α → Dev} (h : ∀ d a, (f d a).still = d.still) (as : List α) (d : Dev) :
    (as.foldl f d).still = d.still := foldl_keeps Dev.still f h as d

/-! ## Stack lines and the cache of a slice -/

@[simp] theorem Dev.uncache_still (d : Dev) (n line : Nat) : (d.onHub n (·.uncache line)).still = d.still :=
  d.onHub_still n fun _ => rfl

@[simp] theorem Dev.storeRaw_still (d : Dev) (n line : Nat) (data chk : List W8) : (d.storeRaw n line data chk).still = d.still := rfl
@[simp] theorem Dev.storeLine_still (d : Dev) (n line : Nat) (data : List W8) : (d.storeLine n line data).still = d.still :=
  Dev.storeRaw_still ..
@[simp] theorem Dev.poisonLine_still (d : Dev) (n line : Nat) : (d.poisonLine n line).still = d.still := Dev.storeRaw_still ..

@[simp] theorem Dev.fillGroup_still (d : Dev) (n c g : Nat) : (d.fillGroup n c g).still = d.still := by
  unfold Dev.fillGroup; dsimp only; split <;> simp

@[simp] theorem Dev.readStored_still (d : Dev) (n line : Nat) : (d.readStored n line).d.still = d.still := by
  unfold Dev.readStored
  split
  · simp
  · split <;> simp

@[simp] theorem Dev.writeBack_still (d : Dev) (n line : Nat) (c : CacheLine) : (d.writeBack n line c).still = d.still := by
  unfold Dev.writeBack
  split
  · rfl
  · split <;> simp

@[simp] theorem Dev.evictFor_still (d : Dev) (n line : Nat) : (d.evictFor n line).still = d.still := by
  unfold Dev.evictFor
  dsimp only
  split
  · rfl
  · split <;> simp

@[simp] theorem Dev.cachePut_still (d : Dev) (n line : Nat) (data : List W8) (dirty : Bool) :
    (d.cachePut n line data dirty).still = d.still := by
  unfold Dev.cachePut; dsimp only; split <;> simp

@[simp] theorem Dev.flushCache_still (d : Dev) (n : Nat) : (d.flushCache n).still = d.still := by simp [Dev.flushCache]

@[simp] theorem Dev.refetch_still (d : Dev) (n line : Nat) : (d.refetch n line).d.still = d.still := by
  unfold Dev.refetch; dsimp only; split <;> simp

@[simp] theorem Dev.cachedRead_still (d : Dev) (n line : Nat) (c : CacheLine) : (d.cachedRead n line c).d.still = d.still := by
  unfold Dev.cachedRead
  split
  · simp
  · split
    · simp
    · split <;> simp

@[simp] theorem Dev.lineRead_still (d : Dev) (n line : Nat) : (d.lineRead n line).d.still = d.still := by
  unfold Dev.lineRead
  dsimp only
  split
  · rfl
  · split <;> simp

@[simp] theorem Dev.lineWrite_still (d : Dev) (n line off : Nat) (bytes : List W8) : (d.lineWrite n line off bytes).d.still = d.still := by
  unfold Dev.lineWrite; dsimp only; split_ifs <;> simp

@[simp] theorem Dev.reply_still (d : Dev) (j : SliceJob) (st : W8) (data : List W8) : (d.reply j st data).still = d.still := rfl

@[simp] theorem Dev.serveLine_still (d : Dev) (n line : Nat) (j : SliceJob) : (d.serveLine n line j).still = d.still := by
  unfold Dev.serveLine
  dsimp only
  split
  · simp
  · simp
  · split_ifs <;> simp

@[simp] theorem Dev.drain_still (n line : Nat) (st : W8) (js : List SliceJob) (d : Dev) : (Dev.drain n line st js d).still = d.still := by
  induction js generalizing d with
  | nil => rfl
  | cons j js ih =>
    simp only [Dev.drain]
    split <;> simp [ih]

@[simp] theorem Dev.endLineFill_still (d : Dev) (n line : Nat) (f : Fill) (st : W8) (data : List W8) :
    (d.endLineFill n line f st data).still = d.still := by
  unfold Dev.endLineFill
  dsimp only
  rw [Dev.drain_still]
  split <;> simp

@[simp] theorem Dev.settleFill_still (d : Dev) (n line : Nat) : (d.settleFill n line).still = d.still := by
  unfold Dev.settleFill
  split
  · rfl
  · split
    · simp
    · split <;> simp

@[simp] theorem Dev.quireRead_still (d : Dev) (n line : Nat) : (d.quireRead n line).d.still = d.still := by simp [Dev.quireRead]
@[simp] theorem Dev.quireWrite_still (d : Dev) (n line off : Nat) (bytes : List W8) :
    (d.quireWrite n line off bytes).d.still = d.still := by simp [Dev.quireWrite]

@[simp] theorem Dev.scratchRead_still (d : Dev) (n off : Nat) : (d.scratchRead n off).d.still = d.still := by
  simp only [Dev.scratchRead]; split_ifs <;> simp

@[simp] theorem Dev.storeScratch_still (d : Dev) (m : Mem) : ({ d with scratch := m } : Dev).still = d.still := rfl

@[simp] theorem Dev.scratchWrite_still (d : Dev) (n off : Nat) (bytes : List W8) : (d.scratchWrite n off bytes).d.still = d.still := by
  simp only [Dev.scratchWrite]; split_ifs <;> simp

/-! ## Physical and virtual addresses -/

@[simp] theorem Dev.localRead_still (v : Variant) (d : Dev) (a : Nat) : (d.localRead v a).d.still = d.still := by
  unfold Dev.localRead
  split
  · split_ifs <;> simp
  · split_ifs <;> simp
  · split_ifs <;> rfl
  · rfl
  · rfl
  · rfl

@[simp] theorem Dev.localWrite_still (v : Variant) (d : Dev) (a : Nat) (bytes : List W8) : (d.localWrite v a bytes).d.still = d.still := by
  unfold Dev.localWrite
  split
  · split_ifs <;> simp
  · split_ifs <;> simp
  · rfl
  · rfl
  · rfl
  · rfl

/-- A read piece by piece leaves alone what the read of a piece does. -/
theorem readPieces_still {rd : Dev → Nat → Nat → Acc} (h : ∀ d a n, (rd d a n).d.still = d.still) (ps : List (Nat × Nat)) (d : Dev) :
    (readPieces rd ps d).d.still = d.still :=
  readPieces_keeps (R := fun d e => e.still = d.still) (fun _ => rfl) (fun h h' => h'.trans h) h ps d

theorem writePieces_still {wr : Dev → Nat → List W8 → Acc} (h : ∀ d a bs, (wr d a bs).d.still = d.still) (ps : List (Nat × Nat))
    (bytes : List W8) (d : Dev) : (writePieces wr ps bytes d).d.still = d.still :=
  writePieces_keeps (R := fun d e => e.still = d.still) (fun _ => rfl) (fun h h' => h'.trans h) h ps bytes d

@[simp] theorem Dev.physBytes_still (v : Variant) (d : Dev) (a len : Nat) : (d.physBytes v a len).d.still = d.still := by
  refine readPieces_still (fun d a _ => ?_) _ d
  exact d.localRead_still v a

@[simp] theorem Dev.physStore_still (v : Variant) (d : Dev) (a : Nat) (bytes : List W8) : (d.physStore v a bytes).d.still = d.still :=
  writePieces_still (fun d a bs => d.localWrite_still v a bs) _ bytes d

@[simp] theorem Dev.physNat_still (v : Variant) (d : Dev) (a len : Nat) : (d.physNat v a len).2.2.still = d.still := Dev.physBytes_still ..
@[simp] theorem Dev.windowEntry_still (v : Variant) (d : Dev) (w : Nat) : (d.windowEntry v w).2.2.still = d.still := Dev.physBytes_still ..

@[simp] theorem Dev.charge_still (d : Dev) (n k bytes : Nat) : (d.charge n k bytes).still = d.still := by
  unfold Dev.charge; split <;> simp

@[simp] theorem Dev.chargeFor_still (d : Dev) (src : Option Nat) (at_ wr : Bool) (cls a bytes : Nat) :
    (d.chargeFor src at_ wr cls a bytes).still = d.still := by
  unfold Dev.chargeFor
  split
  · rfl
  · split <;> simp

@[simp] theorem Dev.walkFrom_still (v : Variant) (k : Nat) (d : Dev) (tbl va : Nat) : (Dev.walkFrom v k d tbl va).2.2.still = d.still := by
  induction k generalizing d tbl with
  | zero => simp only [Dev.walkFrom]; split_ifs <;> simp
  | succ k ih => simp only [Dev.walkFrom]; split_ifs <;> simp [ih]

@[simp] theorem Dev.walk_still (v : Variant) (d : Dev) (u : XlUnit) (ctx va : Nat) : (d.walk v u ctx va).2.2.still = d.still := by
  have kept : ∀ x : W8 × W64 × Dev, x.2.2.still = d.still → (if x.1 = 0 ∧ u.caches = true then
      (0, x.2.1, { x.2.2 with xlCache := (u, ctx, va / 2 ^ 21, x.2.1) :: x.2.2.xlCache }) else x).2.2.still = d.still := by
    intro x hx
    split <;> exact hx
  unfold Dev.walk
  split
  · rfl
  · dsimp only
    split
    · simp
    · split
      · simp
      · exact kept _ ((Dev.walkFrom_still ..).trans (Dev.physBytes_still ..))

@[simp] theorem Dev.touch_still (d : Dev) (ctx a : Nat) : (d.touch ctx a).still = d.still := by
  unfold Dev.touch; dsimp only; split <;> rfl

@[simp] theorem Dev.translate_still (v : Variant) (d : Dev) (u : XlUnit) (ctx va : Nat) (wr ev : Bool) :
    (d.translate v u ctx va wr ev).2.2.still = d.still := by
  unfold Dev.translate
  dsimp only
  split_ifs
  · rfl
  · simp
  · simp
  · split <;> simp

@[simp] theorem Dev.virtLoad_still (v : Variant) (ctx : Nat) (eval : Bool) (d : Dev) (va len : Nat) :
    (Dev.virtLoad v ctx eval d va len).d.still = d.still := by
  refine readPieces_still (fun d a n => ?_) _ d
  dsimp only; split <;> simp

@[simp] theorem Dev.virtStore_still (v : Variant) (ctx : Nat) (eval : Bool) (d : Dev) (va : Nat) (bytes : List W8) :
    (Dev.virtStore v ctx eval d va bytes).d.still = d.still := by
  refine writePieces_still (fun d a bs => ?_) _ bytes d
  dsimp only; split <;> simp

@[simp] theorem Dev.localAtomic_still (v : Variant) (d : Dev) (a : Nat) (op : AmoOp) (w : Bool) (x c : W64) :
    (d.localAtomic v a op w x c).2.2.still = d.still := by
  unfold Dev.localAtomic; dsimp only; split_ifs <;> simp

@[simp] theorem Dev.virtAtomic_still (v : Variant) (ctx : Nat) (eval : Bool) (d : Dev) (va : Nat) (op : AmoOp) (x c : W64) :
    (Dev.virtAtomic v ctx eval d va op x c).2.2.still = d.still := by
  unfold Dev.virtAtomic; dsimp only; split <;> simp

end Sys2Proof.Machine
end

section
/-!
SUPPORT. What the device's messages and requests, its streams' and engines' accesses to virtual memory, the journal and the reduction
windows leave alone: the tick, Gander's recoveries, which slices are fenced and which tiles are late.
-/

namespace Sys2Proof.Machine

open Sys2Proof

/-! ## Messages and requests to other devices -/

@[simp] theorem Dev.onPort_still (d : Dev) (p : Nat) (f : Port → Port) : (d.onPort p f).still = d.still := rfl
@[simp] theorem Dev.onConn_still (d : Dev) (i : Nat) (f : Conn → Conn) : (d.onConn i f).still = d.still := rfl
@[simp] theorem Dev.onNim_still (d : Dev) (k : Nat) (f : NimStream → NimStream) : (d.onNim k f).still = d.still := rfl
@[simp] theorem Dev.draw_still (d : Dev) : d.draw.2.still = d.still := rfl
@[simp] theorem Dev.drawBytes_still (d : Dev) (n : Nat) : (d.drawBytes n).2.still = d.still := rfl

@[simp] theorem Dev.sendFlits_still (p n : Nat) (d : Dev) : (Dev.sendFlits p n d).still = d.still := by
  induction n generalizing d with
  | zero => rfl
  | succ n ih =>
    simp only [Dev.sendFlits]
    split
    · rfl
    · split <;> simp [ih]

@[simp] theorem Dev.transmit_still (d : Dev) (p : Nat) (m : Packet) : (d.transmit p m).still = d.still := by
  unfold Dev.transmit
  split
  · split <;> simp
  · split <;> simp

@[simp] theorem Dev.pickWay_still (v : Variant) (d : Dev) (src dst : W16) (vc : Nat) : (d.pickWay v src dst vc).2.still = d.still := by
  simp only [Dev.pickWay]
  split
  · rfl
  · split
    · split
      · rfl
      · dsimp only; split <;> rfl
    · dsimp only; split <;> rfl

@[simp] theorem Dev.sendReq_still (v : Variant) (d : Dev) (r : StreamRef) (o : Outstanding) (again : Bool) :
    (d.sendReq v r o again).still = d.still := by
  cases r with
  | conn i => simp [Dev.sendReq]
  | peer dev vc => simp only [Dev.sendReq]; split <;> simp

@[simp] theorem Dev.pump_still (v : Variant) (d : Dev) (r : StreamRef) : (d.pump v r).still = d.still := by
  simp only [Dev.pump]; split <;> simp

@[simp] theorem Dev.nimRequest_still (v : Variant) (d : Dev) (r : StreamRef) (op : W8) (addr aux : W64) (data : List W8) (tag : Nat) :
    (d.nimRequest v r op addr aux data tag).2.still = d.still := by
  cases r with
  | conn i => simp only [Dev.nimRequest]; split <;> simp
  | peer dev vc => simp only [Dev.nimRequest]; split <;> simp

@[simp] theorem Dev.rocePump_still (d : Dev) (i : Nat) : (d.rocePump i).still = d.still := by simp [Dev.rocePump, Dev.sendRoce]

@[simp] theorem Dev.roceRequest_still (d : Dev) (i : Nat) (op : W8) (addr : W64) (len : Nat) (data : List W8) (tag : Nat) :
    (d.roceRequest i op addr len data tag).2.still = d.still := by
  simp only [Dev.roceRequest]; split <;> simp

@[simp] theorem Dev.hostRequest_still (v : Variant) (d : Dev) (i : Nat) (op : W8) (addr : W64) (len : Nat) (data : List W8) (tag : Nat) :
    (d.hostRequest v i op addr len data tag).2.still = d.still := by
  simp only [Dev.hostRequest]; split_ifs <;> simp

@[simp] theorem Dev.windowTarget_still (v : Variant) (d : Dev) (a : Nat) : (d.windowTarget v a).2.2.2.still = d.still := by
  unfold Dev.windowTarget
  split
  · dsimp only; split_ifs <;> simp
  · rfl

@[simp] theorem Dev.windowRead_still (v : Variant) (src : Option Nat) (d : Dev) (a len tag : Nat) :
    (d.windowRead v src a len tag).2.still = d.still := by
  simp only [Dev.windowRead]; split_ifs <;> simp

@[simp] theorem Dev.windowWrite_still (v : Variant) (src : Option Nat) (d : Dev) (a : Nat) (bytes : List W8) (tag : Nat) :
    (d.windowWrite v src a bytes tag).2.still = d.still := by
  simp only [Dev.windowWrite]; split_ifs <;> simp

@[simp] theorem Dev.physRead_still (v : Variant) (src : Option Nat) (d : Dev) (a len : Nat) : (d.physRead v src a len).d.still = d.still := by
  simp only [Dev.physRead]
  split
  · split
    · simp
    · simp [-Dev.draw_dev, -Dev.drawBytes_dev]
  · simp

@[simp] theorem Dev.physWrite_still (v : Variant) (src : Option Nat) (d : Dev) (a : Nat) (bytes : List W8) :
    (d.physWrite v src a bytes).d.still = d.still := by
  simp only [Dev.physWrite]
  split
  · split
    · simp
    · simp [-Dev.draw_dev]
  · simp

@[simp] theorem Dev.virtRead_still (v : Variant) (u : XlUnit) (ctx : Nat) (d : Dev) (va len : Nat) :
    (Dev.virtRead v u ctx d va len).d.still = d.still := by
  simp only [Dev.virtRead]; split <;> simp

/-! ## What also holds where the sequencer is not left alone -/

@[simp] theorem Dev.onSeq_steady (d : Dev) (f : Seq → Seq) : (d.onSeq f).steady = d.steady := rfl
@[simp] theorem Dev.onSector_steady (d : Dev) (n : Nat) (f : Sector → Sector) : (d.onSector n f).steady = d.steady := rfl
@[simp] theorem Dev.onRetain_steady (d : Dev) (f : Retain → Retain) : (d.onRetain f).steady = d.steady := rfl
@[simp] theorem Dev.setReg_steady (d : Dev) (l : CsrLoc) (v : W32) : (d.setReg l v).steady = d.steady := Dev.steady_of_still (by simp)
@[simp] theorem Dev.count_steady (d : Dev) (l : CsrLoc) (lo w n : Nat) : (d.count l lo w n).steady = d.steady :=
  Dev.steady_of_still (by simp)
@[simp] theorem Dev.raise_steady (d : Dev) (c : Nat) (i : EventInfo) : (d.raise c i).steady = d.steady := Dev.steady_of_still (by simp)
@[simp] theorem Dev.send_steady (d : Dev) (m : OutMsg) : (d.send m).steady = d.steady := rfl
@[simp] theorem Dev.reply_steady (d : Dev) (j : SliceJob) (st : W8) (data : List W8) : (d.reply j st data).steady = d.steady := rfl
@[simp] theorem Dev.moveUnit_steady (v : Variant) (d : Dev) (u : BitVec 16) (st : BitVec 4) : (d.moveUnit v u st).steady = d.steady :=
  Dev.steady_of_still (by simp)
@[simp] theorem Dev.localRead_steady (v : Variant) (d : Dev) (a : Nat) : (d.localRead v a).d.steady = d.steady :=
  Dev.steady_of_still (by simp)
@[simp] theorem Dev.localWrite_steady (v : Variant) (d : Dev) (a : Nat) (bytes : List W8) : (d.localWrite v a bytes).d.steady = d.steady :=
  Dev.steady_of_still (by simp)
@[simp] theorem Dev.localAtomic_steady (v : Variant) (d : Dev) (a : Nat) (op : AmoOp) (w : Bool) (x c : W64) :
    (d.localAtomic v a op w x c).2.2.steady = d.steady := Dev.steady_of_still (by simp)
@[simp] theorem Dev.physBytes_steady (v : Variant) (d : Dev) (a len : Nat) : (d.physBytes v a len).d.steady = d.steady :=
  Dev.steady_of_still (by simp)
@[simp] theorem Dev.physNat_steady (v : Variant) (d : Dev) (a len : Nat) : (d.physNat v a len).2.2.steady = d.steady :=
  Dev.steady_of_still (by simp)
@[simp] theorem Dev.physStore_steady (v : Variant) (d : Dev) (a : Nat) (bytes : List W8) : (d.physStore v a bytes).d.steady = d.steady :=
  Dev.steady_of_still (by simp)
@[simp] theorem Dev.physWrite_steady (v : Variant) (src : Option Nat) (d : Dev) (a : Nat) (bytes : List W8) :
    (d.physWrite v src a bytes).d.steady = d.steady := Dev.steady_of_still (by simp)
@[simp] theorem Dev.chargeFor_steady (d : Dev) (src : Option Nat) (at_ wr : Bool) (cls a bytes : Nat) :
    (d.chargeFor src at_ wr cls a bytes).steady = d.steady := Dev.steady_of_still (by simp)
@[simp] theorem Dev.touch_steady (d : Dev) (ctx a : Nat) : (d.touch ctx a).steady = d.steady := Dev.steady_of_still (by simp)
@[simp] theorem Dev.translate_steady (v : Variant) (d : Dev) (u : XlUnit) (ctx va : Nat) (wr ev : Bool) :
    (d.translate v u ctx va wr ev).2.2.steady = d.steady := Dev.steady_of_still (by simp)
@[simp] theorem Dev.virtLoad_steady (v : Variant) (ctx : Nat) (eval : Bool) (d : Dev) (va len : Nat) :
    (Dev.virtLoad v ctx eval d va len).d.steady = d.steady := Dev.steady_of_still (by simp)
@[simp] theorem Dev.virtStore_steady (v : Variant) (ctx : Nat) (eval : Bool) (d : Dev) (va : Nat) (bytes : List W8) :
    (Dev.virtStore v ctx eval d va bytes).d.steady = d.steady := Dev.steady_of_still (by simp)
@[simp] theorem Dev.virtAtomic_steady (v : Variant) (ctx : Nat) (eval : Bool) (d : Dev) (va : Nat) (op : AmoOp) (x c : W64) :
    (Dev.virtAtomic v ctx eval d va op x c).2.2.steady = d.steady := Dev.steady_of_still (by simp)
@[simp] theorem Dev.nimRequest_steady (v : Variant) (d : Dev) (r : StreamRef) (op : W8) (addr aux : W64) (data : List W8) (tag : Nat) :
    (d.nimRequest v r op addr aux data tag).2.steady = d.steady := Dev.steady_of_still (by simp)

/-- A fold whose every step leaves alone what `steady` names does so as a whole. -/
@[simp] theorem Dev.foldl_steady {α : Type} {f : Dev → α → Dev} (h : ∀ d a, (f d a).steady = d.steady) (as : List α) (d : Dev) :
    (as.foldl f d).steady = d.steady := foldl_keeps Dev.steady f h as d

/-- The same of a fold that gathers something besides. -/
theorem foldl_snd_steady {α β : Type} {f : β × Dev → α → β × Dev} (h : ∀ r a, (f r a).2.steady = r.2.steady) (as : List α) (r : β × Dev) :
    (as.foldl f r).2.steady = r.2.steady := foldl_keeps (fun r : β × Dev => r.2.steady) f h as r

/-! ## The journal (R376 to R379) -/

@[simp] theorem Dev.jrnLose_steady (d : Dev) : d.jrnLose.steady = d.steady := by simp [Dev.jrnLose]

@[simp] theorem Dev.jrnPut_steady (v : Variant) (d : Dev) (bytes : List W8) : (d.jrnPut v bytes).steady = d.steady := by
  unfold Dev.jrnPut; dsimp only; split <;> simp

@[simp] theorem Dev.journaled_steady (v : Variant) (d : Dev) (type units : Nat) (step : W64) (rep : Bool) (payload : List W8) :
    (d.journaled v type units step rep payload).2.steady = d.steady := by
  unfold Dev.journaled; dsimp only; split_ifs <;> simp

@[simp] theorem Dev.journal_steady (v : Variant) (d : Dev) (type units : Nat) (step : W64) (rep : Bool) (payload : List W8) :
    (d.journal v type units step rep payload).steady = d.steady := Dev.journaled_steady ..

@[simp] theorem Dev.jrnEntry_steady (v : Variant) (d : Dev) (off : Nat) : (d.jrnEntry v off).d.steady = d.steady := Dev.physBytes_steady ..

@[simp] theorem Dev.jrnFind_steady (v : Variant) (d : Dev) (base : Nat) (p : List W8 → Bool) :
    (d.jrnFind v base p).2.steady = d.steady := by
  refine foldl_snd_steady (fun r e => ?_) _ (none, d)
  dsimp only; split <;> simp

@[simp] theorem Dev.diverge_steady (v : Variant) (d : Dev) (type entry : Nat) (expected got : W64) :
    (d.diverge v type entry expected got).steady = d.steady := by
  simp only [Dev.diverge]
  split <;> split <;> simp

/-! ## Reduction windows (R275 to R279, R368 to R375) -/

@[simp] theorem Dev.onWindow_still (d : Dev) (n w : Nat) (f : Window → Window) : (d.onWindow n w f).still = d.still := by
  simp [Dev.onWindow]
@[simp] theorem Dev.onWindow_steady (d : Dev) (n w : Nat) (f : Window → Window) : (d.onWindow n w f).steady = d.steady :=
  Dev.steady_of_still (by simp)
@[simp] theorem Dev.onWinEntry_steady (d : Dev) (serial index : Nat) (f : WinEntry → WinEntry) :
    (d.onWinEntry serial index f).steady = d.steady := rfl

@[simp] theorem Dev.pageStatus_steady (v : Variant) (ctx n : Nat) (home write : Bool) (k : Nat) (d : Dev) (a e : Nat) :
    (Dev.pageStatus v ctx n home write k d a e).2.steady = d.steady := by
  induction k generalizing d a with
  | zero => rfl
  | succ k ih => simp only [Dev.pageStatus]; split_ifs <;> simp [ih]

@[simp] theorem Dev.homedBuffer_steady (v : Variant) (d : Dev) (e : WinEntry) : (d.homedBuffer v e).2.steady = d.steady :=
  Dev.pageStatus_steady ..

@[simp] theorem Dev.expectWindow_steady (v : Variant) (d : Dev) (e : WinEntry) : (d.expectWindow v e).2.steady = d.steady := by
  unfold Dev.expectWindow
  split
  · rfl
  · dsimp only; split <;> simp

@[simp] theorem Dev.captureLines_steady (v : Variant) (d : Dev) (e : WinEntry) (slot : Nat) (deferred : Bool) (step : W64) :
    (d.captureLines v e slot deferred step).2.steady = d.steady :=
  foldl_snd_steady (fun _ _ => Dev.virtLoad_steady ..) _ ([], d)

/-- The captured slots of a set, gathered slot by slot. -/
theorem Dev.capturedFold_steady (v : Variant) (e : WinEntry) (m : W64) (deferred : Bool) (step : W64) (r : List RedHeld × Dev) :
    ((List.range 64).foldl (fun (y : List RedHeld × Dev) k =>
      if m.getLsbD k then (y.1 ++ (y.2.captureLines v e k deferred step).1, (y.2.captureLines v e k deferred step).2) else y) r).2.steady
      = r.2.steady := by
  refine foldl_snd_steady (fun y k => ?_) _ r
  split <;> simp

@[simp] theorem Dev.loadCaptures_steady (v : Variant) (d : Dev) (e : WinEntry) (x : W64 × W64 × W64 × Nat) :
    (d.loadCaptures v e x).steady = d.steady := by
  unfold Dev.loadCaptures
  split
  · rfl
  · dsimp only
    split
    · rfl
    · simp only [Dev.onWinEntry_steady, Dev.onWindow_steady]
      exact (Dev.capturedFold_steady ..).trans (Dev.capturedFold_steady ..)

@[simp] theorem Dev.openWindow_steady (v : Variant) (d : Dev) (e : WinEntry) : (d.openWindow v e).steady = d.steady := by
  unfold Dev.openWindow
  extract_lets d0 n h d1 pred d2 d3 x d4
  have hd1 : d1.steady = d.steady := Dev.homedBuffer_steady ..
  have hd3 : d3.steady = d.steady := by simp only [d3, d2]; split_ifs <;> simp [hd1]
  have hd4 : d4.steady = d.steady := by simp [d4, x, hd3]
  split
  · exact (Dev.onWinEntry_steady ..).trans (Dev.onWindow_steady ..)
  · split
    · exact (Dev.onWindow_steady ..).trans hd1
    · split
      · exact hd4
      · exact (Dev.loadCaptures_steady ..).trans hd4

@[simp] theorem Dev.openWindows_steady (v : Variant) (d : Dev) : (d.openWindows v).steady = d.steady := by simp [Dev.openWindows]

end Sys2Proof.Machine
end

section
/-!
SUPPORT. What the close of a reduction window, writes by engines and streams, the end of an instruction or a stream, Ox commands and the
troughs leave alone.
-/

namespace Sys2Proof.Machine

open Sys2Proof

/-! ## The close of a window (R277, R278, R370 to R375) -/

@[simp] theorem Dev.watch_steady (v : Variant) (d : Dev) (e : WinEntry) (s : W64) (r : List W32) : (d.watch v e s r).steady = d.steady := by
  unfold Dev.watch
  dsimp only
  split
  · rfl
  · split
    · simp
    · split <;> split <;> split <;> simp

@[simp] theorem Dev.redDrop_steady (d : Dev) (n w slot lines : Nat) : (d.redDrop n w slot lines).steady = d.steady := by simp [Dev.redDrop]

@[simp] theorem Dev.redLate_steady (v : Variant) (d : Dev) (e : WinEntry) (l : RedHeld) : (d.redLate v e l).2.steady = d.steady := by
  unfold Dev.redLate
  dsimp only
  split
  · simp
  · split
    · simp
    · split_ifs <;> simp

@[simp] theorem Dev.publish_steady (v : Variant) (d : Dev) (e : WinEntry) (result : Option (List W32)) (bitmap : W64) (status : List W8) :
    (d.publish v e result bitmap status).d.steady = d.steady := by
  cases result <;> simp only [Dev.publish] <;> split_ifs <;> simp

@[simp] theorem Dev.capture_steady (v : Variant) (d : Dev) (e : WinEntry) (step : W64) (remote : List Nat) (fresh deferred : List RedHeld)
    (bitmap def_ : W64) : (d.capture v e step remote fresh deferred bitmap def_).steady = d.steady := by
  unfold Dev.capture; dsimp only; split_ifs <;> simp

@[simp] theorem Dev.journalWindow_steady (v : Variant) (d : Dev) (e : WinEntry) (step : W64) (bitmap def_ dropped hash : W64)
    (flags count : Nat) : (d.journalWindow v e step bitmap def_ dropped hash flags count).steady = d.steady := Dev.journal_steady ..

@[simp] theorem Dev.windowFailed_steady (d : Dev) (e : WinEntry) (st : W8) (step line : W64) :
    (d.windowFailed e st step line).steady = d.steady := by simp [Dev.windowFailed]

@[simp] theorem Dev.closeBody_steady (v : Variant) (d : Dev) (e : WinEntry) : (d.closeBody v e).2.2.steady = d.steady := by
  unfold Dev.closeBody
  extract_lets n w x held step bitmap now def_ gone dropped k result hash counted closed noted late captured p failed journaled compared watched
  have hcaptured : captured.steady = d.steady := by simp [captured, late, noted, closed, counted]
  have hfailed : failed.steady = d.steady := by
    have hp : p.d.steady = d.steady := (Dev.publish_steady ..).trans hcaptured
    simp only [failed]
    split
    · simp [hp]
    · split <;> simp [hp]
  have hcompared : compared.steady = d.steady := by
    have hj : journaled.steady = d.steady := (Dev.journalWindow_steady ..).trans hfailed
    simp only [compared]
    split
    · exact hj
    · split <;> simp [hj]
  simp only [watched]
  clear_value result
  cases result with
  | none => exact hcompared
  | some r => exact (Dev.watch_steady ..).trans hcompared

/-- A line of the aperture leaves alone what the close that it may bring about does. -/
theorem Dev.storeWith_steady (v : Variant) {fin : Dev → WinEntry → Dev} (h : ∀ d e, (fin d e).steady = d.steady) (d : Dev)
    (n w slot off : Nat) (step : W64) (remote : Bool) (data : List W8) :
    (d.storeWith v fin n w slot off step remote data).2.steady = d.steady := by
  unfold Dev.storeWith
  iterate 3 refine iteInduction (motive := fun r : W8 × Dev => r.2.steady = d.steady) (fun _ => rfl) fun _ => ?_
  extract_lets x
  iterate 2 refine iteInduction (motive := fun r : W8 × Dev => r.2.steady = d.steady) (fun _ => rfl) fun _ => ?_
  split
  · rfl
  extract_lets r kept y
  have hkept : kept.steady = d.steady := by simp [kept, r]
  refine iteInduction (motive := fun r : W8 × Dev => r.2.steady = d.steady) (fun _ => rfl) fun _ => ?_
  split
  · split
    · exact Dev.redLate_steady ..
    · exact Dev.redDrop_steady ..
  split
  · rfl
  split
  · exact Dev.onWindow_steady ..
  split
  · exact Dev.virtStore_steady ..
  dsimp only
  split
  · exact (h ..).trans hkept
  · exact hkept

@[simp] theorem Dev.closeChain_steady (v : Variant) (k : Nat) (d : Dev) (e : WinEntry) : (Dev.closeChain v k d e).steady = d.steady := by
  induction k generalizing d e with
  | zero => rfl
  | succ k ih =>
    simp only [Dev.closeChain]
    split
    · simp
    · split
      · simp
      · split
        · rw [Dev.foldl_steady fun d l => Dev.storeWith_steady v ih ..]
          simp
        · rw [Dev.foldl_steady fun d l => Dev.nimRequest_steady ..]
          exact Dev.closeBody_steady ..

@[simp] theorem Dev.redStore_steady (v : Variant) (d : Dev) (n w slot off : Nat) (step : W64) (remote : Bool) (data : List W8) :
    (d.redStore v n w slot off step remote data).2.steady = d.steady :=
  Dev.storeWith_steady v (fun d e => Dev.closeChain_steady v 4096 d e) ..

@[simp] theorem Dev.abandonWindows_steady (v : Variant) (d : Dev) (n : Nat) : (d.abandonWindows v n).steady = d.steady := by
  refine Dev.foldl_steady (fun x w => ?_) _ d
  split <;> simp

/-! ## Accesses of engines and streams to any region -/

@[simp] theorem Dev.virtWrite_steady (v : Variant) (u : XlUnit) (ctx : Nat) (step : W64) (d : Dev) (va : Nat) (bytes : List W8) :
    (Dev.virtWrite v u ctx step d va bytes).d.steady = d.steady := by
  unfold Dev.virtWrite
  dsimp only
  split
  · simp
  · split <;> simp

theorem writeEach_steady {wr : Dev → Nat → List W8 → Acc} (h : ∀ d a bs, (wr d a bs).d.steady = d.steady) (ps : List (Nat × Nat))
    (bytes : List W8) (d : Dev) : (writeEach wr ps bytes d).d.steady = d.steady := by
  induction ps generalizing bytes d with
  | nil => rfl
  | cons p ps ih => exact (ih ..).trans (h ..)

@[simp] theorem Dev.virtWrites_steady (v : Variant) (u : XlUnit) (ctx : Nat) (step : W64) (d : Dev) (va : Nat) (bytes : List W8) :
    (Dev.virtWrites v u ctx step d va bytes).d.steady = d.steady :=
  writeEach_steady (fun d a bs => Dev.virtWrite_steady v u ctx step d a bs) _ bytes d

theorem writeLines_steady {wr : Dev → Nat → List W8 → Acc} (h : ∀ d a bs, (wr d a bs).d.steady = d.steady) (ps : List (Nat × Nat))
    (bytes : List W8) (d : Dev) : (writeLines wr ps bytes d).d.steady = d.steady := by
  induction ps generalizing bytes d with
  | nil => rfl
  | cons p ps ih =>
    simp only [writeLines]
    split
    · exact h ..
    · exact (ih ..).trans (h ..)

@[simp] theorem Dev.tileWrite_steady (d : Dev) (t : TileRef) (a : Nat) (bytes : List W8) : (d.tileWrite t a bytes).d.steady = d.steady := by
  unfold Dev.tileWrite; dsimp only; split_ifs <;> rfl

@[simp] theorem Dev.bufWrite_steady (d : Dev) (n a : Nat) (bytes : List W8) : (d.bufWrite n a bytes).d.steady = d.steady := by
  unfold Dev.bufWrite; dsimp only; split_ifs <;> rfl

@[simp] theorem Dev.kindWrite_steady (v : Variant) (t : TileRef) (ctx kind : Nat) (step : W64) (d : Dev) (a : Nat) (bytes : List W8) :
    (Dev.kindWrite v t ctx kind step d a bytes).d.steady = d.steady := by
  unfold Dev.kindWrite
  split
  · exact writeLines_steady (fun d a bs => d.tileWrite_steady t a bs) ..
  · exact writeLines_steady (fun d a bs => d.bufWrite_steady t.sector.val a bs) ..
  · exact writeLines_steady (fun d a bs => Dev.virtWrite_steady v _ ctx step d a bs) ..

theorem readPieces_steady {rd : Dev → Nat → Nat → Acc} (h : ∀ d a n, (rd d a n).d.steady = d.steady) (ps : List (Nat × Nat)) (d : Dev) :
    (readPieces rd ps d).d.steady = d.steady :=
  readPieces_keeps (R := fun d e => e.steady = d.steady) (fun _ => rfl) (fun h h' => h'.trans h) h ps d

@[simp] theorem Dev.tileRead_steady (d : Dev) (t : TileRef) (a len : Nat) : (d.tileRead t a len).d.steady = d.steady := by
  unfold Dev.tileRead; split <;> rfl

@[simp] theorem Dev.bufRead_steady (d : Dev) (n a len : Nat) : (d.bufRead n a len).d.steady = d.steady := by
  unfold Dev.bufRead; split <;> rfl

@[simp] theorem Dev.virtRead_steady (v : Variant) (u : XlUnit) (ctx : Nat) (d : Dev) (va len : Nat) :
    (Dev.virtRead v u ctx d va len).d.steady = d.steady := Dev.steady_of_still (by simp)

@[simp] theorem Dev.spaceRead_steady (v : Variant) (t : TileRef) (u : XlUnit) (ctx space : Nat) (d : Dev) (a len : Nat) :
    (Dev.spaceRead v t u ctx space d a len).d.steady = d.steady := by
  unfold Dev.spaceRead
  split
  · exact readPieces_steady (fun d a n => d.tileRead_steady t a n) ..
  · exact readPieces_steady (fun d a n => d.bufRead_steady t.sector.val a n) ..
  · exact readPieces_steady (fun d a n => Dev.virtRead_steady v u ctx d a n) ..

@[simp] theorem Dev.operandRead_steady (v : Variant) (d : Dev) (t : TileRef) (u : XlUnit) (ctx : Nat) (dn : Desc) (off len : Nat) :
    (d.operandRead v t u ctx dn off len).d.steady = d.steady := by
  unfold Dev.operandRead
  dsimp only
  split
  · exact Dev.spaceRead_steady ..
  · exact Dev.spaceRead_steady ..

@[simp] theorem Dev.listBytes_steady (v : Variant) (d : Dev) (t : TileRef) (ctx : Nat) (list : BitVec 256) (off : Nat) :
    (d.listBytes v t ctx list off).d.steady = d.steady := Dev.operandRead_steady ..

/-! ## The end of an instruction (R97, R290) -/

@[simp] theorem Dev.requeue_steady (d : Dev) (t : TileRef) (q q' : Queued) : (d.requeue t q q').steady = d.steady :=
  d.onTile_steady t fun _ => rfl

@[simp] theorem Dev.reachHead_steady (d : Dev) (t : TileRef) : (d.reachHead t).steady = d.steady := by
  unfold Dev.reachHead
  dsimp only
  split
  · rfl
  · split <;> simp

@[simp] theorem Dev.queueMoved_steady (d : Dev) (t : TileRef) (e : Nat) : (d.queueMoved t e).steady = d.steady := by
  unfold Dev.queueMoved; split <;> simp

@[simp] theorem Dev.finish_steady (d : Dev) (t : TileRef) (q : Queued) (o : Outcome) : (d.finish t q o).steady = d.steady := by
  unfold Dev.finish
  dsimp only
  rw [Dev.queueMoved_steady]
  exact d.setTile_steady t rfl

@[simp] theorem Dev.trace_steady (v : Variant) (d : Dev) (t : TileRef) (engine opcode : Nat) (pc : W16) (st : W8) (detail : W32) :
    (d.trace v t engine opcode pc st detail).steady = d.steady := by
  unfold Dev.trace; dsimp only; split <;> simp

@[simp] theorem Dev.endByReset_steady (v : Variant) (d : Dev) (t : TileRef) (st : W8) (q : Queued) :
    (d.endByReset v t st q).steady = d.steady := by simp [Dev.endByReset]

@[simp] theorem Dev.unqueue_steady (d : Dev) (t : TileRef) (q : Queued) : (d.unqueue t q).steady = d.steady := by
  rw [Dev.unqueue, Dev.reachHead_steady]
  exact d.onTile_steady t fun _ => rfl

@[simp] theorem Dev.blur_steady (d : Dev) (t : TileRef) (s : Span) : (d.blur t s).steady = d.steady := by
  unfold Dev.blur; dsimp only; split <;> rfl

@[simp] theorem Dev.blurAny_steady (v : Variant) (d : Dev) (t : TileRef) (q : Queued) (s : Span) : (d.blurAny v t q s).steady = d.steady := by
  unfold Dev.blurAny
  dsimp only
  split
  · exact Dev.virtWrites_steady ..
  · simp

@[simp] theorem Dev.mixDest_steady (v : Variant) (d : Dev) (t : TileRef) (q : Queued) : (d.mixDest v t q).steady = d.steady := by
  simp [Dev.mixDest]

/-! ## Streams (R297, R304, R305) -/

@[simp] theorem Dev.finishArgs_steady (d : Dev) (t : TileRef) (args : TensorArgs) (src st : W8) (detail : W32) :
    (d.finishArgs t args src st detail).steady = d.steady := d.onTile_steady t fun _ => rfl

@[simp] theorem Dev.endStream_steady (v : Variant) (d : Dev) (t : TileRef) (args : TensorArgs) (put : Bool) (ctx : Nat) (tag : W16)
    (st : W8) (detail : W32) : (d.endStream v t args put ctx tag st detail).steady = d.steady := by
  unfold Dev.endStream; dsimp only; split_ifs <;> simp

@[simp] theorem Dev.setStream_steady (d : Dev) (n : Nat) (x : Stream) : (d.setStream n x).steady = d.steady := rfl

@[simp] theorem Dev.mixBytes_steady (v : Variant) (n : Nat) (x : Stream) (kind a len : Nat) (d : Dev) :
    (Dev.mixBytes v n x kind a len d).steady = d.steady := by
  refine Dev.foldl_steady (fun d p => ?_) _ d
  dsimp only
  split
  · rfl
  · exact Dev.kindWrite_steady ..

@[simp] theorem Dev.mixEntry_steady (v : Variant) (d : Dev) (n : Nat) (x : Stream) : (d.mixEntry v n x).steady = d.steady := by
  unfold Dev.mixEntry; dsimp only; split_ifs <;> simp

@[simp] theorem Dev.cancelStream_steady (v : Variant) (d : Dev) (n : Nat) (st : W8) (x : Stream) :
    (d.cancelStream v n st x).steady = d.steady := by simp [Dev.cancelStream]

@[simp] theorem Dev.cancelAll_steady (v : Variant) (d : Dev) (t : TileRef) : (d.cancelAll v t).steady = d.steady := by simp [Dev.cancelAll]

@[simp] theorem Dev.countLateEntries_steady (v : Variant) (d : Dev) (n now : Nat) (guard : Bool) :
    (d.countLateEntries v n now guard).steady = d.steady := by simp [Dev.countLateEntries]

@[simp] theorem Dev.endQueue_steady (v : Variant) (d : Dev) (t : TileRef) (e : Nat) (st : W8) : (d.endQueue v t e st).steady = d.steady := by
  have begun : (if e = 2 then
      match (d.cancelAll v t).drvReady t with
      | none => d.cancelAll v t
      | some q =>
        (((d.cancelAll v t).listBytes v t q.ctx q.da 0).d.unqueue t q).endStream v t q.args (q.opcode == 3) q.ctx
          (if ((d.cancelAll v t).listBytes v t q.ctx q.da 0).st = 0 then
            BitVec.ofNat 16 (recNat ((d.cancelAll v t).listBytes v t q.ctx q.da 0).data 0x0C 2) else 0) sCancelled 0
    else match (d.tile t).active e with
      | none => d
      | some q => d.mixDest v t q).steady = d.steady := by
    split
    · split <;> simp
    · split <;> simp
  unfold Dev.endQueue
  dsimp only
  split
  · rw [Dev.onSector_steady, Dev.foldl_steady fun d q => Dev.endByReset_steady ..]
    exact begun
  · rw [Dev.foldl_steady fun d q => Dev.endByReset_steady ..]
    exact begun

/-! ## Ox commands and members of a partition (R347, R440) -/

@[simp] theorem Dev.oxCount_steady (d : Dev) (n : Nat) (st : W8) : (d.oxCount n st).steady = d.steady := by
  unfold Dev.oxCount; dsimp only; split_ifs <;> simp

@[simp] theorem Dev.oxFinish_steady (v : Variant) (d : Dev) (n : Nat) (c : OxCmd) (st : W8) (detail : W32) (prior : W64) :
    (d.oxFinish v n c st detail prior).steady = d.steady := by simp [Dev.oxFinish]

@[simp] theorem Dev.stopOx_steady (v : Variant) (d : Dev) (n : Nat) (st : W8) : (d.stopOx v n st).steady = d.steady := by
  simp [Dev.stopOx]

@[simp] theorem Dev.moveMembers_steady (v : Variant) (d : Dev) (n : Nat) (a b : BitVec 4) : (d.moveMembers v n a b).steady = d.steady := by
  refine Dev.foldl_steady (fun d u => ?_) _ d
  split <;> simp

@[simp] theorem Dev.skipSector_steady (d : Dev) (n : Nat) : (d.skipSector n).steady = d.steady := by simp [Dev.skipSector]

end Sys2Proof.Machine
end

section
/-!
SUPPORT. What the plans and slices of tiles, the guard and the edge leave alone: the tick, and where no tile or recovery is touched all that
`Dev.steady` names.
-/

namespace Sys2Proof.Machine

open Sys2Proof

/-- A fold whose every step leaves the tick alone does so as a whole. -/
theorem Dev.foldl_tick {α : Type} {f : Dev → α → Dev} (h : ∀ d a, (f d a).tick = d.tick) (as : List α) (d : Dev) :
    (as.foldl f d).tick = d.tick := foldl_keeps Dev.tick f h as d

/-- The same of all that `still` names, for a fold that gathers something besides. -/
theorem foldl_snd_still {α β : Type} {f : β × Dev → α → β × Dev} (h : ∀ r a, (f r a).2.still = r.2.still) (as : List α) (r : β × Dev) :
    (as.foldl f r).2.still = r.2.still := foldl_keeps (fun r : β × Dev => r.2.still) f h as r

/-! ## Slices (R49, R54, R61, R74 to R76) -/

@[simp] theorem Dev.raise_tick (d : Dev) (c : Nat) (i : EventInfo) : (d.raise c i).tick = d.tick := Dev.tick_of_steady (by simp)
@[simp] theorem Dev.count_tick (d : Dev) (l : CsrLoc) (lo w n : Nat) : (d.count l lo w n).tick = d.tick := Dev.tick_of_steady (by simp)
@[simp] theorem Dev.onTile_tick (d : Dev) (t : TileRef) (f : Tile → Tile) : (d.onTile t f).tick = d.tick := rfl
@[simp] theorem Dev.zeroAcc_tick (d : Dev) (t : TileRef) : (d.zeroAcc t).tick = d.tick := rfl
@[simp] theorem Dev.swapAcc_tick (d : Dev) (t : TileRef) : (d.swapAcc t).tick = d.tick := rfl

@[simp] theorem Dev.haltTile_tick (d : Dev) (t : TileRef) (c : Nat) (i : W64) : (d.haltTile t c i).tick = d.tick := by
  simp [Dev.haltTile]

@[simp] theorem Dev.trap_tick (d : Dev) (t : TileRef) (c : Nat) (i : W64) : (d.trap t c i).tick = d.tick := by
  unfold Dev.trap; dsimp only; split_ifs <;> simp

@[simp] theorem Dev.sliceEntry_still (v : Variant) (d : Dev) (p : Plan) (n ix : Nat) : (d.sliceEntry v p n ix).2.still = d.still := by
  unfold Dev.sliceEntry; split <;> simp

@[simp] theorem Dev.sliceEntry_tick (v : Variant) (d : Dev) (p : Plan) (n ix : Nat) : (d.sliceEntry v p n ix).2.tick = d.tick :=
  Dev.tick_of_steady (Dev.steady_of_still (by simp))

@[simp] theorem Dev.loadLines_steady (v : Variant) (ctx : Nat) (t : TileRef) (off : Nat) (ps : List (Nat × Nat)) (d : Dev) :
    (Dev.loadLines v ctx t off ps d).2.steady = d.steady := by
  induction ps generalizing d with
  | nil => rfl
  | cons p ps ih =>
    simp only [Dev.loadLines]
    split
    · simp
    · exact (ih _).trans (Dev.virtLoad_steady ..)

@[simp] theorem Dev.loadImage_steady (v : Variant) (d : Dev) (t : TileRef) (p : Plan) : (d.loadImage v t p).2.steady = d.steady := by
  unfold Dev.loadImage
  extract_lets at_ r addr len off bound n x
  have hr : r.d.steady = d.steady := Dev.virtLoad_steady ..
  have hx : x.2.steady = d.steady := by simp only [x, Dev.loadLines_steady, hr]
  clear_value x
  split
  · rfl
  · split
    · exact hr
    · split
      · exact hr
      · split
        · exact hr
        · exact hx

@[simp] theorem Dev.loadImage_tick (v : Variant) (d : Dev) (t : TileRef) (p : Plan) : (d.loadImage v t p).2.tick = d.tick :=
  Dev.tick_of_steady (by simp)

@[simp] theorem Dev.startSlice_tick (v : Variant) (d : Dev) (t : TileRef) (s : Slice) : (d.startSlice v t s).tick = d.tick := by
  unfold Dev.startSlice
  extract_lets go e
  have hgo : ∀ x : Dev, (go x).tick = x.tick := fun x => x.onTile_tick t _
  have he : e.tick = d.tick := (hgo _).trans ((Dev.zeroAcc_tick ..).trans (Dev.onTile_tick ..))
  split
  · exact hgo d
  · split
    · exact he
    next p _ =>
      have hl : (e.loadImage v t p).2.tick = d.tick := (Dev.loadImage_tick ..).trans he
      split
      next h => rw [h] at hl; exact hl
      next h => rw [h] at hl; exact (Dev.trap_tick ..).trans hl

@[simp] theorem Dev.startFrom_tick (v : Variant) (t : TileRef) (ss : List Slice) (d : Dev) : (Dev.startFrom v t ss d).tick = d.tick := by
  induction ss generalizing d with
  | nil => rfl
  | cons s ss ih =>
    simp only [Dev.startFrom]
    split
    · exact ih d
    · split
      · rfl
      · split <;> split <;> simp [ih]

@[simp] theorem Dev.tryStart_tick (v : Variant) (d : Dev) (t : TileRef) : (d.tryStart v t).tick = d.tick := by
  simp only [Dev.tryStart]; split <;> simp

@[simp] theorem Dev.tryStarts_tick (v : Variant) (d : Dev) (n : Nat) : (d.tryStarts v n).tick = d.tick := by
  simp [Dev.tryStarts, Dev.foldl_tick]

end Sys2Proof.Machine
end

section
/-!
SUPPORT. What the guard, the sequencer's entries and the edge leave alone (R48 to R53, R376 to R385).
-/

namespace Sys2Proof.Machine

open Sys2Proof

/-! ## Swaps, routes and deadlocks (R54, R309, R310, R321) -/

@[simp] theorem Dev.onTrough_steady (d : Dev) (n k : Nat) (f : Trough → Trough) : (d.onTrough n k f).steady = d.steady := rfl

@[simp] theorem Dev.plannedSwap_steady (d : Dev) (n k : Nat) : (d.plannedSwap n k).steady = d.steady := by
  unfold Dev.plannedSwap; dsimp only; split <;> simp

@[simp] theorem Dev.plannedSwaps_steady (d : Dev) (n : Nat) : (d.plannedSwaps n).steady = d.steady := by simp [Dev.plannedSwaps]

@[simp] theorem Dev.swapHead_tick (t : TileRef) (ss : List Slice) (d : Dev) : (Dev.swapHead t ss d).2.tick = d.tick := by
  induction ss generalizing d with
  | nil => rfl
  | cons s ss ih =>
    simp only [Dev.swapHead]
    split
    · exact ih d
    · split
      · exact (ih _).trans (by split <;> rfl)
      · split <;> rfl

@[simp] theorem Dev.swapAtEdge_tick (d : Dev) (t : TileRef) : (d.swapAtEdge t).tick = d.tick := by
  unfold Dev.swapAtEdge; split <;> simp

@[simp] theorem Dev.planHolds_steady (v : Variant) (d : Dev) (p : Plan) (ix : Nat) : (d.planHolds v p ix).2.steady = d.steady := by
  refine foldl_snd_steady (fun r k => ?_) _ (false, d)
  split
  · rfl
  · exact Dev.steady_of_still (Dev.sliceEntry_still ..)

@[simp] theorem Dev.applyRoute_steady (v : Variant) (p : Plan) (d : Dev) (n k : Nat) : (d.applyRoute v p n k).steady = d.steady := by
  unfold Dev.applyRoute
  extract_lets r prod cons mode tiles need h
  have hr : r.d.steady = d.steady := Dev.virtLoad_steady ..
  have hh : h.2.steady = d.steady := by
    refine (foldl_snd_steady (fun x t => ?_) need (true, r.d)).trans hr
    split <;> simp
  clear_value h
  split
  · exact hr
  · split <;> exact hh

@[simp] theorem Dev.applyRoutes_steady (v : Variant) (d : Dev) (p : Plan) : (d.applyRoutes v p).steady = d.steady := by
  unfold Dev.applyRoutes; split <;> simp

@[simp] theorem Dev.askSwaps_steady (v : Variant) (d : Dev) (p : Plan) (n : Nat) : (d.askSwaps v p n).steady = d.steady := by
  unfold Dev.askSwaps
  split
  · rfl
  · refine Dev.foldl_steady (fun d k => ?_) _ d
    exact (Dev.onSector_steady ..).trans (Dev.virtLoad_steady ..)

@[simp] theorem Dev.cancelWaiter_steady (v : Variant) (d : Dev) (n : Nat) (w : Waiter) : (d.cancelWaiter v n w).steady = d.steady := by
  cases w <;> simp only [Dev.cancelWaiter] <;> split <;> simp

@[simp] theorem Dev.breakDeadlock_steady (v : Variant) (d : Dev) (n : Nat) (c : List Waiter) : (d.breakDeadlock v n c).steady = d.steady := by
  cases c <;> simp [Dev.breakDeadlock]

@[simp] theorem Dev.sampleDeadlock_steady (v : Variant) (d : Dev) (n : Nat) : (d.sampleDeadlock v n).steady = d.steady := by
  unfold Dev.sampleDeadlock
  extract_lets ws cycles dead once broken kept
  have hkept : kept.steady = d.steady := Dev.foldl_steady (fun d c => Dev.breakDeadlock_steady v d n c) once d
  refine (Dev.foldl_steady (fun d k => ?_) _ kept).trans hkept
  split <;> simp

/-! ## The guard (R48, R52, R53, R545) -/

@[simp] theorem Dev.planEvent_still (d : Dev) (st : W8) (id first reason : Nat) : (d.planEvent st id first reason).still = d.still :=
  Dev.raise_still ..

@[simp] theorem Dev.planEvent_steady (d : Dev) (st : W8) (id first reason : Nat) : (d.planEvent st id first reason).steady = d.steady :=
  Dev.raise_steady ..

@[simp] theorem Dev.readEntries_still (v : Variant) (k i : Nat) (d : Dev) : (Dev.readEntries v k i d).2.still = d.still := by
  induction k generalizing i d with
  | zero => rfl
  | succ k ih =>
    simp only [Dev.readEntries]
    split
    · exact Dev.physBytes_still ..
    · exact (ih ..).trans (Dev.physBytes_still ..)

@[simp] theorem Dev.renewRing_steady (d : Dev) : d.renewRing.steady = d.steady := by unfold Dev.renewRing; split <;> rfl

@[simp] theorem Dev.collect_steady (v : Variant) (d : Dev) : (d.collect v).steady = d.steady := by
  unfold Dev.collect
  extract_lets e q c ahead r
  have hc : c.2.2.steady = d.steady := (Dev.physNat_steady ..).trans (Dev.renewRing_steady d)
  split
  · exact Dev.renewRing_steady d
  · split
    · exact hc
    · split
      · exact (Dev.planEvent_steady ..).trans hc
      · exact (Dev.steady_of_still (Dev.readEntries_still ..)).trans hc

@[simp] theorem Dev.journalTick_steady (v : Variant) (d : Dev) : (d.journalTick v).steady = d.steady := Dev.journal_steady ..

@[simp] theorem Dev.checkpoint_steady (v : Variant) (d : Dev) : (d.checkpoint v).steady = d.steady := by
  unfold Dev.checkpoint; dsimp only; split <;> rfl

@[simp] theorem Dev.checkpointed_steady (d : Dev) : d.checkpointed.steady = d.steady := rfl

@[simp] theorem Dev.decideClock_steady (v : Variant) (d : Dev) (tel : Telemetry) : (d.decideClock v tel).steady = d.steady := rfl

@[simp] theorem Dev.commitClock_steady (v : Variant) (d : Dev) : (d.commitClock v).steady = d.steady := by
  unfold Dev.commitClock
  extract_lets p blocked q mv w e
  have he : e.steady = d.steady := rfl
  split
  · exact (Dev.count_steady ..).trans he
  · exact he

/-! ## Plan tables and entries (R49 to R52, R368, R378) -/

@[simp] theorem Dev.planTable_still (v : Variant) (d : Dev) (p : Plan) : (d.planTable v p).2.still = d.still := by
  unfold Dev.planTable
  extract_lets w b r
  have hb : b.d.still = d.still := by simp only [b]; split <;> simp
  have hr : r.d.still = d.still := (Dev.virtLoad_still ..).trans hb
  split
  · exact hb
  · split
    · exact hb
    · split <;> exact hr

@[simp] theorem Dev.planHolding_still (v : Variant) (d : Dev) (p : Plan) (n : Nat) : (d.planHolding v p n).2.still = d.still :=
  Dev.planTable_still ..

@[simp] theorem Dev.tileHeld_still (v : Variant) (d : Dev) (held : List (Nat × Nat)) : (d.tileHeld v held).2.still = d.still := by
  refine foldl_snd_still (fun r p => ?_) _ (false, d)
  split <;> simp

@[simp] theorem Dev.planWindows_still (v : Variant) (d : Dev) (p : Plan) (ct : Nat) : (d.planWindows v p ct).2.still = d.still := by
  unfold Dev.planWindows
  extract_lets h count r
  have hh : h.d.still = d.still := Dev.virtLoad_still ..
  have hr : r.d.still = d.still := (Dev.virtLoad_still ..).trans hh
  split
  · rfl
  · split
    · exact hh
    · split <;> exact hr

@[simp] theorem Dev.journalPlan_steady (v : Variant) (d : Dev) (id first : W64) (ctx outcome : Nat) :
    (d.journalPlan v id first ctx outcome).steady = d.steady := Dev.journal_steady ..

@[simp] theorem Dev.refusePlan_steady (v : Variant) (d : Dev) (p : Plan) (st : W8) (reason : Nat) :
    (d.refusePlan v p st reason).steady = d.steady := by simp [Dev.refusePlan]

@[simp] theorem Dev.acceptPlan_steady (v : Variant) (d : Dev) (p : Plan) (ws : List WinEntry) : (d.acceptPlan v p ws).steady = d.steady := by
  simp [Dev.acceptPlan]

@[simp] theorem Dev.submitPlan_steady (v : Variant) (d : Dev) (e : WlEntry) : (d.submitPlan v e).steady = d.steady := by
  unfold Dev.submitPlan
  extract_lets ct h x w p t
  have hh : h.d.steady = d.steady := Dev.physBytes_steady ..
  have ht : t.2.steady = d.steady := (Dev.steady_of_still (Dev.planTable_still ..)).trans hh
  split
  · exact (Dev.planEvent_steady ..).trans hh
  · split
    · exact (Dev.refusePlan_steady ..).trans hh
    · split
      · exact (Dev.refusePlan_steady ..).trans hh
      · split
        · exact (Dev.refusePlan_steady ..).trans hh
        · split
          · exact (Dev.refusePlan_steady ..).trans ht
          · extract_lets c ws
            have hc : c.2.steady = d.steady := (Dev.steady_of_still (Dev.tileHeld_still ..)).trans ht
            have hws : ws.2.steady = d.steady := (Dev.steady_of_still (Dev.planWindows_still ..)).trans hc
            split
            · exact (Dev.refusePlan_steady ..).trans hc
            · split
              · exact (Dev.refusePlan_steady ..).trans hws
              · split
                · exact (Dev.refusePlan_steady ..).trans hws
                · exact (Dev.acceptPlan_steady ..).trans hws

@[simp] theorem Dev.cancelPlan_steady (v : Variant) (d : Dev) (e : WlEntry) : (d.cancelPlan v e).steady = d.steady := by
  unfold Dev.cancelPlan
  dsimp only
  split
  · simp
  · exact Dev.foldl_steady (fun d p => Dev.journalPlan_steady ..) _ _

@[simp] theorem Dev.batchEntry_steady (v : Variant) (d : Dev) (e : WlEntry) : (d.batchEntry v e).steady = d.steady := by
  unfold Dev.batchEntry; dsimp only; split <;> simp

@[simp] theorem Dev.stepEntry_steady (d : Dev) (e : WlEntry) : (d.stepEntry e).steady = d.steady := by
  unfold Dev.stepEntry; dsimp only; split_ifs <;> simp

@[simp] theorem Dev.consume_steady (v : Variant) (d : Dev) (e : WlEntry) : (d.consume v e).steady = d.steady := by
  unfold Dev.consume; split_ifs <;> simp

@[simp] theorem Dev.consumeAll_steady (v : Variant) (d : Dev) : (d.consumeAll v).steady = d.steady := by
  rw [Dev.consumeAll, Dev.foldl_steady fun d e => Dev.consume_steady v d e]
  rfl

/-! ## Replays, scale records and the evaluation slice (R379 to R385) -/

@[simp] theorem Dev.scalePlace_still (v : Variant) (write eval : Bool) (d : Dev) (t : TileRef) (ctx rec_ : Nat) :
    (d.scalePlace v write eval t ctx rec_).2.still = d.still := by
  unfold Dev.scalePlace
  extract_lets tbl r
  have hr : r.2.2.still = d.still := Dev.translate_still ..
  split
  · rfl
  · split <;> exact hr

@[simp] theorem Dev.scalePlace_steady (v : Variant) (write eval : Bool) (d : Dev) (t : TileRef) (ctx rec_ : Nat) :
    (d.scalePlace v write eval t ctx rec_).2.steady = d.steady := Dev.steady_of_still (by simp)

@[simp] theorem Dev.journalScales_steady (v : Variant) (d : Dev) : (d.journalScales v).steady = d.steady := by
  refine Dev.foldl_steady (fun d c => Dev.foldl_steady (fun d i => ?_) _ d) _ d
  have hp := Dev.scalePlace_steady v false false d (tileOf 0) c i
  split
  next h => rw [h] at hp; exact hp
  next h =>
    rw [h] at hp
    dsimp only
    split
    · exact (Dev.localRead_steady ..).trans hp
    · exact ((Dev.journal_steady ..).trans (Dev.localRead_steady ..)).trans hp

@[simp] theorem Dev.journalStep_steady (v : Variant) (d : Dev) (stepping : W8) : (d.journalStep v stepping).steady = d.steady := by
  unfold Dev.journalStep
  extract_lets closed opened snaps
  have hclosed : closed.steady = d.steady := by simp only [closed]; split <;> simp
  split
  · exact hclosed
  · exact ((Dev.journalScales_steady ..).trans (Dev.journal_steady ..)).trans hclosed

@[simp] theorem Dev.restoreScales_steady (v : Variant) (d : Dev) (r : Replay) : (d.restoreScales v r).steady = d.steady := by
  refine Dev.foldl_steady (fun d e => ?_) _ d
  extract_lets x
  have hx : x.d.steady = d.steady := Dev.jrnEntry_steady ..
  split
  · exact hx
  · have hp := (Dev.scalePlace_steady v true false x.d (tileOf (16 * (partsOf r.parts).headD 0)) r.ctx (jrnField x.data 2 2)).trans hx
    split
    next h => rw [h] at hp; exact hp
    next h => rw [h] at hp; exact (Dev.localWrite_steady ..).trans hp

@[simp] theorem Dev.replayable_steady (v : Variant) (d : Dev) (stepping : W8) (base parts : Nat) :
    (d.replayable v stepping base parts).2.steady = d.steady := by
  simp only [Dev.replayable]
  split <;> simp

@[simp] theorem Dev.replayBegin_steady (v : Variant) (d : Dev) (stepping : W8) (lc : BitVec 4) :
    (d.replayBegin v stepping lc).steady = d.steady := by
  unfold Dev.replayBegin
  extract_lets base parts ctx r
  have hr : r.2.steady = d.steady := Dev.replayable_steady ..
  split
  · rfl
  · split
    · exact hr
    · extract_lets x e f
      have hf : f.steady = e.steady := by
        refine Dev.foldl_steady (fun d n => ?_) _ e
        refine Dev.foldl_steady (fun d k => ?_) _ d
        exact d.onTile_steady _ fun _ => rfl
      exact (Dev.restoreScales_steady ..).trans (hf.trans hr)

@[simp] theorem Dev.replayEnd_steady (v : Variant) (d : Dev) : (d.replayEnd v).steady = d.steady := by
  unfold Dev.replayEnd
  split
  · rfl
  · split <;> simp

@[simp] theorem Dev.evalChange_steady (v : Variant) (d : Dev) (n : Nat) : (d.evalChange v n).steady = d.steady := by
  unfold Dev.evalChange
  extract_lets part ctx moved r
  have hr : r.2.steady = d.steady := by
    refine foldl_snd_steady (fun r p => ?_) _ (false, d)
    split
    · rfl
    · exact Dev.steady_of_still (Dev.planHolding_still v r.2 p n)
  clear_value r
  split
  · rfl
  · split <;> exact hr

end Sys2Proof.Machine
end

section
/-!
SUPPORT. What a recovery, a disable and the other work of an edge leave alone of the tick (R53, R55, R341, R440 to R453, R469 to R490).
-/

namespace Sys2Proof.Machine

open Sys2Proof

/-! ## Recoveries and disables (R440 to R453) -/

@[simp] theorem Dev.moveUnit_tick (v : Variant) (d : Dev) (u : BitVec 16) (st : BitVec 4) : (d.moveUnit v u st).tick = d.tick :=
  Dev.tick_of_steady (by simp)

/-- Of what `steady` names a fence sets no more than that the slice is fenced. -/
theorem Dev.fence_steady (v : Variant) (d : Dev) (n : Nat) : (d.fence v n).steady = (d.onHub n fun h => { h with fenced := true }).steady := by
  simp [Dev.fence]

@[simp] theorem Dev.fence_tick (v : Variant) (d : Dev) (n : Nat) : (d.fence v n).tick = d.tick :=
  (Dev.tick_of_steady (Dev.fence_steady v d n)).trans rfl

@[simp] theorem Dev.noteSuspects_tick (d : Dev) (u : BitVec 16) : (d.noteSuspects u).tick = d.tick := by
  unfold Dev.noteSuspects; split <;> rfl

@[simp] theorem Dev.recover_tick (v : Variant) (d : Dev) (parts : BitVec 12) (cause : W8) (u : BitVec 16) (esc : Bool) :
    (d.recover v parts cause u esc).tick = d.tick := by
  unfold Dev.recover
  dsimp only
  split
  · rfl
  · rw [Dev.foldl_tick fun d m => Dev.fence_tick v d m]
    exact Dev.noteSuspects_tick d u

@[simp] theorem Dev.endEnable_tick (v : Variant) (d : Dev) (mine : BitVec 16 → Bool) : (d.endEnable v mine).tick = d.tick := by
  unfold Dev.endEnable
  split
  · rfl
  · split
    · rw [Dev.raise_tick]
      exact Dev.moveUnit_tick ..
    · rfl

@[simp] theorem Dev.faultsAfter_tick (v : Variant) (d : Dev) (parts : BitVec 12) : (d.faultsAfter v parts).tick = d.tick :=
  Dev.foldl_tick (fun d u => Dev.recover_tick v d _ _ u false) _ _

@[simp] theorem Dev.setLast_still (d : Dev) (cause : W8) (part level slot dur : Nat) : (d.setLast cause part level slot dur).still = d.still :=
  Dev.setReg_still ..

@[simp] theorem Dev.returnParts_tick (v : Variant) (d : Dev) (k : Nat) (r : Recovery) : (d.returnParts v k r).tick = d.tick := by
  unfold Dev.returnParts
  extract_lets d1 dur d2 d3 low d4 d5
  have h1 : d1.tick = d.tick := by
    refine Dev.foldl_tick (fun d n => ?_) _ d
    exact (Dev.endEnable_tick ..).trans ((Dev.tick_of_steady (Dev.moveMembers_steady ..)).trans (Dev.onHub_tick ..))
  have h2 : d2.tick = d.tick := h1
  have h3 : d3.tick = d.tick := by
    simp only [d3]
    split <;> exact (Dev.count_tick ..).trans h2
  have h4 : d4.tick = d.tick := (Dev.tick_of_steady (Dev.steady_of_still (Dev.setLast_still ..))).trans h3
  exact (Dev.faultsAfter_tick ..).trans ((Dev.raise_tick ..).trans h4)

@[simp] theorem Dev.returns_tick (v : Variant) (d : Dev) : (d.returns v).tick = d.tick := by
  unfold Dev.returns
  refine Dev.foldl_tick (fun d e => ?_) _ d
  exact Dev.returnParts_tick ..

@[simp] theorem Dev.stopTile_tick (v : Variant) (d : Dev) (t : TileRef) : (d.stopTile v t).tick = d.tick := by
  unfold Dev.stopTile
  extract_lets n d1 d2
  have h1 : d1.steady = d.steady := Dev.foldl_steady (fun d x => Dev.cancelStream_steady v d n sUnitDisabled x) _ d
  have h2 : d2.steady = d.steady := (Dev.foldl_steady (fun d e => Dev.endQueue_steady v d t e sUnitDisabled) _ d1).trans h1
  exact (Dev.onTile_tick ..).trans (Dev.tick_of_steady h2)

@[simp] theorem Dev.stopUnit_tick (v : Variant) (d : Dev) (u : BitVec 16) : (d.stopUnit v u).tick = d.tick := by
  unfold Dev.stopUnit
  extract_lets i tiles
  split
  · split
    · rfl
    · exact Dev.stopTile_tick ..
  · refine Dev.foldl_tick (fun d t => ?_) _ d
    split
    · rfl
    · exact Dev.tick_of_steady (Dev.endByReset_steady ..)
  · refine Dev.foldl_tick (fun d t => ?_) _ d
    split
    · rfl
    · exact Dev.tick_of_steady (Dev.endByReset_steady ..)
  · exact Dev.tick_of_steady (Dev.stopOx_steady ..)
  · rw [Dev.tick_of_steady (Dev.stopOx_steady ..)]
    exact Dev.foldl_tick (fun d t => Dev.stopTile_tick v d t) _ d
  · rfl

/-- A port that goes down is no longer the one the ticks come from, and the tick keeps the rest. -/
theorem Dev.portDown_tick (d : Dev) (p : Nat) : (d.portDown p).tick = { d.tick with upstream := (d.portDown p).tick.upstream } := by
  have h : (d.portDown p).tick = { d.tick with upstream := d.tick.upstream.filter (fun u => u.1 != p) } := Dev.raise_tick ..
  rw [h]

/-- The edges of a disable may take a port down, and leave the tick alone but for that. -/
theorem Dev.disableEdge_tick (v : Variant) (d : Dev) :
    (d.disableEdge v).tick = { d.tick with upstream := (d.disableEdge v).tick.upstream } := by
  have kept : ∀ e : Dev, e.tick = d.tick → e.tick = { d.tick with upstream := e.tick.upstream } := fun e h => by rw [h]
  have moved : ∀ {e x : Dev}, e.tick = d.tick → x.tick = { e.tick with upstream := x.tick.upstream } →
      x.tick = { d.tick with upstream := x.tick.upstream } := fun h hx => by rw [← h]; exact hx
  unfold Dev.disableEdge
  split
  · rfl
  next x _ =>
    split
    · split
      · rfl
      · extract_lets e
        have he : e.tick = d.tick := Dev.moveUnit_tick ..
        split
        · exact kept _ ((Dev.tick_of_steady (Dev.abandonWindows_steady ..)).trans he)
        · split
          · exact moved he (e.portDown_tick _)
          · exact kept _ he
    · split
      · exact kept _ ((Dev.moveUnit_tick ..).trans (Dev.stopUnit_tick ..))
      · rfl

/-! ## The memory side of an edge (R261, R262, R265, R281) -/

@[simp] theorem Dev.refreshEdge_steady (d : Dev) (n now : Nat) (ended : Bool) : (d.refreshEdge n now ended).steady = d.steady := by
  have he : ∀ (f : Hub → Hub), (∀ x, (f x).fenced = x.fenced) → (d.onHub n f).steady = d.steady := fun f h => d.onHub_steady n h
  unfold Dev.refreshEdge
  extract_lets h spent e
  have hst : e.steady = d.steady := he _ fun _ => rfl
  split
  · exact (Dev.setReg_steady ..).trans hst
  · exact hst

@[simp] theorem Dev.marginEdge_tick (v : Variant) (d : Dev) (n : Nat) : (d.marginEdge v n).tick = d.tick := by
  unfold Dev.marginEdge
  extract_lets h
  split
  · exact Dev.moveUnit_tick ..
  · split
    · rw [Dev.moveUnit_tick, Dev.tick_of_steady (Dev.abandonWindows_steady ..)]
      exact (Dev.onHub_tick ..).trans (Dev.tick_of_steady (Dev.steady_of_still (Dev.flushCache_still ..)))
    · rfl

@[simp] theorem Dev.refill_steady (d : Dev) (n : Nat) : (d.refill n).steady = d.steady := by
  rw [Dev.refill, Dev.foldl_steady fun x k => ?_]
  · exact d.onHub_steady n fun _ => rfl
  · dsimp only
    split
    · rfl
    · exact x.onHub_steady n fun _ => rfl

@[simp] theorem Dev.upsetLine_steady (v : Variant) (d : Dev) (j : SliceJob) : (d.upsetLine v j).2.steady = d.steady := by
  unfold Dev.upsetLine
  extract_lets u
  split
  · rfl
  · split
    · exact d.onHub_steady _ fun _ => rfl
    · extract_lets line data
      split
      · rfl
      · split
        · rfl
        · exact Dev.count_steady ..
        · exact d.onHub_steady _ fun _ => rfl
    · rfl

@[simp] theorem Dev.perform1_steady (v : Variant) (d : Dev) (j : SliceJob) : (d.perform1 v j).steady = d.steady := by
  unfold Dev.perform1
  dsimp only
  split
  · simp
  · split
    · split <;> simp
    · simp
  · split <;> simp

@[simp] theorem Dev.serve_steady (v : Variant) (d : Dev) (j : SliceJob) : (d.serve v j).steady = d.steady := by
  unfold Dev.serve
  dsimp only
  split <;> simp

@[simp] theorem Dev.accept_steady (v : Variant) (d : Dev) (j : SliceJob) : (d.accept v j).steady = d.steady := by
  unfold Dev.accept
  split
  · simp
  · split
    · simp
    · exact d.onHub_steady _ fun x => by split <;> rfl

@[simp] theorem Dev.charged_steady (v : Variant) (d : Dev) (j : SliceJob) : (d.charged v j).steady = d.steady := by simp [Dev.charged]

@[simp] theorem Dev.releasePort_steady (v : Variant) (d : Dev) (n : Nat) : (d.releasePort v n).steady = d.steady := by
  unfold Dev.releasePort
  extract_lets ws r
  have hr : r.2.steady = d.steady := by
    refine foldl_snd_steady (fun x e => ?_) ws ([], d)
    split <;> simp
  refine Eq.trans ?_ hr
  exact r.2.onHub_steady n fun _ => rfl

@[simp] theorem Dev.memoryEdge_tick (v : Variant) (d : Dev) (n now : Nat) (ended : Bool) : (d.memoryEdge v n now ended).tick = d.tick := by
  unfold Dev.memoryEdge
  extract_lets e
  have he : e.tick = d.tick := by
    rw [Dev.tick_of_steady (Dev.releasePort_steady ..), Dev.tick_of_steady (Dev.refill_steady ..), Dev.marginEdge_tick,
      Dev.tick_of_steady (Dev.refreshEdge_steady ..)]
  clear_value e
  exact he

/-! ## Tick messages, tables, debug levels and characterisation at an edge (R55, R341, R421, R469 to R490) -/

@[simp] theorem Dev.transmit_steady (d : Dev) (p : Nat) (m : Packet) : (d.transmit p m).steady = d.steady := Dev.steady_of_still (by simp)

@[simp] theorem Dev.sendMarkers_steady (d : Dev) : d.sendMarkers.steady = d.steady := by simp [Dev.sendMarkers, Dev.sendTick]

@[simp] theorem Dev.routeEdge_steady (d : Dev) : d.routeEdge.steady = d.steady := by unfold Dev.routeEdge; split <;> rfl

@[simp] theorem Dev.readConsumed_steady (v : Variant) (d : Dev) : (d.readConsumed v).steady = d.steady := by
  unfold Dev.readConsumed
  extract_lets a r
  have hr : r.2.2.steady = d.steady := Dev.physNat_steady ..
  split
  · rfl
  · split <;> exact hr

@[simp] theorem Dev.logTallies_steady (v : Variant) (d : Dev) (n : Nat) : (d.logTallies v n).steady = d.steady := by
  unfold Dev.logTallies
  extract_lets a c rec_ e
  have he : e.steady = d.steady := by
    simp only [e]
    split
    · rfl
    · refine Dev.foldl_steady (fun d s => ?_) _ d
      split <;> simp
  exact (Dev.onSector_steady ..).trans he

/-- After a new step TICK.STEP is that of the edge before, and nothing else of the tick changes. -/
theorem Dev.stepEdge_tick (v : Variant) (d : Dev) (stepping : W8) : (d.stepEdge v stepping).tick = { d.tick with prevStep := d.tick.step } := by
  have hlogged : ((List.range v.sectors).foldl (fun d n => d.logTallies v n) d).tick = d.tick :=
    Dev.tick_of_steady (Dev.foldl_steady (fun d n => Dev.logTallies_steady v d n) _ d)
  unfold Dev.stepEdge
  split
  next h => rw [h]
  next => rw [Dev.tick_of_steady (Dev.journalStep_steady ..), Dev.onTick_tick, hlogged]

@[simp] theorem Dev.heldTiles_steady (v : Variant) (d : Dev) (n : Nat) : (d.heldTiles v n).2.steady = d.steady := by
  refine foldl_snd_steady (fun r p => ?_) _ _
  refine foldl_snd_steady (fun r k => ?_) _ r
  refine foldl_snd_steady (fun r ix => ?_) _ r
  split
  · rfl
  · exact Dev.steady_of_still (Dev.sliceEntry_still ..)

@[simp] theorem Dev.charEdge_steady (v : Variant) (d : Dev) (n : Nat) : (d.charEdge v n).steady = d.steady := by
  unfold Dev.charEdge
  extract_lets r e
  have he : e.steady = d.steady := Dev.heldTiles_steady v d n
  clear_value e
  split
  · rfl
  · split <;> exact he

@[simp] theorem Dev.secEdge_steady (d : Dev) : d.secEdge.steady = d.steady := rfl

/-! ## Plans at an edge (R49, R50, R54, R305, R309) -/

@[simp] theorem Dev.pushSlice_tick (v : Variant) (d : Dev) (p : Plan) (n : Nat) (t : TileRef) : (d.pushSlice v p n t).tick = d.tick := by
  unfold Dev.pushSlice
  extract_lets e x
  have hx : x.tick = d.tick := Dev.sliceEntry_tick v d p n t.ix
  clear_value x
  split
  · exact hx
  · split <;> exact (Dev.onTile_tick ..).trans hx

@[simp] theorem Dev.planEdge_tick (v : Variant) (d : Dev) (n : Nat) : (d.planEdge v n).tick = d.tick := by
  unfold Dev.planEdge
  extract_lets ps cancelled d1 now d2 d3 d4 d5 d6 used live d7
  have h1 : d1.tick = d.tick := by
    refine Dev.foldl_tick (fun d p => Dev.foldl_tick (fun d t => ?_) _ d) _ d
    extract_lets e x
    split
    · exact (Dev.tick_of_steady (Dev.cancelAll_steady ..)).trans (Dev.onTile_tick ..)
    · exact Dev.onTile_tick ..
  have h2 : d2.tick = d1.tick := Dev.tick_of_steady (Dev.foldl_steady (fun d p => Dev.applyRoutes_steady v d p) _ d1)
  have h3 : d3.tick = d2.tick := Dev.tick_of_steady (Dev.foldl_steady (fun d p => Dev.askSwaps_steady v d p n) _ d2)
  have h4 : d4.tick = d3.tick := Dev.foldl_tick (fun d p => Dev.foldl_tick (fun d t => Dev.pushSlice_tick v d p n t) _ d) _ d3
  have h5 : d5.tick = d4.tick := Dev.foldl_tick (fun d t => Dev.swapAtEdge_tick d t) _ d4
  have h6 : d6.tick = d5.tick := by
    refine Dev.foldl_tick (fun d k => ?_) _ d5
    exact (Dev.tryStarts_tick ..).trans (Dev.tick_of_steady (Dev.plannedSwaps_steady ..))
  have h7 : d7.tick = d6.tick := rfl
  rw [Dev.foldl_tick fun d t => Dev.onTile_tick d t _, h7, h6, h5, h4, h3, h2, h1]

end Sys2Proof.Machine
end

section
/-!
SUPPORT. The tick at an edge (R38, R42, R51, R53, R65).
-/

namespace Sys2Proof.Machine

open Sys2Proof

/-! ## The end of the tick before (R188, R469, R473, R479) -/

theorem Dev.showTelemetry_still (d : Dev) (tel : Telemetry) : (d.showTelemetry tel).still = d.still := by simp [Dev.showTelemetry]
theorem Dev.ageEdge_still (v : Variant) (d : Dev) (tel : Telemetry) (ns : Nat) : (d.ageEdge v tel ns).still = d.still := rfl

/-- The thermal model and what it may write to the record. -/
theorem Dev.warmed_still (d : Dev) (due : Bool) (p : Power) (k : Nat) :
    (if due then ({ d with power := p, free := k } : Dev).onRetain fun r => { r with changed := true }
      else { d with power := p, free := k }).still = d.still := by
  split <;> rfl

theorem Dev.thermalUpdate_still (v : Variant) (d : Dev) (tel : Telemetry) (now : Nat) :
    (d.thermalUpdate v tel now).still = d.still := by
  unfold Dev.thermalUpdate
  exact Dev.warmed_still d _ _ _

theorem Dev.onTile_still (d : Dev) (t : TileRef) {f : Tile → Tile} (h : ∀ x, (f x).late = x.late) : (d.onTile t f).still = d.still :=
  Dev.still_of_parts (d.onTile_steady t h) rfl

/-- The end of a tick keeps the sequencer and the tick but for the stretch applied. -/
theorem Dev.endTick_kept (v : Variant) (d : Dev) (tel : Telemetry) (now : Nat) :
    (d.endTick v tel now).seq = d.seq ∧ ∃ us, (d.endTick v tel now).tick = { d.tick with lastUs := us } := by
  unfold Dev.endTick
  split
  · exact ⟨rfl, _, rfl⟩
  · extract_lets e x
    have he : e.still = d.still :=
      (Dev.thermalUpdate_still ..).trans ((Dev.ageEdge_still ..).trans (Dev.showTelemetry_still ..))
    have hx : x.still = e.still := by
      refine Dev.foldl_still (fun d n => ?_) _ e
      extract_lets xs total worst y
      have hy : y.still = d.still := by
        refine Dev.foldl_still (fun d k => ?_) _ d
        exact d.onTile_still _ fun _ => rfl
      split
      · rfl
      · exact (Dev.raise_still ..).trans hy
    have hd : x.still = d.still := hx.trans he
    have hseq : x.seq = d.seq := Dev.seq_of_still hd
    have htick : x.tick = d.tick := Dev.tick_of_steady (Dev.steady_of_still hd)
    clear_value x
    refine ⟨hseq, Tab.look 0 x.tick.granted x.tick.number.toNat, ?_⟩
    rw [Dev.onTick_tick, htick]

/-- Where nothing has been collected the sequencer consumes nothing. -/
theorem Dev.consumeAll_nil {d : Dev} (h : d.seq.collected = []) (v : Variant) : (d.consumeAll v).seq = d.seq := by
  have hseq : (d.onSeq fun q => { q with collected := [] }).seq = d.seq := by rw [← h]; rfl
  rw [Dev.consumeAll, h]
  exact hseq

/-! ## The edge -/

/-- The device when the tick before an edge has ended. -/
def Dev.edgeEnded (v : Variant) (d : Dev) (tel : Telemetry) (now : Nat) : Dev := (d.consumeAll v).endTick v tel now

/-- The device when an edge has begun the next tick. -/
def Dev.edgeBegun (v : Variant) (d : Dev) (tel : Telemetry) (now : Nat) : Dev :=
  let e := d.edgeEnded v tel now
  e.beginTick v (e.edgeNumber now) (e.edgeStep (e.edgeNumber now)) now

/-- After an edge the tick is the one that it began, but for TICK.STEP of the edge before and for a port that the edge took down. -/
theorem Dev.tickEdge_tick {v : Variant} {d : Dev} {now e : Nat} (stepping : W8) (lc : BitVec 4) (tel : Telemetry)
    (he : d.tick.nextEdge = some e) (hdue : e ≤ now) (hrun : d.bit (At.tick 0) 0 = true) (hclk : d.power.clocksOn = true) :
    ∃ up, (d.tickEdge v stepping lc tel now).tick =
      { (d.edgeBegun v tel now).tick with upstream := up, prevStep := (d.edgeBegun v tel now).tick.step } := by
  unfold Dev.tickEdge
  split
  next hnone => exact absurd (he.symm.trans hnone) (by simp)
  next e' hsome =>
    obtain rfl : e = e' := Option.some.inj (he.symm.trans hsome)
    rw [if_neg (by simp [hrun, hclk, hdue])]
    extract_lets sectors ended d1 n d2 d3 d4 d5 d6 d7
    have h2 : d2.tick = (d.edgeBegun v tel now).tick :=
      Dev.tick_of_steady ((Dev.sendMarkers_steady _).trans (Dev.commitClock_steady ..))
    have h3 : d3.tick = d2.tick := Dev.foldl_tick (fun d k => Dev.memoryEdge_tick v d k now ended) sectors d2
    have h4 : ∃ up, d4.tick = { d2.tick with upstream := up } := by
      refine ⟨((d3.returns v).disableEdge v).tick.upstream, ?_⟩
      rw [Dev.tick_of_steady ((Dev.readConsumed_steady ..).trans (Dev.routeEdge_steady _)), Dev.disableEdge_tick, Dev.returns_tick, h3]
    have h5 : d5.tick = { d4.tick with prevStep := d4.tick.step } := by
      rw [Dev.tick_of_steady ((Dev.evalChange_steady ..).trans ((Dev.replayBegin_steady ..).trans (Dev.replayEnd_steady ..)))]
      exact Dev.stepEdge_tick ..
    have h6 : d6.tick = d5.tick := Dev.tick_of_steady (Dev.openWindows_steady v d5)
    have h7 : d7.tick = d6.tick := (Dev.planEdge_tick ..).trans (Dev.tick_of_steady (Dev.charEdge_steady ..))
    have hend : (sectors.foldl (fun d k => d.countLateEntries v k n.toNat false) d7).tick = d7.tick :=
      Dev.tick_of_steady (Dev.foldl_steady (fun d k => Dev.countLateEntries_steady v d k n.toNat false) sectors d7)
    obtain ⟨up, h4⟩ := h4
    refine ⟨up, ?_⟩
    rw [Dev.tick_of_steady ((Dev.checkpointed_steady _).trans (Dev.secEdge_steady _)), hend, h7, h6, h5, h4, h2]

/-! ## What the tick that an edge begins is -/

/-- The period of the tick that begins, where an armed change may come into force (R42). -/
def Tick.periodFrom (t : Tick) (n : W64) : Nat := if t.pending = true ∧ t.nextAt.toNat ≤ n.toNat then t.armedUs else t.periodUs

theorem Dev.beginTick_tick (v : Variant) (d : Dev) (n step : W64) (now : Nat) :
    let t := d.tick
    let change := t.pending && decide (t.nextAt.toNat ≤ n.toNat)
    (d.beginTick v n step now).tick =
      { t with number := n, step := step, periodUs := t.periodFrom n, pending := t.pending && !change, begun := true, saved := none,
               coming := none, maint := d.maintains n.toNat, reserve := d.maintains n.toNat, stretched := false, floorWarn := false,
               announced := none, lastEdge := now, rootEdge := now, clock := max t.clock now,
               nextEdge := some (now + 1000 * t.periodFrom n), requests := t.requests.filter (fun e => decide (n.toNat ≤ e.1)),
               granted := t.granted.filter (fun e => decide (n.toNat ≤ e.1)) } := by
  intro t change
  have hus : (if change then t.armedUs else t.periodUs) = t.periodFrom n := if_congr (by simp [change]) rfl rfl
  rw [← hus]
  unfold Dev.beginTick
  extract_lets _ us maint d1 d2 d3
  have h3 : d3.tick = d1.tick := by simp only [d3]; split <;> rfl
  refine Eq.trans (b := d1.tick) (Eq.trans ?_ h3) rfl
  clear_value d3
  split <;> rfl

/-- The end of a tick leaves what the next one is begun from. -/
theorem Dev.edgeEnded_tick (v : Variant) (d : Dev) (tel : Telemetry) (now : Nat) :
    ∃ us, (d.edgeEnded v tel now).tick = { d.tick with lastUs := us } := by
  obtain ⟨us, h⟩ := (Dev.endTick_kept v (d.consumeAll v) tel now).2
  exact ⟨us, h.trans (by rw [Dev.tick_of_steady (Dev.consumeAll_steady v d)])⟩

end Sys2Proof.Machine

namespace Sys2Proof.Proofs

open Sys2Proof.Machine Sys2Proof.Claims

/-- Settles O33: before its time an edge does nothing; at its time the tick is the one that `Dev.beginTick` begins, as the rest of the edge
only takes a port down and moves TICK.STEP on. -/
theorem tickEdgeBeginsTheNextTick : Obligations.TickEdgeBeginsTheNextTick := by
  intro tel now e s t he
  refine ⟨fun hearly => ?early, fun hdue hrun hclk hbegun => ?due⟩
  case early =>
    have hd : s.dev.tickEdge s.fuse.variant s.fuse.stepping s.fuse.lc tel now = s.dev := by
      unfold Dev.tickEdge
      split
      next => rfl
      next e' hsome =>
        obtain rfl : e = e' := Option.some.inj (he.symm.trans hsome)
        exact if_pos (.inl hearly)
    exact congrArg (fun d => Host.Outcome.next (s.withDev d)) hd
  case due =>
    intro n us
    obtain ⟨up, hu⟩ := Dev.tickEdge_tick (v := s.fuse.variant) s.fuse.stepping s.fuse.lc tel he hdue hrun hclk
    obtain ⟨last, hended⟩ := s.dev.edgeEnded_tick s.fuse.variant tel now
    have hn : (s.dev.edgeEnded s.fuse.variant tel now).edgeNumber now = n := by
      simp only [Dev.edgeNumber, hended, n]
      cases s.dev.tick.coming with
      | none => exact if_pos hbegun
      | some c => rfl
    refine ⟨s.dev.tickEdge s.fuse.variant s.fuse.stepping s.fuse.lc tel now, rfl, ?_⟩
    rw [hu, Dev.edgeBegun, Dev.beginTick_tick, hended, hn]
    refine ⟨rfl, rfl, rfl, rfl, rfl, rfl, rfl, rfl, rfl, fun hnone => ?_⟩
    have hseq : (s.dev.edgeEnded s.fuse.variant tel now).seq = s.dev.seq :=
      (Dev.endTick_kept ..).1.trans (Dev.consumeAll_nil hnone s.fuse.variant)
    simp only [Dev.edgeStep, hseq, hended] <;> rfl

end Sys2Proof.Proofs
end

section
/-!
SUPPORT. Guard start (R53, R61): which tiles become late, and that what follows in the guard takes none of it back.
-/

namespace Sys2Proof.Machine

open Sys2Proof

/-- Every tile of a sector that the variant has is one of its tiles. -/
theorem Variant.mem_tiles {v : Variant} {t : TileRef} (h : t.sector.val < v.sectors) : t ∈ v.tiles := by
  have hs := t.sector.isLt
  have ht := t.tile.isLt
  refine List.mem_map.2 ⟨t.ix, List.mem_range.2 (by unfold TileRef.ix; omega), ?_⟩
  obtain ⟨s, k⟩ := t
  simp only [tileOf, TileRef.ix, TileRef.mk.injEq]
  exact ⟨Fin.ext (by simp [Fin.ofNat]; omega), Fin.ext (by simp [Fin.ofNat])⟩

/-! ## Late slices (R61) -/

/-- What LATE_SLICE does of one tile: the slices counted, the tiles that are late, and the device. -/
def lateStep (n at_ : Nat) (r : Nat × BitVec 192 × Dev) (t : TileRef) : Nat × BitVec 192 × Dev :=
  let x := (r.2.2.tile t).turnLate n at_
  if !x.2.1 then r else (r.1 + x.2.2, r.2.1 ||| BitVec.twoPow 192 t.ix, r.2.2.setTile t x.1)

/-- The device once every tile has been looked at. -/
def Dev.turnLates (v : Variant) (d : Dev) : Nat × BitVec 192 × Dev := v.tiles.foldl (lateStep d.tick.number.toNat d.tick.clock) (0, 0, d)

/-- Behind the tiles turned late, the rest of LATE_SLICE only counts and tells. -/
theorem Dev.lateSlices_steady (v : Variant) (d : Dev) : (d.lateSlices v).steady = (d.turnLates v).2.2.steady := by
  have counted : ∀ (r : Nat × BitVec 192 × Dev) (f : Seq → Seq), ((r.2.2.count (At.tick 0x030) 0 32 r.1).onSeq f).steady = r.2.2.steady :=
    fun r f => by simp
  unfold Dev.lateSlices
  extract_lets n r x
  have hx : x.steady = (d.turnLates v).2.2.steady := counted ..
  split
  · exact hx
  · exact (Dev.raise_steady ..).trans hx

/-- A tile is late once it has been found so, whatever tile is looked at. -/
theorem lateStep_late {n at_ : Nat} {r : Nat × BitVec 192 × Dev} {t : TileRef} (h : (r.2.2.tile t).late = true) (u : TileRef) :
    ((lateStep n at_ r u).2.2.tile t).late = true := by
  unfold lateStep
  dsimp only
  split
  · exact h
  · by_cases hu : t = u
    · subst hu
      simp [Tile.turnLate, h]
    · rw [Dev.tile_setTile_ne _ _ hu]
      exact h

/-- Another tile stays as it is. -/
theorem lateStep_other {n at_ : Nat} {r : Nat × BitVec 192 × Dev} {t u : TileRef} (h : t ≠ u) :
    (lateStep n at_ r u).2.2.tile t = r.2.2.tile t := by
  unfold lateStep
  dsimp only
  split
  · rfl
  · exact Dev.tile_setTile_ne _ _ h

/-- A tile that runs a late slice becomes late. -/
theorem lateStep_running {n at_ : Nat} {r : Nat × BitVec 192 × Dev} {t : TileRef} {c : Slice}
    (hrun : (r.2.2.tile t).run = .running ∨ (r.2.2.tile t).run = .ending) (hc : (r.2.2.tile t).cur = some c)
    (hl : lateNow (r.2.2.tile t) n c = true) : ((lateStep n at_ r t).2.2.tile t).late = true := by
  have hcur : (decide ((r.2.2.tile t).run = .running) || decide ((r.2.2.tile t).run = .ending)) = true := by simpa using hrun
  unfold lateStep
  simp only [Tile.turnLate, hcur, hc, Option.map_some, Option.getD_some, hl]
  simp

/-- Every tile of the list that runs a late slice is late after the tiles of the list have been looked at. -/
theorem foldl_lateStep_late {n at_ : Nat} {t : TileRef} {c : Slice} (ts : List TileRef) (ht : t ∈ ts) (r : Nat × BitVec 192 × Dev)
    (hrun : (r.2.2.tile t).run = .running ∨ (r.2.2.tile t).run = .ending) (hc : (r.2.2.tile t).cur = some c)
    (hl : lateNow (r.2.2.tile t) n c = true) : ((ts.foldl (lateStep n at_) r).2.2.tile t).late = true := by
  induction ts generalizing r with
  | nil => exact absurd ht List.not_mem_nil
  | cons u us ih =>
    by_cases hu : t = u
    · subst hu
      have hstays : ∀ (us : List TileRef) (r : Nat × BitVec 192 × Dev), (r.2.2.tile t).late = true →
          ((us.foldl (lateStep n at_) r).2.2.tile t).late = true := by
        intro us
        induction us with
        | nil => exact fun r h => h
        | cons w ws ihw => exact fun r h => ihw _ (lateStep_late h w)
      exact hstays us _ (lateStep_running hrun hc hl)
    · refine ih ((List.mem_cons.1 ht).resolve_left hu) _ ?_ ?_ ?_ <;> rw [lateStep_other hu] <;> assumption

/-- LATE_SLICE arms no owner's reset. -/
theorem Dev.lateSlices_resetArmed (v : Variant) (d : Dev) : (d.lateSlices v).gander.resetArmed = d.gander.resetArmed := by
  rw [Dev.resetArmed_of_steady (d.lateSlices_steady v)]
  refine foldl_keeps (fun r : Nat × BitVec 192 × Dev => r.2.2.gander.resetArmed) _ (fun r t => ?_) v.tiles (0, 0, d)
  unfold lateStep
  dsimp only
  split <;> rfl

theorem Dev.ownerReset_unarmed {d : Dev} (h : d.gander.resetArmed = false) (v : Variant) : d.ownerReset v = d := by
  simp [Dev.ownerReset, h]

/-! ## The guard as a whole (R53) -/

/-- The device at a guard once late slices are known: the clock has reached the guard, and a missing announcement is noted. -/
def Dev.guarded (d : Dev) : Dev :=
  (d.onTick fun t => { t with clock := max t.clock (t.nextEdge.getD 0 - 1000 * guardUs) }).missAnnouncement

theorem Dev.missAnnouncement_frame (d : Dev) :
    d.missAnnouncement.tiles = d.tiles ∧ d.missAnnouncement.gander = d.gander ∧ d.missAnnouncement.tick.number = d.tick.number := by
  unfold Dev.missAnnouncement
  split
  · exact ⟨rfl, rfl, rfl⟩
  · rw [Dev.count_frame]
    exact ⟨rfl, rfl, rfl⟩

theorem Dev.guarded_tile (d : Dev) (t : TileRef) : d.guarded.tile t = d.tile t := by
  rw [Dev.tile, Dev.guarded, (Dev.missAnnouncement_frame _).1]
  rfl

theorem Dev.guarded_number (d : Dev) : d.guarded.tick.number = d.tick.number := (Dev.missAnnouncement_frame _).2.2

theorem Dev.guarded_gander (d : Dev) : d.guarded.gander = d.gander := (Dev.missAnnouncement_frame _).2.1

/-- What follows LATE_SLICE in a guard without an owner's reset leaves every tile as late as it is. -/
theorem Dev.guardStart_late {v : Variant} {d : Dev} (tel : Telemetry) (xs : List UnitSample) (hbegun : d.tick.begun = true)
    (hedge : d.tick.nextEdge.isSome = true) (hreset : d.gander.resetArmed = false) (t : TileRef) :
    ((d.guardStart v tel xs).tile t).late = ((d.guarded.turnLates v).2.2.tile t).late := by
  unfold Dev.guardStart
  rw [if_neg (by simp [hbegun, Option.isSome_iff_ne_none.1 hedge])]
  extract_lets n sectors d1 d2 d3 d4
  have h3 : d3.steady = d2.steady := Dev.foldl_steady (fun d k => Dev.countLateEntries_steady v d k n true) sectors d2
  have hsampled : ∀ u : TileRef, ((d3.sample xs).tile u).late = ((d.guarded.turnLates v).2.2.tile u).late := fun u =>
    (Dev.late_of_steady h3 u).trans (Dev.late_of_steady (Dev.lateSlices_steady ..) u)
  have hsearched : (sectors.foldl (fun d k => d.sampleDeadlock v k) (d3.sample xs)).steady = (d3.sample xs).steady :=
    Dev.foldl_steady (fun d k => Dev.sampleDeadlock_steady v d k) sectors _
  have hunarmed : (d3.sample xs).gander.resetArmed = false := by
    rw [show (d3.sample xs).gander.resetArmed = d3.gander.resetArmed from rfl, Dev.resetArmed_of_steady h3, Dev.lateSlices_resetArmed]
    exact (congrArg Gander.resetArmed d.guarded_gander).trans hreset
  have h4 : d4.steady = (d3.sample xs).steady := by
    simp only [d4]
    rw [Dev.ownerReset_unarmed ((Dev.resetArmed_of_steady hsearched).trans hunarmed), hsearched]
  have hend : ((((d4.collect v).journalTick v).checkpoint v).decideClock v tel).steady = d4.steady := by
    simp only [Dev.decideClock_steady, Dev.checkpoint_steady, Dev.journalTick_steady, Dev.collect_steady]
  exact (Dev.late_of_steady (hend.trans h4) t).trans (hsampled t)

end Sys2Proof.Machine

namespace Sys2Proof.Proofs

open Sys2Proof.Machine Sys2Proof.Claims

/-- Settles O34: LATE_SLICE turns the tile late when it comes to it, and neither the tiles after it nor the rest of the guard take that
back. -/
theorem guardStartFindsLateSlices : Obligations.GuardStartFindsLateSlices := by
  intro tel xs t c s x hbegun hedge hreset hsector hrun hcur htick hwork hskip
  refine ⟨s.dev.guardStart s.fuse.variant tel xs, rfl, ?_⟩
  have hl : lateNow x s.dev.tick.number.toNat c = true := by
    simp only [lateNow, isIdle, htick, hwork, hskip]
    rfl
  rw [Dev.guardStart_late tel xs hbegun hedge hreset, Dev.turnLates, Dev.guarded_number]
  refine foldl_lateStep_late (c := c) _ (Variant.mem_tiles hsector) _ ?_ ?_ ?_
  all_goals rw [show (s.dev.guarded.tile t) = x from Dev.guarded_tile ..]
  · exact hrun
  · exact hcur
  · exact hl

end Sys2Proof.Proofs
end

section
/-!
SUPPORT. A MARKER where the tick number has reached its last value (R56 to R59, R425): the number of the next tick is then 0, which is
also that of an earlier tick, and a marker of tick 0 counts as one for the next.
-/

namespace Sys2Proof.Proofs

open Sys2Proof.Machine Sys2Proof.Claims

/-- A follower in DIRECT mode whose ticks run, in the last tick of all, aligned to root 0 through port 0. -/
def lastTickFollower : State :=
  State.reset.withDev { State.reset.dev.setReg (At.tick 0) 0x41 with tick :=
    { State.reset.dev.tick with number := BitVec.allOnes 64, roots := [(0, BitVec.allOnes 64)], upstream := some (0, 0) } }

/-- A marker of tick 0 from root 0. -/
def markerOfTickZero : TickMsg := { hops := 0, root := 0, value := 0, tick := 0, step := 0, time := 0 }

/-- Whether a step leaves the device aligned. -/
def alignedAfter : Host.Outcome State Fault Refusal → Bool
  | .next s => s.dev.tick.aligned
  | _ => false

theorem lastTickFollower_aligned : alignedAfter (exec (.marker 0 markerOfTickZero 0) lastTickFollower) = true := rfl

/-- Refutes O35: a follower in tick 2⁶⁴ − 1 that gets a marker of tick 0 takes it for one of the next tick, as 2⁶⁴ − 1 + 1 = 0, and stays
aligned, where the statement has it not aligned for a marker of an earlier tick. -/
theorem not_followersTakeTheFleetTick : ¬ Obligations.FollowersTakeTheFleetTick := by
  intro h
  obtain ⟨direct, -⟩ := h.2 0 markerOfTickZero 0 0 (BitVec.allOnes 64) lastTickFollower rfl rfl rfl (by decide)
  obtain ⟨-, -, -, behind⟩ := direct rfl rfl rfl
  have hfalse := congrArg alignedAfter (behind rfl (by decide))
  exact absurd (lastTickFollower_aligned.symm.trans hfalse) (by decide)

end Sys2Proof.Proofs
end

section
/-!
SUPPORT. The root's tick (R40, R42, R44, R63, R65, R427): what sending a tick message leaves alone, and what stretches, period changes and
the start of the ticks do.
-/

namespace Sys2Proof.Machine

open Sys2Proof Sys2Proof.Claims

/-! ## Sending tick messages -/

/-- Nothing but messages sent or held back lies between two states, behind those before. -/
structure Dev.OnlySent (d u : Dev) : Prop where
  tick : u.tick = d.tick
  csr : u.csr = d.csr
  outbox : d.outbox <+: u.outbox
  held : d.links.heldOut <+: u.links.heldOut

namespace Dev.OnlySent

variable {d e u : Dev}

theorem refl (d : Dev) : OnlySent d d := ⟨rfl, rfl, List.prefix_rfl, List.prefix_rfl⟩

theorem trans (h : OnlySent d e) (h' : OnlySent e u) : OnlySent d u :=
  ⟨h'.tick.trans h.tick, h'.csr.trans h.csr, h.outbox.trans h'.outbox, h.held.trans h'.held⟩

theorem foldl {α : Type} {f : Dev → α → Dev} (h : ∀ d a, OnlySent d (f d a)) (as : List α) (d : Dev) : OnlySent d (as.foldl f d) := by
  induction as generalizing d with
  | nil => exact refl d
  | cons a as ih => exact (h d a).trans (ih _)

/-- A tick message goes out at once on a link or in a frame, or waits while its priority is stopped. -/
theorem transmit (d : Dev) (p : Nat) (kind : W8) (m : TickMsg) : OnlySent d (d.transmit p (.tick kind m)) := by
  unfold Dev.transmit
  split
  · exact ⟨rfl, rfl, List.prefix_append .., List.prefix_rfl⟩
  · split
    · exact ⟨rfl, rfl, List.prefix_rfl, List.prefix_append ..⟩
    · exact ⟨rfl, rfl, List.prefix_append .., List.prefix_rfl⟩

end Dev.OnlySent

theorem mem_drop_of_prefix {α : Type} {x : α} {n : Nat} {as bs : List α} (h : as <+: bs) (hx : x ∈ as.drop n) : x ∈ bs.drop n :=
  (h.drop n).subset hx

/-- What a transmission sends is still among what is sent when more has gone out before and after. -/
theorem sendsTick_mono {d e u w : Dev} {p : Nat} {kind : W8} {m : TickMsg} (hd : d.OnlySent e) (hu : u.OnlySent w)
    (h : sendsTick e u p kind m) : sendsTick d w p kind m := by
  have back : ∀ {α : Type} {x : α} {as bs cs : List α}, as <+: bs → x ∈ cs.drop bs.length → x ∈ cs.drop as.length := by
    intro α x as bs cs hp hx
    obtain ⟨k, hk⟩ := Nat.exists_eq_add_of_le hp.length_le
    rw [hk, ← List.drop_drop] at hx
    exact List.mem_of_mem_drop hx
  rcases h with h | ⟨f, h⟩ | h
  · exact .inl (mem_drop_of_prefix hu.outbox (back hd.outbox h))
  · exact .inr (.inl ⟨f, mem_drop_of_prefix hu.outbox (back hd.outbox h)⟩)
  · exact .inr (.inr (mem_drop_of_prefix hu.held (back hd.held h)))

theorem sendsTick_transmit (d : Dev) (p : Nat) (kind : W8) (m : TickMsg) : sendsTick d (d.transmit p (.tick kind m)) p kind m := by
  unfold Dev.transmit sendsTick
  split
  · exact .inl (by simp [Dev.send])
  · split
    · exact .inr (.inr (by simp [Dev.onLinks]))
    · exact .inr (.inl ⟨d.envelope p (.tick kind m), by simp [Dev.send]⟩)

/-- A message on each port of a list: each is sent. -/
theorem sendsTick_foldl (kind : W8) (g : Dev → Nat → TickMsg) {ps : List Nat} {p : Nat} (hp : p ∈ ps) (d : Dev) :
    ∃ e : Dev, sendsTick d (ps.foldl (fun d p => d.transmit p (.tick kind (g d p))) d) p kind (g e p) := by
  have sent : ∀ d p, Dev.OnlySent d (d.transmit p (.tick kind (g d p))) := fun d p => .transmit d p kind (g d p)
  induction ps generalizing d with
  | nil => exact absurd hp List.not_mem_nil
  | cons q ps ih =>
    rcases List.mem_cons.1 hp with rfl | hp
    · exact ⟨d, sendsTick_mono (.refl d) (.foldl sent ps _) (sendsTick_transmit d p kind (g d p))⟩
    · obtain ⟨e, he⟩ := ih hp (d.transmit q (.tick kind (g d q)))
      exact ⟨e, sendsTick_mono (sent d q) (.refl _) he⟩

/-! ## Stretches (R44, R63, R427) -/

/-- A request for a tick to come is kept where it is the largest, before the announcement. -/
theorem Dev.takeStretch_root {d : Dev} {m : TickMsg} (hroot : d.isRoot = true) (hn : d.tick.number.toNat ≤ m.tick.toNat)
    (ha : d.tick.announced ≠ some (m.tick + 1)) :
    Tab.look 0 (d.takeStretch m).tick.requests m.tick.toNat = max (Tab.look 0 d.tick.requests m.tick.toNat) m.value.toNat ∧
      ∀ k, k ≠ m.tick.toNat → Tab.look 0 (d.takeStretch m).tick.requests k = Tab.look 0 d.tick.requests k := by
  by_cases hle : m.value.toNat ≤ Tab.look 0 d.tick.requests m.tick.toNat
  · have hkept : d.takeStretch m = d := if_pos (.inr (.inl hle))
    rw [hkept]
    exact ⟨(Nat.max_eq_left hle).symm, fun _ _ => rfl⟩
  · have hput : (d.takeStretch m).tick.requests = Tab.put 0 d.tick.requests m.tick.toNat m.value.toNat := by
      unfold Dev.takeStretch
      extract_lets n us e
      rw [if_neg (by rintro (h | h | h) <;> [omega; exact hle h; exact ha h]), if_pos (show e.isRoot = true from hroot)]
      rfl
    rw [hput]
    exact ⟨by rw [Tab.look_put_self]; omega, fun k hk => Tab.look_put_ne _ _ _ _ hk⟩

/-- Another device passes on a larger request. -/
theorem Dev.takeStretch_follower {d : Dev} {m : TickMsg} {q h : Nat} (hroot : d.isRoot = false) (hn : d.tick.number.toNat ≤ m.tick.toNat)
    (ha : d.tick.announced ≠ some (m.tick + 1)) (hup : d.tick.upstream = some (q, h))
    (hlt : Tab.look 0 d.tick.requests m.tick.toNat < m.value.toNat) :
    d.takeStretch m = (d.onTick fun t => { t with requests := Tab.put 0 t.requests m.tick.toNat m.value.toNat }).transmit q
      (.tick 3 { m with hops := m.hops + 1 }) := by
  unfold Dev.takeStretch
  extract_lets n us e
  rw [if_neg (by rintro (h | h | h) <;> [omega; exact absurd hlt (not_lt.2 h); exact ha h]),
    if_neg (by rw [show e.isRoot = false from hroot]; decide)]
  simp only [show e.tick.upstream = some (q, h) from hup]
  rfl

/-- The message that the root sends on a port: on the PTP port of an Ethernet fleet an announcement carries the time of the edge itself. -/
def announceOn (q time : Nat) (kind : W8) (m : TickMsg) (d : Dev) (p : Nat) : TickMsg :=
  if p = q ∧ kind = 2 ∧ (d.port p).mode = 2 then { m with time := BitVec.ofNat 64 time } else m

theorem announceOn_value (q time : Nat) (kind : W8) (m : TickMsg) (d : Dev) (p : Nat) : (announceOn q time kind m d p).value = m.value := by
  unfold announceOn; split <;> rfl

theorem announceOn_tick (q time : Nat) (kind : W8) (m : TickMsg) (d : Dev) (p : Nat) : (announceOn q time kind m d p).tick = m.tick := by
  unfold announceOn; split <;> rfl

/-- The root at the lead before an edge that it has not announced: it grants the stretch asked for, up to its limit, and tells it on
every tick port. -/
theorem Dev.announceLead_due {d : Dev} {now e : Nat} (hroot : d.isRoot = true) (hbegun : d.tick.begun = true)
    (he : d.tick.nextEdge = some e) (ha : d.tick.announced ≠ some (d.tick.number + 1))
    (hlead : e ≤ now + 1000 * leadInForce (d.fld (At.tick 0x00C) 24 8) d.tick.periodUs) :
    let grant := min (Tab.look 0 d.tick.requests d.tick.number.toNat) d.limitUs
    (d.announceLead now).tick =
        { d.tick with nextEdge := some (e + 1000 * grant), granted := Tab.put 0 d.tick.granted d.tick.number.toNat grant,
                      stretched := decide (0 < grant), announced := some (d.tick.number + 1) } ∧
      ∀ p ∈ d.tickPorts none, ∃ m : TickMsg, sendsTick d (d.announceLead now) p 2 m ∧ m.value = BitVec.ofNat 32 grant ∧
        m.tick = d.tick.number + 1 := by
  intro grant
  unfold Dev.announceLead
  split
  next hnone => exact absurd (he.symm.trans hnone) (by simp)
  next e' hsome =>
    obtain rfl : e = e' := Option.some.inj (he.symm.trans hsome)
    extract_lets next lead n _ fixed m q send told
    have hsend : ∀ (d : Dev) (kind : W8) (m : TickMsg), d.OnlySent (send d kind m) := fun d kind m =>
      .foldl (fun d p => .transmit d p kind _) _ d
    have hrest : told.OnlySent (if told.tick.pending then
        send told 4 { m with value := BitVec.ofNat 32 told.tick.armedUs, tick := told.tick.nextAt, time := 0 } else told) := by
      split
      · exact hsend ..
      · exact .refl told
    rw [if_neg (by simp only [hroot, hbegun, next, ha]; simpa using hlead)]
    refine ⟨((hsend fixed 2 m).trans hrest).tick, fun p hp => ?_⟩
    obtain ⟨x, hx⟩ := sendsTick_foldl 2 (announceOn q (e + 1000 * grant) 2 m) (show p ∈ fixed.tickPorts none from hp) fixed
    have hsent : sendsTick fixed _ p 2 _ := sendsTick_mono (.refl fixed) hrest hx
    exact ⟨_, hsent, announceOn_value .., announceOn_tick ..⟩

/-! ## Period changes (R42) -/

theorem Dev.takeLow_csr (d : Dev) (r : Requester) (l : CsrLoc) : (d.takeLow r l).2.csr = d.csr := by
  simp only [Dev.takeLow]; split <;> rfl

theorem Dev.takeLow_tick (d : Dev) (r : Requester) (l : CsrLoc) : (d.takeLow r l).2.tick = d.tick := by
  simp only [Dev.takeLow]; split <;> rfl

/-- A 64-bit register reads as what was written to its two halves. -/
theorem Dev.reg64_setReg64 (d : Dev) {l : CsrLoc} {x y : RegDesc} (v : W64) (hx : l.desc = some x)
    (hy : ({ l with off := l.off + 4 } : CsrLoc).desc = some y)
    (hne : l.home x.scope ≠ ({ l with off := l.off + 4 } : CsrLoc).home y.scope) : (d.setReg64 l v).reg64 l = v := by
  have hhi : (d.setReg64 l v).reg { l with off := l.off + 4 } = (v >>> 32).setWidth 32 := Dev.reg_setReg _ _ _ (by simp [hy])
  have hlo : (d.setReg64 l v).reg l = v.setWidth 32 := by
    rw [Dev.setReg64, Dev.reg_setReg_ne _ _ hy hx hne]
    exact Dev.reg_setReg _ _ _ (by simp [hx])
  rw [Dev.reg64, hhi, hlo]
  ext i hi
  rw [BitVec.getElem_append]
  split
  · simp [BitVec.getLsbD_eq_getElem hi]
  · simp [show 32 + (i - 32) = i by omega, BitVec.getLsbD_eq_getElem hi]

theorem Dev.nextAt_setReg64 (d : Dev) (v : W64) : (d.setReg64 (At.tick 0x018) v).reg64 (At.tick 0x018) = v :=
  Dev.reg64_setReg64 d v (x := _) (y := _) rfl rfl (by decide)

theorem Dev.takeLow_fld (d : Dev) (r : Requester) (l k : CsrLoc) (lo w : Nat) : (d.takeLow r l).2.fld k lo w = d.fld k lo w := by
  rw [Dev.fld, Dev.reg_congr (d.takeLow_csr r l)]; rfl

theorem Dev.takeLow_reg64 (d : Dev) (r : Requester) (l k : CsrLoc) : (d.takeLow r l).2.reg64 k = d.reg64 k := by
  rw [Dev.reg64, Dev.reg_congr (d.takeLow_csr r l), Dev.reg_congr (d.takeLow_csr r l)]; rfl

theorem Dev.takeLow_isRoot (d : Dev) (r : Requester) (l : CsrLoc) : (d.takeLow r l).2.isRoot = d.isRoot := by
  rw [Dev.isRoot, Dev.bit, Dev.reg_congr (d.takeLow_csr r l)]; rfl

/-- A write of NEXT_AT_HI on the root, from outside the tiles: a change within the limits is armed, any other changes nothing. -/
theorem Dev.armPeriod_root {d : Dev} {r : Requester} (hr : ∀ t, r ≠ .core t) (hroot : d.isRoot = true) (v : W32) :
    let low := d.takeLow r (At.tick 0x018)
    let us := d.fld (At.tick 0x008) 0 12
    let n := d.tick.number.toNat
    d.armPeriod r v = if us < 64 ∨ 4000 < us ∨ (v ++ low.1).toNat < n + 16 ∨ (d.tick.pending ∧ d.tick.nextAt.toNat < n + 16) then low.2
      else (low.2.setReg64 (At.tick 0x018) (v ++ low.1)).onTick fun t => { t with pending := true, armedUs := us, nextAt := v ++ low.1 } := by
  intro low us n
  unfold Dev.armPeriod
  split
  · exact absurd rfl (hr _)
  · rw [if_neg (by rw [Dev.takeLow_isRoot, hroot]; decide)]
    simp only [Dev.takeLow_fld, Dev.takeLow_tick]
    rfl

/-! ## The start of the ticks and the end of the reserve (R40, R56, R65) -/

/-- RUN becomes 1 and the other bits of the register stay. -/
theorem Dev.bit_setRun (d : Dev) {k : Nat} (hk : k < 32) :
    (d.setFld (At.tick 0) 0 1 1).bit (At.tick 0) k = (decide (k = 0) || d.bit (At.tick 0) k) := by
  rw [Dev.setFld, Dev.bit, Dev.reg_setReg _ _ _ rfl, show setField (d.reg (At.tick 0)) 0 1 1 = d.reg (At.tick 0) &&& ~~~1#32 ||| 1#32 from rfl]
  by_cases h0 : k = 0 <;> simp only [BitVec.getLsbD_or, BitVec.getLsbD_and, BitVec.getLsbD_not, BitVec.getLsbD_one] <;> simp [h0, hk, Dev.bit]

/-- RUN where it was clear: a follower waits for a MARKER, a root for the pulse or for nothing. -/
theorem Dev.runTicks_stopped {d : Dev} (h : d.bit (At.tick 0) 0 = false) (now : Nat) :
    let b := { d.tick with roots := [], upstream := none, coming := none, missed := false }
    (d.runTicks now).bit (At.tick 0) 0 = true ∧
      (d.runTicks now).tick = if d.isRoot = false then { b with takeNumber := true }
        else if d.bit (At.tick 0) 3 then { b with ppsWait := true }
        else { b with nextEdge := some now, aligned := true } := by
  intro b
  unfold Dev.runTicks
  extract_lets e x
  have hbit : ∀ f : Tick → Tick, (x.onTick f).bit (At.tick 0) 0 = true := fun f => d.bit_setRun (by decide)
  have hroot : x.isRoot = d.isRoot := d.bit_setRun (by decide)
  have hpps : x.bit (At.tick 0) 3 = d.bit (At.tick 0) 3 := d.bit_setRun (by decide)
  have hx : x.tick = b := by simp only [x, e, Dev.onTick_tick, Dev.setFld]; rfl
  rw [if_neg (by simp [h])]
  simp only [hroot, hpps]
  clear_value x
  cases hr : d.isRoot
  · exact ⟨hbit _, congrArg (fun t : Tick => { t with takeNumber := true }) hx⟩
  · cases hp : d.bit (At.tick 0) 3
    · exact ⟨hbit _, congrArg (fun t : Tick => { t with nextEdge := some now, aligned := true }) hx⟩
    · exact ⟨hbit _, congrArg (fun t : Tick => { t with ppsWait := true }) hx⟩

theorem Dev.endReserve_tick {v : Variant} {d : Dev} (h : d.tick.reserve = true) :
    (d.endReserve v).tick = { d.tick with reserve := false } := by
  unfold Dev.endReserve
  extract_lets n whole w e
  have hw : w.2.tick = d.tick := by simp only [w]; split <;> rfl
  rw [if_neg (by simp [h]), Dev.foldl_tick fun d n => Dev.tryStarts_tick v d n]
  exact congrArg (fun t : Tick => { t with reserve := false }) hw

end Sys2Proof.Machine

namespace Sys2Proof.Proofs

open Sys2Proof.Machine Sys2Proof.Claims

theorem rootStretchesAndArms : RootStretchesAndArms := by
  refine ⟨fun p m s hn ha => ⟨fun hroot => ?root, fun q h hroot hup hlt => ?follower⟩, fun now e s hroot hbegun he ha hlead => ?announce,
    fun r v s hr hroot => ?arm⟩
  case root => exact ⟨_, rfl, Dev.takeStretch_root hroot hn ha⟩
  case follower =>
    have heq := Dev.takeStretch_follower hroot hn ha hup hlt
    refine ⟨s.dev.takeStretch m, rfl, ?_, ?_⟩
    · rw [heq]
      exact sendsTick_transmit (s.dev.onTick _) q 3 _
    · rw [heq, (Dev.OnlySent.transmit ..).tick]
      exact Tab.look_put_self ..
  case announce =>
    have hlimit : s.dev.limitUs = s.dev.fld (At.tick 0x00C) 12 12 := if_pos hroot
    have hdue := Dev.announceLead_due hroot hbegun he ha hlead
    rw [hlimit] at hdue
    exact ⟨_, rfl, hdue⟩
  case arm =>
    intro at_ us n good
    have heq := Dev.armPeriod_root hr hroot v
    have hlow := s.dev.takeLow_tick r (At.tick 0x018)
    refine ⟨s.dev.armPeriod r v, rfl, fun hgood => ?_, fun hbad => ?_⟩
    · obtain ⟨h64, h4000, hahead, hpending⟩ := hgood
      rw [heq, if_neg (by
        rintro (h | h | h | ⟨hp, h⟩)
        · exact not_lt.2 h64 h
        · exact not_lt.2 h4000 h
        · exact not_lt.2 hahead h
        · exact not_lt.2 (hpending hp) h)]
      refine ⟨?_, Dev.nextAt_setReg64 ..⟩
      rw [Dev.onTick_tick, Dev.tick_of_steady (Dev.steady_of_still (Dev.setReg64_still ..)), hlow]
    · rw [heq, if_pos (by
        by_contra hno
        simp only [not_or, not_and, not_lt] at hno
        obtain ⟨h64, h4000, hahead, hpending⟩ := hno
        exact hbad ⟨h64, h4000, hahead, hpending⟩)]
      exact ⟨hlow, Dev.takeLow_reg64 ..⟩

theorem ticksStart : TicksStart := by
  refine ⟨fun now s => ⟨fun hrun => ?_, fun hstop => ⟨_, rfl, Dev.runTicks_stopped hstop now⟩⟩, fun now s => ?_, fun s => ⟨fun hno => ?_, fun hyes =>
    ⟨_, rfl, Dev.endReserve_tick hyes⟩⟩⟩
  · exact congrArg (fun d => Host.Outcome.next (s.withDev d)) (if_pos hrun)
  · exact congrArg Host.Outcome.next (apply_ite s.withDev (s.dev.tick.ppsWait = true) _ s.dev)
  · exact congrArg (fun d => Host.Outcome.next (s.withDev d)) (if_pos (by simp [hno]))

/-- Settles O36: the root's part of stretches, period changes and announcements, and the start of the ticks and the end of the reserve,
each by the equation of its command. -/
theorem theRootsTick : Obligations.TheRootsTick := ⟨rootStretchesAndArms, ticksStart⟩

end Sys2Proof.Proofs
end

section
/-!
SUPPORT. The entries of the work list (R48 to R52, R377, R378, R545).
-/

namespace Sys2Proof.Machine

open Sys2Proof Sys2Proof.Claims

/-! ## What the journal leaves of the sequencer (R376, R377) -/

/-- The sequencer's state without the journal's place in its ring and its counts. -/
def Seq.sansJournal (q : Seq) : Seq := { q with jrnOff := 0, jrnHead := 0, jrnEntries := 0, jrnLost := 0, jrnIndex := [] }

theorem Seq.of_sansJournal {q r : Seq} (h : q.sansJournal = r.sansJournal) :
    q.plans = r.plans ∧ q.windows = r.windows ∧ q.collected = r.collected ∧ q.nextSerial = r.nextSerial :=
  ⟨(congrArg Seq.plans h :), (congrArg Seq.windows h :), (congrArg Seq.collected h :), (congrArg Seq.nextSerial h :)⟩

theorem Dev.jrnLose_sansJournal (d : Dev) : d.jrnLose.seq.sansJournal = d.seq.sansJournal :=
  congrArg (fun q : Seq => { q with jrnLost := q.jrnLost + 1 }.sansJournal) (Dev.seq_of_still (d.count_still (At.seq 0x418) 0 32 1))

theorem Dev.jrnPut_sansJournal (v : Variant) (d : Dev) (bytes : List W8) : (d.jrnPut v bytes).seq.sansJournal = d.seq.sansJournal := by
  unfold Dev.jrnPut
  extract_lets off r
  have hr : r.d.seq.sansJournal = d.seq.sansJournal := congrArg Seq.sansJournal (Dev.seq_of_still (Dev.physStore_still ..))
  clear_value r
  split
  · exact r.d.jrnLose_sansJournal.trans hr
  · exact hr

theorem Dev.journal_sansJournal (v : Variant) (d : Dev) (type units : Nat) (step : W64) (rep : Bool) (payload : List W8) :
    (d.journal v type units step rep payload).seq.sansJournal = d.seq.sansJournal := by
  unfold Dev.journal Dev.journaled
  extract_lets room e y
  have he : e.seq.sansJournal = d.seq.sansJournal := by
    simp only [e]
    split
    · exact Dev.jrnPut_sansJournal ..
    · rfl
  have hy : y.seq.sansJournal = d.seq.sansJournal := (Dev.jrnPut_sansJournal ..).trans he
  clear_value y
  split
  · rfl
  · split
    · exact d.jrnLose_sansJournal
    · exact hy

theorem Dev.journalPlan_sansJournal (v : Variant) (d : Dev) (id first : W64) (ctx outcome : Nat) :
    (d.journalPlan v id first ctx outcome).seq.sansJournal = d.seq.sansJournal := Dev.journal_sansJournal ..

/-- The journal's entries of plans that are cancelled. -/
theorem Dev.journalCancelled_sansJournal (v : Variant) (ps : List Plan) (d : Dev) :
    (ps.foldl (fun d p => d.journalPlan v p.id p.first p.ctx 2) d).seq.sansJournal = d.seq.sansJournal := by
  induction ps generalizing d with
  | nil => rfl
  | cons p ps ih => exact (ih _).trans (Dev.journalPlan_sansJournal ..)

theorem Dev.refusePlan_sansJournal (v : Variant) (d : Dev) (p : Plan) (st : W8) (reason : Nat) :
    (d.refusePlan v p st reason).seq.sansJournal = d.seq.sansJournal :=
  (Dev.journalPlan_sansJournal ..).trans (congrArg Seq.sansJournal (Dev.seq_of_still (Dev.planEvent_still ..)))

/-- The sequencer with an accepted plan. -/
def Seq.withPlan (q : Seq) (p : Plan) (ws : List WinEntry) : Seq :=
  { q with plans := q.plans ++ [p], windows := q.windows ++ ws, nextSerial := q.nextSerial + 1,
           replay := q.replay.map (fun r => if r.ctx = p.ctx then { r with lastTick := BitVec.ofNat 64 (max r.lastTick.toNat p.endTick) } else r) }

theorem Dev.acceptPlan_sansJournal (v : Variant) (d : Dev) (p : Plan) (ws : List WinEntry) :
    (d.acceptPlan v p ws).seq.sansJournal = (d.seq.withPlan p ws).sansJournal := Dev.journalPlan_sansJournal ..

/-! ## Consuming an entry (R48) -/

/-- The first collected entry is consumed where its TYPE is the one meant. -/
theorem Dev.consumeFirst_eq {d : Dev} {e : WlEntry} {rest : List WlEntry} (h : d.seq.collected = e :: rest) {want : W8 → Bool}
    (hw : want e.type = true) (v : Variant) :
    d.consumeFirst v want = (d.onSeq fun q => { q with collected := rest }).consume v e := by
  unfold Dev.consumeFirst
  split
  next hnil => exact absurd (hnil.symm.trans h) (by simp)
  next e' r hcons =>
    obtain ⟨rfl, rfl⟩ := List.cons.inj (hcons.symm.trans h)
    exact if_pos hw

/-! ## PLAN (R49, R50) -/

/-- A header is in order where PLAN finds none of its fields wrong. -/
theorem headerInOrder_iff (h : List W8) (serial : Nat) :
    headerInOrder h ↔ ¬ (recNat h 0x14 2 ≠ 1 ∨ (planOfHeader serial h).count = 0 ∨ 1048576 < (planOfHeader serial h).count ∨
      15 < (planOfHeader serial h).ctx ∨ recNat h 0x17 1 ≠ 0 ∨ recNat h 0x48 56 ≠ 0) := by
  simp only [headerInOrder, planOfHeader, not_or, not_not, not_lt, ne_eq, Nat.one_le_iff_ne_zero]

section
variable (v : Variant) (d : Dev) (e : WlEntry)

/-- What reading a plan's header leaves alone. -/
theorem Dev.header_still : (d.physBytes v e.address.toNat 128).d.still = d.still := Dev.physBytes_still ..

/-- A plan that no rule refuses is accepted. -/
theorem Dev.submitPlan_accepts {es : List WinEntry} :
    let h := d.physBytes v e.address.toNat 128
    let p := planOfHeader d.seq.nextSerial h.data
    h.st = 0 → d.tick.number.toNat < p.first.toNat → headerInOrder h.data → planPasses v h.d p es →
      (d.submitPlan v e).seq.sansJournal = (d.seq.withPlan p es).sansJournal := by
  intro h p hst hfirst horder hpass
  obtain ⟨hchar, held, htable, hheld, hwindows, heval⟩ := hpass
  have hseq : h.d.seq = d.seq := Dev.seq_of_still (d.header_still v e)
  have htick : h.d.tick = d.tick := Dev.tick_of_steady (Dev.steady_of_still (d.header_still v e))
  rw [htick] at hwindows heval
  unfold Dev.submitPlan
  extract_lets ct x w p' t
  have hp : p' = p := congrArg (fun k => planOfHeader k h.data) (congrArg Seq.nextSerial hseq)
  clear_value p'
  subst hp
  rw [if_neg (not_not.2 hst), if_neg (by simp only [ct, Dev.nextTick]; omega), if_neg ((headerInOrder_iff _ _).1 horder), if_neg (ne_true_of_eq_false hchar)]
  have hws : ∀ k, (((h.d.planTable v p).2.tileHeld v held).2.planWindows v p k).2.seq = d.seq := fun k => by
    rw [Dev.seq_of_still (Dev.planWindows_still ..), Dev.seq_of_still (Dev.tileHeld_still ..), Dev.seq_of_still (Dev.planTable_still ..), hseq]
  split
  next hnone => exact absurd (htable.symm.trans hnone) (by simp)
  next held' hsome =>
    obtain rfl : held = held' := Option.some.inj (htable.symm.trans hsome)
    rw [if_neg (ne_true_of_eq_false hheld)]
    extract_lets ws
    split
    next hnone => exact absurd (hwindows.symm.trans hnone) (by simp)
    next es' hsome' =>
      obtain rfl : es = es' := Option.some.inj (hwindows.symm.trans hsome')
      have hkeeps : ¬ ws.2.evalRefuses p.ctx ((held.map (fun e => e.2 / 16)).eraseDups ++ es.map (·.slice)) = true :=
        ne_true_of_eq_false heval
      rw [if_neg hkeeps, Dev.acceptPlan_sansJournal]
      exact congrArg (fun q : Seq => (q.withPlan p es).sansJournal) (hws ct)

/-- Any other plan is refused. -/
theorem Dev.submitPlan_refuses :
    let h := d.physBytes v e.address.toNat 128
    let p := planOfHeader d.seq.nextSerial h.data
    (h.st ≠ 0 ∨ p.first.toNat ≤ d.tick.number.toNat ∨ ¬ headerInOrder h.data ∨ ∀ es, ¬ planPasses v h.d p es) →
      (d.submitPlan v e).seq.sansJournal = d.seq.sansJournal := by
  intro h p hbad
  have hseq : h.d.seq = d.seq := Dev.seq_of_still (d.header_still v e)
  have htick : h.d.tick = d.tick := Dev.tick_of_steady (Dev.steady_of_still (d.header_still v e))
  have refused : ∀ (x : Dev) (st : W8) (k : Nat), x.seq = d.seq → (x.refusePlan v p st k).seq.sansJournal = d.seq.sansJournal :=
    fun x st k hx => (Dev.refusePlan_sansJournal ..).trans (congrArg Seq.sansJournal hx)
  unfold Dev.submitPlan
  extract_lets ct x w p' t
  have hp : p' = p := congrArg (fun k => planOfHeader k h.data) (congrArg Seq.nextSerial hseq)
  clear_value p'
  subst hp
  have ht : t.2.seq = d.seq := (Dev.seq_of_still (Dev.planTable_still ..)).trans hseq
  split
  next hst => exact congrArg Seq.sansJournal ((Dev.seq_of_still (Dev.planEvent_still ..)).trans hseq)
  next hst =>
  split
  next => exact refused x sLate 0 hseq
  next hfirst =>
  split
  next => exact refused x sInternal 1 hseq
  next horder =>
  split
  next => exact refused x sInternal 5 hseq
  next hchar =>
  split
  next => exact refused t.2 sInternal 1 ht
  next held htable =>
  extract_lets c ws
  have hlooked : c.2.seq = t.2.seq := Dev.seq_of_still (Dev.tileHeld_still v t.2 held)
  have hc : c.2.seq = d.seq := hlooked.trans ht
  have hws : ws.2.seq = d.seq := (Dev.seq_of_still (Dev.planWindows_still v c.2 p ct)).trans hc
  split
  next => exact refused c.2 sInternal 2 hc
  next hheld =>
  split
  next => exact refused ws.2 sInternal 3 hws
  next es hwindows =>
  split
  next => exact refused ws.2 sInternal 4 hws
  next heval =>
    rcases hbad with h0 | hf | ho | hno
    · exact absurd h0 hst
    · exact absurd hf (by simp only [ct, Dev.nextTick] at hfirst; omega)
    · exact absurd ((headerInOrder_iff h.data d.seq.nextSerial).2 horder) ho
    · have hk : h.d.tick.number.toNat + 1 = ct := by rw [htick]; rfl
      have hpass : planPasses v h.d p es := by
        refine ⟨eq_false_of_ne_true hchar, held, htable, eq_false_of_ne_true hheld, ?_⟩
        rw [hk]
        exact ⟨hwindows, eq_false_of_ne_true heval⟩
      exact absurd hpass (hno es)

end

/-! ## CANCEL (R50, R52) -/

/-- The plans that a CANCEL of an ID removes from the edge of tick `ct` on. -/
def cancelled (id : W64) (ct : Nat) (p : Plan) : Bool := decide (p.id = id) && p.cancelAt.isNone && decide (ct < p.endTick)

theorem Dev.cancelPlan_none {v : Variant} {d : Dev} {e : WlEntry} (h : d.seq.plans.any (cancelled e.planId d.nextTick) = false) :
    d.cancelPlan v e = d.planEvent sInternal e.planId.toNat 0 7 := by
  have hempty : (d.seq.plans.filter (cancelled e.planId d.nextTick)).isEmpty = true := by
    simpa [List.any_eq_false] using h
  exact if_pos hempty

/-- The sequencer with the plans of some serial numbers cancelled from tick `ct` on, and their windows that have not opened gone. -/
def Seq.cancelNamed (q : Seq) (named : Nat → Bool) (ct : Nat) : Seq :=
  { q with plans := q.plans.map (fun p => if named p.serial then { p with cancelAt := some (BitVec.ofNat 64 ct) } else p),
           windows := q.windows.filter (fun x => x.opened || !named x.serial) }

theorem Dev.cancelPlan_some {v : Variant} {d : Dev} {e : WlEntry} (h : d.seq.plans.any (cancelled e.planId d.nextTick) = true) :
    (d.cancelPlan v e).seq.sansJournal =
      (d.seq.cancelNamed (fun k => d.seq.plans.any (fun p => cancelled e.planId d.nextTick p && p.serial == k)) d.nextTick).sansJournal := by
  have hsome : ¬ (d.seq.plans.filter (cancelled e.planId d.nextTick)).isEmpty = true := by
    simpa [List.any_eq_true] using h
  have hnamed : (fun k : Nat => (d.seq.plans.filter (cancelled e.planId d.nextTick)).any (fun p => p.serial == k)) =
      fun k => d.seq.plans.any (fun p => cancelled e.planId d.nextTick p && p.serial == k) := funext fun k => List.any_filter
  have heq : d.cancelPlan v e = (d.seq.plans.filter (cancelled e.planId d.nextTick)).foldl (fun d p => d.journalPlan v p.id p.first p.ctx 2)
      (d.onSeq fun q => q.cancelNamed (fun k => (d.seq.plans.filter (cancelled e.planId d.nextTick)).any (fun p => p.serial == k)) d.nextTick) :=
    if_neg hsome
  rw [heq, Dev.journalCancelled_sansJournal, hnamed]
  rfl

/-! ## BATCH, STEP, the ring's registers and the start of a replay (R51, R378, R381, R545) -/

theorem Dev.writeBits_seq (d : Dev) (l : CsrLoc) (w : W32) : (d.writeBits l w).seq = d.seq := by
  unfold Dev.writeBits
  split
  · rfl
  · rw [Dev.setReg_frame]

theorem Dev.takeLow_seq (d : Dev) (r : Requester) (l : CsrLoc) : (d.takeLow r l).2.seq = d.seq := by
  simp only [Dev.takeLow]; split <;> rfl

/-- A write of the ring's registers from outside the tiles restarts the ring at the next guard. -/
theorem Dev.reconfigure_seq {d : Dev} {r : Requester} (hr : ∀ t, r ≠ .core t) (entries : Bool) (w : W32) :
    (d.reconfigure r entries w).seq = { d.seq with reconf := true, consumed := 0 } ∧ (d.reconfigure r entries w).retain.changed = true := by
  unfold Dev.reconfigure
  split
  · exact absurd rfl (hr _)
  · extract_lets lo x
    have hx : x.seq = d.seq := by
      simp only [x]
      split
      · exact Dev.writeBits_seq ..
      · exact (Dev.writeBits_seq ..).trans ((Dev.writeBits_seq ..).trans (Dev.takeLow_seq ..))
    exact ⟨congrArg (fun q : Seq => { q with reconf := true, consumed := 0 }) hx, rfl⟩

end Sys2Proof.Machine

namespace Sys2Proof.Proofs

open Sys2Proof.Machine Sys2Proof.Claims

/-- A step that consumes the first collected entry of its TYPE. -/
theorem consumes_first {s : State} {e : WlEntry} {rest : List WlEntry} (h : s.dev.seq.collected = e :: rest) {want : W8 → Bool}
    (hw : want e.type = true) : (s.onDev fun d => d.consumeFirst s.fuse.variant want) =
      .next (s.withDev ((s.dev.onSeq fun q => { q with collected := rest }).consume s.fuse.variant e)) := by
  rw [State.onDev_next, Dev.consumeFirst_eq h hw]

theorem plansAreAccepted : PlansAreAccepted := by
  intro address id rest s d h p hfirst
  have hexec : exec .plan s = .next (s.withDev (d.submitPlan s.fuse.variant ⟨1, address, id⟩)) := consumes_first hfirst rfl
  refine ⟨fun es hst hn horder hpass => ⟨_, hexec, ?_⟩, fun hbad => ⟨_, hexec, ?_⟩⟩
  · exact Seq.of_sansJournal (Dev.submitPlan_accepts s.fuse.variant d ⟨1, address, id⟩ hst hn horder hpass)
  · exact Seq.of_sansJournal (Dev.submitPlan_refuses s.fuse.variant d ⟨1, address, id⟩ hbad)

theorem plansAreCancelled : PlansAreCancelled := by
  intro address id rest s hfirst ct hit named
  let d : Dev := s.dev.onSeq fun q => { q with collected := rest }
  have hexec : exec .cancel s = .next (s.withDev (d.cancelPlan s.fuse.variant ⟨2, address, id⟩)) := consumes_first hfirst rfl
  refine ⟨fun hnone => ?_, fun hsome => ⟨_, hexec, ?_⟩⟩
  · rw [hexec, Dev.cancelPlan_none (d := d) (e := ⟨2, address, id⟩) hnone]
    rfl
  · obtain ⟨hplans, hwindows, hrest, -⟩ :=
      Seq.of_sansJournal (Dev.cancelPlan_some (v := s.fuse.variant) (d := d) (e := ⟨2, address, id⟩) hsome)
    exact ⟨hrest, hplans, hwindows⟩

theorem sequencerEntries : SequencerEntries := by
  refine ⟨fun step tick rest s hfirst => ?step, fun address id rest s hfirst => ?batch, fun type address id rest s hfirst htype => ?reserved,
    fun r en w s hr => ⟨_, rfl, Dev.reconfigure_seq hr en w⟩, fun s => ?replay⟩
  case step =>
    intro d refused
    have hexec : exec .step s = .next (s.withDev (d.stepEntry ⟨4, step, tick⟩)) :=
      consumes_first hfirst rfl
    have started : ∀ x : Dev, d.stepEntry ⟨4, step, tick⟩ = x → exec .step s = .next (s.withDev x) := fun x h => h ▸ hexec
    have isRoot : s.dev.isRoot = true → ¬ (!d.isRoot) = true := fun h => by rw [show d.isRoot = true from h]; decide
    have toCome : s.dev.tick.number.toNat < tick.toNat → ¬ tick.toNat < d.nextTick := fun h =>
      not_lt.2 (show s.dev.tick.number.toNat + 1 ≤ tick.toNat from h)
    refine ⟨fun hroot hn hs ht => started _ ?_, fun hroot hn => started _ ?_, fun hroot hn hold => started _ ?_, fun hroot => started _ ?_⟩
    · rw [Dev.stepEntry, if_neg (isRoot hroot), if_neg (toCome hn), if_neg (not_or.2 ⟨BitVec.not_le.2 hs, BitVec.not_le.2 ht⟩)]
      rfl
    · rw [Dev.stepEntry, if_neg (isRoot hroot), if_pos (show tick.toNat < d.nextTick from Nat.lt_succ_of_le hn)]
    · rw [Dev.stepEntry, if_neg (isRoot hroot), if_neg (toCome hn), if_pos hold]
    · rw [Dev.stepEntry, if_pos (by rw [show d.isRoot = false from hroot]; rfl)]
  case batch =>
    intro r
    have hexec : exec .batch s = .next (s.withDev (if r.st ≠ 0 then r.d else
        r.d.journal s.fuse.variant jBatch 1 (BitVec.ofNat 64 (recNat r.data 0 8)) false (r.data.drop 16))) := consumes_first hfirst rfl
    rw [hexec, ite_not]
  case reserved =>
    have hne : type ≠ 1 ∧ type ≠ 2 ∧ type ≠ 3 ∧ type ≠ 4 := by
      rcases htype with rfl | h
      · decide
      · refine ⟨?_, ?_, ?_, ?_⟩ <;> (rintro rfl; exact absurd h (by decide))
    obtain ⟨h1, h2, h3, h4⟩ := hne
    have hwant : (!(type == 1 || type == 2 || type == 3 || type == 4)) = true := by
      rw [beq_false_of_ne h1, beq_false_of_ne h2, beq_false_of_ne h3, beq_false_of_ne h4]
      rfl
    have hexec : exec .reservedWorkListType s =
        .next (s.withDev ((s.dev.onSeq fun q => { q with collected := rest }).consume s.fuse.variant ⟨type, address, id⟩)) :=
      consumes_first hfirst hwant
    rw [hexec, Dev.consume, if_neg h1, if_neg h2, if_neg h3, if_neg h4]
    rfl
  case replay => exact congrArg Host.Outcome.next (apply_ite s.withDev (s.dev.seq.replay.isSome = true) s.dev _)

/-- Settles O37: an entry is consumed as its TYPE says, and what the journal writes of it moves the journal alone. -/
theorem workListEntries : Obligations.WorkListEntries := ⟨plansAreAccepted, plansAreCancelled, sequencerEntries⟩

end Sys2Proof.Proofs
end

section
/-!
SUPPORT. Fences, recoveries, device warm resets and the failover of the sequencer (R67, R68, R438 to R447).
-/

namespace Sys2Proof.Machine

open Sys2Proof Sys2Proof.Claims

/-! ## Fences (R440) -/

/-- A fence leaves its own slice fenced and every other as it was. -/
theorem Dev.fence_fenced (v : Variant) (d : Dev) (n k : Nat) :
    ((d.fence v n).hub k).fenced = (decide (k = n) || (d.hub k).fenced) := by
  rw [Dev.fenced_of_steady (Dev.fence_steady v d n)]
  by_cases hk : k = n
  · subst hk; simp
  · rw [Dev.hub_onHub_ne d _ hk]; simp [hk]

theorem Dev.fence_recoveries (v : Variant) (d : Dev) (n : Nat) : (d.fence v n).gander.recoveries = d.gander.recoveries :=
  (Dev.recoveries_of_steady (Dev.fence_steady v d n)).trans rfl

/-- Every partition of a list is fenced once its fences have begun. -/
theorem Dev.fences_fenced (v : Variant) {ns : List Nat} {k : Nat} (h : k ∈ ns) (d : Dev) :
    ((ns.foldl (fun d m => d.fence v m) d).hub k).fenced = true := by
  have stays : ∀ (ns : List Nat) (d : Dev), (d.hub k).fenced = true → ((ns.foldl (fun d m => d.fence v m) d).hub k).fenced = true := by
    intro ns
    induction ns with
    | nil => exact fun d h => h
    | cons n ns ih =>
      intro d h
      rw [List.foldl_cons]
      exact ih (d.fence v n) (by rw [Dev.fence_fenced, h, Bool.or_true])
  induction ns generalizing d with
  | nil => exact absurd h List.not_mem_nil
  | cons n ns ih =>
    rw [List.foldl_cons]
    rcases List.mem_cons.1 h with rfl | h
    · exact stays ns (d.fence v k) (by rw [Dev.fence_fenced, decide_eq_true rfl, Bool.true_or])
    · exact ih h (d.fence v n)

theorem Dev.fences_recoveries (v : Variant) (ns : List Nat) (d : Dev) :
    (ns.foldl (fun d m => d.fence v m) d).gander.recoveries = d.gander.recoveries :=
  foldl_keeps (fun d : Dev => d.gander.recoveries) _ (fun d m => Dev.fence_recoveries v d m) ns d

theorem mem_partsOf {m : BitVec 12} {n : Nat} (h : m.getLsbD n = true) : n ∈ partsOf m :=
  List.mem_filter.2 ⟨List.mem_range.2 (BitVec.lt_of_getLsbD h), h⟩

/-- The partitions that a variant has are those of its sectors. -/
theorem Variant.parts_getLsbD (v : Variant) {n : Nat} (h : n < v.sectors) : v.parts.getLsbD n = true := by
  cases v <;> simp only [Variant.sectors] at h <;> interval_cases n <;> rfl

/-! ## Recoveries (R440, R441) -/

theorem partBit_getLsbD (n k : Nat) (hk : k < 12) : (partBit n).getLsbD k = decide (n = k) := by
  rw [partBit, BitVec.getLsbD_ofNat, Nat.testBit_two_pow]
  simp [hk]

/-- The partitions of a list that no recovery covers, added to a mask. -/
theorem Dev.unrecoveredFold_getLsbD (d : Dev) (ns : List Nat) (x : BitVec 12) {k : Nat} (hk : k < 12) :
    (ns.foldl (fun x n => if (d.gander.recovery n).isSome then x else x ||| partBit n) x).getLsbD k =
      (x.getLsbD k || (decide (k ∈ ns) && (d.gander.recovery k).isNone)) := by
  induction ns generalizing x with
  | nil => simp
  | cons n ns ih =>
    rw [List.foldl_cons, ih]
    by_cases hn : k = n
    · subst hn
      cases hr : d.gander.recovery k <;> simp [partBit_getLsbD _ _ hk]
    · have hne : ¬ n = k := fun h => hn h.symm
      cases hr : d.gander.recovery n <;> simp [partBit_getLsbD _ _ hk, hn, hne]

/-- The partitions of a mask that no recovery covers. -/
theorem Dev.unrecovered_getLsbD (d : Dev) (m : BitVec 12) {n : Nat} (hn : n < 12) :
    (d.unrecovered m).getLsbD n = (m.getLsbD n && (d.gander.recovery n).isNone) := by
  rw [Dev.unrecovered, Dev.unrecoveredFold_getLsbD d _ _ hn]
  simp [partsOf, hn]

/-- An entry put into a table is the one found where no other is accepted. -/
theorem Tab.find?_ins_of_none {α : Type} {p : Nat × α → Bool} {k : Nat} {x : α} (hx : p (k, x) = true) {m : Tab α}
    (hm : ∀ e ∈ m, ¬ p e = true) : (Tab.ins k x m).find? p = some (k, x) := by
  induction m with
  | nil => simp [Tab.ins, hx]
  | cons e m ih =>
    have he := hm e List.mem_cons_self
    simp only [Tab.ins]
    split
    · simp [hx]
    · simp [he, ih fun f hf => hm f (List.mem_cons_of_mem _ hf)]

/-- A recovery begun for partitions that none covers is the one found for each of them. -/
theorem Dev.recovery_setRecovery {d : Dev} {k n : Nat} {r : Recovery} (hr : r.parts.getLsbD n = true) (hn : d.gander.recovery n = none) :
    (d.setRecovery k r).gander.recovery n = some (k, r) := by
  have hne : r ≠ {} := fun h => by simp [h] at hr
  have hput : (d.setRecovery k r).gander.recoveries = Tab.ins k r (Tab.drop k d.gander.recoveries) := if_neg hne
  rw [Gander.recovery, hput]
  exact Tab.find?_ins_of_none hr fun e he => List.find?_eq_none.1 hn e (List.mem_of_mem_filter he)

theorem Dev.noteSuspects_recoveries (d : Dev) (u : BitVec 16) : (d.noteSuspects u).gander.recoveries = d.gander.recoveries := by
  unfold Dev.noteSuspects; split <;> rfl

/-- Every partition of the mask that the device has and no recovery covers is fenced, and its recovery begins. -/
theorem Dev.recover_begins {v : Variant} {d : Dev} {m : BitVec 12} (cause : W8) (u : BitVec 16) (esc : Bool) {n : Nat} (hn : n < v.sectors)
    (hm : m.getLsbD n = true) (hfree : d.gander.recovery n = none) :
    ((d.recover v m cause u esc).hub n).fenced = true ∧ ∃ (k : Nat) (r : Recovery),
      (d.recover v m cause u esc).gander.recovery n = some (k, r) ∧ r.step = .fence ∧ r.cause = cause ∧ r.unit = u ∧ r.warm = false ∧
        ∀ j, r.parts.getLsbD j = true → m.getLsbD j = true := by
  have hps : (d.unrecovered (m &&& v.parts)).getLsbD n = true := by
    rw [Dev.unrecovered_getLsbD d _ (BitVec.lt_of_getLsbD hm)]
    simp [hm, Variant.parts_getLsbD v hn, hfree]
  have hmem : n ∈ partsOf (d.unrecovered (m &&& v.parts)) := mem_partsOf hps
  have hwithin : ∀ j, (d.unrecovered (m &&& v.parts)).getLsbD j = true → m.getLsbD j = true := by
    intro j hj
    rw [Dev.unrecovered_getLsbD d _ (BitVec.lt_of_getLsbD hj)] at hj
    simp only [BitVec.getLsbD_and, Bool.and_eq_true] at hj
    exact hj.1.1
  unfold Dev.recover
  extract_lets ps d1 r
  split
  next hnil => exact absurd (hnil ▸ hmem) List.not_mem_nil
  next k ks hcons =>
    extract_lets d2
    have hfree1 : d1.gander.recovery n = none := by rw [Gander.recovery, Dev.noteSuspects_recoveries]; exact hfree
    refine ⟨Dev.fences_fenced v hmem d2, k, r, ?_, rfl, rfl, rfl, rfl, hwithin⟩
    rw [Gander.recovery, Dev.fences_recoveries]
    exact Dev.recovery_setRecovery (d := d1) (r := r) hps hfree1

/-! ## Device warm resets (R446) -/

/-- A device warm reset fences every present slice, takes the device out of READY and holds FAULT_N low. -/
theorem Dev.warmReset_begins {d : Dev} (v : Variant) (cause : W8) (u : BitVec 16) (esc : Bool) (h : d.dev.inWarm = false) :
    let x := d.warmReset v cause u esc
    x.dev.inWarm = true ∧ x.dev.warm = cause ∧ x.dev.ready = false ∧ x.pins.faultN = false ∧
      ∀ n, n < v.sectors → (x.hub n).fenced = true := by
  unfold Dev.warmReset
  rw [if_neg (by simp [h])]
  exact ⟨rfl, rfl, rfl, rfl, fun n hn => Dev.fences_fenced v (mem_partsOf (v.parts_getLsbD hn)) _⟩

theorem Dev.warmReset_again {d : Dev} (v : Variant) (cause : W8) (u : BitVec 16) (esc : Bool) (h : d.dev.inWarm = true) :
    d.warmReset v cause u esc = d := if_pos h

/-! ## Tile resets (R439, R445) -/

theorem Dev.setLast_tile (d : Dev) (cause : W8) (part level slot dur : Nat) (t : TileRef) :
    (d.setLast cause part level slot dur).tile t = d.tile t := by rw [Dev.setLast, Dev.setReg_frame]; rfl

/-- A reset tile is idle, and its registers are clear. -/
theorem Dev.resetTile_tile (v : Variant) (d : Dev) (t : TileRef) : ((d.resetTile v t).tile t).run = .idle ∧ ((d.resetTile v t).tile t).regs = {} := by
  unfold Dev.resetTile
  extract_lets e
  clear_value e
  rw [Dev.tile_onTile]
  exact ⟨rfl, rfl⟩

/-- A tile reset is remembered, and leaves the core idle with its registers clear. -/
theorem Dev.localReset_tile (v : Variant) (d : Dev) (t : TileRef) (cause : W8) :
    let x := d.localReset v (.tile t) cause
    x.gander.lastReset = some (.tile t, cause) ∧ (x.tile t).run = .idle ∧ (x.tile t).regs = {} := by
  have hreset := Dev.resetTile_tile v d t
  simp only [Dev.localReset]
  generalize d.resetTile v t = e at hreset
  rw [← e.setLast_tile cause t.sector.val 1 0 0 t] at hreset
  exact ⟨rfl, hreset⟩

/-! ## The failover of the sequencer (R67, R68) -/

/-- The sequencer's state without the ring and the entries collected. -/
def Seq.sansRing (q : Seq) : Seq :=
  { q with wlBase := 0, wlLog2 := 0, consumed := 0, stopped := false, reconf := false, collected := [] }

theorem Dev.renewRing_sansRing (d : Dev) : d.renewRing.seq.sansRing = d.seq.sansRing := by unfold Dev.renewRing; split <;> rfl

/-- Collection moves the ring and the entries collected, and nothing else of the sequencer. -/
theorem Dev.collect_sansRing (v : Variant) (d : Dev) : (d.collect v).seq.sansRing = d.seq.sansRing := by
  unfold Dev.collect
  extract_lets e q c ahead r
  have hc : c.2.2.seq = e.seq := Dev.seq_of_still (Dev.physNat_still ..)
  have hr : r.2.seq = e.seq := (Dev.seq_of_still (Dev.readEntries_still ..)).trans hc
  have he : e.seq.sansRing = d.seq.sansRing := d.renewRing_sansRing
  clear_value r c e
  split
  · exact he
  · split
    · exact (congrArg Seq.sansRing hc).trans he
    · split
      · rw [Dev.seq_of_still (Dev.planEvent_still ..)]
        exact (congrArg Seq.sansRing hc).trans he
      · exact (congrArg Seq.sansRing hr).trans he

/-- A standby that is ready takes the checkpoint over as it stands. -/
theorem Dev.takeover_standby {d : Dev} {c : Checkpoint} (v : Variant) (hready : d.seq.standbyReady = true) (hc : d.seq.ckpt = some c) :
    (d.takeover v).tick = d.tick ∧ (d.takeover v).seq.sansRing =
      { d.seq.fromStandby c with active := !d.seq.active, standbyReady := false, failedCore := true, ckpt := none }.sansRing := by
  have hsome : (if d.seq.standbyReady then d.seq.ckpt else none) = some c := by rw [if_pos hready, hc]
  unfold Dev.takeover
  split
  next hnone => exact absurd (hsome.symm.trans hnone) (by simp)
  next c' hc' =>
    obtain rfl : c = c' := Option.some.inj (hsome.symm.trans hc')
    extract_lets e
    refine ⟨(Dev.tick_of_steady (Dev.collect_steady ..)).trans (Dev.raise_tick ..), ?_⟩
    rw [Dev.collect_sansRing, Dev.seq_of_still (Dev.raise_still ..)]
    rfl

/-- With no standby ready the device resets. -/
theorem Dev.takeover_alone {d : Dev} (v : Variant) (h : d.seq.standbyReady = false ∨ d.seq.ckpt = none) :
    d.takeover v = d.warmReset v 0x08 (unitNo 0x14 d.activeCore) true := by
  have hnone : (if d.seq.standbyReady then d.seq.ckpt else none) = none := by
    rcases h with h | h <;> simp [h]
  unfold Dev.takeover
  split
  next => rfl
  next c hc => exact absurd (hnone.symm.trans hc) (by simp)

theorem Dev.moveUnit_retain (v : Variant) (d : Dev) (u : BitVec 16) (st : BitVec 4) : (d.moveUnit v u st).retain = d.retain := by
  unfold Dev.moveUnit
  dsimp only
  split
  · split
    · rw [Dev.raise_frame]; rfl
    · rfl
  · rfl

/-- A unit engaged out of service is noted behind the repairs before it. -/
theorem Dev.engage_repairs (d : Dev) (u : BitVec 16) (kind a b : Nat) :
    (d.engage u kind a b).retain.repairs = d.retain.repairs ++ [(u, kind, a, b)] := by
  rw [Dev.engage, Dev.raise_frame]; rfl

theorem Dev.engage_seq (d : Dev) (u : BitVec 16) (kind a b : Nat) : (d.engage u kind a b).seq = d.seq := by
  rw [Dev.engage, Dev.raise_frame]; rfl

end Sys2Proof.Machine

namespace Sys2Proof.Proofs

open Sys2Proof.Machine Sys2Proof.Claims

theorem failedRecoveriesEscalate : FailedRecoveriesEscalate := by
  refine ⟨fun s => ⟨fun h => ?again, fun h => ⟨_, rfl, Dev.warmReset_begins _ _ _ _ h⟩⟩, fun s => ⟨fun h => ?ready, fun h => ?cold⟩,
    fun n s => ⟨fun h => ?none, fun k r hr hw => ⟨fun hs hnw => ?warm, fun hs => ?kept⟩⟩,
    fun t s => ⟨fun h => ?noTile, fun cause h => ?tile⟩, fun t e s => ⟨fun h => ?noEngine, fun cause h => ?engine⟩, fun s => rfl⟩
  case again => exact congrArg (fun d => Host.Outcome.next (s.withDev d)) (Dev.warmReset_again _ _ _ _ h)
  case ready => exact congrArg (fun d => Host.Outcome.next (s.withDev d)) (if_neg (by simp [h]))
  case cold =>
    exact ⟨{ s.dev.escalate with pins := { s.dev.pins with faultN := false } },
      congrArg (fun d => Host.Outcome.next (s.withDev d)) (if_pos h), rfl⟩
  case none =>
    show execResetLevelTimeout (.partition n) s = _
    simp only [execResetLevelTimeout, State.onDev_next, h]
    rfl
  case warm =>
    have heq : exec (.resetLevelTimeout (.partition n)) s =
        .next (s.withDev (s.dev.escalate.warmReset s.fuse.variant r.cause r.unit true)) := by
      show execResetLevelTimeout (.partition n) s = _
      simp only [execResetLevelTimeout, State.onDev_next, hr, hs, hnw]
      rfl
    exact ⟨_, heq, Dev.warmReset_begins _ _ _ _ hw⟩
  case kept =>
    show execResetLevelTimeout (.partition n) s = _
    simp only [execResetLevelTimeout, State.onDev_next, hr]
    rw [if_neg (by rcases hs with hs | hs <;> simp [hs])]
    rfl
  case noTile =>
    show execResetLevelTimeout (.tile t) s = _
    simp only [execResetLevelTimeout, State.onDev_next]
    split
    next t' c hlast =>
      rw [if_neg (by rintro rfl; exact h c hlast)]
      rfl
    next => rfl
  case tile =>
    have heq : exec (.resetLevelTimeout (.tile t)) s = .next (s.withDev ((s.dev.escalate.onGander fun g => { g with lastReset := none }).recover
        s.fuse.variant (partBit t.sector.val) cause (s.dev.tileUnit t) true)) := by
      show execResetLevelTimeout (.tile t) s = _
      simp only [execResetLevelTimeout, State.onDev_next, h, if_true]
    refine ⟨_, heq, fun n hn hm hfree => Dev.recover_begins _ _ _ hn hm ?_⟩
    exact hfree
  case noEngine =>
    show execResetLevelTimeout (.engine t e) s = _
    simp only [execResetLevelTimeout, State.onDev_next]
    split
    next t' e' c hlast =>
      rw [if_neg (by rintro ⟨rfl, rfl⟩; exact h c hlast)]
      rfl
    next => rfl
  case engine =>
    have heq : exec (.resetLevelTimeout (.engine t e)) s = .next (s.withDev ((s.dev.escalate.hangEvent (s.dev.tileUnit t) 1).localReset
        s.fuse.variant (.tile t) cause)) := by
      show execResetLevelTimeout (.engine t e) s = _
      simp only [execResetLevelTimeout, State.onDev_next, h, and_self, if_true]
    obtain ⟨hlast, hrun, hregs⟩ := (s.dev.escalate.hangEvent (s.dev.tileUnit t) 1).localReset_tile s.fuse.variant t cause
    exact ⟨_, heq, hlast, hrun, hregs⟩

theorem standbySequencerTakesOver : StandbySequencerTakesOver := by
  refine ⟨fun i s hi => ?_, fun pass s => ⟨fun h => ?_, fun h => ⟨?_, ?_⟩⟩⟩
  · have hexec : exec i s = .next (s.withDev (s.dev.takeover s.fuse.variant)) := by rcases hi with rfl | rfl <;> rfl
    refine ⟨fun c hready hc => ⟨_, hexec, ?_⟩, fun h => ⟨fun hw => ?_, fun hw => ⟨_, hexec, ?_⟩⟩⟩
    · obtain ⟨htick, hseq⟩ := Dev.takeover_standby s.fuse.variant hready hc
      exact ⟨htick, congrArg Seq.active hseq, congrArg Seq.standbyReady hseq, congrArg Seq.failedCore hseq, congrArg Seq.plans hseq,
        congrArg Seq.steps hseq, congrArg Seq.stepTop hseq, congrArg Seq.votes hseq, congrArg Seq.replay hseq,
        congrArg (fun q : Seq => (q.jrnOff, q.jrnHead, q.jrnStep, q.jrnIndex)) hseq⟩
    · rw [hexec, Dev.takeover_alone _ h, Dev.warmReset_again _ _ _ _ hw]; rfl
    · rw [Dev.takeover_alone _ h]
      exact Dev.warmReset_begins _ _ _ _ hw
  · exact congrArg (fun d => Host.Outcome.next (s.withDev d)) (if_pos (by simp [h]))
  · exact congrArg (fun d => Host.Outcome.next (s.withDev d)) (if_neg (by simp [h]))
  · refine ⟨(s.dev.moveUnit s.fuse.variant (unitNo 0x14 (1 - s.dev.activeCore)) stFaulted).engage _ 10 0 0,
      congrArg (fun d => Host.Outcome.next (s.withDev d)) (if_neg (by simp [h])), ?_, ?_⟩
    · exact (Dev.engage_seq ..).trans (Dev.seq_of_still (Dev.moveUnit_still ..))
    · rw [Dev.engage_repairs, Dev.moveUnit_retain]

/-- Settles O40: each failed level runs the next one, which fences what it takes over; the standby takes the checkpoint as it stands, and
collection moves the ring's counters only. -/
theorem failedUnitsEscalate : Obligations.FailedUnitsEscalate := ⟨failedRecoveriesEscalate, standbySequencerTakesOver⟩

end Sys2Proof.Proofs
end

section
/-!
SUPPORT. The state after reset (R40, R41, R56, R71, R91, R106, R111, R480, R541).
-/

namespace Sys2Proof.Proofs

open Sys2Proof.Machine

/-- After reset every tile is as a tile that nothing has touched. -/
theorem tile_reset (t : TileRef) : State.reset.dev.tile t = {} := rfl

theorem window_reset (n w : Nat) : State.reset.dev.window n w = {} := rfl

/-- Every token of a core that nothing has touched is CLEAR (R91). -/
theorem token_default_clear (k : BitVec 6) : (({} : CoreRegs).rt k).state = .clear := by
  have hk : ({} : CoreRegs).rt k = {} := Vector.getElem_replicate k.isLt
  rw [hk]

/-- Settles O60: every part of the reset state has the value it is declared with. -/
theorem resetIsAsStated : Obligations.ResetIsAsStated := by
  refine ⟨rfl, .inr (.inr (.inl rfl)), rfl, rfl, rfl, rfl, rfl, by decide, fun t => ?_, rfl, fun n w => ?_, rfl, rfl, rfl, rfl, rfl, rfl, rfl, rfl⟩
  · rw [tile_reset]
    exact ⟨rfl, rfl, rfl, rfl, rfl, token_default_clear⟩
  · rw [window_reset]

end Sys2Proof.Proofs
end

section
/-!
SUPPORT. Integers as exact values, and the I32 results of the vector engine (R151, R153, R154).
-/

namespace Sys2Proof.Machine

/-! ## Integers as exact values -/

theorem intAt_ofInt (z : Int) : intAt (decide (z < 0)) z.natAbs 0 0 = z := by
  simp only [intAt, sub_self, Int.toNat_zero, pow_zero, mul_one, decide_eq_true_eq]
  omega

@[simp] theorem FVal.isNan_ofInt (z : Int) : (FVal.ofInt z).isNan = false := rfl

@[simp] theorem FVal.ofInt_lt_ofInt (a b : Int) : (FVal.ofInt a).lt (.ofInt b) = decide (a < b) := by
  simp only [FVal.ofInt, FVal.lt, min_self, intAt_ofInt]

@[simp] theorem FVal.ofInt_eqv_ofInt (a b : Int) : (FVal.ofInt a).eqv (.ofInt b) = decide (a = b) := by
  rw [Bool.eq_iff_iff]
  simp only [FVal.eqv, FVal.isNan_ofInt, FVal.ofInt_lt_ofInt, Bool.and_eq_true, Bool.not_eq_true', Bool.not_false, true_and,
    decide_eq_false_iff_not, decide_eq_true_eq]
  omega

/-- The function FUNC of VCMP on integers; no integers are unordered (R153, R154). -/
def intCmp (func : Nat) (a b : Int) : Bool :=
  match func with
  | 0 => decide (a = b)
  | 1 => decide (a ≠ b)
  | 2 => decide (a < b)
  | 3 => decide (a ≤ b)
  | 4 => decide (b < a)
  | 5 => decide (b ≤ a)
  | _ => false

theorem vcmp_ofInt (func : Nat) (a b : Int) : vcmp func (.ofInt a) (.ofInt b) = intCmp func a b := by
  unfold vcmp intCmp
  split <;> simp only [FVal.isNan_ofInt, FVal.ofInt_lt_ofInt, FVal.ofInt_eqv_ofInt, Bool.or_self, Bool.false_or, Bool.not_false,
    Bool.true_and, ← decide_not, not_lt, ne_eq]

/-! ## I32 elements -/

/-- The arithmetic opcodes on I32 elements give the code of `arithI` and no cause. -/
theorem elemRes_i {op : Nat} (hcmp : op ≠ 0x09) (hsel : op ≠ 0x0A) (func : Nat) (x y z : W32) :
    elemRes op func (.i x) (.i y) (.i z) = (.i (arithI op x y z).toNat, none) := by
  unfold elemRes
  rw [if_neg hcmp, if_neg hsel]

theorem elemRes_vcmp_i (func : Nat) (x y : W32) (c : VElem) :
    elemRes 0x09 func (.i x) (.i y) c = (.i (if intCmp func x.toInt y.toInt then 1 else 0), none) := by
  rw [← vcmp_ofInt]
  rfl

/-- A signed comparison may as well be one with equality where equal operands give the same. -/
theorem ite_slt_eq_ite_le {x y p q : W32} (h : x = y → p = q) :
    (if x.slt y then p else q) = if x.toInt ≤ y.toInt then p else q := by
  simp only [BitVec.slt_iff_toInt_lt]
  rcases lt_trichotomy x.toInt y.toInt with hlt | heq | hgt
  · rw [if_pos hlt, if_pos hlt.le]
  · rw [h (BitVec.eq_of_toInt_eq heq), ite_self, ite_self]
  · rw [if_neg hgt.not_gt, if_neg hgt.not_ge]

theorem arithI_vmax (x y z : W32) : arithI 0x05 x y z = if x.toInt ≤ y.toInt then y else x := ite_slt_eq_ite_le Eq.symm

theorem arithI_vmin (x y z : W32) : arithI 0x06 x y z = if x.toInt ≤ y.toInt then x else y := ite_slt_eq_ite_le id

/-- VABS of an I32 element is its magnitude modulo 2^32, so |−2^31| is −2^31 again (R153). -/
theorem unaryRes_vabs_i (x : W32) : unaryRes 0x07 (.i x) = (.i (BitVec.ofInt 32 |x.toInt|).toNat, none) := by
  have habs : (if x.slt 0 then -x else x) = BitVec.ofInt 32 |x.toInt| := by
    simp only [BitVec.slt_iff_toInt_lt]
    split
    next hneg => rw [abs_of_neg hneg, BitVec.ofInt_neg, BitVec.ofInt_toInt]
    next hpos => rw [abs_of_nonneg (not_lt.mp hpos), BitVec.ofInt_toInt]
  rw [← habs]
  rfl

end Sys2Proof.Machine

namespace Sys2Proof.Proofs

open Sys2Proof.Machine

/-- Settles O22: an I32 result is the code that `arithI` gives, whose signed maximum and minimum may take either of equal operands, and VCMP
compares the two integers exactly. -/
theorem integerVectorResults : Obligations.IntegerVectorResults := by
  intro x y z func r v
  have harith : ∀ op, op ≠ 0x09 → op ≠ 0x0A → r op = v (arithI op x y z) := fun op hcmp hsel => elemRes_i hcmp hsel func x y z
  refine ⟨harith 0x01 (by decide) (by decide), harith 0x02 (by decide) (by decide), harith 0x03 (by decide) (by decide),
    harith 0x04 (by decide) (by decide), ?vmax, ?vmin, unaryRes_vabs_i x, rfl, elemRes_vcmp_i func x y (.i z)⟩
  case vmax => rw [harith 0x05 (by decide) (by decide), arithI_vmax]
  case vmin => rw [harith 0x06 (by decide) (by decide), arithI_vmin]

end Sys2Proof.Proofs
end

section
/-!
SUPPORT. A line that a slice holds in its cache (R255, R268 to R271): what a line put into a cache leaves there, and what a read and a
write of a cached line do.
-/

namespace Sys2Proof

/-- An entry dropped is not the one found at another key. -/
theorem Tab.find?_drop_ne {α : Type} {k j : Nat} (m : Tab α) (h : j ≠ k) :
    (Tab.drop k m).find? (fun e => e.1 == j) = m.find? (fun e => e.1 == j) := by
  rw [Tab.drop, List.find?_filter]
  congr 1
  funext e
  by_cases he : e.1 = j
  · subst he; simp [h]
  · simp [he]

/-- An entry put in is not the one found at another key. -/
theorem Tab.find?_ins_ne {α : Type} {k j : Nat} (v : α) (m : Tab α) (h : j ≠ k) :
    (Tab.ins k v m).find? (fun e => e.1 == j) = m.find? (fun e => e.1 == j) := by
  induction m with
  | nil => simp [Tab.ins, Ne.symm h]
  | cons e r ih =>
    obtain ⟨a, b⟩ := e
    simp only [Tab.ins]
    split
    · simp [Ne.symm h]
    · simp only [List.find?_cons, ih]

namespace Machine

open Sys2Proof.Claims

/-! ## Counters -/

@[simp] theorem Dev.count_hub (d : Dev) (l : CsrLoc) (lo w k n : Nat) : (d.count l lo w k).hub n = d.hub n := by rw [Dev.count_frame]; rfl
@[simp] theorem Dev.count_quire (d : Dev) (l : CsrLoc) (lo w k : Nat) : (d.count l lo w k).quire = d.quire := by rw [Dev.count_frame]
@[simp] theorem Dev.count_outbox (d : Dev) (l : CsrLoc) (lo w k : Nat) : (d.count l lo w k).outbox = d.outbox := Dev.setReg_outbox ..

/-! ## A line put into a cache -/

/-- A line put into a cache as its most recently used one, no other making room (R270). -/
def Hub.put (h : Hub) (line : Nat) (data : List W8) (dirty : Bool) : Hub :=
  { h with cache := Tab.ins line { data := data, dirty := dirty, stamp := h.clock } (Tab.drop line h.cache), clock := h.clock + 1 }

section
variable (h : Hub) (line : Nat) (data : List W8) (dirty : Bool)

@[simp] theorem Hub.put_cached : (h.put line data dirty).cached line = some { data := data, dirty := dirty, stamp := h.clock } :=
  congrArg (Option.map Prod.snd) (Tab.find?_ins_drop line _ h.cache)

theorem Hub.put_cached_ne {l : Nat} (hl : l ≠ line) : (h.put line data dirty).cached l = h.cached l :=
  congrArg (Option.map Prod.snd) ((Tab.find?_ins_ne _ _ hl).trans (Tab.find?_drop_ne _ hl))

end

/-- A line that takes the place of its own needs no room. -/
theorem Dev.cachePut_of_cached {d : Dev} {n line : Nat} {c : CacheLine} (h : (d.hub n).cached line = some c) (data : List W8)
    (dirty : Bool) : d.cachePut n line data dirty = d.onHub n (·.put line data dirty) := by
  unfold Dev.cachePut
  rw [h]
  rfl

/-! ## A line that its slice answers from -/

/-- A line that its slice holds and answers from: the slice is not fenced, the line's channel works and is filled, and no fill of the line
is in progress. -/
structure Hub.Serves (h : Hub) (line : Nat) (c : CacheLine) : Prop where
  open_ : h.fenced = false
  works : h.lost line = false
  filled : h.unfilledAt line = false
  cached : h.cached line = some c
  noFill : ∀ f ∈ h.fills, f.line ≠ line

theorem Hub.Serves.put {h : Hub} {line : Nat} {c : CacheLine} (hs : h.Serves line c) (data : List W8) (dirty : Bool) :
    (h.put line data dirty).Serves line { data := data, dirty := dirty, stamp := h.clock } :=
  ⟨hs.open_, hs.works, hs.filled, h.put_cached .., hs.noFill⟩

/-- What a read of a cached line gives: its bytes, or what its code makes of them (R271). -/
def CacheLine.gives (c : CacheLine) (data : List W8) : Prop :=
  (c.upset = [] ∧ data = c.data) ∨
    (c.upset ≠ [] ∧ judge (flipData c.upset c.data) (flipCheck c.upset (rsCheck c.data)) = .corrected data)

/-- A device after work that changed no slice but in one cached line of one slice, which it left in its cache, and that sent nothing. -/
def Dev.Leaves (d u : Dev) (n line : Nat) (data : List W8) (dirty : Bool) : Prop :=
  cacheAfter d u n line data dirty ∧ u.outbox = d.outbox

section
variable {d : Dev} {n line : Nat} {c : CacheLine}

theorem Dev.leaves_put (d : Dev) (n line : Nat) (data : List W8) (dirty : Bool) :
    Dev.Leaves d (d.onHub n (·.put line data dirty)) n line data dirty := by
  refine ⟨⟨?_, fun l hl => ?_, rfl⟩, rfl⟩
  · rw [Dev.hub_onHub, Hub.put_cached]; rfl
  · rw [Dev.hub_onHub, Hub.put_cached_ne _ _ _ _ hl]

theorem Dev.Leaves.trans {a u : Dev} {x y : List W8} {b b' : Bool} (h : Dev.Leaves d a n line x b) (h' : Dev.Leaves a u n line y b') :
    Dev.Leaves d u n line y b' := by
  obtain ⟨⟨-, hothers, hquire⟩, hout⟩ := h
  obtain ⟨⟨hline, hothers', hquire'⟩, hout'⟩ := h'
  exact ⟨⟨hline, fun l hl => (hothers' l hl).trans (hothers l hl), hquire'.trans hquire⟩, hout'.trans hout⟩

theorem Dev.Leaves.of_same {u u' : Dev} {x : List W8} {b : Bool} (h : Dev.Leaves d u n line x b) (hhub : u'.hub n = u.hub n)
    (hquire : u'.quire = u.quire) (hout : u'.outbox = u.outbox) : Dev.Leaves d u' n line x b := by
  obtain ⟨⟨hline, hothers, hq⟩, ho⟩ := h
  exact ⟨⟨by rwa [hhub], fun l hl => by rw [hhub]; exact hothers l hl, hquire.trans hq⟩, hout.trans ho⟩

/-- A read of a cached line gives it and leaves it as the most recently used (R270, R271). -/
theorem Dev.lineRead_of_cached (hw : (d.hub n).lost line = false) (hc : (d.hub n).cached line = some c) {data : List W8}
    (hg : c.gives data) :
    ∃ u, d.lineRead n line = ⟨0, data, u⟩ ∧ Dev.Leaves d u n line data c.dirty ∧ u.hub n = (d.hub n).put line data c.dirty := by
  have hread : d.lineRead n line = d.cachedRead n line c := by simp [Dev.lineRead, hw, hc]
  rw [hread, Dev.cachedRead]
  rcases hg with ⟨hu, rfl⟩ | ⟨hu, hj⟩
  · refine ⟨d.onHub n (·.put line c.data c.dirty), ?_, Dev.leaves_put .., Dev.hub_onHub ..⟩
    rw [hu, Dev.cachePut_of_cached hc]
    rfl
  · have hjudged : c.judged = some data := by simp [CacheLine.judged, hu, hj]
    refine ⟨(d.onHub n (·.put line data c.dirty)).count (At.hub n 0x004) 0 32 1, ?_, ?_, ?_⟩
    · rw [if_neg (by simpa using hu), hjudged, ← Dev.cachePut_of_cached hc]
    · exact (Dev.leaves_put ..).of_same (Dev.count_hub ..) (Dev.count_quire ..) (Dev.count_outbox ..)
    · rw [Dev.count_hub, Dev.hub_onHub]

/-- Bytes written within a line of 64 stand in their place. -/
theorem mergeBytes_eq {x bytes : List W8} {off : Nat} (hx : x.length = 64) (h : off + bytes.length ≤ 64) :
    mergeBytes x off bytes = x.take off ++ bytes ++ x.drop (off + bytes.length) :=
  List.take_of_length_le (by simp; omega)

/-- No write of a line that its channel's fill has passed fills its group. -/
theorem Dev.fillGroup_filled (h : (d.hub n).unfilledAt line = false) : d.fillGroup n (channelOf line) (groupOf line) = d := by
  unfold Dev.fillGroup
  exact if_neg (by rw [show (d.hub n).unfilled.any _ = false from h]; decide)

/-- A write within a cached line leaves it dirty with its bytes in place (R255, R270). -/
theorem Dev.lineWrite_of_serves (hs : (d.hub n).Serves line c) (hu : c.upset = []) (hlen : c.data.length = 64) {off : Nat}
    {bytes : List W8} (hfit : off + bytes.length ≤ 64) :
    ∃ u, d.lineWrite n line off bytes = ⟨0, [], u⟩ ∧
      Dev.Leaves d u n line (c.data.take off ++ bytes ++ c.data.drop (off + bytes.length)) true := by
  unfold Dev.lineWrite
  dsimp only
  rw [if_neg (by rw [hs.works]; decide), Dev.fillGroup_filled hs.filled]
  split
  next hwhole =>
    obtain ⟨rfl, hb⟩ := hwhole
    refine ⟨_, rfl, ?_⟩
    rw [Dev.cachePut_of_cached hs.cached, hb, List.take_zero, List.nil_append, Nat.zero_add, List.drop_of_length_le hlen.le,
      List.append_nil]
    exact Dev.leaves_put ..
  next =>
    obtain ⟨a, ha, hleaves, hhub⟩ := Dev.lineRead_of_cached hs.works hs.cached (.inl ⟨hu, rfl⟩)
    rw [ha]
    refine ⟨_, rfl, ?_⟩
    rw [Dev.cachePut_of_cached (hhub ▸ Hub.put_cached ..), ← mergeBytes_eq hlen hfit]
    exact hleaves.trans (Dev.leaves_put ..)

end

/-! ## A line by its physical address -/

/-- The address of a byte of a stack's line lies in the Quire region, at the line's place (R267). -/
theorem regionOf_line {v : Variant} {n line off : Nat} (hn : n < v.sectors) (hl : line < v.stackGiB * 2 ^ 30 / 64) (hoff : off < 64) :
    regionOf (n * 0xC00000000 + line * 64 + off) = .quire n (line * 64 + off) := by
  have hn12 : n < 12 := by cases v <;> simp only [Variant.sectors] at hn <;> omega
  have hline : line < 0x30000000 := by cases v <;> simp only [Variant.stackGiB] at hl <;> omega
  rw [regionOf, if_pos (by omega), quireStride, show (n * 0xC00000000 + line * 64 + off) / 0xC00000000 = n by omega,
    show (n * 0xC00000000 + line * 64 + off) % 0xC00000000 = line * 64 + off by omega]

/-- An access to a line that no fill brings waits for none. -/
theorem Dev.settleFill_none {d : Dev} {n line : Nat} (h : ∀ f ∈ (d.hub n).fills, f.line ≠ line) : d.settleFill n line = d := by
  unfold Dev.settleFill
  rw [List.find?_eq_none.2 fun f hf => by simpa using h f hf]

/-- The bytes of an aligned atomic lie within its line. -/
theorem aligned_fits {off : Nat} {w : Bool} (hoff : off < 64) (hal : off % (if w then 4 else 8) = 0) : off + (if w then 4 else 8) ≤ 64 := by
  cases w
  · have : off % 8 = 0 := hal
    show off + 8 ≤ 64
    omega
  · have : off % 4 = 0 := hal
    show off + 4 ≤ 64
    omega

section
variable {v : Variant} {d : Dev} {n line off a : Nat} {c : CacheLine}
variable (ha : a = n * 0xC00000000 + line * 64 + off) (hoff : off < 64) (hn : n < v.sectors) (hl : line < v.stackGiB * 2 ^ 30 / 64)
include ha hoff hn hl

theorem Dev.localRead_line (hs : (d.hub n).Serves line c) : d.localRead v a = d.lineRead n line := by
  rw [Dev.localRead, ha, regionOf_line hn hl hoff]
  dsimp only
  rw [if_pos ⟨hn, by omega⟩, if_neg (by rw [hs.open_]; decide), show (line * 64 + off) / 64 = line by omega, Dev.quireRead,
    Dev.settleFill_none hs.noFill]

theorem Dev.localWrite_line (hs : (d.hub n).Serves line c) (bytes : List W8) : d.localWrite v a bytes = d.lineWrite n line off bytes := by
  rw [Dev.localWrite, ha, regionOf_line hn hl hoff]
  dsimp only
  rw [if_pos ⟨hn, by omega⟩, if_neg (by rw [hs.open_]; decide), show (line * 64 + off) / 64 = line by omega,
    show (line * 64 + off) % 64 = off by omega, Dev.quireWrite, Dev.settleFill_none hs.noFill]

/-- An aligned atomic on a cached line answers the old value and leaves the line dirty with the new one in its place (R273). -/
theorem Dev.localAtomic_of_serves (hs : (d.hub n).Serves line c) (hu : c.upset = []) (hlen : c.data.length = 64) (op : AmoOp) (w : Bool)
    (x e : W64) (hal : off % (if w then 4 else 8) = 0) :
    let k := if w then 4 else 8
    let old := BitVec.ofNat 64 (leNat ((c.data.drop off).take k))
    ∃ u, d.localAtomic v a op w x e = (0, old, u) ∧
      Dev.Leaves d u n line (c.data.take off ++ toLE k (amoNew op w old x e) ++ c.data.drop (off + k)) true := by
  intro k old
  have hmod : a % 64 = off := by omega
  have hak : a % k = 0 := by
    have hdvd : k ∣ 64 := by cases w <;> decide
    rw [← Nat.mod_mod_of_dvd a hdvd, hmod]
    exact hal
  obtain ⟨b, hread, hleaves, hhub⟩ := Dev.lineRead_of_cached hs.works hs.cached (.inl ⟨hu, rfl⟩)
  have hs' : (b.hub n).Serves line _ := hhub ▸ hs.put c.data c.dirty
  obtain ⟨u, hwrite, hleaves'⟩ := Dev.lineWrite_of_serves hs' rfl hlen (off := off) (bytes := toLE k (amoNew op w old x e))
    (by rw [toLE_length]; exact aligned_fits hoff hal)
  refine ⟨u, ?_, ?_⟩
  · rw [Dev.localAtomic, if_neg (not_not.2 hak), Dev.localRead_line ha hoff hn hl hs, hread]
    dsimp only
    rw [if_neg (by decide), hmod, Dev.localWrite_line ha hoff hn hl hs', hwrite]
  · rw [toLE_length] at hleaves'
    exact hleaves.trans hleaves'

end

/-! ## A request on its way to a cached line (R270, R271, R281) -/

/-- A device that differs from another in the balances of its regulators and in who used which slices alone, as far as caches, stacks and
messages go. -/
structure Dev.SameCaches (d u : Dev) : Prop where
  hub : ∀ m, ∃ b, u.hub m = { d.hub m with balance := b }
  quire : u.quire = d.quire
  outbox : u.outbox = d.outbox

namespace Dev.SameCaches

theorem refl (d : Dev) : Dev.SameCaches d d := ⟨fun m => ⟨(d.hub m).balance, rfl⟩, rfl, rfl⟩

theorem trans {a b c : Dev} (h : Dev.SameCaches a b) (h' : Dev.SameCaches b c) : Dev.SameCaches a c := by
  refine ⟨fun m => ?_, h'.quire.trans h.quire, h'.outbox.trans h.outbox⟩
  obtain ⟨x, hx⟩ := h.hub m
  obtain ⟨y, hy⟩ := h'.hub m
  exact ⟨y, by rw [hy, hx]⟩

theorem charge (d : Dev) (n k bytes : Nat) : Dev.SameCaches d (d.charge n k bytes) := by
  unfold Dev.charge
  split
  · exact refl d
  · refine ⟨fun m => ?_, rfl, rfl⟩
    by_cases hm : m = n
    · subst hm; exact ⟨_, Dev.hub_onHub ..⟩
    · exact ⟨_, Dev.hub_onHub_ne d _ hm⟩

theorem chargeFor (d : Dev) (src : Option Nat) (at_ wr : Bool) (cls a bytes : Nat) :
    Dev.SameCaches d (d.chargeFor src at_ wr cls a bytes) := by
  unfold Dev.chargeFor
  split
  · exact refl d
  · split
    · exact refl d
    · exact charge ..

theorem touch (d : Dev) (ctx a : Nat) : Dev.SameCaches d (d.touch ctx a) := by
  unfold Dev.touch
  dsimp only
  split <;> exact ⟨fun m => ⟨(d.hub m).balance, rfl⟩, rfl, rfl⟩

theorem serves {d u : Dev} (h : Dev.SameCaches d u) {n line : Nat} {c : CacheLine} (hs : (d.hub n).Serves line c) :
    (u.hub n).Serves line c := by
  obtain ⟨b, hb⟩ := h.hub n
  rw [hb]
  exact ⟨hs.open_, hs.works, hs.filled, hs.cached, hs.noFill⟩

/-- Work on a line after such a change is work on it before. -/
theorem leaves {d a u : Dev} (h : Dev.SameCaches d a) {n line : Nat} {x : List W8} {b : Bool} (h' : Dev.Leaves a u n line x b) :
    Dev.Leaves d u n line x b := by
  obtain ⟨⟨hline, hothers, hquire⟩, hout⟩ := h'
  obtain ⟨y, hy⟩ := h.hub n
  exact ⟨⟨hline, fun l hl => (hothers l hl).trans (congrArg (·.cached l) hy), hquire.trans h.quire⟩, hout.trans h.outbox⟩

end Dev.SameCaches

section
variable {v : Variant} {d : Dev} {n line off : Nat} {c : CacheLine} {j : SliceJob}
variable (ha : j.req.addr = n * 0xC00000000 + line * 64 + off) (hoff : off < 64) (hn : n < v.sectors)
  (hl : line < v.stackGiB * 2 ^ 30 / 64)
include ha hoff hn hl

/-- A request that its port lets through is charged and handed to its slice (R281). -/
theorem Dev.request_passes (hp : passesPort d j) : d.request v n j = d.charged v j := by
  rw [Dev.request, if_neg]
  · split
    next m k hm hk =>
      obtain ⟨hopen, hwait⟩ := hp m k hm hk
      rw [if_pos]
      simpa [hopen] using hwait
    next => rfl
  · rw [homeSlice, ha, regionOf_line hn hl hoff]
    simpa using hn

/-- A request for bytes of a cached line that its port lets through is served at once (R270, R281). -/
theorem Dev.request_of_serves (hp : passesPort d j) (h0 : 0 < j.bytes) (hfit : off + j.bytes ≤ 64) (hs : (d.hub n).Serves line c) :
    ∃ u, Dev.SameCaches d u ∧ d.request v n j = if (u.upsetLine v j).1 then (u.upsetLine v j).2.reply j sEcc []
      else (u.upsetLine v j).2.perform1 v j := by
  have hcharge := Dev.SameCaches.chargeFor d (portOf j.req.from_) j.op.isAtomic j.op.isWrite 2 j.req.addr
    (if j.op.isAtomic then 64 else j.bytes)
  have hregion : regionOf j.req.addr = .quire n (line * 64 + off) := ha ▸ regionOf_line hn hl hoff
  refine ⟨_, hcharge.trans (Dev.SameCaches.touch _ j.req.ctx.val j.req.addr), ?_⟩
  rw [Dev.request_passes ha hoff hn hl hp, Dev.charged, Dev.accept, if_neg (by omega), Dev.misses, hregion]
  dsimp only
  rw [if_pos]
  · rw [Dev.serve]
  · rw [show (line * 64 + off) / 64 = line by omega, (hcharge.serves hs).cached]
    simp

end

/-- A request whose line the arrays hold as it was written meets it so. -/
theorem Dev.upsetLine_none (v : Variant) (d : Dev) {j : SliceJob} (h : j.req.upset = []) : d.upsetLine v j = (false, d) := by
  simp [Dev.upsetLine, h]

/-! ## Errors that the arrays hold of a cached line (R271) -/

/-- Errors that a cached line has come to hold. -/
def Hub.upset (h : Hub) (line : Nat) (u : List (Fin 72 × W8)) : Hub :=
  { h with cache := h.cache.map (fun e => if e.1 = line then (e.1, { e.2 with upset := e.2.upset ++ u }) else e) }

theorem Hub.upset_cached (h : Hub) (line : Nat) (u : List (Fin 72 × W8)) (l : Nat) :
    (h.upset line u).cached l = (h.cached l).map fun c => if l = line then { c with upset := c.upset ++ u } else c := by
  have hkey : ((fun e : Nat × CacheLine => e.1 == l) ∘ fun e => if e.1 = line then (e.1, { e.2 with upset := e.2.upset ++ u }) else e) =
      fun e => e.1 == l := by
    funext e
    simp only [Function.comp]
    split <;> rfl
  simp only [Hub.cached, Hub.upset, List.find?_map, hkey, Option.map_map]
  cases hf : h.cache.find? (fun e => e.1 == l) with
  | none => rfl
  | some e =>
    have he : e.1 = l := by simpa using List.find?_some hf
    simp only [Option.map_some, Function.comp, he]
    split <;> rfl

theorem Dev.upsetLine_line {v : Variant} {d : Dev} {j : SliceJob} {n o : Nat} (hr : regionOf j.req.addr = .quire n o) (hu : j.req.upset ≠ [])
    (hw : j.wholeLine = false) : d.upsetLine v j = (false, d.onHub n (·.upset (o / 64) j.req.upset)) := by
  unfold Dev.upsetLine
  dsimp only
  rw [if_neg (by simp [hu, hw]), hr]
  rfl

/-- Errors of a cached line stay with it until the code judges it, and touch no other line. -/
theorem Hub.Serves.upset {h : Hub} {line : Nat} {c : CacheLine} (hs : h.Serves line c) (u : List (Fin 72 × W8)) :
    (h.upset line u).Serves line { c with upset := c.upset ++ u } := by
  refine ⟨hs.open_, hs.works, hs.filled, ?_, hs.noFill⟩
  rw [Hub.upset_cached, hs.cached, Option.map_some, if_pos rfl]

theorem Dev.Leaves.of_upset {d u : Dev} {n line : Nat} {e : List (Fin 72 × W8)} {x : List W8} {b : Bool}
    (h : Dev.Leaves (d.onHub n (·.upset line e)) u n line x b) : Dev.Leaves d u n line x b := by
  obtain ⟨⟨hline, hothers, hquire⟩, hout⟩ := h
  refine ⟨⟨hline, fun l hl => (hothers l hl).trans ?_, hquire⟩, hout⟩
  rw [Dev.hub_onHub, Hub.upset_cached]
  simp [hl]

/-- A read meets the cached line with the errors that its arrays hold, and what the code makes of them is what it gives. -/
theorem Dev.upsetLine_gives (v : Variant) {d : Dev} {q : SliceReq} {n o line : Nat} {c : CacheLine} {data : List W8}
    (hr : regionOf q.addr = .quire n o) (ho : o / 64 = line) (hs : (d.hub n).Serves line c) (hc : c.upset = [])
    (hdata : (q.upset = [] ∧ data = c.data) ∨
      (q.upset ≠ [] ∧ judge (flipData q.upset c.data) (flipCheck q.upset (rsCheck c.data)) = .corrected data)) :
    ∃ (b : Dev) (y : CacheLine), d.upsetLine v ⟨q, .read⟩ = (false, b) ∧ (b.hub n).Serves line y ∧ y.gives data ∧
      (∀ u x z, Dev.Leaves b u n line x z → Dev.Leaves d u n line x z) ∧ y.dirty = c.dirty := by
  rcases hdata with ⟨hu, rfl⟩ | ⟨hu, hj⟩
  · exact ⟨d, c, Dev.upsetLine_none _ d hu, hs, .inl ⟨hc, rfl⟩, fun _ _ _ h => h, rfl⟩
  · have hupset : d.upsetLine v ⟨q, .read⟩ = (false, d.onHub n (·.upset line q.upset)) := ho ▸ Dev.upsetLine_line hr hu rfl
    refine ⟨_, { c with upset := c.upset ++ q.upset }, hupset, ?_, ?_, fun _ _ _ h => h.of_upset, rfl⟩
    · rw [Dev.hub_onHub]; exact hs.upset q.upset
    · rw [hc]; exact .inr ⟨hu, hj⟩

/-! ## Atomics (R273) -/

/-- A signed comparison may as well be one with equality where equal operands give the same, at every width. -/
theorem ite_slt_eq_ite_toInt_le {n : Nat} {x y p q : BitVec n} (h : x = y → p = q) :
    (if x.slt y then p else q) = if x.toInt ≤ y.toInt then p else q := by
  rcases eq_or_ne x y with heq | hne
  · rw [h heq, ite_self, ite_self]
  · have hint : x.toInt ≠ y.toInt := fun hi => hne (BitVec.eq_of_toInt_eq hi)
    simp only [BitVec.slt_iff_toInt_lt, le_iff_lt_or_eq, hint, or_false]

theorem amoNew_word (op : AmoOp) (old : Nat) (x e : W64) :
    amoNew op true (BitVec.ofNat 64 old) x e = (amoResult op (BitVec.ofNat 32 old) (x.setWidth 32) (e.setWidth 32)
      (f32Add (BitVec.ofNat 32 old) (x.setWidth 32))).toNat := by
  rw [amoNew, if_pos rfl, BitVec.setWidth_ofNat_of_le (by decide)]

theorem leNat_take_lt (bs : List W8) (w : Bool) : leNat (bs.take (if w then 4 else 8)) < 2 ^ 64 := by
  have hlt := leNat_lt (bs.take (if w then 4 else 8))
  have hlen : (bs.take (if w then 4 else 8)).length ≤ 8 := by rw [List.length_take]; split <;> omega
  calc _ < 256 ^ (bs.take (if w then 4 else 8)).length := hlt
    _ ≤ 256 ^ 8 := Nat.pow_le_pow_right (by decide) hlen

/-! ## A request performed -/

theorem Dev.perform1_write_line {v : Variant} {d : Dev} {q : SliceReq} {n o : Nat} (hr : regionOf q.addr = .quire n o) (data : List W8) :
    d.perform1 v ⟨q, .write data⟩ = (d.localWrite v q.addr data).d.reply ⟨q, .write data⟩ (d.localWrite v q.addr data).st [] := by
  unfold Dev.perform1
  dsimp only
  rw [hr]

/-! ## The commands -/

section
variable (n : Fin 12) (q : SliceReq) (s : State)

theorem exec_sliceRead : exec (.sliceRead n q) s = .next (s.withDev (s.dev.request s.fuse.variant n.val ⟨q, .read⟩)) := rfl

theorem exec_sliceWrite (data : List W8) :
    exec (.sliceWrite n q data) s = .next (s.withDev (s.dev.request s.fuse.variant n.val ⟨q, .write data⟩)) := rfl

theorem exec_sliceAtomic (op : AmoOp) (w : Bool) (x e : W64) :
    exec (.sliceAtomic n q op w x e) s = .next (s.withDev (s.dev.request s.fuse.variant n.val ⟨q, .atomic op w x e⟩)) := rfl

end

end Machine

namespace Proofs

open Sys2Proof.Machine Sys2Proof.Claims

theorem atomicsCombine : AtomicsCombine := by
  intro n x v c f
  exact ⟨rfl, ite_slt_eq_ite_toInt_le id, ite_slt_eq_ite_toInt_le Eq.symm, rfl, rfl, rfl, rfl, rfl, rfl⟩

theorem sliceServesCachedLine : SliceServesCachedLine := by
  intro n q off line c s ha hoff ⟨hn, hl, hfence, hlost, hfilled, hcached, hclean, hfills⟩ hlen answers
  have hs : (s.dev.hub n.val).Serves line c := ⟨hfence, hlost, hfilled, hcached, hfills⟩
  have hmod : q.addr % 64 = off := by omega
  have hregion : regionOf q.addr = .quire n.val (line * 64 + off) := ha ▸ regionOf_line hn hl hoff
  have answered : ∀ {j : SliceJob} {a u : Dev} {reply data : List W8} {dirty : Bool} {o : Host.Outcome State Fault Refusal}, j.req = q →
      Dev.SameCaches s.dev a → Dev.Leaves a u n.val line data dirty → o = .next (s.withDev (u.reply j 0 reply)) → answers o reply data dirty := by
    rintro j a u reply data dirty o rfl hsame hleaves ho
    obtain ⟨hcache, hout⟩ := hsame.leaves hleaves
    exact ⟨_, ho, by rw [Dev.reply, Dev.send_outbox, hout], hcache⟩
  refine ⟨fun hp h0 hfit data hdata => ?read, fun data hu hp hne hfit => ?write, fun op w x e hu hp hadd => ?atomic⟩
  case read =>
    obtain ⟨a, hsame, hreq⟩ := Dev.request_of_serves (j := ⟨q, .read⟩) ha hoff hn hl hp h0 hfit hs
    obtain ⟨b, y, hupset, hsb, hgives, hb, hdirty⟩ := Dev.upsetLine_gives s.fuse.variant hregion (by omega) (hsame.serves hs) hclean hdata
    obtain ⟨u, hread, hleaves, -⟩ := Dev.lineRead_of_cached hsb.works hsb.cached hgives
    refine answered (j := ⟨q, .read⟩) rfl hsame (hb _ _ _ (hdirty ▸ hleaves)) ?_
    rw [exec_sliceRead, hreq, hupset, if_neg Bool.false_ne_true, Dev.perform1]
    dsimp only
    rw [Dev.localRead_line ha hoff hn hl hsb, hread, hmod]
  case write =>
    have h0 : 0 < data.length := List.length_pos_of_ne_nil hne
    obtain ⟨a, hsame, hreq⟩ := Dev.request_of_serves (j := ⟨q, .write data⟩) ha hoff hn hl hp h0 hfit hs
    obtain ⟨u, hwrite, hleaves⟩ := Dev.lineWrite_of_serves (hsame.serves hs) hclean hlen hfit
    refine answered (j := ⟨q, .write data⟩) rfl hsame hleaves ?_
    rw [exec_sliceWrite, hreq, Dev.upsetLine_none _ a hu, if_neg Bool.false_ne_true, Dev.perform1_write_line hregion,
      Dev.localWrite_line ha hoff hn hl (hsame.serves hs), hwrite]
  case atomic =>
    intro k old new hal
    have h0 : 0 < k := by simp only [k]; split <;> decide
    have hold : (BitVec.ofNat 64 old).toNat = old := Nat.mod_eq_of_lt (leNat_take_lt ..)
    have hnew : amoNew op w (BitVec.ofNat 64 old) x e = new := by
      cases w
      · rfl
      · exact amoNew_word ..
    obtain ⟨a, hsame, hreq⟩ := Dev.request_of_serves (j := ⟨q, .atomic op w x e⟩) ha hoff hn hl hp h0 (aligned_fits hoff hal) hs
    obtain ⟨u, hatomic, hleaves⟩ := Dev.localAtomic_of_serves ha hoff hn hl (hsame.serves hs) hclean hlen op w x e hal
    refine answered (j := ⟨q, .atomic op w x e⟩) rfl hsame (hnew ▸ hleaves) ?_
    rw [exec_sliceAtomic, hreq, Dev.upsetLine_none _ a hu, if_neg Bool.false_ne_true, Dev.perform1]
    dsimp only
    rw [if_neg (by rintro ⟨hop, hw⟩; simp [hadd hop] at hw), hatomic]
    dsimp only
    rw [if_pos rfl, hold]

/-- Settles O29: a request that its port lets through differs from direct work on the cached line by a charge and a note of its context
alone. -/
theorem sliceServesCachedLines : Obligations.SliceServesCachedLines := ⟨sliceServesCachedLine, atomicsCombine⟩

end Proofs
end Sys2Proof
end

section
/-!
SUPPORT. Fills (R253, R256, R270): what making room in a cache leaves alone, a burst that arrives as it was written, and the requests that
a fill answers.
-/

namespace Sys2Proof.Machine

open Sys2Proof Sys2Proof.Claims

/-! ## Room in a cache (R270) -/

/-- A device but for its stacks, and each slice but for its cache and the fill of its new channels. -/
def Dev.sansCaches (d : Dev) : Dev × (Nat → Hub) :=
  ({ d with hubs := [], quire := [], check := [] }, fun n => { d.hub n with cache := [], clock := 0, unfilled := [] })

@[simp] theorem Dev.onHub_sansCaches (d : Dev) (n : Nat) {f : Hub → Hub}
    (h : ∀ x, ({ f x with cache := [], clock := 0, unfilled := [] } : Hub) = { x with cache := [], clock := 0, unfilled := [] }) :
    (d.onHub n f).sansCaches = d.sansCaches := by
  refine Prod.ext rfl (funext fun k => ?_)
  by_cases hk : k = n
  · subst hk
    exact (congrArg (fun x : Hub => ({ x with cache := [], clock := 0, unfilled := [] } : Hub)) (Dev.hub_onHub d k f)).trans (h _)
  · exact congrArg (fun x : Hub => ({ x with cache := [], clock := 0, unfilled := [] } : Hub)) (Dev.hub_onHub_ne d f hk)

@[simp] theorem Dev.storeRaw_sansCaches (d : Dev) (n line : Nat) (data chk : List W8) :
    (d.storeRaw n line data chk).sansCaches = d.sansCaches := rfl

@[simp] theorem Dev.fillGroup_sansCaches (d : Dev) (n c g : Nat) : (d.fillGroup n c g).sansCaches = d.sansCaches := by
  unfold Dev.fillGroup
  dsimp only
  split
  · rw [Dev.onHub_sansCaches]
    · exact foldl_keeps Dev.sansCaches _ (fun x i => Dev.storeRaw_sansCaches ..) _ d
    · exact fun _ => rfl
  · rfl

@[simp] theorem Dev.writeBack_sansCaches (d : Dev) (n line : Nat) (c : CacheLine) : (d.writeBack n line c).sansCaches = d.sansCaches := by
  unfold Dev.writeBack
  split
  · rfl
  · split
    · exact Dev.storeRaw_sansCaches ..
    · exact (Dev.storeRaw_sansCaches ..).trans (Dev.fillGroup_sansCaches ..)

@[simp] theorem Dev.evictFor_sansCaches (d : Dev) (n line : Nat) : (d.evictFor n line).sansCaches = d.sansCaches := by
  unfold Dev.evictFor
  dsimp only
  split
  · rfl
  · split
    · rfl
    · rw [Dev.onHub_sansCaches]
      · exact Dev.writeBack_sansCaches ..
      · exact fun _ => rfl

@[simp] theorem Dev.cachePut_sansCaches (d : Dev) (n line : Nat) (data : List W8) (dirty : Bool) :
    (d.cachePut n line data dirty).sansCaches = d.sansCaches := by
  unfold Dev.cachePut
  dsimp only
  rw [Dev.onHub_sansCaches]
  · split
    · rfl
    · exact Dev.evictFor_sansCaches ..
  · exact fun _ => rfl

section
variable {d u : Dev} (h : u.sansCaches = d.sansCaches) (n : Nat)
include h

theorem Dev.fills_of_sansCaches : (u.hub n).fills = (d.hub n).fills := congrArg (fun x => (x.2 n).fills) h
theorem Dev.lost_of_sansCaches : (u.hub n).lost = (d.hub n).lost := congrArg (fun x => (x.2 n).lost) h

end

theorem Dev.outbox_of_sansCaches {d u : Dev} (h : u.sansCaches = d.sansCaches) : u.outbox = d.outbox :=
  congrArg (fun x => x.1.outbox) h

/-- A line put into a cache is there, whatever left to make room. -/
theorem Dev.cachePut_cached (d : Dev) (n line : Nat) (data : List W8) (dirty : Bool) :
    ∃ stamp, ((d.cachePut n line data dirty).hub n).cached line = some { data := data, dirty := dirty, stamp := stamp } := by
  unfold Dev.cachePut
  exact ⟨_, by rw [Dev.hub_onHub]; exact Hub.put_cached ..⟩

/-! ## A miss (R270) -/

/-- What changes a slice to the same changes the device to the same. -/
theorem Dev.onHub_congr {d : Dev} {n : Nat} {f g : Hub → Hub} (h : f (d.hub n) = g (d.hub n)) : d.onHub n f = d.onHub n g :=
  congrArg (fun x => ({ d with hubs := Tab.put {} d.hubs n x } : Dev)) h

/-! ## Bursts (R253, R257) -/

/-- A burst without noise brings what is stored. -/
theorem burstArrives_quiet (data chk : List W8) : burstArrives ⟨[]⟩ data chk = (0, data, chk) := rfl

/-- A read burst that brings a line as it was written counts no retry and stores nothing. -/
theorem Dev.readBurst_clean {d : Dev} {n line : Nat} (hw : (d.hub n).lost line = false) (hf : (d.hub n).unfilledAt line = false)
    (hc : d.storedCheck n line = rsCheck (d.storedData n line)) :
    d.readBurst n line ⟨[]⟩ = (0, ⟨0, d.storedData n line, d.count (At.hub n 0x018) 16 16 0⟩) := by
  have hjudge : judge (d.storedData n line) (d.storedCheck n line) = .clean (d.storedData n line) := if_pos hc.symm
  unfold Dev.readBurst
  rw [burstArrives_quiet]
  dsimp only
  rw [if_neg (by rw [hw]; decide), hf, hjudge]
  rfl

/-! ## A completed fill (R270) -/

/-- Reads that waited on a fill are answered in their order out of the line that it put into the cache. -/
theorem Dev.drain_reads {n line : Nat} {data : List W8} (js : List SliceJob) (hjs : ∀ j ∈ js, j.op = .read) {d : Dev} {c : CacheLine}
    (hw : (d.hub n).lost line = false) (hc : (d.hub n).cached line = some c) (hdata : c.data = data ∧ c.dirty = false ∧ c.upset = []) :
    let u := Dev.drain n line 0 js d
    ((u.hub n).cached line).map (fun c => (c.data, c.dirty, c.upset)) = some (data, false, []) ∧ (u.hub n).fills = (d.hub n).fills ∧
      u.outbox = d.outbox ++ js.map (fun j => .sliceResp j.req.tag 0 ((data.drop (j.req.addr % 64)).take j.req.len)) := by
  induction js generalizing d c with
  | nil =>
    obtain ⟨hd, hclean, hu⟩ := hdata
    refine ⟨?_, rfl, (List.append_nil _).symm⟩
    rw [Dev.drain, hc, Option.map_some, hd, hclean, hu]
  | cons j js ih =>
    obtain ⟨hd, hclean, hu⟩ := hdata
    obtain ⟨a, hread, ⟨-, hout⟩, hhub⟩ := Dev.lineRead_of_cached hw hc (.inl ⟨hu, hd.symm⟩)
    let b : Dev := a.reply j 0 ((data.drop (j.req.addr % 64)).take j.req.len)
    have hb : b.hub n = (d.hub n).put line data c.dirty := hhub
    have hserve : d.serveLine n line j = b := by
      unfold Dev.serveLine
      rw [hjs j List.mem_cons_self]
      dsimp only
      rw [hread]
    obtain ⟨hline, hfills, houts⟩ := ih (fun k hk => hjs k (List.mem_cons_of_mem j hk)) (d := b)
      (c := { data := data, dirty := c.dirty, stamp := (d.hub n).clock }) (by rw [hb]; exact hw) (by rw [hb]; exact Hub.put_cached ..)
      ⟨rfl, hclean, rfl⟩
    rw [Dev.drain, if_pos (.inl rfl), hserve]
    refine ⟨hline, hfills.trans (by rw [hb]; rfl), ?_⟩
    have hbout : b.outbox = d.outbox ++ [.sliceResp j.req.tag 0 ((data.drop (j.req.addr % 64)).take j.req.len)] :=
      congrArg (· ++ [OutMsg.sliceResp ..]) hout
    rw [houts, List.map_cons, hbout, List.append_assoc, List.singleton_append]

/-! ## The commands -/

section
variable {n : Fin 12} {line : Nat} {s : State}

theorem exec_scrubRead (b : Burst) (hn : n.val < s.fuse.variant.sectors) (hl : line < s.fuse.variant.stackGiB * 2 ^ 30 / 64) :
    exec (.scrubRead n line b) s = .next (s.withDev (s.dev.readBurst n.val line b).2.d) :=
  congrArg (fun d => Host.Outcome.next (s.withDev d)) (if_neg (not_or.2 ⟨hn.not_ge, hl.not_ge⟩))

theorem exec_quireBurstComplete (b : Burst) (hn : n.val < s.fuse.variant.sectors) (hl : line < s.fuse.variant.stackGiB * 2 ^ 30 / 64)
    {f : Fill} (hf : (s.dev.hub n.val).fills.find? (fun g => g.line == line) = some f) (ho : f.outcome = none) :
    let r := s.dev.readBurst n.val line b
    exec (.quireBurstComplete n line b) s = .next (s.withDev (r.2.d.onHub n.val fun h => { h with
      fills := h.fills.map (fun g => if g.line = line then { g with tries := r.1, outcome := some (r.2.st, r.2.data) } else g) })) := by
  show execQuireBurstComplete n line b s = _
  unfold execQuireBurstComplete
  rw [State.onDev_next, if_neg (not_or.2 ⟨hn.not_ge, hl.not_ge⟩), hf]
  dsimp only
  rw [ho]
  rfl

theorem exec_cacheFillComplete {f : Fill} {o : W8 × List W8} (hf : (s.dev.hub n.val).fills.find? (fun g => g.line == line) = some f)
    (ho : f.outcome = some o) : exec (.cacheFillComplete n line) s = .next (s.withDev (s.dev.endLineFill n.val line f o.1 o.2)) := by
  show execCacheFillComplete n line s = _
  unfold execCacheFillComplete
  rw [State.onDev_next, hf]
  dsimp only
  rw [ho]

end

end Sys2Proof.Machine

namespace Sys2Proof.Proofs

open Sys2Proof.Machine Sys2Proof.Claims

/-- Settles O30: a miss meets no open fill of its line, a burst without noise brings the codeword that is stored, and the requests that
waited on a fill are reads of the line that it brought. -/
theorem missesFillTheCache : Obligations.MissesFillTheCache := by
  refine ⟨?miss, ?burst, ?complete⟩
  case miss =>
    intro n q off line s ha h0 hfit hn hl hfence hworks hfilled hmiss hfills hport
    have hoff : off < 64 := by omega
    have hregion : regionOf q.addr = .quire n.val (line * 64 + off) := ha ▸ regionOf_line hn hl hoff
    have hmisses : s.dev.misses s.fuse.variant ⟨q, .read⟩ = some (n.val, line) := by
      rw [Dev.misses, hregion]
      dsimp only
      have hdiv : (line * 64 + off) / 64 = line := by omega
      have hin : line * 64 + off < s.fuse.variant.stackGiB * 2 ^ 30 := by omega
      rw [hdiv, hfence, hworks, hfilled, hmiss]
      simpa [hn, SliceJob.wholeLine] using hin
    have hnone : (s.dev.hub n.val).fills.any (fun f => f.line == line) = false := by simpa using hfills
    rw [exec_sliceRead, Dev.request_passes (j := ⟨q, .read⟩) ha hoff hn hl (fun m k hm => nomatch hport.symm.trans hm), Dev.charged, hport]
    simp only [Dev.chargeFor]
    rw [Dev.accept, if_neg (by simp only [SliceJob.bytes]; omega), hmisses]
    exact congrArg (fun d => Host.Outcome.next (s.withDev d)) (Dev.onHub_congr (if_neg (by rw [hnone]; decide)))
  case burst =>
    intro n line f s hn hl hworks hfilled hcheck
    have hread := Dev.readBurst_clean hworks hfilled hcheck
    refine ⟨⟨(s.dev.count (At.hub n.val 0x018) 16 16 0).csr, ?_⟩, fun hfind hopen => ⟨_, exec_quireBurstComplete _ hn hl hfind hopen, ?_, ?_⟩⟩
    · rw [exec_scrubRead _ hn hl, hread, ← Dev.count_frame]
    · rw [hread, Dev.onHub_quire, Dev.count_quire]
    · rw [hread, Dev.hub_onHub, Dev.count_hub]
  case complete =>
    intro n line f data s hn hl hworks hmiss hfind hout hjs
    let a : Dev := s.dev.onHub n.val fun h => { h with fills := h.fills.filter (fun g => g.line != line) }
    have ha : a.hub n.val = { s.dev.hub n.val with fills := (s.dev.hub n.val).fills.filter (fun g => g.line != line) } := Dev.hub_onHub ..
    have hput := Dev.cachePut_sansCaches a n.val line data false
    obtain ⟨stamp, hcached⟩ := Dev.cachePut_cached a n.val line data false
    obtain ⟨hline, hfills, houtbox⟩ := Dev.drain_reads f.waiters (fun j hj => (hjs j hj).1)
      ((congrFun (Dev.lost_of_sansCaches hput n.val) line).trans (by rw [ha]; exact hworks)) hcached ⟨rfl, rfl, rfl⟩
    refine ⟨_, ?_, hline, ?_, ?_⟩
    · rw [exec_cacheFillComplete hfind hout]
      unfold Dev.endLineFill
      dsimp only
      rw [if_pos ⟨rfl, by rw [ha]; exact congrArg Option.isNone hmiss⟩]
    · rw [hfills, Dev.fills_of_sansCaches hput, ha]
      intro g hg
      simpa using (List.mem_filter.1 hg).2
    · rw [houtbox, Dev.outbox_of_sansCaches hput]
      rfl

end Sys2Proof.Proofs
end

section
/-!
SUPPORT. The upkeep of a stack (R254, R259, R261 to R265) and the invalidation of translations (R10, R286).
-/

namespace Sys2Proof.Machine

open Sys2Proof Sys2Proof.Claims

/-! ## Poison fills (R254, R259) -/

@[simp] theorem Dev.storeRaw_hub (d : Dev) (n line : Nat) (data chk : List W8) (m : Nat) : (d.storeRaw n line data chk).hub m = d.hub m :=
  rfl

theorem Dev.storeRaw_check (d : Dev) (n line : Nat) (data : List W8) {chk : List W8} (h : chk.length = 8) :
    (d.storeRaw n line data chk).storedCheck n line = chk := by
  have := Mem.read_store d.check (checkAddr n line) chk
  rw [h] at this
  exact this

/-- A line stored leaves the codeword of every other line of its stack. -/
theorem Dev.storeRaw_apart (d : Dev) (n : Nat) {line l : Nat} {data chk : List W8} (hd : data.length = 64) (hc : chk.length = 8)
    (hl : l ≠ line) :
    (d.storeRaw n line data chk).storedData n l = d.storedData n l ∧ (d.storeRaw n line data chk).storedCheck n l = d.storedCheck n l := by
  have hdata : lineAddr n l + 64 ≤ lineAddr n line ∨ lineAddr n line + data.length ≤ lineAddr n l := by
    rw [hd, lineAddr, lineAddr]; omega
  have hcheck : checkAddr n l + 8 ≤ checkAddr n line ∨ checkAddr n line + chk.length ≤ checkAddr n l := by
    rw [hc, checkAddr, checkAddr]; omega
  exact ⟨Mem.read_store_apart d.quire _ _ _ _ hdata, Mem.read_store_apart d.check _ _ _ _ hcheck⟩

theorem poisonData_length : poisonData.length = 64 := List.length_replicate

/-- Whether a line of a stack holds the poison pattern. -/
def Dev.Poisoned (d : Dev) (n line : Nat) : Prop := d.storedData n line = poisonData ∧ d.storedCheck n line = poisonCheck

theorem Dev.poisonLine_poisoned (d : Dev) (n line : Nat) : (d.poisonLine n line).Poisoned n line := by
  unfold Dev.Poisoned Dev.poisonLine
  rw [Dev.storeRaw_data _ _ _ _ _ poisonData_length, Dev.storeRaw_check _ _ _ _ rfl]
  exact ⟨rfl, rfl⟩

/-- A poison fill of any line leaves a poisoned one so. -/
theorem Dev.Poisoned.poisonLine {d : Dev} {n line : Nat} (h : d.Poisoned n line) (l : Nat) : (d.poisonLine n l).Poisoned n line := by
  by_cases hl : line = l
  · subst hl; exact Dev.poisonLine_poisoned ..
  · obtain ⟨hdata, hcheck⟩ := d.storeRaw_apart n poisonData_length (chk := poisonCheck) rfl hl
    unfold Dev.Poisoned Dev.poisonLine
    rw [hdata, hcheck]
    exact h

theorem Dev.Poisoned.onHub {d : Dev} {n line : Nat} (h : d.Poisoned n line) (m : Nat) (f : Hub → Hub) : (d.onHub m f).Poisoned n line :=
  ⟨h.1, h.2⟩

/-- What one step of a fold brings about and every step keeps holds at the end. -/
theorem foldl_brings {α β : Type} {p : β → Prop} {f : β → α → β} (keeps : ∀ b a, p b → p (f b a)) {k : α} (brings : ∀ b, p (f b k))
    {ks : List α} (hk : k ∈ ks) (b : β) : p (ks.foldl f b) := by
  induction ks generalizing b with
  | nil => exact absurd hk List.not_mem_nil
  | cons i ks ih =>
    rcases List.mem_cons.1 hk with rfl | hk
    · exact List.foldlRecOn ks f (motive := p) (brings b) fun b h a _ => keeps b a h
    · exact ih hk _

/-- Every line of a list that is filled with poison line by line is poisoned at the end. -/
theorem Dev.poisonLines_poisoned {n : Nat} (at_ : Nat → Nat) {ks : List Nat} {k : Nat} (hk : k ∈ ks) (d : Dev) :
    (ks.foldl (fun (x : Dev) i => x.poisonLine n (at_ i)) d).Poisoned n (at_ k) :=
  foldl_brings (p := fun d : Dev => d.Poisoned n (at_ k)) (fun _ i h => h.poisonLine (at_ i)) (fun d => d.poisonLine_poisoned n (at_ k)) hk d

theorem Dev.poisonLines_hub (n : Nat) (at_ : Nat → Nat) (ks : List Nat) (d : Dev) (m : Nat) :
    (ks.foldl (fun (x : Dev) i => x.poisonLine n (at_ i)) d).hub m = d.hub m :=
  foldl_keeps (fun d : Dev => d.hub m) _ (fun x i => x.storeRaw_hub n (at_ i) poisonData poisonCheck m) ks d

/-- A group of the one channel that is being filled is filled with poison, line by line, and is listed as filled. -/
theorem Dev.fillGroup_fills {d : Dev} {n c g : Nat} {done : List Nat} (hu : (d.hub n).unfilled = [(c, done)]) (hg : done.contains g = false) :
    (∀ k < 64, (d.fillGroup n c g).Poisoned n ((g * 64 + k) * 128 + c)) ∧ ((d.fillGroup n c g).hub n).unfilled = [(c, g :: done)] := by
  have hopen : (d.hub n).unfilled.any (fun e => e.1 == c && !e.2.contains g) = true := by
    rw [hu, List.any_cons, hg, beq_self_eq_true]; rfl
  unfold Dev.fillGroup
  dsimp only
  rw [if_pos hopen]
  refine ⟨fun k hk => ?_, ?_⟩
  · refine Dev.Poisoned.onHub ?_ n _
    exact Dev.poisonLines_poisoned (fun i => (g * 64 + i) * 128 + c) (List.mem_range.2 hk) d
  · rw [Dev.hub_onHub, Dev.poisonLines_hub, hu]
    exact congrArg (fun x => [x]) (if_pos rfl)

/-! ## Readings and margins (R261, R263, R265, R266) -/

/-- A thermal trip holds once it is asked for, and moves nothing of a slice; an alert stays. -/
theorem Dev.thermalTrip_power (d : Dev) (source index c : Nat) :
    (d.thermalTrip source index c).power.trip = true ∧ (d.thermalTrip source index c).power.alert = d.power.alert := by
  unfold Dev.thermalTrip
  split
  next h => exact ⟨h, rfl⟩
  next => rw [Dev.raise_frame, Dev.count_frame]; exact ⟨rfl, rfl⟩

@[simp] theorem Dev.thermalTrip_hub (d : Dev) (source index c n : Nat) : (d.thermalTrip source index c).hub n = d.hub n := by
  unfold Dev.thermalTrip
  split
  · rfl
  · rw [Dev.raise_frame, Dev.count_frame]; rfl

/-- A slice that has heard a reading which calls for a step at a time (R261, R262). -/
def Hub.heard (h : Hub) (c : W8) (step now : Nat) : Hub :=
  if h.refresh < step then
    { h with temp := c, refresh := step, parts := (h.refresh, now - h.refreshSince) :: h.parts, refreshSince := now }
  else { h with temp := c }

theorem Hub.heard_temp (h : Hub) (c : W8) (step now : Nat) : (h.heard c step now).temp = c := by
  unfold Hub.heard; split <;> rfl

/-- The step rises at once, and a reading that calls for a lower one lowers nothing. -/
theorem Hub.heard_refresh (h : Hub) (c : W8) (step now : Nat) : (h.heard c (max h.refresh step) now).refresh = max h.refresh step := by
  unfold Hub.heard
  split
  next => rfl
  next hge => exact (le_max_left ..).antisymm (not_lt.1 hge)

/-- The alert and the trip that a refresh step brings (R263, R264). -/
def Dev.warned (d : Dev) (n : Nat) (c : W8) (step : Nat) : Dev :=
  let b := if 2 ≤ step then d.onPower fun p => { p with alert := true } else d
  if step = 3 then b.thermalTrip 2 n c.toNat else b

theorem exec_stackTempReading (n : Fin 12) (c : W8) (now : Nat) (s : State) :
    let step := max (s.dev.hub n.val).refresh (refreshFor c.toNat)
    exec (.stackTempReading n c now) s = .next (s.withDev ((s.dev.onHub n.val (·.heard c step now)).warned n.val c step)) := rfl

theorem Dev.warned_hub (d : Dev) (n : Nat) (c : W8) (step m : Nat) : (d.warned n c step).hub m = d.hub m := by
  have hb : (if 2 ≤ step then d.onPower fun p => { p with alert := true } else d).hub m = d.hub m := by split <;> rfl
  unfold Dev.warned
  dsimp only
  split
  · rw [Dev.thermalTrip_hub, hb]
  · exact hb

theorem Dev.warned_power (d : Dev) (n : Nat) (c : W8) (step : Nat) :
    (2 ≤ step → (d.warned n c step).power.alert = true) ∧ (step = 3 → (d.warned n c step).power.trip = true) := by
  unfold Dev.warned
  dsimp only
  refine ⟨fun h2 => ?_, fun h3 => ?_⟩
  · rw [if_pos h2]
    split
    · exact (Dev.thermalTrip_power ..).2
    · rfl
  · rw [if_pos h3]
    exact (Dev.thermalTrip_power ..).1

/-- The margins of a sweep are kept under the numbers of their channels. -/
theorem Tab.look_zipIdx {α : Type} (d : α) (l : List α) {c : Nat} {x : α} (h : l[c]? = some x) :
    Tab.look d (l.zipIdx.map fun e => (e.2, e.1)) c = x := by
  have key : ∀ (l : List α) (k c : Nat), l[c]? = some x → Tab.look d ((l.zipIdx k).map fun e => (e.2, e.1)) (k + c) = x := by
    intro l
    induction l with
    | nil => intro k c h; cases h
    | cons y r ih =>
      intro k c h
      cases c with
      | zero => cases h; exact if_pos rfl
      | succ c =>
        rw [List.zipIdx_cons, List.map_cons, Tab.look, if_neg (show ¬ k = k + (c + 1) by omega), show k + (c + 1) = k + 1 + c by omega]
        exact ih (k + 1) c h
  rw [← key l 0 c h, Nat.zero_add]

theorem Hub.physical_unmapped {h : Hub} (hm : h.chanMap = []) (c : Nat) : h.physical c = c := by simp [Hub.physical, hm]

/-- Spares are the channels 128 to 135 of a stack (R259). -/
theorem Dev.spareChannels_lt {v : Variant} {d : Dev} {n p : Nat} (h : p ∈ d.spareChannels v n) : p < 136 := by
  obtain ⟨i, hi, rfl⟩ := List.mem_map.1 (List.mem_filter.1 h).1
  have := List.mem_range.1 hi
  omega

/-- A sweep that finds every channel within its limits stores the margins and changes no channel (R265, R266). -/
theorem Dev.marginDone_good {v : Variant} {d : Dev} {n : Nat} {margins : List (W16 × W16)} (hon : (d.hub n).marginOn = true)
    (hdone : (d.hub n).marginDone = false) (hlen : margins.length = 136) (hgood : ∀ m ∈ margins, marginBad m = false)
    (hmap : (d.hub n).chanMap = []) :
    d.marginDone v n margins = (d.onHub n fun h => { h with margins := margins.zipIdx.map (fun e => (e.2, e.1)), marginDone := true,
                                                            marginFail := false, marginAt := d.power.aged }).onRetain
      fun r => { r with changed := true } := by
  have good : ∀ p < 136, (!marginBad (margins.getD p (0, 0))) = true := fun p hp => by
    rw [List.getD_eq_getElem _ _ (hlen ▸ hp), hgood _ (List.getElem_mem _)]; rfl
  have hbad : (List.range 128).filter (fun c => !(d.hub n).failed.contains c &&
      !!marginBad (margins.getD ((d.hub n).physical c) (0, 0))) = [] := by
    refine List.filter_eq_nil_iff.2 fun c hc => ?_
    have := List.mem_range.1 hc
    rw [Hub.physical_unmapped hmap, good c (by omega), Bool.not_true, Bool.and_false]
    decide
  have hweak : (d.spareChannels v n).filter (fun p => !!marginBad (margins.getD p (0, 0))) = [] := by
    refine List.filter_eq_nil_iff.2 fun p hp => ?_
    rw [good p (Dev.spareChannels_lt hp)]
    decide
  have hall : margins.zipIdx.filter (fun e => decide (e.2 < 136)) = margins.zipIdx := by
    refine List.filter_eq_self.2 fun e he => decide_eq_true ?_
    have := List.snd_lt_of_mem_zipIdx he
    omega
  unfold Dev.marginDone
  dsimp only
  rw [if_neg (by rw [hon, hdone]; decide), hbad, hweak, hall]
  rfl

/-! ## Invalidation of translations (R10, R286) -/

/-- A page table's numbers as the bits of the two registers. -/
theorem xlNames_eq (lo hi : W32) (e : XlUnit × Nat × Nat × W64) :
    xlNames lo hi e = (lo.getLsbD 15 || (decide (e.2.1 = (lo.extractLsb' 17 4).toNat) &&
      (lo.getLsbD 16 || decide (e.2.2.1 = (hi.extractLsb' 0 16 ++ lo.extractLsb' 21 11).toNat)))) := by
  have hctx : (lo.extractLsb' 17 4).toNat = lo.toNat / 2 ^ 17 % 16 := by simp [BitVec.extractLsb'_toNat, Nat.shiftRight_eq_div_pow]
  have hpage : (hi.extractLsb' 0 16 ++ lo.extractLsb' 21 11).toNat = hi.toNat % 2 ^ 16 * 2 ^ 11 + lo.toNat / 2 ^ 21 := by
    have := lo.isLt
    rw [BitVec.toNat_append, ← Nat.shiftLeft_add_eq_or_of_lt (lo.extractLsb' 21 11).isLt]
    simp only [BitVec.extractLsb'_toNat, Nat.shiftRight_eq_div_pow, Nat.shiftLeft_eq, pow_zero, Nat.div_one]
    omega
  rw [xlNames, hctx, hpage]

theorem Dev.dropNamed_csr (d : Dev) : d.dropNamed.csr = d.csr := by unfold Dev.dropNamed; split <;> rfl

/-- The invalidation in progress and the cached translations. -/
def Dev.xl (d : Dev) : List (XlUnit × Nat × Nat × W64) × Option (W32 × W32) := (d.xlCache, d.xlDropping)

theorem Dev.takeLow_xl (d : Dev) (r : Requester) (l : CsrLoc) : (d.takeLow r l).2.xl = d.xl := by
  unfold Dev.takeLow; dsimp only; split <;> rfl

theorem Dev.writeBits_xl (d : Dev) (l : CsrLoc) (w : W32) : (d.writeBits l w).xl = d.xl := by
  unfold Dev.writeBits
  split
  · rfl
  · rw [Dev.setReg_frame]; rfl

/-- What an invalidation in progress still drops depends on it and the cached translations alone. -/
theorem Dev.dropNamed_xlCache {d e : Dev} (h : e.xl = d.xl) : e.dropNamed.xlCache = d.dropNamed.xlCache := by
  have hc : e.xlCache = d.xlCache := congrArg Prod.fst h
  have hd : e.xlDropping = d.xlDropping := congrArg Prod.snd h
  unfold Dev.dropNamed
  rw [hd]
  split
  · exact hc
  · exact congrArg (List.filter _) hc

/-- A write that no program makes starts an invalidation with the two registers as they then read. -/
theorem Dev.xlInval_starts (d : Dev) {r : Requester} (hr : ∀ t, r ≠ .core t) (w : W32) :
    let u := d.xlInval r w
    u.xlDropping = some (u.reg (At.hub 0 0x110), u.reg (At.hub 0 0x114)) ∧ u.xlCache = d.dropNamed.xlCache := by
  intro u
  let a : Dev := ((d.takeLow r (At.hub 0 0x110)).2.writeBits (At.hub 0 0x110) (d.takeLow r (At.hub 0 0x110)).1).writeBits (At.hub 0 0x114) w
  have hu : u = { a.dropNamed with xlDropping := some (a.reg (At.hub 0 0x110), a.reg (At.hub 0 0x114)) } := by
    cases r with
    | core t => exact absurd rfl (hr t)
    | _ => rfl
  have hxl : a.xl = d.xl := (Dev.writeBits_xl ..).trans ((Dev.writeBits_xl ..).trans (Dev.takeLow_xl ..))
  have hreg : ∀ l, u.reg l = a.reg l := Dev.reg_congr (by rw [hu]; exact Dev.dropNamed_csr a)
  refine ⟨?_, ?_⟩
  · rw [hreg, hreg, hu]
  · rw [hu]; exact Dev.dropNamed_xlCache hxl

end Sys2Proof.Machine

namespace Sys2Proof.Proofs

open Sys2Proof.Machine Sys2Proof.Claims

theorem stackUpkeep : StackUpkeep := by
  refine ⟨fun n group k s hopen hk => ?fill, fun n c now s => ?reading, fun n s hn hoff => ?start,
    fun n margins s hon hdone hlen hgood hmap => ?sweep⟩
  case fill =>
    obtain ⟨done, hu, hg⟩ := hopen
    obtain ⟨hpoison, hfilled⟩ := Dev.fillGroup_fills hu hg
    refine ⟨_, rfl, (hpoison k hk).1, (hpoison k hk).2, ?_⟩
    have hgroup : groupOf ((group / 128 * 64 + k) * 128 + group % 128) = group / 128 := by unfold groupOf; omega
    dsimp only
    rw [Dev.endFill, Dev.hub_onHub, Hub.unfilledAt, hfilled, hgroup]
    refine List.any_eq_false.2 fun e he => ?_
    rw [List.mem_singleton.1 (List.mem_filter.1 he).1]
    simp
  case reading =>
    intro step
    obtain ⟨halert, htrip⟩ := Dev.warned_power (s.dev.onHub n.val (·.heard c (max (s.dev.hub n.val).refresh step) now)) n.val c
      (max (s.dev.hub n.val).refresh step)
    refine ⟨_, exec_stackTempReading n c now s, ?_, ?_, halert, htrip⟩
    · rw [Dev.warned_hub, Dev.hub_onHub, Hub.heard_temp]
    · rw [Dev.warned_hub, Dev.hub_onHub]
      exact Hub.heard_refresh ..
  case start => exact congrArg (fun d => Host.Outcome.next (s.withDev d)) (if_neg (by rw [hoff]; simpa using hn))
  case sweep =>
    have hbad : ∀ m ∈ margins, marginBad m = false := fun m hm => by
      obtain ⟨h1, h2⟩ := hgood m hm
      simpa [marginBad] using ⟨h1, h2⟩
    refine ⟨_, congrArg (fun d => Host.Outcome.next (s.withDev d)) (Dev.marginDone_good hon hdone hlen hbad hmap), ?_⟩
    rw [Dev.hub, Dev.onRetain_hubs, ← Dev.hub, Dev.hub_onHub]
    exact ⟨rfl, rfl, rfl, rfl, fun _ _ h => Tab.look_zipIdx _ _ h⟩

theorem invalidationDropsTranslations : InvalidationDropsTranslations := by
  refine ⟨fun r v s hr => ?_, fun lo hi s hdrop => ?_⟩
  · obtain ⟨hstart, hcache⟩ := s.dev.xlInval_starts hr v
    exact ⟨_, _, _, rfl, hstart, hcache, rfl, rfl⟩
  · show Host.Outcome.next (s.withDev s.dev.dropNamed) = _
    rw [Dev.dropNamed, hdrop]
    simp only [xlNames_eq]

/-- Settles O31: a group's lines are poisoned one by one, a sweep within its limits finds no weak channel, and an invalidation drops what
its two registers name. -/
theorem stackUpkeepAndTranslations : Obligations.StackUpkeepAndTranslations := ⟨stackUpkeep, invalidationDropsTranslations⟩

end Sys2Proof.Proofs
end

section
/-!
SUPPORT. What an access to local memory leaves alone: all but the stacks and scratch, the caches and their fills, the CSR file, events,
messages and cached translations.
-/

namespace Sys2Proof.Machine

open Sys2Proof

/-! ## What an access to local memory leaves alone -/

/-- A slice but for its cache, the fills of it and of its new channels, and its poisoned scratch lines. -/
def Hub.sansLines (h : Hub) : Hub := { h with cache := [], clock := 0, unfilled := [], fills := [], scratchBad := {} }

/-- A device but for what an access to its local memory may change. -/
def Dev.sansMemory (d : Dev) : Dev × (Nat → Hub) :=
  ({ d with hubs := [], quire := [], check := [], scratch := [], xlCache := [], csr := [], events := {}, outbox := [],
            gander := { d.gander with active := [] } }, fun n => (d.hub n).sansLines)

theorem Dev.sansMemory_of_sansCaches {d u : Dev} (h : u.sansCaches = d.sansCaches) : u.sansMemory = d.sansMemory :=
  congrArg (fun x : Dev × (Nat → Hub) => (({ x.1 with
    scratch := [], xlCache := [], csr := [], events := {}, outbox := [], gander := { x.1.gander with active := [] } } : Dev),
    fun n => (x.2 n).sansLines)) h

@[simp] theorem Dev.onHub_sansMemory (d : Dev) (n : Nat) {f : Hub → Hub} (h : ∀ x, (f x).sansLines = x.sansLines) :
    (d.onHub n f).sansMemory = d.sansMemory := by
  refine Prod.ext rfl (funext fun k => ?_)
  by_cases hk : k = n
  · subst hk
    exact (congrArg Hub.sansLines (Dev.hub_onHub d k f)).trans (h _)
  · exact congrArg Hub.sansLines (Dev.hub_onHub_ne d f hk)

@[simp] theorem Dev.setReg_sansMemory (d : Dev) (l : CsrLoc) (w : W32) : (d.setReg l w).sansMemory = d.sansMemory := by
  rw [Dev.setReg_frame]; rfl
@[simp] theorem Dev.count_sansMemory (d : Dev) (l : CsrLoc) (lo w n : Nat) : (d.count l lo w n).sansMemory = d.sansMemory :=
  Dev.setReg_sansMemory ..
@[simp] theorem Dev.setReg64_sansMemory (d : Dev) (l : CsrLoc) (w : W64) : (d.setReg64 l w).sansMemory = d.sansMemory := by
  simp [Dev.setReg64]
@[simp] theorem Dev.send_sansMemory (d : Dev) (m : OutMsg) : (d.send m).sansMemory = d.sansMemory := rfl
@[simp] theorem Dev.raise_sansMemory (d : Dev) (c : Nat) (i : EventInfo) : (d.raise c i).sansMemory = d.sansMemory := by
  rw [Dev.raise_frame]; rfl

/-! ## Lines of a stack and its cache -/

@[simp] theorem Dev.storeRaw_sansMemory (d : Dev) (n line : Nat) (data chk : List W8) :
    (d.storeRaw n line data chk).sansMemory = d.sansMemory := rfl
@[simp] theorem Dev.storeLine_sansMemory (d : Dev) (n line : Nat) (data : List W8) : (d.storeLine n line data).sansMemory = d.sansMemory :=
  Dev.storeRaw_sansMemory ..
@[simp] theorem Dev.poisonLine_sansMemory (d : Dev) (n line : Nat) : (d.poisonLine n line).sansMemory = d.sansMemory :=
  Dev.storeRaw_sansMemory ..
@[simp] theorem Dev.uncache_sansMemory (d : Dev) (n line : Nat) : (d.onHub n (·.uncache line)).sansMemory = d.sansMemory :=
  d.onHub_sansMemory n fun _ => rfl
@[simp] theorem Dev.fillGroup_sansMemory (d : Dev) (n c g : Nat) : (d.fillGroup n c g).sansMemory = d.sansMemory :=
  Dev.sansMemory_of_sansCaches (Dev.fillGroup_sansCaches ..)
@[simp] theorem Dev.cachePut_sansMemory (d : Dev) (n line : Nat) (data : List W8) (dirty : Bool) :
    (d.cachePut n line data dirty).sansMemory = d.sansMemory := Dev.sansMemory_of_sansCaches (Dev.cachePut_sansCaches ..)

@[simp] theorem Dev.readStored_sansMemory (d : Dev) (n line : Nat) : (d.readStored n line).d.sansMemory = d.sansMemory := by
  unfold Dev.readStored
  split
  · simp
  · split <;> simp

@[simp] theorem Dev.refetch_sansMemory (d : Dev) (n line : Nat) : (d.refetch n line).d.sansMemory = d.sansMemory := by
  unfold Dev.refetch; dsimp only; split <;> simp

@[simp] theorem Dev.cachedRead_sansMemory (d : Dev) (n line : Nat) (c : CacheLine) : (d.cachedRead n line c).d.sansMemory = d.sansMemory := by
  unfold Dev.cachedRead
  split
  · simp
  · split
    · simp
    · split <;> simp

@[simp] theorem Dev.lineRead_sansMemory (d : Dev) (n line : Nat) : (d.lineRead n line).d.sansMemory = d.sansMemory := by
  unfold Dev.lineRead
  dsimp only
  split
  · rfl
  · split <;> simp

@[simp] theorem Dev.lineWrite_sansMemory (d : Dev) (n line off : Nat) (bytes : List W8) :
    (d.lineWrite n line off bytes).d.sansMemory = d.sansMemory := by
  unfold Dev.lineWrite; dsimp only; split_ifs <;> simp

@[simp] theorem Dev.reply_sansMemory (d : Dev) (j : SliceJob) (st : W8) (data : List W8) : (d.reply j st data).sansMemory = d.sansMemory :=
  Dev.send_sansMemory ..

@[simp] theorem Dev.serveLine_sansMemory (d : Dev) (n line : Nat) (j : SliceJob) : (d.serveLine n line j).sansMemory = d.sansMemory := by
  unfold Dev.serveLine
  dsimp only
  split
  · simp
  · simp
  · split_ifs <;> simp

@[simp] theorem Dev.drain_sansMemory (n line : Nat) (st : W8) (js : List SliceJob) (d : Dev) :
    (Dev.drain n line st js d).sansMemory = d.sansMemory := by
  induction js generalizing d with
  | nil => rfl
  | cons j js ih =>
    simp only [Dev.drain]
    split <;> simp [ih]

@[simp] theorem Dev.endLineFill_sansMemory (d : Dev) (n line : Nat) (f : Fill) (st : W8) (data : List W8) :
    (d.endLineFill n line f st data).sansMemory = d.sansMemory := by
  have hdone : (d.onHub n fun h => { h with fills := h.fills.filter (fun f => f.line != line) }).sansMemory = d.sansMemory :=
    d.onHub_sansMemory n fun _ => rfl
  unfold Dev.endLineFill
  dsimp only
  rw [Dev.drain_sansMemory]
  split <;> simp [hdone]

@[simp] theorem Dev.settleFill_sansMemory (d : Dev) (n line : Nat) : (d.settleFill n line).sansMemory = d.sansMemory := by
  unfold Dev.settleFill
  split
  · rfl
  · split
    · simp
    · split <;> simp

@[simp] theorem Dev.quireRead_sansMemory (d : Dev) (n line : Nat) : (d.quireRead n line).d.sansMemory = d.sansMemory := by
  simp [Dev.quireRead]
@[simp] theorem Dev.quireWrite_sansMemory (d : Dev) (n line off : Nat) (bytes : List W8) :
    (d.quireWrite n line off bytes).d.sansMemory = d.sansMemory := by simp [Dev.quireWrite]

@[simp] theorem Dev.scratchRead_sansMemory (d : Dev) (n off : Nat) : (d.scratchRead n off).d.sansMemory = d.sansMemory := by
  simp only [Dev.scratchRead]; split_ifs <;> simp

@[simp] theorem Dev.storeScratch_sansMemory (d : Dev) (m : Mem) : ({ d with scratch := m } : Dev).sansMemory = d.sansMemory := rfl

@[simp] theorem Dev.scratchWrite_sansMemory (d : Dev) (n off : Nat) (bytes : List W8) :
    (d.scratchWrite n off bytes).d.sansMemory = d.sansMemory := by
  have hwhole : (({ d with scratch := Mem.store d.scratch (n * 0x1000000 + off) bytes } : Dev).onHub n
      fun h => { h with scratchBad := h.scratchBad.del (off / 64) }).sansMemory = d.sansMemory :=
    Dev.onHub_sansMemory _ n fun _ => rfl
  simp only [Dev.scratchWrite]
  split_ifs <;> simp [hwhole]

/-! ## Physical and virtual addresses -/

@[simp] theorem Dev.localRead_sansMemory (v : Variant) (d : Dev) (a : Nat) : (d.localRead v a).d.sansMemory = d.sansMemory := by
  unfold Dev.localRead
  split
  · split_ifs <;> simp
  · split_ifs <;> simp
  · split_ifs <;> rfl
  · rfl
  · rfl
  · rfl

@[simp] theorem Dev.localWrite_sansMemory (v : Variant) (d : Dev) (a : Nat) (bytes : List W8) :
    (d.localWrite v a bytes).d.sansMemory = d.sansMemory := by
  unfold Dev.localWrite
  split
  · split_ifs <;> simp
  · split_ifs <;> simp
  · rfl
  · rfl
  · rfl
  · rfl

@[simp] theorem Dev.localAtomic_sansMemory (v : Variant) (d : Dev) (a : Nat) (op : AmoOp) (w : Bool) (x c : W64) :
    (d.localAtomic v a op w x c).2.2.sansMemory = d.sansMemory := by
  unfold Dev.localAtomic; dsimp only; split_ifs <;> simp

/-- A read piece by piece leaves alone what the read of a piece does. -/
theorem readPieces_sansMemory {rd : Dev → Nat → Nat → Acc} (h : ∀ d a n, (rd d a n).d.sansMemory = d.sansMemory) (ps : List (Nat × Nat))
    (d : Dev) : (readPieces rd ps d).d.sansMemory = d.sansMemory :=
  readPieces_keeps (R := fun d e => e.sansMemory = d.sansMemory) (fun _ => rfl) (fun h h' => h'.trans h) h ps d

theorem writePieces_sansMemory {wr : Dev → Nat → List W8 → Acc} (h : ∀ d a bs, (wr d a bs).d.sansMemory = d.sansMemory)
    (ps : List (Nat × Nat)) (bytes : List W8) (d : Dev) : (writePieces wr ps bytes d).d.sansMemory = d.sansMemory :=
  writePieces_keeps (R := fun d e => e.sansMemory = d.sansMemory) (fun _ => rfl) (fun h h' => h'.trans h) h ps bytes d

@[simp] theorem Dev.physBytes_sansMemory (v : Variant) (d : Dev) (a len : Nat) : (d.physBytes v a len).d.sansMemory = d.sansMemory := by
  refine readPieces_sansMemory (fun d a _ => ?_) _ d
  exact d.localRead_sansMemory v a

@[simp] theorem Dev.physStore_sansMemory (v : Variant) (d : Dev) (a : Nat) (bytes : List W8) :
    (d.physStore v a bytes).d.sansMemory = d.sansMemory :=
  writePieces_sansMemory (fun d a bs => d.localWrite_sansMemory v a bs) _ bytes d

@[simp] theorem Dev.physNat_sansMemory (v : Variant) (d : Dev) (a len : Nat) : (d.physNat v a len).2.2.sansMemory = d.sansMemory :=
  Dev.physBytes_sansMemory ..

@[simp] theorem Dev.walkFrom_sansMemory (v : Variant) (k : Nat) (d : Dev) (tbl va : Nat) :
    (Dev.walkFrom v k d tbl va).2.2.sansMemory = d.sansMemory := by
  induction k generalizing d tbl with
  | zero => simp only [Dev.walkFrom]; split_ifs <;> simp
  | succ k ih => simp only [Dev.walkFrom]; split_ifs <;> simp [ih]

@[simp] theorem Dev.walk_sansMemory (v : Variant) (d : Dev) (u : XlUnit) (ctx va : Nat) :
    (d.walk v u ctx va).2.2.sansMemory = d.sansMemory := by
  have kept : ∀ x : W8 × W64 × Dev, x.2.2.sansMemory = d.sansMemory → (if x.1 = 0 ∧ u.caches = true then
      (0, x.2.1, { x.2.2 with xlCache := (u, ctx, va / 2 ^ 21, x.2.1) :: x.2.2.xlCache }) else x).2.2.sansMemory = d.sansMemory := by
    intro x hx
    split <;> exact hx
  unfold Dev.walk
  split
  · rfl
  · dsimp only
    split
    · simp
    · split
      · simp
      · exact kept _ ((Dev.walkFrom_sansMemory ..).trans (Dev.physBytes_sansMemory ..))

@[simp] theorem Dev.touch_sansMemory (d : Dev) (ctx a : Nat) : (d.touch ctx a).sansMemory = d.sansMemory := by
  unfold Dev.touch; dsimp only; split <;> rfl

@[simp] theorem Dev.translate_sansMemory (v : Variant) (d : Dev) (u : XlUnit) (ctx va : Nat) (wr ev : Bool) :
    (d.translate v u ctx va wr ev).2.2.sansMemory = d.sansMemory := by
  unfold Dev.translate
  dsimp only
  split_ifs
  · rfl
  · simp
  · simp
  · split <;> simp

@[simp] theorem Dev.virtLoad_sansMemory (v : Variant) (ctx : Nat) (eval : Bool) (d : Dev) (va len : Nat) :
    (Dev.virtLoad v ctx eval d va len).d.sansMemory = d.sansMemory := by
  refine readPieces_sansMemory (fun d a n => ?_) _ d
  dsimp only; split <;> simp

@[simp] theorem Dev.virtStore_sansMemory (v : Variant) (ctx : Nat) (eval : Bool) (d : Dev) (va : Nat) (bytes : List W8) :
    (Dev.virtStore v ctx eval d va bytes).d.sansMemory = d.sansMemory := by
  refine writePieces_sansMemory (fun d a bs => ?_) _ bytes d
  dsimp only; split <;> simp

@[simp] theorem Dev.virtAtomic_sansMemory (v : Variant) (ctx : Nat) (eval : Bool) (d : Dev) (va : Nat) (op : AmoOp) (x c : W64) :
    (Dev.virtAtomic v ctx eval d va op x c).2.2.sansMemory = d.sansMemory := by
  unfold Dev.virtAtomic; dsimp only; split <;> simp

end Sys2Proof.Machine
end

section
/-!
SUPPORT. The windows that the close of a reduction window leaves as they are, and those it closes (R277, R278, R369 to R375).
-/

namespace Sys2Proof.Machine

open Sys2Proof Sys2Proof.Claims

/-! ## What leaves every reduction window as it is -/

/-- The reduction windows of every slice. -/
def Dev.wins (d : Dev) : Nat → Tab Window := fun n => (d.hub n).windows

theorem Dev.wins_of_hubs {d u : Dev} (h : u.hubs = d.hubs) : u.wins = d.wins := by
  unfold Dev.wins Dev.hub; rw [h]

theorem Dev.wins_of_sansMemory {d u : Dev} (h : u.sansMemory = d.sansMemory) : u.wins = d.wins :=
  congrArg (fun x : Dev × (Nat → Hub) => fun n => (x.2 n).windows) h

@[simp] theorem Dev.count_wins (d : Dev) (l : CsrLoc) (lo w n : Nat) : (d.count l lo w n).wins = d.wins := Dev.wins_of_sansMemory (by simp)
@[simp] theorem Dev.raise_wins (d : Dev) (c : Nat) (i : EventInfo) : (d.raise c i).wins = d.wins := Dev.wins_of_sansMemory (by simp)
@[simp] theorem Dev.send_wins (d : Dev) (m : OutMsg) : (d.send m).wins = d.wins := Dev.wins_of_hubs rfl
@[simp] theorem Dev.onSeq_wins (d : Dev) (f : Seq → Seq) : (d.onSeq f).wins = d.wins := Dev.wins_of_hubs rfl
@[simp] theorem Dev.onLinks_wins (d : Dev) (f : Links → Links) : (d.onLinks f).wins = d.wins := Dev.wins_of_hubs rfl
@[simp] theorem Dev.onPort_wins (d : Dev) (p : Nat) (f : Port → Port) : (d.onPort p f).wins = d.wins := Dev.wins_of_hubs rfl
@[simp] theorem Dev.onNim_wins (d : Dev) (k : Nat) (f : NimStream → NimStream) : (d.onNim k f).wins = d.wins := Dev.wins_of_hubs rfl
@[simp] theorem Dev.onWinEntry_wins (d : Dev) (serial index : Nat) (f : WinEntry → WinEntry) :
    (d.onWinEntry serial index f).wins = d.wins := Dev.onSeq_wins ..
@[simp] theorem Dev.physStore_wins (v : Variant) (d : Dev) (a : Nat) (bytes : List W8) : (d.physStore v a bytes).d.wins = d.wins :=
  Dev.wins_of_sansMemory (by simp)
@[simp] theorem Dev.virtLoad_wins (v : Variant) (ctx : Nat) (eval : Bool) (d : Dev) (va len : Nat) :
    (Dev.virtLoad v ctx eval d va len).d.wins = d.wins := Dev.wins_of_sansMemory (by simp)
@[simp] theorem Dev.virtStore_wins (v : Variant) (ctx : Nat) (eval : Bool) (d : Dev) (va : Nat) (bytes : List W8) :
    (Dev.virtStore v ctx eval d va bytes).d.wins = d.wins := Dev.wins_of_sansMemory (by simp)
@[simp] theorem Dev.virtAtomic_wins (v : Variant) (ctx : Nat) (eval : Bool) (d : Dev) (va : Nat) (op : AmoOp) (x c : W64) :
    (Dev.virtAtomic v ctx eval d va op x c).2.2.wins = d.wins := Dev.wins_of_sansMemory (by simp)

/-- A fold whose every step leaves the windows as they are does so as a whole. -/
theorem Dev.foldl_wins {α : Type} {f : Dev → α → Dev} (h : ∀ d a, (f d a).wins = d.wins) (as : List α) (d : Dev) :
    (as.foldl f d).wins = d.wins := foldl_keeps Dev.wins f h as d

/-! ## Requests to other devices, and the journal -/

@[simp] theorem Dev.sendFlits_wins (p n : Nat) (d : Dev) : (Dev.sendFlits p n d).wins = d.wins := by
  induction n generalizing d with
  | zero => rfl
  | succ n ih =>
    simp only [Dev.sendFlits]
    split
    · rfl
    · split <;> simp [ih]

@[simp] theorem Dev.transmit_wins (d : Dev) (p : Nat) (m : Packet) : (d.transmit p m).wins = d.wins := by
  unfold Dev.transmit
  split
  · split <;> simp
  · split <;> simp

@[simp] theorem Dev.pickWay_wins (v : Variant) (d : Dev) (src dst : W16) (vc : Nat) : (d.pickWay v src dst vc).2.wins = d.wins := by
  simp only [Dev.pickWay]
  split
  · rfl
  · split
    · split
      · rfl
      · dsimp only; split <;> rfl
    · dsimp only; split <;> rfl

@[simp] theorem Dev.sendReq_wins (v : Variant) (d : Dev) (r : StreamRef) (o : Outstanding) (again : Bool) :
    (d.sendReq v r o again).wins = d.wins := by
  cases r with
  | conn i => simp [Dev.sendReq]
  | peer dev vc => simp only [Dev.sendReq]; split <;> simp

@[simp] theorem Dev.pump_wins (v : Variant) (d : Dev) (r : StreamRef) : (d.pump v r).wins = d.wins := by
  simp only [Dev.pump]
  split
  · rfl
  · rw [Dev.onNim_wins, Dev.foldl_wins fun d o => Dev.sendReq_wins ..]

@[simp] theorem Dev.nimRequest_wins (v : Variant) (d : Dev) (r : StreamRef) (op : W8) (addr aux : W64) (data : List W8) (tag : Nat) :
    (d.nimRequest v r op addr aux data tag).2.wins = d.wins := by
  cases r with
  | conn i => simp only [Dev.nimRequest]; split <;> simp
  | peer dev vc => simp only [Dev.nimRequest]; split <;> simp

@[simp] theorem Dev.jrnLose_wins (d : Dev) : d.jrnLose.wins = d.wins := by simp [Dev.jrnLose]

@[simp] theorem Dev.jrnPut_wins (v : Variant) (d : Dev) (bytes : List W8) : (d.jrnPut v bytes).wins = d.wins := by
  unfold Dev.jrnPut; dsimp only; split <;> simp

@[simp] theorem Dev.journaled_wins (v : Variant) (d : Dev) (type units : Nat) (step : W64) (rep : Bool) (payload : List W8) :
    (d.journaled v type units step rep payload).2.wins = d.wins := by
  unfold Dev.journaled; dsimp only; split_ifs <;> simp

@[simp] theorem Dev.diverge_wins (v : Variant) (d : Dev) (type entry : Nat) (expected got : W64) :
    (d.diverge v type entry expected got).wins = d.wins := by
  simp only [Dev.diverge]
  split <;> split <;> simp

/-! ## The parts of a close that touch no window -/

@[simp] theorem Dev.watch_wins (v : Variant) (d : Dev) (e : WinEntry) (s : W64) (r : List W32) : (d.watch v e s r).wins = d.wins := by
  unfold Dev.watch
  dsimp only
  split
  · rfl
  · split
    · simp
    · split <;> split <;> split <;> simp

@[simp] theorem Dev.publish_wins (v : Variant) (d : Dev) (e : WinEntry) (result : Option (List W32)) (bitmap : W64) (status : List W8) :
    (d.publish v e result bitmap status).d.wins = d.wins := by
  cases result <;> simp only [Dev.publish] <;> split_ifs <;> simp

@[simp] theorem Dev.capture_wins (v : Variant) (d : Dev) (e : WinEntry) (step : W64) (remote : List Nat) (fresh deferred : List RedHeld)
    (bitmap def_ : W64) : (d.capture v e step remote fresh deferred bitmap def_).wins = d.wins := by
  unfold Dev.capture
  dsimp only
  split
  · split <;> rfl
  · rw [Dev.onSeq_wins, Dev.foldl_wins fun d l => Dev.virtStore_wins .., Dev.foldl_wins fun d l => Dev.virtStore_wins ..]

@[simp] theorem Dev.journalWindow_wins (v : Variant) (d : Dev) (e : WinEntry) (step : W64) (bitmap def_ dropped hash : W64)
    (flags count : Nat) : (d.journalWindow v e step bitmap def_ dropped hash flags count).wins = d.wins := Dev.journaled_wins ..

@[simp] theorem Dev.windowFailed_wins (d : Dev) (e : WinEntry) (st : W8) (step line : W64) :
    (d.windowFailed e st step line).wins = d.wins := by simp [Dev.windowFailed]

/-! ## A window that is closed stays so -/

@[simp] theorem Dev.window_onWindow (d : Dev) (n w : Nat) (f : Window → Window) : (d.onWindow n w f).window n w = f (d.window n w) := by
  unfold Dev.window Dev.onWindow
  rw [Dev.hub_onHub]
  exact Tab.look_put_self ..

theorem Dev.window_onWindow_ne (d : Dev) {n w m k : Nat} (f : Window → Window) (h : ¬ (m = n ∧ k = w)) :
    (d.onWindow n w f).window m k = d.window m k := by
  unfold Dev.window Dev.onWindow
  by_cases hm : m = n
  · subst hm
    rw [Dev.hub_onHub]
    exact (Tab.look_alter ..).trans (if_neg fun hk => h ⟨rfl, hk⟩)
  · rw [Dev.hub_onHub_ne d _ hm]

/-- A window that is not open and waits for nothing. -/
def Window.shut (x : Window) : Prop := x.isOpen = false ∧ x.waiting = false

/-- Every window that is shut stays so. -/
def Dev.StayShut (d u : Dev) : Prop := ∀ n w, (d.window n w).shut → (u.window n w).shut

namespace Dev.StayShut

theorem refl (d : Dev) : Dev.StayShut d d := fun _ _ h => h

theorem trans {a b c : Dev} (h : Dev.StayShut a b) (h' : Dev.StayShut b c) : Dev.StayShut a c := fun n w hs => h' n w (h n w hs)

theorem of_wins {d u : Dev} (h : u.wins = d.wins) : Dev.StayShut d u := fun n w hs => by
  rwa [Dev.window, show (u.hub n).windows = (d.hub n).windows from congrFun h n]

theorem onWindow (d : Dev) (n w : Nat) {f : Window → Window} (h : ∀ x, x.shut → (f x).shut) : Dev.StayShut d (d.onWindow n w f) := by
  intro m k hs
  by_cases hk : m = n ∧ k = w
  · obtain ⟨rfl, rfl⟩ := hk
    rw [Dev.window_onWindow]
    exact h _ hs
  · rwa [Dev.window_onWindow_ne d f hk]

theorem foldl {α : Type} {f : Dev → α → Dev} (h : ∀ d a, Dev.StayShut d (f d a)) (as : List α) (d : Dev) : Dev.StayShut d (as.foldl f d) :=
  List.foldlRecOn as f (motive := Dev.StayShut d) (refl d) fun _ hb a _ => hb.trans (h _ a)

theorem redDrop (d : Dev) (n w slot lines : Nat) : Dev.StayShut d (d.redDrop n w slot lines) :=
  (of_wins (Dev.count_wins ..)).trans (onWindow _ n w fun _ h => h)

theorem redLate (v : Variant) (d : Dev) (e : WinEntry) (l : RedHeld) : Dev.StayShut d (d.redLate v e l).2 := by
  unfold Dev.redLate
  dsimp only
  split
  · exact redDrop d _ _ _ _
  · split
    · exact redDrop d _ _ _ _
    · split_ifs
      · exact redDrop d _ _ _ _
      · exact of_wins (by simp)
      · exact of_wins (by simp)
      · exact of_wins (by simp)

end Dev.StayShut

/-! ## The close of a window (R277, R278, R370 to R375) -/

/-- A close shuts its own window and opens none. -/
theorem Dev.closeBody_shuts (v : Variant) (d : Dev) (e : WinEntry) :
    Dev.StayShut d (d.closeBody v e).2.2 ∧ ((d.closeBody v e).2.2.window e.slice e.window).shut := by
  unfold Dev.closeBody
  extract_lets n w x held step bitmap now def_ gone dropped k result hash counted closed noted late captured p failed journaled compared watched
  have hclosed : Dev.StayShut d closed :=
    (Dev.StayShut.of_wins (Dev.count_wins ..)).trans (Dev.StayShut.onWindow counted n w fun _ _ => ⟨rfl, rfl⟩)
  have hshut : (closed.window n w).shut := by
    rw [show closed.window n w = _ from Dev.window_onWindow ..]
    exact ⟨rfl, rfl⟩
  have hlate : Dev.StayShut closed late :=
    (Dev.StayShut.of_wins (u := noted) rfl).trans (Dev.StayShut.foldl (fun y l => Dev.StayShut.redLate v y e l) _ noted)
  have hp : p.d.wins = late.wins := (Dev.publish_wins ..).trans (Dev.capture_wins ..)
  have hfailed : failed.wins = late.wins := by
    simp only [failed]
    split
    · simp [hp]
    · split <;> simp [hp]
  have hcompared : compared.wins = late.wins := by
    have hj : journaled.wins = late.wins := (Dev.journalWindow_wins ..).trans hfailed
    simp only [compared]
    split
    · exact hj
    · split <;> simp [hj]
  have hwatched : watched.wins = late.wins := by
    simp only [watched]
    clear_value result
    cases result with
    | none => exact hcompared
    | some r => exact (Dev.watch_wins ..).trans hcompared
  have hrest : Dev.StayShut closed watched := hlate.trans (.of_wins hwatched)
  exact ⟨hclosed.trans hrest, hrest n w hshut⟩

/-- A line of the aperture opens no window, where the close that it may bring about opens none. -/
theorem Dev.StayShut.storeWith (v : Variant) {fin : Dev → WinEntry → Dev} (h : ∀ d e, Dev.StayShut d (fin d e)) (d : Dev)
    (n w slot off : Nat) (step : W64) (remote : Bool) (data : List W8) :
    Dev.StayShut d (d.storeWith v fin n w slot off step remote data).2 := by
  unfold Dev.storeWith
  iterate 3 refine iteInduction (motive := fun r : W8 × Dev => Dev.StayShut d r.2) (fun _ => refl d) fun _ => ?_
  extract_lets x
  iterate 2 refine iteInduction (motive := fun r : W8 × Dev => Dev.StayShut d r.2) (fun _ => refl d) fun _ => ?_
  split
  · exact refl d
  extract_lets r kept y
  have hr : Dev.StayShut d r.d := of_wins (Dev.virtStore_wins ..)
  have hkept : Dev.StayShut d kept := hr.trans (onWindow r.d n w fun _ h => h)
  refine iteInduction (motive := fun r : W8 × Dev => Dev.StayShut d r.2) (fun _ => refl d) fun _ => ?_
  split
  · split
    · exact redLate v d _ _
    · exact redDrop d _ _ _ _
  split
  · exact refl d
  split
  · exact onWindow d n w fun _ h => h
  split
  · exact hr
  dsimp only
  split
  · exact hkept.trans (h _ _)
  · exact hkept

/-- A close, with every close that its forwards bring about, opens no window; one that is made at all shuts its own. -/
theorem Dev.closeChain_shuts (v : Variant) (k : Nat) (d : Dev) (e : WinEntry) :
    Dev.StayShut d (Dev.closeChain v k d e) ∧ (k ≠ 0 → ((Dev.closeChain v k d e).window e.slice e.window).shut) := by
  induction k generalizing d e with
  | zero => exact ⟨.refl d, fun h => absurd rfl h⟩
  | succ k ih =>
    obtain ⟨hbody, hshut⟩ := Dev.closeBody_shuts v d e
    suffices hrest : Dev.StayShut (d.closeBody v e).2.2 (Dev.closeChain v (k + 1) d e) from
      ⟨hbody.trans hrest, fun _ => hrest _ _ hshut⟩
    simp only [Dev.closeChain]
    split
    · exact .refl _
    · split
      · exact .refl _
      · split
        · exact .foldl (fun y l => .storeWith v (fun y e => (ih y e).1) y _ _ _ _ _ _ _) _ _
        · refine (Dev.StayShut.of_wins ?_).trans (.foldl (fun y l => .of_wins (Dev.nimRequest_wins ..)) _ _)
          rfl

theorem Dev.closeWindow_shuts (v : Variant) (d : Dev) (e : WinEntry) : ((d.closeWindow v e).window e.slice e.window).shut :=
  (Dev.closeChain_shuts v 4096 d e).2 (by decide)

/-! ## A line written to the aperture (R276, R370) -/

@[simp] theorem Dev.onWindow_outbox (d : Dev) (n w : Nat) (f : Window → Window) : (d.onWindow n w f).outbox = d.outbox := rfl
@[simp] theorem Dev.onWindow_quire (d : Dev) (n w : Nat) (f : Window → Window) : (d.onWindow n w f).quire = d.quire := rfl

theorem Dev.window_send (d : Dev) (m : OutMsg) (n w : Nat) : (d.send m).window n w = d.window n w := rfl

/-- A window that has taken a line into one of its slots. -/
def Window.takes (x : Window) (l : RedHeld) (remote : Bool) : Window :=
  { x with step := some l.step, fresh := putHeld x.fresh l
           remote := if remote then l.slot :: x.remote.filter (· != l.slot) else x.remote }

section
variable {v : Variant} {d : Dev} {n w slot off : Nat} {e : WinEntry} {data : List W8}

/-- A line of the aperture comes to an open window: the window's slot takes lines there. -/
structure Dev.TakesLine (v : Variant) (d : Dev) (n w slot off : Nat) (data : List W8) (e : WinEntry) : Prop where
  present : n < v.sectors
  unfenced : (d.hub n).fenced = false
  whole : off % 64 = 0 ∧ data.length = 64
  unblocked : (d.window n w).blocked = none
  kept : (d.window n w).abandoned = false
  entry : (d.window n w).entry = some e
  isOpen : (d.window n w).isOpen = true
  inside : slot < e.slots ∧ off < e.slotBytes
  live : (d.window n w).expect = none

/-- What an open window does with a line: it fails on one that carries another step, and stores any other. -/
theorem Dev.redStore_open (h : Dev.TakesLine v d n w slot off data e) (step : W64) (remote : Bool) :
    let x := d.window n w
    let r := d.virtStore v e.ctx (d.evalMember n) (e.slotBuf.toNat + slot * e.slotBytes + off) (data.take (min 64 (e.slotBytes - off)))
    let u := r.d.onWindow n w (·.takes ⟨slot, off / 64, step, data⟩ remote)
    d.redStore v n w slot off step remote data =
      if x.step.isSome && x.step != some step then (sDone, d.onWindow n w fun y => { y with failed := some (y.failed.getD step) })
      else if r.st ≠ 0 then (r.st, r.d)
      else (sDone, if (u.window n w).waiting && (u.window n w).complete e (u.deferredOf e) then u.closeWindow v e else u) := by
  intro x r u
  unfold Dev.redStore Dev.storeWith
  rw [if_neg (not_le.2 h.present), if_neg (by rw [h.unfenced]; decide), if_neg (by simpa using h.whole)]
  dsimp only
  rw [if_neg (by rw [h.unblocked]; decide), if_neg (by rw [h.kept]; decide), h.entry]
  dsimp only
  rw [if_neg (by simpa using h.inside), if_neg (by rw [h.isOpen]; decide), h.live,
    if_neg (by simp)]
  simp only [x, r, u, Window.takes]

end

/-! ## The commands -/

theorem exec_redLineWrite (n : Fin 12) (l : RedLine) (s : State) :
    let r := s.dev.redStore s.fuse.variant n.val l.window.toNat l.slot.toNat l.offset l.step l.remote l.data
    exec (.redLineWrite n l) s = .next (s.withDev (r.2.send (.sliceResp 0 r.1 []))) := rfl

/-- POLICY's two bits (R368). -/
theorem WinEntry.policy_eq (e : WinEntry) : e.policy = (e.mode.extractLsb' 4 2).toNat := by
  rw [WinEntry.policy, BitVec.extractLsb'_toNat, Nat.shiftRight_eq_div_pow]

section
variable {n : Fin 12} {w : W8} {s : State} {e : WinEntry}

/-- What WINDOW_GRACE_EXPIRY does with a due window outside any replay (R369, R371). -/
theorem exec_windowGraceExpiry (hblock : (s.dev.window n.val w.toNat).blocked = none) (hentry : (s.dev.window n.val w.toNat).entry = some e)
    (hopen : (s.dev.window n.val w.toNat).isOpen = true) (hlive : (s.dev.window n.val w.toNat).expect = none)
    (hwait : (s.dev.window n.val w.toNat).waiting = false) (hdue : e.closeTick.toNat ≤ s.dev.tick.number.toNat) :
    exec (.windowGraceExpiry n w) s = .next (s.withDev
      (if e.mode.extractLsb' 4 2 = 2 ∧ (s.dev.window n.val w.toNat).complete e [] = false then
        (s.dev.requestStretch s.dev.tick.number e.wait).onWindow n.val w.toNat fun y => { y with waiting := true }
      else s.dev.closeWindow s.fuse.variant e)) := by
  have hpolicy : e.policy = 2 ↔ e.mode.extractLsb' 4 2 = 2 := by
    rw [WinEntry.policy_eq, ← BitVec.toNat_inj]
    rfl
  show execWindowGraceExpiry n w s = _
  unfold execWindowGraceExpiry
  rw [State.onDev_next]
  dsimp only
  rw [hblock, hentry]
  dsimp only
  rw [if_neg (by rw [hopen, hwait]; simpa using hdue), hlive, if_neg (by simp)]
  simp [hpolicy]

theorem exec_windowWaitExpiry (hentry : (s.dev.window n.val w.toNat).entry = some e) (hopen : (s.dev.window n.val w.toNat).isOpen = true)
    (hlive : (s.dev.window n.val w.toNat).expect = none) (hwait : (s.dev.window n.val w.toNat).waiting = true) :
    exec (.windowWaitExpiry n w) s = .next (s.withDev (s.dev.closeWindow s.fuse.variant e)) := by
  show execWindowWaitExpiry n w s = _
  unfold execWindowWaitExpiry
  rw [State.onDev_next]
  dsimp only
  rw [hentry]
  dsimp only
  rw [if_pos (by rw [hopen, hlive, hwait]; decide)]

end

end Sys2Proof.Machine

namespace Sys2Proof.Proofs

open Sys2Proof.Machine Sys2Proof.Claims

theorem windowTakesLines : WindowTakesLines := by
  intro n l e s d x hn hfence hoff hlen hblock hkept hentry hopen hslot hin hlive
  have htakes : Dev.TakesLine s.fuse.variant d n.val l.window.toNat l.slot.toNat l.offset l.data e :=
    ⟨hn, hfence, ⟨hoff, hlen⟩, hblock, hkept, hentry, hopen, ⟨hslot, hin⟩, hlive⟩
  have hstore := Dev.redStore_open htakes l.step l.remote
  refine ⟨fun hstep => ?stored, fun w hw hne => ?failed⟩
  case stored =>
    intro r hst hwait hx
    have hsame : ¬ (x.step.isSome && x.step != some l.step) = true := by
      rcases hstep with h | h <;> rw [h] <;> simp
    let held : RedHeld := ⟨l.slot.toNat, l.offset / 64, l.step, l.data⟩
    let u : Dev := r.d.onWindow n.val l.window.toNat (·.takes held l.remote)
    have hu : u.window n.val l.window.toNat = x.takes held l.remote := by rw [Dev.window_onWindow, hx]
    have hgoes : ¬ ((u.window n.val l.window.toNat).waiting && (u.window n.val l.window.toNat).complete e (u.deferredOf e)) = true := by
      rw [hu, show (x.takes held l.remote).waiting = false from hwait, Bool.false_and]
      exact Bool.false_ne_true
    refine ⟨u.send (.sliceResp 0 sDone []), ?_, ?_, ?_, ?_, ?_⟩
    · rw [exec_redLineWrite, hstore, if_neg hsame, if_neg (not_not.2 hst), if_neg hgoes]
    · rw [Dev.send_outbox, Dev.onWindow_outbox]
    · rw [Dev.window_send, hu]; rfl
    · rw [Dev.window_send, hu]; rfl
    · rw [Dev.send_quire, Dev.onWindow_quire]
  case failed =>
    have hother : (x.step.isSome && x.step != some l.step) = true := by rw [hw]; simpa using hne
    rw [exec_redLineWrite, hstore, if_pos hother]

theorem windowsCloseOnTime : WindowsCloseOnTime := by
  intro n w e s d x closes hblock hentry hslice hwindow hopen hlive
  have hclosed : closes (.next (s.withDev (d.closeWindow s.fuse.variant e))) := by
    have hshut := Dev.closeWindow_shuts s.fuse.variant d e
    rw [hslice, hwindow] at hshut
    exact ⟨_, rfl, hshut⟩
  refine ⟨fun hwait hdue => ?grace, fun hwait => ?wait⟩
  case grace =>
    have hexec := exec_windowGraceExpiry hblock hentry hopen hlive hwait hdue
    refine ⟨fun h => ?_, fun hpolicy hmissing => ?_⟩
    · rw [hexec, if_neg (by rintro ⟨hp, hc⟩; rcases h with h | h; exacts [h hp, by rw [hc] at h; cases h])]
      exact hclosed
    · rw [hexec, if_pos ⟨hpolicy, hmissing⟩]
  case wait =>
    rw [exec_windowWaitExpiry hentry hopen hlive hwait]
    exact hclosed

/-- Settles O32: an open window stores a line of its step, and no part of a close, nor any close that its forward brings about, opens a
window that is shut. -/
theorem windowsTakeLinesAndClose : Obligations.WindowsTakeLinesAndClose := ⟨windowTakesLines, windowsCloseOnTime⟩

end Sys2Proof.Proofs
end

section
/-!
SUPPORT. Streams (R290 to R304): what begins and ends one, and the move of one line of a COPY entry within a tile's memory.
-/

namespace Sys2Proof.Machine

open Sys2Proof Sys2Proof.Claims

/-! ## Numbers of a record (R8) -/

theorem recNat_lt (b : List W8) (off n : Nat) : recNat b off n < 256 ^ n :=
  (leNat_lt _).trans_le (Nat.pow_le_pow_right (by decide) (List.length_take_le ..))

/-! ## Sectors in which no slice waits (R61) -/

theorem Dev.tryStart_idle {v : Variant} {d : Dev} {t : TileRef} (h : (d.tile t).waiting = []) : d.tryStart v t = d := by
  simp [Dev.tryStart, h]

/-- Where no slice waits, what releases holds starts none. -/
theorem Dev.tryStarts_idle {v : Variant} {d : Dev} {n : Nat} (h : noneWaits d n) : d.tryStarts v n = d :=
  List.foldlRecOn _ _ (motive := (· = d)) rfl fun _ he k hk => by
    rw [he]; exact Dev.tryStart_idle (h k (List.mem_range.1 hk))

theorem noneWaits_congr {d e : Dev} {n : Nat} (h : ∀ t, (e.tile t).waiting = (d.tile t).waiting) (hd : noneWaits d n) : noneWaits e n :=
  fun k hk => (h _).trans (hd k hk)

theorem noneWaits_of_tiles {d e : Dev} {n : Nat} (h : e.tiles = d.tiles) : noneWaits d n → noneWaits e n :=
  noneWaits_congr fun t => by rw [Dev.tile, Dev.tile, h]

/-! ## Tokens of streams (R97, R303) -/

theorem Stream.ref_eq (x : Stream) (n : Fin 12) : x.ref n.val = ⟨n, x.tile⟩ := by
  simp [Stream.ref]

section
variable (d : Dev) (t : TileRef) (a : TensorArgs) (src st : W8) (detail : W32)

theorem Dev.finishArgs_waiting (u : TileRef) : ((d.finishArgs t a src st detail).tile u).waiting = (d.tile u).waiting := by
  by_cases hu : u = t
  · subst hu; rw [Dev.finishArgs, Dev.tile_onTile]; rfl
  · rw [Dev.finishArgs, Dev.onTile, Dev.tile_setTile_ne d _ hu]

theorem Dev.finishArgs_token (hte : a.te = true) : ((d.finishArgs t a src st detail).tile t).regs.rt a.token =
    { state := .set, status := st, suppressed := false, origin := a.token, detail := detail, src := src } := by
  have rt_ws : ∀ (r : CoreRegs) (y : Summary), (if a.se then r.ws a.sreg y else r).rt a.token = r.rt a.token := fun r y => by
    split <;> rfl
  rw [Dev.finishArgs, Dev.tile_onTile]
  show CoreRegs.rt (if a.se then _ else _) a.token = _
  rw [rt_ws, if_pos hte, CoreRegs.rt_wt, if_pos rfl]

end

/-- A stream that ends with DONE leaves its status and no more. -/
theorem Dev.endStream_done (v : Variant) (d : Dev) (t : TileRef) (a : TensorArgs) (put : Bool) (ctx : Nat) (tag : W16) (detail : W32) :
    d.endStream v t a put ctx tag 0 detail = d.finishArgs t a (if put then 0x23 else 0x21) 0 detail := by
  cases put <;> rfl

/-! ## Begin (R290, R302) -/

/-- The stream that a ready head becomes at its header `b`, with its buffer at `place`, before its first entry is read. -/
def Dev.newStream (d : Dev) (t : TileRef) (q : Queued) (b : List W8) (place : Nat) : Stream :=
  { id := (d.sector t.sector.val).nextStream, tile := t.tile, put := decide (q.opcode = 3), ctx := q.ctx, list := q.da, args := q.args,
    entries := recNat b 0 4, buffer := recNat b 4 4, rate := recNat b 8 2, priority := recNat b 0x0A 1,
    tag := BitVec.ofNat 16 (recNat b 0x0C 2), starts := BitVec.ofNat 64 (recNat b 0x10 8), place := place, startTick := d.tick.number,
    step := d.stepOf t.sector.val }

/-- The first of a sector's ready heads begins once its header passes and a slot and a buffer are free. -/
theorem Dev.beginStream_begins {v : Variant} {d : Dev} {t : TileRef} {q : Queued} {place : Nat} (hready : d.drvReady t = some q)
    (hfirst : ∀ k, k < 16 → ∀ y, d.drvReady (tileOf (16 * t.sector.val + k)) = some y → q.reached.getD 0 ≤ y.reached.getD 0)
    (hread : (d.listBytes v t q.ctx q.da 0).st = 0)
    (hheader : headerOk (d.listBytes v t q.ctx q.da 0).data (descOf q.da).e0 (d.poolStart t.sector.val) = true)
    (hslot : (d.sector t.sector.val).streams.length < 64)
    (hplace : d.placeBuffer t.sector.val (recNat (d.listBytes v t q.ctx q.da 0).data 4 4) = some place) :
    let e := (d.listBytes v t q.ctx q.da 0).d.unqueue t q
    let r := e.loadEntry v t.sector.val (e.newStream t q (d.listBytes v t q.ctx q.da 0).data place)
    d.beginStream v t = r.2.onSector t.sector.val fun y => { y with streams := y.streams ++ [r.1], nextStream := y.nextStream + 1 } := by
  intro e r
  have hnoneBefore : ¬ ((List.range 16).any fun k =>
      (d.drvReady (tileOf (16 * t.sector.val + k))).any fun y => decide (y.reached.getD 0 < q.reached.getD 0)) = true := by
    simp only [List.any_eq_true, Option.any_eq_true, decide_eq_true_eq, List.mem_range]
    rintro ⟨k, hk, y, hy, hlt⟩
    exact absurd (hfirst k hk y hy) (Nat.not_le.2 hlt)
  unfold Dev.beginStream
  dsimp only
  rw [hready]
  dsimp only
  rw [if_neg hnoneBefore, if_neg (not_not.2 hread), hheader, if_neg (by decide), if_neg (Nat.not_le.2 hslot), hplace]
  rfl

/-! ## Complete and cancel (R303, R304) -/

theorem Dev.cancelComplete_gone {d : Dev} {t : TileRef} {q : Queued} (hrun : (d.tile t).active 2 = some q) (hop : q.opcode = 2)
    (hgone : ∀ x ∈ (d.sector t.sector.val).streams, x.tile = t.tile → x.target = false) :
    d.cancelComplete t = d.finish t q { st := if q.moved = 0 then sDoneEmpty else sDone } := by
  have hnone : ¬ (q.opcode ≠ 2 ∨ ((d.sector t.sector.val).streams.any fun x => decide (x.tile = t.tile) && x.target) = true) := by
    simpa [hop] using hgone
  rw [Dev.cancelComplete, hrun]
  exact if_neg hnone

/-! ## Lines of a tile's memory (R293, R552) -/

/-- A whole line is one piece. -/
theorem pieces_line {a : Nat} (h : a % 64 = 0) : pieces a 64 = [(a, 64)] := by
  simp [pieces, piecesAux, h]

theorem Dev.kindRead_tileLine (v : Variant) {t : TileRef} (ctx : Nat) {d : Dev} {a : Nat} (ha : a % 64 = 0)
    (hgood : d.tileLineBad t (a / 64) = false) :
    Dev.kindRead v t ctx 0 d a 64 = ⟨0, Mem.read d.tileMem (t.ix * tileMemSize + a) 64, d⟩ := by
  have hline : d.tileRead t a 64 = ⟨0, Mem.read d.tileMem (t.ix * tileMemSize + a) 64, d⟩ := by simp [Dev.tileRead, hgood]
  show readPieces (fun x b k => x.tileRead t b k) (pieces a 64) d = _
  rw [pieces_line ha]
  simp [readPieces, hline]

/-- The device once a tile's line has taken 64 bytes: it can be read, whatever it held. -/
def Dev.putTileLine (d : Dev) (t : TileRef) (b : Nat) (bytes : List W8) : Dev :=
  { d with tileMem := Mem.store d.tileMem (t.ix * tileMemSize + b) bytes,
           tileBad := Tab.alter {} d.tileBad t.ix fun s => s.del (b / 64) }

section
variable {d : Dev} {t : TileRef} {b : Nat} {bytes : List W8} (hb : b % 64 = 0) (hlen : bytes.length = 64)
include hb hlen

theorem Dev.tileWrite_line : d.tileWrite t b bytes = ⟨0, [], d.putTileLine t b bytes⟩ := if_pos ⟨hb, hlen⟩

theorem Dev.kindWrite_tileLine (v : Variant) (ctx : Nat) (step : W64) :
    Dev.kindWrite v t ctx 0 step d b bytes = ⟨0, [], d.putTileLine t b bytes⟩ := by
  have htake : bytes.take 64 = bytes := List.take_of_length_le hlen.le
  show writeLines _ (pieces b bytes.length) bytes d = _
  rw [hlen, pieces_line hb]
  simp only [writeLines, htake, Dev.tileWrite_line hb hlen]
  rfl

end

/-- Within the memory of a tile, a line put there changes its own bytes and no byte of any tile besides. -/
theorem Dev.putTileLine_byte (d : Dev) {t u : TileRef} {b c : Nat} {bytes : List W8} (hlen : bytes.length = 64) (hb : b + 64 ≤ tileMemSize)
    (hc : c < tileMemSize) :
    (d.putTileLine t b bytes).tileByte u c = if u = t ∧ b ≤ c ∧ c < b + 64 then bytes.getD (c - b) 0 else d.tileByte u c := by
  have hstore : (d.putTileLine t b bytes).tileByte u c = _ := Mem.store_byte ..
  rw [hstore, hlen]
  unfold tileMemSize at hb hc ⊢
  by_cases hu : u = t
  · subst hu
    simp only [true_and, Nat.add_sub_add_left]
    congr 1
    rw [eq_iff_iff]; omega
  · have hne : u.ix ≠ t.ix := fun h => hu (TileRef.ix_inj.1 h)
    rw [if_neg (by omega), if_neg (fun h => hu h.1)]
    rfl

/-! ## A line of a COPY entry (R294, R298, R300) -/

/-- DONE is noted nowhere: every other status outranks it (R303). -/
theorem Stream.note_done (x : Stream) : x.note 0 = x := by
  have hrank : streamRank x.status ≤ streamRank 0 := by
    unfold streamRank
    split <;> decide
  exact if_neg (Nat.not_lt.2 hrank)

/-- A line that was read and written with DONE, and is not the last of its row, leaves the stream at the next one. -/
theorem Dev.moveOn_done (v : Variant) (d : Dev) (n : Nat) (x : Stream) {on_ : Stream → Stream × Bool}
    (hmore : (on_ { x with waited := false, moved := x.moved + 1 }).2 = false) :
    d.moveOn v n x 0 0 on_ = ((on_ { x with waited := false, moved := x.moved + 1 }).1, d) := by
  unfold Dev.moveOn
  rw [Stream.note_done, Stream.note_done]
  dsimp only
  rw [if_neg (by decide), if_neg (ne_true_of_eq_false hmore)]

theorem Dev.streams_setStream (d : Dev) (n : Nat) (x : Stream) :
    ((d.setStream n x).sector n).streams = (d.sector n).streams.map fun y => if y.id = x.id then x else y := by
  rw [Dev.setStream, Dev.sector_onSector]

/-- Where the next line of a row that is copied is read, and where it is written (R293, R294). -/
abbrev Stream.readAt (x : Stream) : Nat := (drvEntryOf x.cur).sa + x.row * (drvEntryOf x.cur).ss + x.off
abbrev Stream.writeAt (x : Stream) : Nat := (drvEntryOf x.cur).da + x.row * (drvEntryOf x.cur).ds + x.off

/-- One line of a COPY entry within a tile's memory, not the last of its row. -/
theorem Dev.streamStep_tileLine {v : Variant} {d : Dev} {n : Fin 12} {x : Stream} (hspoiled : x.spoiled = false)
    (hmode : (drvEntryOf x.cur).mode = 0) (hsk : (drvEntryOf x.cur).sk = 0) (hdk : (drvEntryOf x.cur).dk = 0)
    (ha : x.readAt % 64 = 0) (hb : x.writeAt % 64 = 0) (hgood : d.tileLineBad ⟨n, x.tile⟩ (x.readAt / 64) = false)
    (hmore : x.off + 64 < (drvEntryOf x.cur).size) :
    d.streamStep v n.val x =
      ({ x with off := x.off + 64, waited := false, moved := x.moved + 1 },
        d.putTileLine ⟨n, x.tile⟩ x.writeAt
          (Mem.read d.tileMem (TileRef.ix ⟨n, x.tile⟩ * tileMemSize + x.readAt) 64)) := by
  have hdelivers : ∀ a : Acc, x.delivers a = a := fun a => by simp [Stream.delivers, hspoiled]
  have hopen : d.copyBlocked n.val (drvEntryOf x.cur) = false := by simp [Dev.copyBlocked, hsk, hdk]
  unfold Dev.streamStep
  rw [hmode]
  show d.copyLine v n.val x = _
  unfold Dev.copyLine
  dsimp only
  rw [hsk, hdk, hopen, if_neg (by simp), if_neg (by decide)]
  simp only [OfNat.zero_ne_ofNat, if_false, hdelivers, Stream.ref_eq, Dev.kindRead_tileLine v _ ha hgood]
  rw [if_neg (by decide)]
  simp only [if_true, Dev.kindWrite_tileLine hb (Mem.read_length ..)]
  exact Dev.moveOn_done v _ _ x (decide_eq_false (Nat.not_le.2 hmore))

/-! ## The count of waits (R300) -/

@[simp] theorem Dev.count_tiles (d : Dev) (l : CsrLoc) (lo w k : Nat) : (d.count l lo w k).tiles = d.tiles := by rw [Dev.count_frame]
@[simp] theorem Dev.count_tileMem (d : Dev) (l : CsrLoc) (lo w k : Nat) : (d.count l lo w k).tileMem = d.tileMem := by rw [Dev.count_frame]
@[simp] theorem Dev.count_sectors (d : Dev) (l : CsrLoc) (lo w k : Nat) : (d.count l lo w k).sectors = d.sectors := by rw [Dev.count_frame]

theorem setField_whole (w : W32) (v : Nat) : setField w 0 32 v = BitVec.ofNat 32 v := by
  have hmask : (BitVec.ofNat 32 ((2 ^ 32 - 1) * 2 ^ 0) : W32) = BitVec.allOnes 32 := by decide
  unfold setField
  dsimp only
  rw [hmask, BitVec.not_allOnes, BitVec.and_zero, BitVec.zero_or, BitVec.and_allOnes, Nat.pow_zero, Nat.mul_one]

theorem Dev.fld_whole (d : Dev) (l : CsrLoc) : d.fld l 0 32 = (d.reg l).toNat := by
  rw [Dev.fld, Nat.pow_zero, Nat.div_one]
  exact Nat.mod_eq_of_lt (d.reg l).isLt

/-- A counter of 32 bits saturates. -/
theorem Dev.fld_count_whole (d : Dev) {l : CsrLoc} (k : Nat) (h : l.desc.isSome = true) :
    (d.count l 0 32 k).fld l 0 32 = min (d.fld l 0 32 + k) (2 ^ 32 - 1) := by
  have hmin : min (d.fld l 0 32 + k) (2 ^ 32 - 1) < 2 ^ 32 := (min_le_right ..).trans_lt (by decide)
  rw [Dev.fld_whole (d.count l 0 32 k), Dev.count, Dev.setFld, Dev.reg_setReg _ _ _ h, setField_whole, BitVec.toNat_ofNat,
    Nat.mod_eq_of_lt hmin]

theorem streamWaits_desc (t : TileRef) : (At.tile t 0x520).desc.isSome = true := by
  have h : ((Block.regs .sect).find? fun x => x.covers 0x520).isSome = true := by decide
  exact h

/-! ## The commands -/

theorem exec_streamBegin (t : TileRef) (s : State) :
    exec (.streamBegin t) s = .next (s.withDev ((s.dev.beginStream s.fuse.variant t).settled s.fuse.variant t)) := rfl

theorem exec_drvCancelComplete (t : TileRef) (s : State) :
    exec (.drvCancelComplete t) s = .next (s.withDev ((s.dev.cancelComplete t).settled s.fuse.variant t)) := rfl

/-- STREAM_LINE_RESPONSE of a stream that may go on, to a tile's memory (R298, R300). -/
theorem exec_streamLineResponse {n : Fin 12} {id : Nat} (waits : Nat) {x : Stream} {s : State} (hid : s.dev.stream n.val id = some x)
    (hgo : s.dev.eligible s.fuse.variant n.val x = true) (hdk : (drvEntryOf x.cur).dk = 0) :
    let r := s.dev.streamStep s.fuse.variant n.val x
    exec (.streamLineResponse n ⟨id, waits⟩) s = .next (s.withDev
      (((r.2.setStream n.val r.1).count (At.tile ⟨n, x.tile⟩ 0x520) 0 32 waits).tryStarts s.fuse.variant n.val)) := by
  intro r
  show Host.Outcome.next (s.withDev (s.dev.streamLine s.fuse.variant n.val id waits)) = _
  unfold Dev.streamLine
  rw [hid]
  dsimp only
  rw [hgo, if_neg (by decide), if_pos hdk, Stream.ref_eq]

/-- STREAM_COMPLETE of a stream that was delivered with DONE (R303). -/
theorem exec_streamComplete {n : Fin 12} {id : Nat} {x : Stream} {s : State} (hid : s.dev.stream n.val id = some x) (hdone : x.done = true)
    (hstatus : x.status = 0) :
    exec (.streamComplete n id) s = .next (s.withDev
      (((s.dev.onSector n.val fun y => { y with streams := y.streams.filter fun z => z.id != id }).finishArgs ⟨n, x.tile⟩ x.args
        (if x.put then 0x23 else 0x21) 0 x.detail).tryStarts s.fuse.variant n.val)) := by
  show Host.Outcome.next (s.withDev (s.dev.streamComplete s.fuse.variant n.val id)) = _
  unfold Dev.streamComplete
  rw [hid]
  dsimp only
  rw [hdone, if_neg (by decide), hstatus, Dev.endStream_done, Stream.ref_eq]

end Sys2Proof.Machine
end

section
/-!
PROOFS. Streams from begin to end, and a line that one moves (R290 to R304).
-/

namespace Sys2Proof.Proofs

open Sys2Proof.Machine Sys2Proof.Claims

theorem streamsBeginAndEnd : StreamsBeginAndEnd := by
  refine ⟨?begins, ?completes, ?cancels⟩
  case begins =>
    intro t q place s n h hready hfirst hread hheader hslot hplace
    have hbegins := Dev.beginStream_begins hready hfirst hread hheader hslot hplace
    have htag : recNat h.data 0x0C 2 < 2 ^ 16 := recNat_lt ..
    have hstarts : recNat h.data 0x10 8 < 2 ^ 64 := recNat_lt ..
    have htick : (h.d.unqueue t q).tick.number = h.d.tick.number := by rw [Dev.tick_of_steady (Dev.unqueue_steady ..)]
    refine ⟨_, (h.d.unqueue t q).newStream t q h.data place, ?_, rfl, rfl, rfl, rfl, rfl, rfl, rfl, rfl, ?_, ?_, rfl, htick, rfl, rfl, rfl⟩
    · rw [exec_streamBegin, hbegins]
    · exact Nat.mod_eq_of_lt htag
    · exact Nat.mod_eq_of_lt hstarts
  case completes =>
    intro n id x s hid hdone hstatus hwaits
    let freed := s.dev.onSector n.val fun y => { y with streams := y.streams.filter fun z => z.id != id }
    let u := freed.finishArgs ⟨n, x.tile⟩ x.args (if x.put then 0x23 else 0x21) 0 x.detail
    have hidle : noneWaits u n.val := noneWaits_congr (freed.finishArgs_waiting ⟨n, x.tile⟩ x.args _ 0 x.detail) hwaits
    have hstreams : (freed.sector n.val).streams = (s.dev.sector n.val).streams.filter fun y => y.id != id := by
      rw [Dev.sector_onSector]
    exact ⟨u, by rw [exec_streamComplete hid hdone hstatus, Dev.tryStarts_idle hidle], hstreams, Dev.finishArgs_token _ _ x.args _ 0 x.detail⟩
  case cancels =>
    intro t q s hrun hop hgone
    rw [exec_drvCancelComplete, Dev.cancelComplete_gone hrun hop hgone]

theorem copyStreamMovesOneLine : CopyStreamMovesOneLine := by
  intro n id waits x s t e a b hid hgo hwaits hspoiled hmode hsk hdk ha hb _ hbmem hgood hmore
  let line := Mem.read s.dev.tileMem (t.ix * tileMemSize + a) 64
  let y : Stream := { x with off := x.off + 64, waited := false, moved := x.moved + 1 }
  let moved := (s.dev.putTileLine t b line).setStream n.val y
  have hstep : s.dev.streamStep s.fuse.variant n.val x = (y, s.dev.putTileLine t b line) :=
    Dev.streamStep_tileLine hspoiled hmode hsk hdk ha hb hgood hmore
  let u := moved.count (At.tile t 0x520) 0 32 waits
  have hidle : noneWaits u n.val := noneWaits_of_tiles (moved.count_tiles ..) hwaits
  refine ⟨u, ?_, ?_, fun t' c hc => ?_, ?_⟩
  · rw [exec_streamLineResponse waits hid hgo hdk, hstep, Dev.tryStarts_idle hidle]
  · exact moved.fld_count_whole waits (streamWaits_desc t)
  · have hbyte : u.tileByte t' c = (s.dev.putTileLine t b line).tileByte t' c := by
      rw [Dev.tileByte, Dev.count_tileMem]; rfl
    rw [hbyte, Dev.putTileLine_byte s.dev (Mem.read_length ..) hbmem hc]
    refine if_ctx_congr Iff.rfl (fun hin => ?_) fun _ => rfl
    have hlt : c - b < 64 := by omega
    simp [Mem.read, hlt, Dev.tileByte, Nat.add_assoc]
  · have hsector : u.sector n.val = moved.sector n.val := by rw [Dev.sector, Dev.count_sectors]; rfl
    rw [hsector]
    exact Dev.streams_setStream ..

/-- Settles O25: a stream's begin, end and cancel by the branch that the premises choose, and a COPY line as the one piece that it is. -/
theorem streamsMoveLines : Obligations.StreamsMoveLines := ⟨streamsBeginAndEnd, copyStreamMovesOneLine⟩

end Sys2Proof.Proofs
end

section
/-!
SUPPORT. Troughs (R308 to R319, R399): the words of both banks in the order in which they leave, what a push, a swap and a run of pushes make
of them, and what a host queue holds.
-/

namespace Sys2Proof

/-- What a table holds at a key is the value of the first entry found there. -/
theorem Tab.look_eq_find? {α : Type} (d : α) (m : Tab α) (k : Nat) :
    Tab.look d m k = ((m.find? fun e => e.1 == k).map (·.2)).getD d := by
  induction m with
  | nil => rfl
  | cons e r ih =>
    obtain ⟨a, b⟩ := e
    by_cases h : a = k <;> simp [Tab.look, h, ih]

namespace Machine

/-! ## Banks (R308, R310, R311) -/

/-- The words that a trough holds, the oldest first. -/
def Trough.words (x : Trough) : List TWord := x.drain ++ x.fill

theorem Trough.full_iff (x : Trough) : x.full = true ↔ 64 ≤ x.fill.length := decide_eq_true_iff

/-- A streaming trough swaps once its drain bank is empty and its fill bank full or at the end of a packet. -/
theorem Trough.canSwap_iff (x : Trough) : x.canSwap = true ↔ x.producer ≠ 0xFF ∧ x.ticked = false ∧ x.drain = [] ∧
    (64 ≤ x.fill.length ∨ ∃ w, x.fill.getLast? = some w ∧ w.endMark = true) := by
  simp [Trough.canSwap, Trough.full_iff, Option.any_eq_true, and_assoc]

section
variable {x : Trough} (hkeep : x.dropPending = false)
include hkeep

/-- A swap that drops no packet hands the whole fill bank over. -/
theorem Trough.swap_keeping : x.swap = { x with fill := [], drain := x.fill } := by
  simp [Trough.swap, hkeep]

theorem Trough.words_swap (hdrain : x.drain = []) : x.swap.words = x.words := by
  simp [Trough.words, Trough.swap_keeping hkeep, hdrain]

/-- A word enters behind all that the trough holds, whether or not a swap that is due comes first (R311, log 31). -/
theorem Trough.words_push (w : TWord) : (x.push w).words = x.words ++ [w] := by
  have append_fill : ∀ y : Trough, ({ y with fill := y.fill ++ [w] } : Trough).words = y.words ++ [w] := fun y =>
    (List.append_assoc ..).symm
  unfold Trough.push
  split
  · next hswap =>
    obtain ⟨-, -, hdrain, -⟩ := x.canSwap_iff.1 hswap
    rw [append_fill, Trough.words_swap hkeep hdrain]
  · exact append_fill x

theorem Trough.dropPending_push (w : TWord) : (x.push w).dropPending = false := by
  unfold Trough.push
  split
  · rw [Trough.swap_keeping hkeep]; exact hkeep
  · exact hkeep

end

/-- Words enter in order until none is left, or the fill bank is full and no swap is due (R311, log 51). -/
theorem Trough.fillFrom_takes (ws : List TWord) {x : Trough} (hkeep : x.dropPending = false) :
    ∃ m, m ≤ ws.length ∧ (Trough.fillFrom ws x).1 = ws.drop m ∧ (Trough.fillFrom ws x).2.words = x.words ++ ws.take m ∧
      (m = ws.length ∨ ((Trough.fillFrom ws x).2.full = true ∧ (Trough.fillFrom ws x).2.canSwap = false)) := by
  induction ws generalizing x with
  | nil => exact ⟨0, le_rfl, rfl, (List.append_nil _).symm, .inl rfl⟩
  | cons w ws ih =>
    simp only [Trough.fillFrom]
    split
    · next hstop =>
      obtain ⟨hfull, hswap⟩ : x.full = true ∧ x.canSwap = false := by simpa using hstop
      exact ⟨0, Nat.zero_le _, rfl, (List.append_nil _).symm, .inr ⟨hfull, hswap⟩⟩
    · obtain ⟨m, hm, hleft, hwords, hend⟩ := ih (Trough.dropPending_push hkeep w)
      refine ⟨m + 1, Nat.succ_le_succ hm, hleft, ?_, hend.imp_left (congrArg (· + 1))⟩
      rw [hwords, Trough.words_push hkeep, List.append_assoc]
      rfl

/-! ## Troughs and host queues by number -/

@[simp] theorem Dev.trough_onTrough (d : Dev) (n k : Nat) (f : Trough → Trough) : (d.onTrough n k f).trough n k = f (d.trough n k) := by
  rw [Dev.trough, Dev.onTrough, Dev.sector_onSector, Tab.look_alter, if_pos rfl]
  rfl

@[simp] theorem Dev.hostWords_onTrough (d : Dev) (n k q : Nat) (f : Trough → Trough) : (d.onTrough n k f).hostWords q = d.hostWords q := rfl

@[simp] theorem Dev.hostWords_setHostWords (d : Dev) (q : Nat) (ws : List TWord) : (d.setHostWords q ws).hostWords q = ws := by
  have hlook : ∀ e : Dev, e.hostWords q = Tab.look [] e.links.hostBuf q := fun e => by
    rw [Tab.look_eq_find?, Dev.hostWords]
    split <;> next h => rw [h]; rfl
  rw [hlook]
  exact Tab.look_put_self ..

/-! ## The commands -/

theorem exec_troughAutoSwap (n : Fin 12) (k : Fin 32) (s : State) : exec (.troughAutoSwap n k) s = .next (s.withDev
    (if (s.dev.trough n.val k.val).canSwap then s.dev.onTrough n.val k.val (·.swap) else s.dev)) := rfl

/-- TROUGH_STALE_TIMEOUT of a trough that counts stale ticks and holds a word (R319). -/
theorem exec_troughStaleTimeout {n : Fin 12} {k : Fin 32} {s : State} (hstale : (s.dev.trough n.val k.val).stale ≠ 0)
    (hwords : (s.dev.trough n.val k.val).fill ≠ [] ∨ (s.dev.trough n.val k.val).drain ≠ []) :
    let x := s.dev.trough n.val k.val
    let d := if x.staleRaised then s.dev
      else ((s.dev.count (At.sector n.val 0x510) 0 32 1).onTrough n.val k.val fun y => { y with staleRaised := true }).raise 0x0B
        { partition := n.val, arg := [BitVec.ofNat 8 k.val, BitVec.ofNat 8 x.fill.length, BitVec.ofNat 8 x.drain.length] }
    exec (.troughStaleTimeout n k) s =
      .next (s.withDev (if x.force = true ∧ x.drain = [] then d.onTrough n.val k.val (·.swap) else d)) := by
  intro x d
  have hidle : ¬ (x.stale = 0 ∨ (x.fill.isEmpty ∧ x.drain.isEmpty)) := by
    rintro (hzero | ⟨hfill, hdrain⟩)
    · exact hstale hzero
    · exact hwords.elim (· (List.isEmpty_iff.1 hfill)) (· (List.isEmpty_iff.1 hdrain))
  show execTroughStaleTimeout n k s = _
  unfold execTroughStaleTimeout
  rw [State.onDev_next]
  dsimp only
  rw [if_neg hidle]
  simp only [Bool.and_eq_true, List.isEmpty_iff]
  rfl

/-- HOST_MESSAGE_DRAIN of a queue that feeds a trough (R399). -/
theorem exec_hostMessageDrain {q : Fin 64} {n k : Nat} {s : State} (hfeeds : s.dev.hostTrough q.val = some (n, k)) :
    let r := Trough.fillFrom (s.dev.hostWords q.val) (s.dev.trough n k)
    exec (.hostMessageDrain q) s = .next (s.withDev ((s.dev.setHostWords q.val r.1).onTrough n k fun _ => r.2)) := by
  intro r
  show Host.Outcome.next (s.withDev (s.dev.drainHost q.val)) = _
  rw [Dev.drainHost, hfeeds]

end Machine

end Sys2Proof
end

section
/-!
PROOFS. Troughs (R308 to R319, R399).
-/

namespace Sys2Proof.Proofs

open Sys2Proof.Machine Sys2Proof.Claims

theorem troughsAreFirstInFirstOut : TroughsAreFirstInFirstOut := by
  refine ⟨fun x w => ⟨fun hkeep => ⟨Trough.words_push hkeep w, Trough.dropPending_push hkeep w⟩, fun hkeep _ => ?swap, fun h => ?empty,
    fun r h => ?pop⟩, fun n k s => ⟨fun hrouted hstream hdrain hdue => ?due, fun hnot => ?notDue⟩⟩
  case swap => rw [Trough.swap_keeping hkeep]; exact ⟨rfl, rfl⟩
  case empty => rw [Trough.pop, h]
  case pop => rw [Trough.pop, h]
  case due => rw [exec_troughAutoSwap, if_pos ((Trough.canSwap_iff _).2 ⟨hrouted, hstream, hdrain, hdue⟩)]
  case notDue =>
    have hswap : ¬ (s.dev.trough n.val k.val).canSwap = true := by
      rw [Trough.canSwap_iff]
      rintro ⟨hrouted, hstream, hdrain, hdue⟩
      rcases hnot with h | h | h | ⟨hroom, hopen⟩
      · exact h hdrain
      · exact hrouted h
      · rw [hstream] at h; cases h
      · rcases hdue with h | ⟨w, hlast, hmark⟩
        · omega
        · rw [hopen w hlast] at hmark; cases hmark
    rw [exec_troughAutoSwap, if_neg hswap, State.withDev_same]

theorem staleTroughsAndHostWords : StaleTroughsAndHostWords := by
  refine ⟨?stale, ?host⟩
  case stale =>
    intro n k s x swaps hstale hwords
    have hexec := exec_troughStaleTimeout hstale hwords
    refine ⟨fun hraised => ?_, fun hraised => ?_⟩
    · rw [hexec, if_pos hraised]
    · rw [hexec, if_neg (ne_true_of_eq_false hraised)]
  case host =>
    intro q n k s hfeeds hkeep ws x
    obtain ⟨m, hm, hleft, hwords, hend⟩ := Trough.fillFrom_takes ws hkeep
    refine ⟨_, m, exec_hostMessageDrain hfeeds, hm, ?_, ?_, ?_⟩
    · rw [Dev.trough_onTrough]; exact hwords
    · rw [Dev.hostWords_onTrough, Dev.hostWords_setHostWords]; exact hleft
    · rw [Dev.trough_onTrough, ← Trough.full_iff]; exact hend

/-- Settles O26: a push appends to the words of both banks whether or not a swap comes first, so a run of them keeps the order of a host
queue. -/
theorem troughsPassWords : Obligations.TroughsPassWords := ⟨troughsAreFirstInFirstOut, staleTroughsAndHostWords⟩

end Sys2Proof.Proofs
end

section
/-!
SUPPORT. Scale records (R324 to R328): the fields of a record, what each way of a fetch makes of them, and the two commands.
-/

namespace Sys2Proof.Machine

open Sys2Proof

/-! ## Fields of a record (R8) -/

/-- Without a premise, so that the lengths of nested updates simplify in one pass. -/
theorem recSet_length (r : List W8) (off n v : Nat) : (recSet r off n v).length = min off r.length + n + (r.length - (off + n)) := by
  simp [recSet, Nat.add_assoc]

section
variable {r : List W8} {off n : Nat}

/-- A field reads back the value that was put there. -/
theorem recNat_recSet_self {v : Nat} (hfits : off + n ≤ r.length) (hv : v < 256 ^ n) : recNat (recSet r off n v) off n = v := by
  have hbytes : ((recSet r off n v).drop off).take n = toLE n v := by
    rw [recSet, List.append_assoc, List.drop_left' (List.length_take_of_le (by omega)), List.take_left' (toLE_length n v)]
  rw [recNat, hbytes, leNat_toLE n v hv]

/-- Fields that share no byte do not disturb each other. -/
theorem recNat_recSet_apart {w k : Nat} (v : Nat) (hfits : w + k ≤ r.length) (hapart : off + n ≤ w ∨ w + k ≤ off) :
    recNat (recSet r w k v) off n = recNat r off n := by
  have hbytes : ((recSet r w k v).drop off).take n = (r.drop off).take n := by
    refine List.ext_getElem? fun i => ?_
    by_cases hi : i < n
    · simp only [List.getElem?_take_of_lt hi, List.getElem?_drop, recSet, List.append_assoc]
      have hbefore : (r.take w).length = w := List.length_take_of_le (by omega)
      rcases hapart with h | h
      · rw [List.getElem?_append_left (by omega), List.getElem?_take_of_lt (by omega)]
      · rw [List.getElem?_append_right (by omega), List.getElem?_append_right (by rw [toLE_length]; omega), List.getElem?_drop]
        congr 1; rw [toLE_length]; omega
    · simp [List.getElem?_take_eq_none (Nat.le_of_not_lt hi)]
  rw [recNat, recNat, hbytes]

end

/-- The step of a record, as a word and as a number. -/
theorem recStep_eq_iff (r : List W8) (st : W64) : BitVec.ofNat 64 (recNat r 0x20 8) = st ↔ recNat r 0x20 8 = st.toNat := by
  have hlt : recNat r 0x20 8 < 2 ^ 64 := recNat_lt ..
  rw [← BitVec.toNat_inj, BitVec.toNat_ofNat, Nat.mod_eq_of_lt hlt]

/-! ## The ways of a fetch (R327) -/

/-- The largest magnitude that a record's step has noted, as its history keeps it. -/
def curMax (r : List W8) : Nat := (bf16Of (f32 (BitVec.ofNat 32 (recNat r 0x28 4)))).toNat

/-- A history that is not cold after it has taken in the magnitude of its step. -/
def rolledHistory (r : List W8) : List W8 :=
  recSet (recSet (recSet (recSet r (2 * recNat r 0x30 1) 2 (curMax r)) 0x30 1 ((recNat r 0x30 1 + 1) % 16)) 0x31 1
    (min (recNat r 0x31 1 + 1) 16)) 0x32 1 (recNat r 0x32 1 - 1)

/-- A history with no entries, which is cold. -/
def clearedHistory (r : List W8) : List W8 :=
  recSet (recSet (recSet (recSet (recSet r 0 32 0) 0x30 1 0) 0x31 1 0) 0x32 1 0) 0x33 1 1

/-- A record with a scale for a step that has noted nothing yet. -/
def startStep (st : W64) (scale : Nat) (r : List W8) : List W8 := recSet (recSet (recSet r 0x2E 1 scale) 0x20 8 st.toNat) 0x28 4 0

section
variable {fmt : Nat} {st : W64} {r : List W8}

theorem scaleFetch_current (hstep : recNat r 0x20 8 = st.toNat) :
    scaleFetch fmt st r = (r, if recNat r 0x33 1 = 1 then none else some (scaleExp r)) := by
  rw [scaleFetch, if_pos ((recStep_eq_iff r st).2 hstep)]
  simp only [decide_eq_true_eq]

theorem scaleFetch_rolls (hstep : recNat r 0x20 8 = (st - 1).toNat) (hwarm : recNat r 0x33 1 ≠ 1) :
    scaleFetch fmt st r = (startStep st (BitVec.ofInt 8 (scaleChoice fmt (rolledHistory r))).toNat (rolledHistory r),
      some (scaleChoice fmt (rolledHistory r))) := by
  have hprev := (recStep_eq_iff r (st - 1)).2 hstep
  have hother : st - 1 ≠ st := by bv_omega
  rw [scaleFetch, hprev, if_neg hother, if_pos rfl]
  simp only [decide_eq_true_eq, if_neg hwarm]
  rfl

theorem scaleFetch_loses (hnow : recNat r 0x20 8 ≠ st.toNat) (hprev : recNat r 0x20 8 ≠ (st - 1).toNat) :
    scaleFetch fmt st r = (startStep st 0 (clearedHistory r), none) := by
  rw [scaleFetch, if_neg (mt (recStep_eq_iff r st).1 hnow), if_neg (mt (recStep_eq_iff r (st - 1)).1 hprev)]
  rfl

end

section
variable {r : List W8} (hlen : r.length = 64)
include hlen

theorem startStep_length (st : W64) (scale : Nat) : (startStep st scale r).length = 64 := by
  simp [startStep, recSet_length, hlen]

theorem startStep_step (st : W64) (scale : Nat) : recNat (startStep st scale r) 0x20 8 = st.toNat := by
  have hlt : st.toNat < 256 ^ 8 := st.isLt
  simp (disch := grind [recSet_length]) only [startStep, recNat_recSet_apart, recNat_recSet_self]

theorem startStep_max (st : W64) (scale : Nat) : recNat (startStep st scale r) 0x28 4 = 0 := by
  simp [startStep, recSet_length, recNat_recSet_self, hlen]

/-- The history and its numbers lie apart from the step, the magnitude and the scale. -/
theorem startStep_apart (st : W64) (scale : Nat) {off n : Nat} (hapart : off + n ≤ 0x20 ∨ 0x2F ≤ off) :
    recNat (startStep st scale r) off n = recNat r off n := by
  simp (disch := grind [recSet_length]) only [startStep, recNat_recSet_apart]

theorem clearedHistory_length : (clearedHistory r).length = 64 := by
  simp [clearedHistory, recSet_length, hlen]

theorem clearedHistory_count : recNat (clearedHistory r) 0x31 1 = 0 := by
  simp [clearedHistory, recSet_length, recNat_recSet_apart, recNat_recSet_self, hlen]

theorem clearedHistory_cold : recNat (clearedHistory r) 0x33 1 = 1 := by
  simp [clearedHistory, recSet_length, recNat_recSet_self, hlen]

variable (hhead : recNat r 0x30 1 < 16)
include hhead

theorem rolledHistory_length : (rolledHistory r).length = 64 := by
  simp only [rolledHistory, recSet_length, hlen]
  omega

theorem rolledHistory_head : recNat (rolledHistory r) 0x30 1 = (recNat r 0x30 1 + 1) % 16 := by
  simp (disch := grind [recSet_length]) only [rolledHistory, recNat_recSet_apart, recNat_recSet_self]

theorem rolledHistory_count : recNat (rolledHistory r) 0x31 1 = min (recNat r 0x31 1 + 1) 16 := by
  simp (disch := grind [recSet_length]) only [rolledHistory, recNat_recSet_apart, recNat_recSet_self]

/-- The entry at the head is the magnitude of the step that ends. -/
theorem rolledHistory_entry : recNat (rolledHistory r) (2 * recNat r 0x30 1) 2 = curMax r := by
  have hlt : curMax r < 256 ^ 2 := BitVec.isLt _
  simp (disch := grind [recSet_length]) only [rolledHistory, recNat_recSet_apart, recNat_recSet_self]

end

/-! ## The commands -/

/-- SCALE_FETCH of an operand of the instruction that runs, before it has its scale (R327, R330). -/
theorem exec_scaleFetch {t : TileRef} {e : Fin 9} {k : Fin 3} {q : Queued} {s : State} (hactive : (s.dev.tile t).active e.val = some q)
    (hscaled : q.scaled.contains k.val = true) (hnone : ∀ y ∈ q.sigma, y.1 ≠ k.val) :
    let o := q.operand k.val
    let r := s.dev.fetchScale s.fuse.variant t q.ctx o.scaleRec o.fmt q.step
    let d := r.2.requeue t q { q with sigma := q.sigma ++ [(k.val, r.1)] }
    exec (.scaleFetch t e k) s = .next (s.withDev
      (if r.1 = none ∧ (d.tile t).level = 0 then d.overflow t 4 q.engine q.opcode o.scaleRec 0 else d)) := by
  intro o r d
  have hfirst : (!q.scaled.contains k.val || q.sigma.any (fun y => y.1 == k.val)) = false := by
    rw [hscaled, List.any_eq_false.2 fun y hy => by simpa using hnone y hy]
    rfl
  show Host.Outcome.next (s.withDev (s.dev.scaleIn s.fuse.variant t e.val k.val)) = _
  rw [Dev.scaleIn, hactive]
  dsimp only
  rw [hfirst, if_neg (by decide)]
  simp only [Option.isNone_iff_eq_none]
  rfl

/-- SCALE_NOTE while a note waits (R328). -/
theorem exec_scaleNote {n : Note} {rest : List Note} {s : State} (hnotes : s.dev.notes = n :: rest) :
    exec .scaleNote s = .next (s.withDev (({ s.dev with notes := rest } : Dev).applyNote s.fuse.variant n)) := by
  show Host.Outcome.next (s.withDev (s.dev.noteIn s.fuse.variant)) = _
  rw [Dev.noteIn, hnotes]

end Sys2Proof.Machine
end

section
/-!
PROOFS. Scale records (R324 to R328).
-/

namespace Sys2Proof.Proofs

open Sys2Proof.Machine Sys2Proof.Claims

theorem scalesAreFetchedAndNoted : ScalesAreFetchedAndNoted :=
  ⟨fun _ _ _ _ _ hactive hscaled hnone => exec_scaleFetch hactive hscaled hnone, fun _ _ _ hnotes => exec_scaleNote hnotes⟩

theorem scaleHistoryRolls : ScaleHistoryRolls := by
  intro fmt st r hlen
  refine ⟨fun hnow hwarm => ?current, fun hnow hcold => ?cold, fun hprev hwarm hhead _ => ?rolls, fun hnow hprev => ?loses⟩
  case current => rw [scaleFetch_current hnow, if_neg hwarm]; rfl
  case cold => rw [scaleFetch_current hnow, if_pos hcold]
  case rolls =>
    have hrolled := rolledHistory_length hlen hhead
    rw [scaleFetch_rolls hprev hwarm]
    refine ⟨rfl, startStep_length hrolled .., startStep_step hrolled .., startStep_max hrolled .., ?_, ?_, ?_⟩
    · rw [startStep_apart hrolled _ _ (by decide), rolledHistory_head hlen hhead]
    · rw [startStep_apart hrolled _ _ (by decide), rolledHistory_count hlen hhead]
    · rw [startStep_apart hrolled _ _ (by omega), rolledHistory_entry hlen hhead, curMax]
  case loses =>
    have hcleared := clearedHistory_length hlen
    rw [scaleFetch_loses hnow hprev]
    refine ⟨rfl, startStep_length hcleared .., startStep_step hcleared .., ?_, ?_, startStep_max hcleared ..⟩
    · rw [startStep_apart hcleared _ _ (by decide), clearedHistory_count hlen]
    · rw [startStep_apart hcleared _ _ (by decide), clearedHistory_cold hlen]

/-- Settles O28: a fetch first settles the history, by a roll or a clear, and then starts the step in fields that lie apart from it. -/
theorem scaleRecordsAndHistory : Obligations.ScaleRecordsAndHistory := ⟨scalesAreFetchedAndNoted, scaleHistoryRolls⟩

end Sys2Proof.Proofs
end

section
/-!
SUPPORT. Ox units (R345 to R366): a WAIT that is met, what a unit's queue holds once a command has reached it, and what the commands of a
unit do where each applies.
-/

namespace Sys2Proof.Machine

open Sys2Proof

/-! ## A WAIT that is met (R96, R99) -/

theorem getLsbD_of_mem_tokensOf {m : W64} {k : BitVec 6} (h : k ∈ tokensOf m) : m.getLsbD k.toNat = true := by
  obtain ⟨i, hi, hk⟩ := List.mem_filterMap.1 h
  rw [Option.ite_none_right_eq_some, Option.some.injEq] at hk
  obtain ⟨hbit, rfl⟩ := hk
  rwa [BitVec.toNat_ofNat, Nat.mod_eq_of_lt (List.mem_range.1 hi)]

section
variable {r : CoreRegs} {en : W8} {w : W64}
  (hset : ∀ k : BitVec 6, w.getLsbD k.toNat = true → (r.rt k).state = .set ∧ trapEnabled en (r.rt k).status = false)
include hset

theorem CoreRegs.waitMet_of_set : r.waitMet w = true :=
  List.all_eq_true.2 fun k hk => decide_eq_true (hset k (getLsbD_of_mem_tokensOf hk)).1

theorem CoreRegs.failing_of_set : r.failing en w = none :=
  List.find?_eq_none.2 fun k hk => by simp [(hset k (getLsbD_of_mem_tokensOf hk)).2]

end

/-! ## The queue of a unit (R347) -/

/-- A tile's queued Ox command as its unit holds it. -/
def Queued.asOxCmd (q : Queued) (t : TileRef) (barred : Bool) : OxCmd :=
  { tile := t, prog := decide (q.opcode = 2), pass2 := decide (q.mod 0 1 = 1), args := q.args, ctx := q.ctx, step := q.step
    record := q.begun.drop 1, recStatus := q.begun.headD 0, barred := barred, open_ := q.open_ }

/-- The device once a command has left its tile's queue for the unit of its home slice, whose partition and context are marked active
in this tick. -/
def Dev.oxMoved (d : Dev) (t : TileRef) (q : Queued) : Dev :=
  let marked := d.onGander fun g => { g with active := Tab.put 0 g.active (16 * (12 + q.moved) + q.ctx) (d.tick.number.toNat + 1) }
  (marked.setTile t ((d.tile t).dequeue q)).onHub q.moved fun h => { h with oxQueue := h.oxQueue ++ [q.asOxCmd t (d.evalMember q.moved)] }

theorem Dev.queue_oxMoved (d : Dev) (t : TileRef) (q : Queued) :
    ((d.oxMoved t q).tile t).queue q.engine = ((d.tile t).queue q.engine).erase q := by
  have htile : (d.oxMoved t q).tile t = (d.tile t).dequeue q := Dev.tile_setTile ..
  rw [htile, Tile.dequeue, Tile.queue, Tile.setQueue, Tab.look_put_self]

theorem Dev.oxQueue_oxMoved (d : Dev) (t : TileRef) (q : Queued) :
    ((d.oxMoved t q).hub q.moved).oxQueue = (d.hub q.moved).oxQueue ++ [q.asOxCmd t (d.evalMember q.moved)] := by
  rw [Dev.oxMoved, Dev.hub_onHub]
  rfl

/-- A head whose WAIT is met goes to a unit that may run it and has room. -/
theorem Dev.oxEnqueue_moves {v : Variant} {d : Dev} {t : TileRef} {q : Queued} (hhead : (d.tile t).head 8 = some q)
    (hread : q.begun.headD 0 = 0) (hruns : d.oxRefuses v q.moved = 0)
    (hset : ∀ k : BitVec 6, q.args.wait.getLsbD k.toNat = true →
      ((d.tile t).regs.rt k).state = .set ∧ trapEnabled (d.tile t).trapEn ((d.tile t).regs.rt k).status = false)
    (hroom : (d.hub q.moved).oxQueue.length < 64) : d.oxEnqueue v t = d.oxMoved t q := by
  have hstatus : (if q.moved = 12 ∧ q.begun.headD 0 ≠ 0 then q.begun.headD 0
      else (oxWorse (d.oxRefuses v q.moved, 0) (q.begun.headD 0, 0)).1) = 0 := by
    rw [hread, hruns]
    simp [oxWorse]
  rw [Dev.oxEnqueue, hhead]
  dsimp only
  rw [CoreRegs.waitMet_of_set hset, CoreRegs.failing_of_set hset, hstatus, if_neg (by decide)]
  dsimp only
  rw [if_neg (by decide), if_neg (Nat.not_le.2 hroom)]
  rfl

/-! ## A unit takes its next command (R351) -/

section
variable {n : Fin 12} {c : OxCmd} {rest : List OxCmd} {s : State}
  (hidle : (s.dev.hub n.val).oxPass = none) (hqueue : (s.dev.hub n.val).oxQueue = c :: rest)
include hidle hqueue

theorem oxHead_of_idle {pass2 : Bool} (hpass : c.pass2 = pass2) : (s.dev.hub n.val).oxHead pass2 = some c := by
  rw [Hub.oxHead, hidle, hqueue]
  exact if_pos hpass

omit hidle in
theorem onHub_dropOxHead : (s.dev.onHub n.val fun h => { h with oxQueue := h.oxQueue.drop 1 }) =
    s.dev.onHub n.val fun h => { h with oxQueue := rest } :=
  Dev.onHub_congr (by rw [hqueue]; rfl)

/-- A pass that the checks stop (R351). -/
theorem exec_oxPass_stopped {st : W8 × W32} :
    let d := s.dev.onHub n.val fun h => { h with oxQueue := rest }
    let p := d.oxPrepare s.fuse.variant n.val c
    p.1.stop = some st → exec (if c.pass2 then .oxPass2 n else .oxPass1 n) s = .next (s.withDev (p.2.setPass n.val
      { cmd := c, status := st.1, detail := st.2, finished := true, prior := BitVec.ofNat 64 (recNat p.1.state 0 8) })) := by
  intro d p hstop
  have htaken := onHub_dropOxHead hqueue
  cases hpass : c.pass2
  case false =>
    show execOxPass1 n s = _
    rw [execOxPass1, State.onDev_next, oxHead_of_idle hidle hqueue hpass]
    dsimp only
    rw [htaken, hstop]
  case true =>
    show execOxPass2 n s = _
    rw [execOxPass2, State.onDev_next, oxHead_of_idle hidle hqueue hpass]
    dsimp only
    rw [htaken, hstop]

/-- A pass 1 that the checks let through (R354). -/
theorem exec_oxPass1 (hpass : c.pass2 = false) :
    let v := s.fuse.variant
    let d := s.dev.onHub n.val fun h => { h with oxQueue := rest }
    let p := d.oxPrepare v n.val c
    let x := p.2.oxRead v n.val c p.1.state
    let r := x.2.oxGiven c (oxStats c p.1.state p.1.prog x.1)
    let a := r.2.contribute v (c.u 0x10 8) c.step r.1
    let b := a.2.contribute v (c.u 0x18 8) c.step (r.1.take 16)
    let st := oxWorse (oxWorse (oxWorse p.1.gap x.1.status) (a.1, 0x10)) (b.1, 0x18)
    p.1.stop = none → exec (.oxPass1 n) s = .next (s.withDev (b.2.setPass n.val
      { cmd := c, status := st.1, detail := st.2, finished := true, prior := BitVec.ofNat 64 (recNat p.1.state 0 8) })) := by
  intro v d p x r a b st hgo
  show execOxPass1 n s = _
  rw [execOxPass1, State.onDev_next, oxHead_of_idle hidle hqueue hpass]
  dsimp only
  rw [onHub_dropOxHead hqueue, hgo]

/-- A pass 2 that the checks let through and whose version block reads (R355, R362). -/
theorem exec_oxPass2 (hpass : c.pass2 = true) :
    let v := s.fuse.variant
    let d := s.dev.onHub n.val fun h => { h with oxQueue := rest }
    let p := d.oxPrepare v n.val c
    let prior := BitVec.ofNat 64 (recNat p.1.state 0 8)
    let l := p.2.virtLoad v c.ctx (p.2.evalMember n.val) (c.u 8 8 + 8 + 8 * (c.step.toNat % 2)) 8
    p.1.stop = none → l.st = 0 → exec (.oxPass2 n) s = .next (s.withDev (l.d.setPass n.val
      (if leNat l.data < 2 ^ 63 then { cmd := c, status := sCancelled, finished := true, prior := prior }
       else { cmd := c, waiting := true, left := c.waitTicks, status := p.1.gap.1, detail := p.1.gap.2, prior := prior }))) := by
  intro v d p prior l hgo hread
  show execOxPass2 n s = _
  rw [execOxPass2, State.onDev_next, oxHead_of_idle hidle hqueue hpass]
  dsimp only
  rw [onHub_dropOxHead hqueue, hgo]
  dsimp only
  rw [if_neg (not_not_intro hread), ← apply_ite]

end

/-- The statistics that a pass 1 gives: of a command that met no other for its shard, those that it computed; else as many free
values (R347). -/
theorem Dev.oxGiven_spec (d : Dev) (c : OxCmd) (r : List W32) :
    ∃ g f, d.oxGiven c r = (g, { d with free := f }) ∧ g.length = r.length ∧ (c.open_ = false → g = r ∧ f = d.free) := by
  rw [Dev.oxGiven]
  cases c.open_
  case false => exact ⟨r, d.free, rfl, rfl, fun _ => ⟨rfl, rfl⟩⟩
  case true => exact ⟨_, _, rfl, by simp, nofun⟩

/-! ## A pass that waits (R355) -/

section
variable {n : Fin 12} {p : OxPass} {s : State} (hpass : (s.dev.hub n.val).oxPass = some p)
include hpass

theorem exec_oxPass2WindowsReady (hwaits : p.waiting = true) :
    exec (.oxPass2WindowsReady n) s = .next (s.withDev (s.dev.oxProceed s.fuse.variant n.val p false)) := by
  show execOxPass2WindowsReady n s = _
  rw [execOxPass2WindowsReady, State.onDev_next, hpass]
  dsimp only
  rw [if_pos hwaits]

theorem exec_oxPass2WaitTimeout (hwaits : p.waiting = true) (hleft : p.left = 0) :
    exec (.oxPass2WaitTimeout n) s = .next (s.withDev (s.dev.oxProceed s.fuse.variant n.val p true)) := by
  show execOxPass2WaitTimeout n s = _
  rw [execOxPass2WaitTimeout, State.onDev_next, hpass]
  dsimp only
  rw [hwaits, hleft, if_pos (by decide)]

/-- What the windows decide at once both commands do, the expiry where its time is up. -/
theorem exec_oxPass2_proceeds {u : Dev} (hwaits : p.waiting = true)
    (hproceeds : ∀ late, s.dev.oxProceed s.fuse.variant n.val p late = u) :
    exec (.oxPass2WindowsReady n) s = .next (s.withDev u) ∧ (p.left = 0 → exec (.oxPass2WaitTimeout n) s = .next (s.withDev u)) := by
  refine ⟨?_, fun hleft => ?_⟩
  · rw [exec_oxPass2WindowsReady hpass hwaits, hproceeds]
  · rw [exec_oxPass2WaitTimeout hpass hwaits hleft, hproceeds]

/-- A pass that has ended completes its command and frees the unit; one that was applied first writes U, U_STEP and STEP (R352). -/
theorem exec_oxPassComplete (hdone : p.finished = true) (hclosed : p.cmd.open_ = false) :
    let c := p.cmd
    let ev := s.dev.evalMember n.val
    let d := if p.applied then
        ((s.dev.virtStore s.fuse.variant c.ctx ev (c.u 0 8 + 0x58) (toLE 8 p.usum.toNat ++ toLE 8 c.step.toNat)).d.virtStore
          s.fuse.variant c.ctx ev (c.u 0 8) (toLE 8 c.step.toNat)).d
      else s.dev
    exec (.oxPassComplete n) s = .next (s.withDev
      ((d.onHub n.val fun h => { h with oxPass := none }).oxFinish s.fuse.variant n.val c p.status p.detail p.prior)) := by
  have hdefined : s.dev.oxUndefined s.fuse.variant n.val p = (p.usum, s.dev) := by rw [Dev.oxUndefined, hclosed]; rfl
  intro c ev d
  show execOxPassComplete n s = _
  rw [execOxPassComplete, State.onDev_next, hpass]
  dsimp only
  rw [hdone, hdefined, if_neg (by decide)]

end

theorem OxLine.settled_of_ready {l : OxLine} (h : l = .ready ∨ l = .none_) : l ≠ .failed ∧ l ≠ .notYet := by
  rcases h with rfl | rfl <;> decide

/-! What the pass reads first: its state record, the status line of the layer's window and that of the global one. -/

section
variable {v : Variant} {d : Dev} {n : Nat} {p : OxPass} {r : Acc} {a b : OxLine × Dev}
  (hrecord : d.virtLoad v p.cmd.ctx (d.evalMember n) (p.cmd.u 0 8) 128 = r)
  (hlayer : r.d.oxLine v n p.cmd 0x10 0x20 (oxLayerN r.data) = a) (hglobal : a.2.oxLine v n p.cmd 0x18 0x28 16 = b)
include hrecord hlayer hglobal

theorem Dev.oxProceed_failed (hfailed : a.1 = .failed ∨ b.1 = .failed) (late : Bool) :
    d.oxProceed v n p late = b.2.setPass n { p with waiting := false, status := sCancelled, detail := 0, finished := true } := by
  rw [Dev.oxProceed]
  dsimp only
  rw [hrecord, hlayer, hglobal, if_pos hfailed]

theorem Dev.oxProceed_notYet (hlayerGood : a.1 ≠ .failed) (hglobalGood : b.1 ≠ .failed) (hwait : a.1 = .notYet ∨ b.1 = .notYet)
    (late : Bool) : d.oxProceed v n p late =
      if late then b.2.setPass n { p with waiting := false, status := sLate, detail := 0, finished := true } else d := by
  rw [Dev.oxProceed]
  dsimp only
  rw [hrecord, hlayer, hglobal, if_neg (not_or.2 ⟨hlayerGood, hglobalGood⟩), if_pos hwait]

/-- Each line carries the step, or belongs to no window. -/
theorem Dev.oxProceed_ready (hlayerReady : a.1 = .ready ∨ a.1 = .none_) (hglobalReady : b.1 = .ready ∨ b.1 = .none_) (late : Bool) :
    let c := p.cmd
    let pr := if c.prog then b.2.virtLoad v c.ctx (d.evalMember n) (c.u 0x30 8) (16 * (c.u 0x38 2 + c.u 0x3A 2)) else ⟨0, [], b.2⟩
    let u := pr.d.oxUpdate v n c r.data (oxWords pr.data)
    let st := oxWorse (p.status, p.detail) u.1
    d.oxProceed v n p late =
      u.2.2.setPass n { p with waiting := false, applied := true, usum := u.2.1, status := st.1, detail := st.2, finished := true } := by
  obtain ⟨hlayerGood, hlayerThere⟩ := OxLine.settled_of_ready hlayerReady
  obtain ⟨hglobalGood, hglobalThere⟩ := OxLine.settled_of_ready hglobalReady
  intro c pr u st
  rw [Dev.oxProceed]
  dsimp only
  rw [hrecord, hlayer, hglobal, if_neg (not_or.2 ⟨hlayerGood, hglobalGood⟩), if_neg (not_or.2 ⟨hlayerThere, hglobalThere⟩)]

end

end Sys2Proof.Machine
end

section
/-!
PROOFS. Ox units (R345 to R366).
-/

namespace Sys2Proof.Proofs

open Sys2Proof.Machine Sys2Proof.Claims

theorem oxUnitCommands : OxUnitCommands := by
  refine ⟨?enqueued, fun _ _ _ _ _ hidle hqueue hstop => exec_oxPass_stopped hidle hqueue hstop,
    fun _ _ _ hpass hdone hclosed => exec_oxPassComplete hpass hdone hclosed⟩
  case enqueued =>
    intro t q rec_ s x hhead hengine hbegun hruns hset hroom
    have hread : q.begun.headD 0 = 0 := by rw [hbegun]; rfl
    refine ⟨s.dev.oxMoved t q, ?_, ?_, ?_⟩
    · show execOxCommandEnqueue t s = _
      rw [execOxCommandEnqueue, State.onDev_next, Dev.oxEnqueue_moves hhead hread hruns hset hroom]
    · rw [← hengine]; exact Dev.queue_oxMoved ..
    · rw [Dev.oxQueue_oxMoved, Queued.asOxCmd, hbegun, Queued.mod, modOf, pow_zero, Nat.div_one, pow_one]; rfl

theorem oxPassesApply : OxPassesApply := by
  refine ⟨?begins, ?proceeds⟩
  case begins =>
    intro n c rest s v d p prior hidle hqueue hgo
    refine ⟨?pass1, fun hpass hread => exec_oxPass2 hidle hqueue hpass hgo hread⟩
    intro hpass x r
    obtain ⟨g, f, hgiven, hlength, hsole⟩ := x.2.oxGiven_spec c r
    have hexec := exec_oxPass1 hidle hqueue hpass hgo
    rw [hgiven] at hexec
    exact ⟨g, f, _, hlength, hsole, hexec⟩
  case proceeds =>
    intro n p s v c r a b hpass hwaits sure
    refine ⟨fun hfailed => exec_oxPass2_proceeds hpass hwaits (Dev.oxProceed_failed rfl rfl rfl hfailed),
      fun hlayer hglobal hwait => ⟨?waits, fun hleft => ?late⟩,
      fun hlayer hglobal => ⟨_, exec_oxPass2_proceeds hpass hwaits (Dev.oxProceed_ready rfl rfl rfl hlayer hglobal)⟩⟩
    case waits =>
      rw [exec_oxPass2WindowsReady hpass hwaits, Dev.oxProceed_notYet rfl rfl rfl hlayer hglobal hwait]
      rfl
    case late =>
      rw [exec_oxPass2WaitTimeout hpass hwaits hleft, Dev.oxProceed_notYet rfl rfl rfl hlayer hglobal hwait]
      rfl

/-- Settles O27: an Ox command and its passes each by the branch that the premises choose. -/
theorem oxCommandsAndPasses : Obligations.OxCommandsAndPasses := ⟨oxUnitCommands, oxPassesApply⟩

end Sys2Proof.Proofs
end

section
/-!
SUPPORT. What the device's own traffic leaves alone (R401, R404, R409, R410, R419): all but what ports and streams keep of what they send,
the CSR file's counts and the messages themselves, which only grow.
-/

namespace Sys2Proof.Machine

open Sys2Proof

/-! ## What sending changes -/

/-- A port but for what its sending side keeps: SEQ, credits, flits that wait and flits not yet acknowledged (R412, R414). -/
def Port.sansSent (x : Port) : Port := { x with txSeq := 0, spent := [], txQueue := [], replayBuf := [] }

/-- A stream but for the way it takes (R419) and the time of its last CONGESTION (R409). -/
def NimStream.sansWay (x : NimStream) : NimStream := { x with way := none, lastNotify := none }

/-- A device but for what its traffic changes. -/
def Dev.sansTraffic (d : Dev) : Dev × (Nat → Port) × (Nat → NimStream) × (Nat → Conn) :=
  ({ d with outbox := [], csr := [], links := { d.links with ports := [], streams := [], conns := [], heldOut := [] } },
    fun p => (d.port p).sansSent, fun k => (d.nim k).sansWay, d.conn)

section
variable {d e : Dev} (h : e.sansTraffic = d.sansTraffic)
include h

theorem Dev.quire_of_sansTraffic : e.quire = d.quire := congrArg (fun x => x.1.quire) h
theorem Dev.hubs_of_sansTraffic : e.hubs = d.hubs := congrArg (fun x => x.1.hubs) h
theorem Dev.hostBuf_of_sansTraffic : e.links.hostBuf = d.links.hostBuf := congrArg (fun x => x.1.links.hostBuf) h
theorem Dev.hostWords_of_sansTraffic (q : Nat) : e.hostWords q = d.hostWords q := by
  simp only [Dev.hostWords, Dev.hostBuf_of_sansTraffic h]
theorem Dev.conn_of_sansTraffic (i : Nat) : e.conn i = d.conn i := congrArg (fun x => x.2.2.2 i) h
theorem Dev.answered_of_sansTraffic (t : Nat) : e.answered t = d.answered t := congrArg (fun x => x.1.answered t) h
theorem Dev.port_of_sansTraffic (p : Nat) : (e.port p).sansSent = (d.port p).sansSent := congrArg (fun x => x.2.1 p) h
theorem Dev.nim_of_sansTraffic (k : Nat) : (e.nim k).sansWay = (d.nim k).sansWay := congrArg (fun x => x.2.2.1 k) h
/-- What a stream tells without its way and the time of its last CONGESTION is as it was. -/
theorem Dev.nimField_of_sansTraffic {α : Type} (g : NimStream → α) (k : Nat) (hg : ∀ x, g x.sansWay = g x := by intros; rfl) :
    g (e.nim k) = g (d.nim k) := by rw [← hg, Dev.nim_of_sansTraffic h, hg]

end

@[simp] theorem Dev.send_sansTraffic (d : Dev) (m : OutMsg) : (d.send m).sansTraffic = d.sansTraffic := rfl

@[simp] theorem Dev.count_sansTraffic (d : Dev) (l : CsrLoc) (lo w n : Nat) : (d.count l lo w n).sansTraffic = d.sansTraffic := by
  rw [Dev.count_frame]; rfl

theorem Dev.onPort_sansTraffic (d : Dev) (p : Nat) {f : Port → Port} (h : ∀ x, (f x).sansSent = x.sansSent) :
    (d.onPort p f).sansTraffic = d.sansTraffic := by
  refine Prod.ext rfl (Prod.ext (funext fun q => ?_) rfl)
  by_cases hq : q = p
  · subst hq
    exact (congrArg Port.sansSent (Dev.port_onPort d q f)).trans (h _)
  · exact congrArg Port.sansSent (Dev.port_onPort_ne d f hq)

/-- A stream that changes alike on two devices. -/
theorem Dev.onNim_sansTraffic_congr {d e : Dev} (h : e.sansTraffic = d.sansTraffic) {k : Nat} {f g : NimStream → NimStream}
    (hfg : (f (e.nim k)).sansWay = (g (d.nim k)).sansWay) : (e.onNim k f).sansTraffic = (d.onNim k g).sansTraffic := by
  have hdev : e.sansTraffic.1 = d.sansTraffic.1 := congrArg Prod.fst h
  have hports : e.sansTraffic.2.1 = d.sansTraffic.2.1 := congrArg (fun x => x.2.1) h
  have hconns : e.sansTraffic.2.2.2 = d.sansTraffic.2.2.2 := congrArg (fun x => x.2.2.2) h
  refine Prod.ext hdev (Prod.ext hports (Prod.ext (funext fun j => ?_) hconns))
  by_cases hj : j = k
  · subst hj
    exact ((congrArg NimStream.sansWay (Dev.nim_onNim e j f)).trans hfg).trans (congrArg NimStream.sansWay (Dev.nim_onNim d j g)).symm
  · exact ((congrArg NimStream.sansWay (Dev.nim_onNim_ne e f hj)).trans (Dev.nim_of_sansTraffic h j)).trans
      (congrArg NimStream.sansWay (Dev.nim_onNim_ne d g hj)).symm

/-- A connection that changes alike on two devices. -/
theorem Dev.onConn_sansTraffic_congr {d e : Dev} (h : e.sansTraffic = d.sansTraffic) {i : Nat} {f g : Conn → Conn}
    (hfg : f (d.conn i) = g (d.conn i)) : (e.onConn i f).sansTraffic = (d.onConn i g).sansTraffic := by
  have hdev : e.sansTraffic.1 = d.sansTraffic.1 := congrArg Prod.fst h
  have hports : e.sansTraffic.2.1 = d.sansTraffic.2.1 := congrArg (fun x => x.2.1) h
  have hnims : e.sansTraffic.2.2.1 = d.sansTraffic.2.2.1 := congrArg (fun x => x.2.2.1) h
  refine Prod.ext hdev (Prod.ext hports (Prod.ext hnims (funext fun j => ?_)))
  by_cases hj : j = i
  · subst hj
    exact ((Dev.conn_onConn e j f).trans ((congrArg f (Dev.conn_of_sansTraffic h j)).trans hfg)).trans (Dev.conn_onConn d j g).symm
  · exact ((Dev.conn_onConn_ne e f hj).trans (Dev.conn_of_sansTraffic h j)).trans (Dev.conn_onConn_ne d g hj).symm

theorem Dev.onConn_sansTraffic (d : Dev) (i : Nat) {f : Conn → Conn} (h : f (d.conn i) = d.conn i) :
    (d.onConn i f).sansTraffic = d.sansTraffic := by
  refine Prod.ext rfl (Prod.ext rfl (Prod.ext rfl (funext fun j => ?_)))
  by_cases hj : j = i
  · subst hj
    exact (Dev.conn_onConn d j f).trans h
  · exact Dev.conn_onConn_ne d f hj

/-- A stream of which only the way and the time of its last CONGESTION change. -/
theorem Dev.onNim_sansTraffic (d : Dev) (k : Nat) {f : NimStream → NimStream} (h : (f (d.nim k)).sansWay = (d.nim k).sansWay) :
    (d.onNim k f).sansTraffic = d.sansTraffic := by
  refine Prod.ext rfl (Prod.ext rfl (Prod.ext (funext fun j => ?_) rfl))
  by_cases hj : j = k
  · subst hj
    exact (congrArg NimStream.sansWay (Dev.nim_onNim d j f)).trans h
  · exact congrArg NimStream.sansWay (Dev.nim_onNim_ne d f hj)

theorem Dev.foldl_sansTraffic {α : Type} {f : Dev → α → Dev} (h : ∀ d a, (f d a).sansTraffic = d.sansTraffic) (as : List α) (d : Dev) :
    (as.foldl f d).sansTraffic = d.sansTraffic := foldl_keeps Dev.sansTraffic f h as d

/-! ## Packets leave -/

theorem Port.nextFlit_sansSent {x y : Port} {f : Flit} (h : x.nextFlit = some (f, y)) : y.sansSent = x.sansSent := by
  unfold Port.nextFlit at h
  split at h
  · cases h
  · split at h
    · cases h
    · split at h
      · cases h
      · cases h; rfl

theorem Dev.sendFlits_sansTraffic (p n : Nat) (d : Dev) : (Dev.sendFlits p n d).sansTraffic = d.sansTraffic := by
  induction n generalizing d with
  | zero => rfl
  | succ n ih =>
    simp only [Dev.sendFlits]
    split
    · rfl
    · split
      · rfl
      · next f x hx =>
        rw [ih, Dev.send_sansTraffic]
        refine Prod.ext rfl (Prod.ext (funext fun q => ?_) rfl)
        by_cases hq : q = p
        · subst hq
          exact (congrArg Port.sansSent (Dev.port_onPort ..)).trans (Port.nextFlit_sansSent hx)
        · exact congrArg Port.sansSent (Dev.port_onPort_ne d _ hq)

@[simp] theorem Dev.transmit_sansTraffic (d : Dev) (p : Nat) (m : Packet) : (d.transmit p m).sansTraffic = d.sansTraffic := by
  unfold Dev.transmit
  split
  · split
    · exact (Dev.sendFlits_sansTraffic ..).trans (d.onPort_sansTraffic p fun _ => rfl)
    · rfl
    · rfl
  · split <;> rfl

@[simp] theorem Dev.pickWay_sansTraffic (v : Variant) (d : Dev) (src dst : W16) (vc : Nat) :
    (d.pickWay v src dst vc).2.sansTraffic = d.sansTraffic := by
  have keep : ∀ (b : Prop) [Decidable b] (k : Nat) (w : Option (Nat × Nat)),
      (if b then d.onNim k (fun x => { x with way := w }) else d).sansTraffic = d.sansTraffic := by
    intro b _ k w
    split
    · exact d.onNim_sansTraffic k rfl
    · rfl
  simp only [Dev.pickWay]
  split
  · rfl
  · split
    · split
      · rfl
      · exact keep ..
    · exact keep ..

@[simp] theorem Dev.sendReq_sansTraffic (v : Variant) (d : Dev) (r : StreamRef) (o : Outstanding) (again : Bool) :
    (d.sendReq v r o again).sansTraffic = d.sansTraffic := by
  cases r with
  | conn i => simp [Dev.sendReq]
  | peer dev vc => simp only [Dev.sendReq]; split <;> simp

@[simp] theorem Dev.respond_sansTraffic (v : Variant) (d : Dev) (r : StreamRef) (op st : W8) (e : BitVec 4) (psn : W32) (data : List W8) :
    (d.respond v r op st e psn data).sansTraffic = d.sansTraffic := by
  cases r with
  | conn i => simp [Dev.respond]
  | peer dev vc => simp only [Dev.respond]; split <;> simp

@[simp] theorem Dev.sendResync_sansTraffic (v : Variant) (d : Dev) (r : StreamRef) : (d.sendResync v r).sansTraffic = d.sansTraffic := by
  cases r with
  | conn i => simp [Dev.sendResync]
  | peer dev vc => simp only [Dev.sendResync]; split <;> simp

@[simp] theorem Dev.notify_sansTraffic (v : Variant) (d : Dev) (p : Nat) (r : StreamRef) (ce : Option Nat) :
    (d.notify v p r ce).sansTraffic = d.sansTraffic := by
  unfold Dev.notify
  split
  · rfl
  · dsimp only
    split
    · exact (Dev.respond_sansTraffic ..).trans (d.onNim_sansTraffic _ rfl)
    · rfl

@[simp] theorem Dev.answerNim_sansTraffic (v : Variant) (d : Dev) (r : StreamRef) (psn : W32) (a : NimAns) :
    (d.answerNim v r psn a).sansTraffic = d.sansTraffic := by
  cases a <;> simp [Dev.answerNim]

@[simp] theorem Dev.sendRoce_sansTraffic (d : Dev) (i : Nat) (o : Outstanding) : (d.sendRoce i o).sansTraffic = d.sansTraffic :=
  Dev.transmit_sansTraffic ..

@[simp] theorem Dev.roceSay_sansTraffic (d : Dev) (i : Nat) (op : W8) (psn : W32) (syn : W8) (data : List W8) :
    (d.roceSay i op psn syn data).sansTraffic = d.sansTraffic := Dev.transmit_sansTraffic ..

/-! ## Requests that wait (R405, R406, R408) -/

theorem goNext_sent (n m : Nat) {os : List Outstanding} (h : ∀ o ∈ os, o.sent = true) : goNext n m os = [] := by
  induction os with
  | nil => unfold goNext; rfl
  | cons o os ih =>
    rw [goNext.eq_def]
    exact (if_pos (h o List.mem_cons_self)).trans (ih fun x hx => h x (List.mem_cons_of_mem o hx))

/-- Requests marked as sent where they are among those that go out. -/
def markSent (go os : List Outstanding) : List Outstanding :=
  os.map fun o => if go.any (fun g => g.psn == o.psn) then { o with sent := true } else o

/-- Requests that wait go out: of what traffic leaves alone only the requests of the stream change, and where none waits not even they. -/
theorem Dev.pump_sansTraffic (v : Variant) (d : Dev) (r : StreamRef) : ∃ f : List Outstanding → List Outstanding,
    (d.pump v r).sansTraffic = (d.onNim (streamKey r) fun x => { x with outstanding := f x.outstanding }).sansTraffic ∧
      ((∀ o ∈ (d.nim (streamKey r)).outstanding, o.sent = true) → f (d.nim (streamKey r)).outstanding = (d.nim (streamKey r)).outstanding) := by
  unfold Dev.pump
  extract_lets x n m go d1
  split
  · exact ⟨id, (d.onNim_sansTraffic _ rfl).symm, fun _ => rfl⟩
  · have hsent : d1.sansTraffic = d.sansTraffic := Dev.foldl_sansTraffic (fun _ _ => Dev.sendReq_sansTraffic ..) go d
    refine ⟨markSent go, Dev.onNim_sansTraffic_congr hsent ?_, fun h => ?_⟩
    · exact congrArg (fun x : NimStream => { x with outstanding := markSent go x.outstanding }) (Dev.nim_of_sansTraffic hsent _)
    · simp [markSent, go, goNext_sent _ _ h, x]

/-- What a stream tells without its requests, too, is as it was when requests have gone out. -/
theorem Dev.nimField_pump {α : Type} (g : NimStream → α) (v : Variant) (d : Dev) (r : StreamRef) (k : Nat)
    (hg : ∀ x os, g { x.sansWay with outstanding := os } = g x := by intros; rfl) : g ((d.pump v r).nim k) = g (d.nim k) := by
  obtain ⟨f, hf, -⟩ := d.pump_sansTraffic v r
  rw [Dev.nimField_of_sansTraffic hf g k fun x => hg x x.outstanding]
  by_cases hk : k = streamKey r
  · subst hk
    rw [Dev.nim_onNim]
    exact ((hg _ _).symm.trans (hg (d.nim (streamKey r)) (f (d.nim (streamKey r)).outstanding)))
  · rw [Dev.nim_onNim_ne _ _ hk]

theorem Dev.pump_port (v : Variant) (d : Dev) (r : StreamRef) (p : Nat) : ((d.pump v r).port p).sansSent = (d.port p).sansSent := by
  obtain ⟨f, hf, -⟩ := d.pump_sansTraffic v r
  exact Dev.port_of_sansTraffic hf p

/-- Where every request is sent none goes out. -/
theorem Dev.pump_sent (v : Variant) {d : Dev} {r : StreamRef} (h : ∀ o ∈ (d.nim (streamKey r)).outstanding, o.sent = true) :
    (d.pump v r).sansTraffic = d.sansTraffic := by
  obtain ⟨f, hf, hsame⟩ := d.pump_sansTraffic v r
  rw [hf]
  exact d.onNim_sansTraffic _ (by rw [hsame h])

end Sys2Proof.Machine
end

section
/-!
SUPPORT. Nimser streams (R404 to R409, R420): how a packet reaches its stream or goes on, what the target of a stream does with a request, and
what its requester does with one request outstanding.
-/

namespace Sys2Proof.Machine

open Sys2Proof Sys2Proof.Claims

/-! ## Packets reach their streams, or go on (R404, R420) -/

section
variable {p : Fin 17} {h : NimHdr} {c : Instr} {q : NimReq} {op : W8} {bytes : List W8}

theorem exec_asks (s : State) (hc : asks p h c q op bytes) :
    exec c s = .next (s.withDev (s.dev.nimserIn s.fuse.variant p.val op h q bytes)) := by
  obtain ⟨rfl, rfl, rfl⟩ | ⟨rfl, rfl, rfl, rfl⟩ | ⟨k, w, x, e, rfl, rfl, rfl, rfl⟩ | ⟨rfl, rfl, rfl⟩ | ⟨rfl, rfl, rfl⟩ := hc <;> rfl

/-- Every packet of a stream is handed to it alike, whatever it does there. -/
theorem exec_packet (s : State) (hc : asks p h c q op bytes ∨ brings p h c op bytes) : ∃ f : StreamRef → Dev → Dev,
    exec c s = .next (s.withDev (s.dev.withStream s.fuse.variant p.val op h bytes f)) := by
  rcases hc with hc | hc
  · exact ⟨_, exec_asks s hc⟩
  · obtain ⟨rfl, rfl, rfl⟩ | ⟨rfl, rfl, rfl⟩ | ⟨rfl, rfl⟩ | ⟨x, rfl, rfl, rfl⟩ | ⟨rfl, rfl, rfl⟩ | ⟨x, rfl, rfl, rfl⟩ | ⟨rfl, rfl, rfl⟩ := hc <;>
      exact ⟨_, rfl⟩

end

section
variable (v : Variant) {d : Dev} {p : Nat} (op : W8) {h : NimHdr} (bytes : List W8) (f : StreamRef → Dev → Dev)

theorem Dev.withStream_down (hup : (d.port p).up = false) : d.withStream v p op h bytes f = d := by
  simp [Dev.withStream, hup]

/-- On the host port only an open Nimser connection has a stream. -/
theorem Dev.withStream_unopened
    (hc : h.stream.toNat ≥ 256 ∨ (d.conn h.stream.toNat).state ≠ 1 ∨ (d.conn h.stream.toNat).kind ≠ 2) :
    d.withStream v 16 op h bytes f = d := by
  have hno : ¬ (h.stream.toNat < 256 ∧ (d.conn h.stream.toNat).state = 1 ∧ (d.conn h.stream.toNat).kind = 2) := by
    rintro ⟨hs, hstate, hkind⟩
    exact hc.elim (not_le.2 hs) (·.elim (· hstate) (· hkind))
  simp only [Dev.withStream, ne_eq, not_true_eq_false, if_false, hno, ite_self]

theorem Dev.withStream_elsewhere (hup : (d.port p).up = true) (hp : p ≠ 16) (hh : h.host = false) (hd : h.dst ≠ d.deviceId) :
    d.withStream v p op h bytes f = d.forward v p op h bytes := by
  simp [Dev.withStream, hup, hp, hh, hd]

end

/-! ## The target's judgement (R404, R405, R408) -/

section
variable (v : Variant) {d : Dev} (p : Nat) {r : StreamRef} {h : NimHdr} (q : NimReq)

theorem Dev.judgeNim_other_epoch (he : h.epoch ≠ (d.nim (streamKey r)).epoch) : d.judgeNim v p r h q = d := if_pos he

theorem Dev.judgeNim_expected (he : h.epoch = (d.nim (streamKey r)).epoch) (hp : h.psn = (d.nim (streamKey r)).expected) :
    d.judgeNim v p r h q = (d.notify v p r h.ce).executeNim v r h q := by
  simp [Dev.judgeNim, he, hp]

theorem Dev.judgeNim_ahead (he : h.epoch = (d.nim (streamKey r)).epoch) (hp : h.psn ≠ (d.nim (streamKey r)).expected)
    (hlt : (h.psn - (d.nim (streamKey r)).expected).toNat < 2 ^ 31) : d.judgeNim v p r h q =
      (d.notify v p r h.ce).respond v r 0x11 0 (d.nim (streamKey r)).epoch ((d.nim (streamKey r)).expected - 1) [] := by
  have h0 : h.psn - (d.nim (streamKey r)).expected ≠ 0 := sub_ne_zero.2 hp
  unfold Dev.judgeNim
  dsimp only
  rw [if_neg (not_not.2 he), if_neg h0, if_pos hlt]

theorem Dev.judgeNim_behind (he : h.epoch = (d.nim (streamKey r)).epoch)
    (hge : 2 ^ 31 ≤ (h.psn - (d.nim (streamKey r)).expected).toNat) :
    d.judgeNim v p r h q = (d.notify v p r h.ce).duplicateNim v r h q := by
  have h0 : h.psn - (d.nim (streamKey r)).expected ≠ 0 := fun h => by rw [h] at hge; simp at hge
  unfold Dev.judgeNim
  dsimp only
  rw [if_neg (not_not.2 he), if_neg h0, if_neg (not_lt.2 hge)]

end

/-! ## A request in its turn, and a duplicate (R404 to R406) -/

theorem Dev.onNim_onNim_sansTraffic (d : Dev) (k : Nat) (f g : NimStream → NimStream) :
    ((d.onNim k f).onNim k g).sansTraffic = (d.onNim k fun x => g (f x)).sansTraffic := by
  refine Prod.ext rfl (Prod.ext rfl (Prod.ext (funext fun j => ?_) rfl))
  by_cases hj : j = k
  · subst hj
    exact congrArg NimStream.sansWay (by simp only [Dev.nim_onNim])
  · exact congrArg NimStream.sansWay (by simp only [Dev.nim_onNim_ne _ _ hj])

@[simp] theorem Dev.sendAck_sansTraffic (v : Variant) (d : Dev) (r : StreamRef) :
    (d.sendAck v r).sansTraffic = (d.onNim (streamKey r) fun x => { x with unacked := 0 }).sansTraffic := Dev.respond_sansTraffic ..

theorem keepAtomic_expected (x : NimStream) (psn : W32) (a : NimAns) : (keepAtomic x psn a).expected = x.expected := by
  cases a <;> rfl

/-- A request in its turn does what it asks; beside that only its stream changes, whose PSN moves on unless it is not ready. -/
theorem Dev.executeNim_sansTraffic (v : Variant) (d : Dev) (r : StreamRef) (h : NimHdr) (q : NimReq) :
    ∃ f : NimStream → NimStream, (d.executeNim v r h q).sansTraffic = ((d.perform v r h q).2.onNim (streamKey r) f).sansTraffic ∧
      ∀ x, (f x).expected = x.expected + if (d.perform v r h q).1 = .notReady then 0 else 1 := by
  have answered : ∀ a : NimAns, a ≠ .notReady → ∃ f : NimStream → NimStream,
      (((d.perform v r h q).2.onNim (streamKey r) fun x =>
        let x := { x with expected := x.expected + 1, unacked := 0 }
        if q.isAtomic then keepAtomic x h.psn a else x).answerNim v r h.psn a).sansTraffic =
        ((d.perform v r h q).2.onNim (streamKey r) f).sansTraffic ∧
      ∀ x, (f x).expected = x.expected + if a = .notReady then 0 else 1 := by
    intro a ha
    refine ⟨_, Dev.answerNim_sansTraffic .., fun x => ?_⟩
    rw [if_neg ha]
    dsimp only
    split
    · exact keepAtomic_expected ..
    · rfl
  unfold Dev.executeNim
  dsimp only
  split
  · next heq =>
    rw [heq]
    exact ⟨id, (Dev.answerNim_sansTraffic ..).trans (Dev.onNim_sansTraffic _ _ rfl).symm, fun x => by simp⟩
  · next heq =>
    rw [heq]
    split
    · exact ⟨_, (Dev.sendAck_sansTraffic ..).trans (Dev.onNim_onNim_sansTraffic ..), fun x => rfl⟩
    · exact ⟨_, rfl, fun x => rfl⟩
  · next hready _ => exact answered _ fun heq => hready heq

/-- A duplicate of anything but a read does nothing again, and leaves the PSN. -/
theorem Dev.duplicateNim_sansTraffic (v : Variant) (d : Dev) (r : StreamRef) (h : NimHdr) {q : NimReq} (hq : q ≠ .read) :
    ∃ f : NimStream → NimStream, (d.duplicateNim v r h q).sansTraffic = (d.onNim (streamKey r) f).sansTraffic ∧
      ∀ x, (f x).expected = x.expected := by
  have acknowledged : ∃ f : NimStream → NimStream, (d.sendAck v r).sansTraffic = (d.onNim (streamKey r) f).sansTraffic ∧
      ∀ x, (f x).expected = x.expected := ⟨_, Dev.sendAck_sansTraffic .., fun _ => rfl⟩
  cases q with
  | read => exact absurd rfl hq
  | write => exact acknowledged
  | redWrite => exact acknowledged
  | push => exact acknowledged
  | atomic =>
    refine ⟨id, Eq.trans ?_ (d.onNim_sansTraffic _ rfl).symm, fun _ => rfl⟩
    simp only [Dev.duplicateNim]
    split <;> simp

theorem Dev.duplicateNim_read (v : Variant) (d : Dev) (r : StreamRef) (h : NimHdr) :
    (d.duplicateNim v r h .read).sansTraffic = (d.perform v r h .read).2.sansTraffic := Dev.answerNim_sansTraffic ..

end Sys2Proof.Machine
end

section
/-!
The target of a Nimser stream, packets for other devices, and what keeps a stream in step (R404 to R409, R420).
-/

namespace Sys2Proof.Proofs

open Sys2Proof.Machine Sys2Proof.Claims

theorem nimserExecutesInOrder : NimserExecutesInOrder := by
  intro p h r c q op bytes s ha hc v k x d done
  have hexec : exec c s = .next (s.withDev (s.dev.judgeNim v p.val r h q)) := by
    rw [exec_asks s hc, Dev.nimserIn, Dev.withStream_arrives _ ha]
  have hd : d.sansTraffic = s.dev.sansTraffic := Dev.notify_sansTraffic ..
  refine ⟨fun he => ?other, fun he hp => ?expected, fun he hp hlt => ?ahead, fun he hge => ?behind⟩
  case other => rw [hexec, Dev.judgeNim_other_epoch _ _ _ he, State.withDev_same]
  case ahead => rw [hexec, Dev.judgeNim_ahead _ _ _ he hp hlt]
  case expected =>
    obtain ⟨f, hf, hpsn⟩ := Dev.executeNim_sansTraffic v d r h q
    refine ⟨_, by rw [hexec, Dev.judgeNim_expected _ _ _ he hp], (Dev.quire_of_sansTraffic hf :), (Dev.hubs_of_sansTraffic hf :),
      (Dev.hostBuf_of_sansTraffic hf :), ?_⟩
    rw [Dev.nimField_of_sansTraffic hf (·.expected), Dev.nim_onNim, hpsn]
  case behind =>
    refine ⟨_, by rw [hexec, Dev.judgeNim_behind _ _ _ he hge], fun hq => ?_, fun hq => ?_⟩
    · obtain ⟨f, hf, hpsn⟩ := Dev.duplicateNim_sansTraffic v d r h hq
      refine ⟨(Dev.quire_of_sansTraffic hf :).trans (Dev.quire_of_sansTraffic hd :),
        (Dev.hubs_of_sansTraffic hf :).trans (Dev.hubs_of_sansTraffic hd :), ?_⟩
      rw [Dev.nimField_of_sansTraffic hf (·.expected), Dev.nim_onNim, hpsn, Dev.nimField_of_sansTraffic hd (·.expected)]
    · subst hq
      have hf := Dev.duplicateNim_read v d r h
      exact ⟨Dev.quire_of_sansTraffic hf, Dev.hubs_of_sansTraffic hf, Dev.nimField_of_sansTraffic hf (·.expected) k⟩

theorem nimserForwards : NimserForwards := by
  intro p h c q op bytes s hc w counted
  obtain ⟨f, hexec⟩ := exec_packet s hc
  refine ⟨fun hup => ?down, fun hp hun => ?unopened, fun hup hp hh hd => ?elsewhere⟩
  case down => rw [hexec, Dev.withStream_down _ _ _ _ hup, State.withDev_same]
  case unopened => rw [hexec, hp, Dev.withStream_unopened _ _ _ _ hun, State.withDev_same]
  case elsewhere =>
    rw [Dev.withStream_elsewhere _ _ _ _ hup hp hh hd] at hexec
    refine ⟨fun hhops => ?_, fun hhops hno => ?_, fun y hhops hy => ?_⟩
    · simp only [counted, hexec, Dev.forward, if_pos hhops]
    · have hw : (s.dev.pickWay s.fuse.variant h.src h.dst (channelOfPacket op h.vc)).1 = none := hno
      simp only [counted, hexec, Dev.forward, if_neg (not_le.2 hhops), hw, w]
    · have hw : (s.dev.pickWay s.fuse.variant h.src h.dst (channelOfPacket op h.vc)).1 = some y := hy
      simp only [hexec, Dev.forward, if_neg (not_le.2 hhops), hw, w]

end Sys2Proof.Proofs
end

section
/-!
SUPPORT. The requester of a Nimser stream (R404 to R409): what its answers tell those that wait, and what acknowledgements and repetitions
leave of the requests.
-/

namespace Sys2Proof.Machine

open Sys2Proof Sys2Proof.Claims

/-! ## Answers told -/

@[simp] theorem Dev.answered_answer (d : Dev) {tag : Nat} (h : tag ≠ 0) (st : W8) (data : List W8) :
    (d.answer tag st data).answered tag = some (st, data) := by
  unfold Dev.answer
  rw [if_neg h]
  exact Tab.look_put_self none d.links.answers tag (some (st, data))

/-- Answers told change nothing else. -/
theorem Dev.foldl_answer (f : Outstanding → W8 × List W8) (os : List Outstanding) (d : Dev) :
    ∃ t, os.foldl (fun (d : Dev) o => d.answer o.tag (f o).1 (f o).2) d = { d with links := { d.links with answers := t } } := by
  induction os generalizing d with
  | nil => exact ⟨d.links.answers, rfl⟩
  | cons o os ih =>
    obtain ⟨t, ht⟩ : ∃ t, d.answer o.tag (f o).1 (f o).2 = { d with links := { d.links with answers := t } } := by
      unfold Dev.answer
      split
      · exact ⟨d.links.answers, rfl⟩
      · exact ⟨_, rfl⟩
    obtain ⟨t', ht'⟩ := ih { d with links := { d.links with answers := t } }
    exact ⟨t', by rw [List.foldl_cons, ht, ht']⟩

/-! ## Acknowledgements (R406) -/

/-- An acknowledgement tells who waits and changes the stream's requests; nothing else. -/
theorem Dev.acknowledge_frame (d : Dev) (r : StreamRef) (psn : W32) : ∃ t os,
    d.acknowledge r psn = ({ d with links := { d.links with answers := t } } : Dev).onNim (streamKey r) fun x =>
      { x with outstanding := os } := by
  unfold Dev.acknowledge
  extract_lets k covered os told
  obtain ⟨t, ht⟩ := Dev.foldl_answer (fun _ => (0, [])) (os.filter fun o => covered o && !o.wantsData) d
  have htold : told = { d with links := { d.links with answers := t } } := ht
  exact ⟨t, _, by rw [htold]⟩

theorem Dev.nimField_acknowledge {α : Type} (g : NimStream → α) (d : Dev) (r : StreamRef) (psn : W32)
    (hg : ∀ x os, g { x with outstanding := os } = g x := by intros; rfl) :
    g ((d.acknowledge r psn).nim (streamKey r)) = g (d.nim (streamKey r)) := by
  obtain ⟨t, os, h⟩ := d.acknowledge_frame r psn
  rw [h, Dev.nim_onNim]
  exact hg ..

theorem Dev.ecnOn_acknowledge (d : Dev) (r : StreamRef) (psn : W32) (p : Nat) : (d.acknowledge r psn).ecnOn p = d.ecnOn p := by
  obtain ⟨t, os, h⟩ := d.acknowledge_frame r psn
  rw [h]
  rfl

/-! ## Congestion (R409) -/

theorem dueAgain_eq_true {last : Option Nat} {now : Nat} : dueAgain last now = true ↔ ∀ t, last = some t → t + 50000 ≤ now := by
  cases last with
  | none => simp [dueAgain]
  | some t => simp only [dueAgain, decide_eq_true_eq, Option.some.injEq, forall_eq']; rfl

theorem dueAgain_eq_false {last : Option Nat} {now : Nat} : dueAgain last now = false ↔ ∃ t, last = some t ∧ now < t + 50000 := by
  cases last with
  | none => simp [dueAgain]
  | some t => simp only [dueAgain, decide_eq_false_iff_not, not_le, Option.some.injEq, exists_eq_left']; rfl

/-- What CONGESTION does on its stream once it has acknowledged. -/
def Dev.slow (d : Dev) (p : Nat) (r : StreamRef) (now : Nat) : Dev :=
  if d.ecnOn p && dueAgain (d.nim (streamKey r)).lastSlow now then
    d.onNim (streamKey r) fun y => { y with rate := max (y.rate / 2) rateLeast, lastSlow := some now, slowed := true }
  else d

section
variable {d : Dev} {p : Nat} {r : StreamRef} {now : Nat}

theorem Dev.slow_due (hon : d.ecnOn p = true) (hdue : ∀ t, (d.nim (streamKey r)).lastSlow = some t → t + 50000 ≤ now) :
    d.slow p r now =
      d.onNim (streamKey r) fun y => { y with rate := max (y.rate / 2) rateLeast, lastSlow := some now, slowed := true } :=
  if_pos (by rw [hon, dueAgain_eq_true.2 hdue]; rfl)

theorem Dev.slow_not_due (h : d.ecnOn p = false ∨ ∃ t, (d.nim (streamKey r)).lastSlow = some t ∧ now < t + 50000) :
    d.slow p r now = d := by
  rw [← dueAgain_eq_false] at h
  refine if_neg fun hc => ?_
  rw [Bool.and_eq_true] at hc
  simp [hc] at h

end

theorem Dev.responseIn_arrives (v : Variant) {d : Dev} {p : Fin 17} {h : NimHdr} {r : StreamRef} (ha : arrives d p h r) (op : W8)
    (bytes : List W8) (f : StreamRef → Dev → Dev) : d.responseIn v p.val op h bytes f =
      if h.epoch ≠ (d.nim (streamKey r)).reqEpoch ∨ (d.nim (streamKey r)).resyncing then d else (f r d).pump v r :=
  Dev.withStream_arrives v ha op bytes _

theorem exec_congestion {s : State} {p : Fin 17} {h : NimHdr} {r : StreamRef} (ha : arrives s.dev p h r) (now : Nat) :
    exec (.congestion p h now) s = .next (s.withDev (
      if h.epoch ≠ (s.dev.nim (streamKey r)).reqEpoch ∨ (s.dev.nim (streamKey r)).resyncing then s.dev
      else ((s.dev.acknowledge r h.ackPsn).slow p.val r now).pump s.fuse.variant r)) :=
  congrArg (fun d => Host.Outcome.next (s.withDev d)) (Dev.responseIn_arrives s.fuse.variant ha 0x16 [] _)

end Sys2Proof.Machine
end

section
/-!
What keeps a Nimser stream in step (R406, R408, R409).
-/

namespace Sys2Proof.Proofs

open Sys2Proof.Machine Sys2Proof.Claims

theorem exec_resync {s : State} {p : Fin 17} {h : NimHdr} {r : StreamRef} (ha : arrives s.dev p h r) :
    exec (.resync p h) s = .next (s.withDev (s.dev.resyncIn s.fuse.variant r h)) :=
  congrArg (fun d => Host.Outcome.next (s.withDev d)) (Dev.withStream_arrives s.fuse.variant ha 0x17 [] _)

/-- RATE_INCREASE_TIMER of a stream that is no RoCEv2 connection. -/
theorem exec_rateIncreaseTimer {s : State} {r : StreamRef} (hr : ∀ i, r = .conn i → (s.dev.conn i.toNat).kind ≠ 1) :
    exec (.rateIncreaseTimer r) s = .next (s.withDev (s.dev.onNim (streamKey r) fun x =>
      if x.slowed then { x with slowed := false } else { x with rate := min (x.rate + rateStep) rateFull })) := by
  cases r with
  | peer dev vc => rfl
  | conn i => exact congrArg (fun d => Host.Outcome.next (s.withDev d)) (if_neg (hr i rfl))

theorem nimserKeepsInStep : NimserKeepsInStep := by
  refine ⟨?ackTimer, ?resync, ?congestion, ?rateConn, ?rateStream⟩
  case ackTimer =>
    intro r s
    refine ⟨fun h0 => ?_, fun h0 => ?_⟩
    · exact congrArg (fun d => Host.Outcome.next (s.withDev d)) (if_neg (by rw [h0]; exact Nat.lt_irrefl 0))
    · have hack := Dev.sendAck_sansTraffic s.fuse.variant s.dev r
      refine ⟨_, congrArg (fun d => Host.Outcome.next (s.withDev d)) (if_pos h0), ?_, ?_⟩
      · rw [Dev.nimField_of_sansTraffic hack (·.unacked), Dev.nim_onNim]
      · rw [Dev.nimField_of_sansTraffic hack (·.expected), Dev.nim_onNim]
  case resync =>
    intro p h r s ha x
    refine ⟨fun he => ?_, fun he => ?_, fun hne hne' => ?_⟩
    · have hnew := fun f => Dev.respond_sansTraffic s.fuse.variant (s.dev.onNim (streamKey r) f) r 0x10 0 h.epoch 0xFFFFFFFF []
      refine ⟨_, (exec_resync ha).trans (congrArg (fun d => Host.Outcome.next (s.withDev d)) (if_pos he)), ?_, ?_, ?_, ?_⟩
      · rw [Dev.nimField_of_sansTraffic (hnew _) (·.epoch), Dev.nim_onNim]
      · rw [Dev.nimField_of_sansTraffic (hnew _) (·.expected), Dev.nim_onNim]
      · rw [Dev.nimField_of_sansTraffic (hnew _) (·.unacked), Dev.nim_onNim]
      · rw [Dev.nimField_of_sansTraffic (hnew _) (·.atomics), Dev.nim_onNim]
    · have hne : h.epoch ≠ x.epoch + 1 := by rw [he]; bv_omega
      rw [exec_resync ha, Dev.resyncIn, if_neg hne, if_pos he]
    · rw [exec_resync ha, Dev.resyncIn, if_neg hne, if_neg hne', State.withDev_same]
  case congestion =>
    intro p h r now s ha x
    rw [exec_congestion ha]
    refine ⟨fun hout => ?_, fun he hr => ?_⟩
    · rw [if_pos hout, State.withDev_same]
    · have hin : ¬ (h.epoch ≠ x.reqEpoch ∨ x.resyncing = true) := by simp [he, hr]
      have hecn : (s.dev.acknowledge r h.ackPsn).ecnOn p.val = s.dev.ecnOn p.val := Dev.ecnOn_acknowledge ..
      have hlast : ((s.dev.acknowledge r h.ackPsn).nim (streamKey r)).lastSlow = x.lastSlow :=
        Dev.nimField_acknowledge (·.lastSlow) ..
      have hrate : ((s.dev.acknowledge r h.ackPsn).nim (streamKey r)).rate = x.rate := Dev.nimField_acknowledge (·.rate) ..
      refine ⟨_, by rw [if_neg hin], fun hon hdue => ?_, fun hoff => ?_⟩
      · rw [Dev.slow_due (hecn.trans hon) (hlast ▸ hdue)]
        refine ⟨?_, ?_, ?_⟩
        · rw [Dev.nimField_pump (·.slowed), Dev.nim_onNim]
        · rw [Dev.nimField_pump (·.rate), Dev.nim_onNim, hrate]
          rfl
        · rw [Dev.nimField_pump (·.lastSlow), Dev.nim_onNim]
      · rw [Dev.slow_not_due (hlast ▸ hecn ▸ hoff), Dev.nimField_pump (·.rate), hrate]
  case rateConn =>
    intro i s hk c
    exact ⟨_, congrArg (fun d => Host.Outcome.next (s.withDev d)) (if_pos hk), Dev.conn_onConn ..⟩
  case rateStream =>
    intro r s hr x
    refine ⟨_, exec_rateIncreaseTimer hr, ?_⟩
    rw [Dev.nim_onNim]
    by_cases hs : x.slowed = true
    · rw [if_pos hs]
      exact ⟨rfl, (if_pos hs).symm⟩
    · rw [if_neg hs]
      exact ⟨by simpa using hs, (if_neg hs).symm⟩

/-- Settles O51: a request is judged by its epoch and PSN alone, and beside what it asks it changes only what its stream keeps, since the answer
and the notification leave the rest alone. -/
theorem nimserTargets : Obligations.NimserTargets := ⟨nimserExecutesInOrder, nimserForwards, nimserKeepsInStep⟩

end Sys2Proof.Proofs
end

section
/-!
SUPPORT. The requester of a Nimser stream with one request outstanding (R404 to R408): what an acknowledgement, a response, a repetition and a
failure of the stream leave of it.
-/

namespace Sys2Proof.Machine

open Sys2Proof Sys2Proof.Claims

/-- Whether an acknowledgement of a PSN covers a request (R406). -/
def coversNim (psn : W32) (o : Outstanding) : Bool := o.sent && decide ((psn - o.psn).toNat < 2 ^ 31)

theorem coversNim_up_to {psn : W32} {o : Outstanding} (hs : o.sent = true) (h : (psn - o.psn).toNat < 2 ^ 31) : coversNim psn o = true := by
  rw [coversNim, hs, decide_eq_true h]; rfl

theorem coversNim_before {psn : W32} {o : Outstanding} (h : 2 ^ 31 ≤ (psn - o.psn).toNat) : coversNim psn o = false := by
  rw [coversNim, decide_eq_false (not_lt.2 h), Bool.and_false]

/-- A request that is sent again, counted where the sending counts. -/
def retried (counts : Bool) (pick : Outstanding → Bool) (o : Outstanding) : Outstanding :=
  if counts && o.sent && pick o then { o with tries := o.tries + 1 } else o

section
variable {d : Dev} {r : StreamRef} {o : Outstanding} {psn : W32}

/-! ## Acknowledgements and responses (R406) -/

theorem Dev.acknowledge_eq (d : Dev) (r : StreamRef) (psn : W32) : d.acknowledge r psn =
    (((d.nim (streamKey r)).outstanding.filter fun o => coversNim psn o && !o.wantsData).foldl (fun (d : Dev) o => d.answer o.tag 0 []) d).onNim
      (streamKey r) fun x => { x with outstanding := ((d.nim (streamKey r)).outstanding.filter fun o =>
        !(coversNim psn o && !o.wantsData)).map fun o => if coversNim psn o then { o with acked := true } else o } := rfl

theorem Dev.acknowledge_idle (ho : (d.nim (streamKey r)).outstanding = []) :
    d.acknowledge r psn = d.onNim (streamKey r) fun x => { x with outstanding := [] } := by
  simp [Dev.acknowledge_eq, ho]

theorem Dev.acknowledge_before (ho : (d.nim (streamKey r)).outstanding = [o]) (hc : coversNim psn o = false) :
    d.acknowledge r psn = d.onNim (streamKey r) fun x => { x with outstanding := [o] } := by
  simp [Dev.acknowledge_eq, ho, hc]

/-- An acknowledged write completes. -/
theorem Dev.acknowledge_completes (ho : (d.nim (streamKey r)).outstanding = [o]) (hc : coversNim psn o = true) (hw : o.wantsData = false) :
    d.acknowledge r psn = (d.answer o.tag 0 []).onNim (streamKey r) fun x => { x with outstanding := [] } := by
  simp [Dev.acknowledge_eq, ho, hc, hw]

/-- An acknowledged read or atomic waits for its data. -/
theorem Dev.acknowledge_awaits (ho : (d.nim (streamKey r)).outstanding = [o]) (hc : coversNim psn o = true) (hw : o.wantsData = true) :
    d.acknowledge r psn = d.onNim (streamKey r) fun x => { x with outstanding := [{ o with acked := true }] } := by
  simp [Dev.acknowledge_eq, ho, hc, hw]

/-- What a response brings completes the request that it answers. -/
theorem Dev.complete_acknowledge (ho : (d.nim (streamKey r)).outstanding = [o]) (hs : o.sent = true) (hpsn : o.psn = psn)
    {pick : Outstanding → Bool} (hpick : pick o = true) (st : W8) (data : List W8) :
    ((d.complete r psn pick st data).acknowledge r psn).sansTraffic =
      ((d.answer o.tag st data).onNim (streamKey r) fun x => { x with outstanding := [] }).sansTraffic := by
  have hc : d.complete r psn pick st data = (d.answer o.tag st data).onNim (streamKey r) fun x =>
      { x with outstanding := x.outstanding.filter (fun y => y.psn != psn) } := by
    simp [Dev.complete, ho, hs, hpsn, hpick]
  have hnone : ((d.complete r psn pick st data).nim (streamKey r)).outstanding = [] := by
    rw [hc, Dev.nim_onNim, Dev.answer_nim, ho]
    simp [hpsn]
  rw [Dev.acknowledge_idle hnone, hc, Dev.onNim_onNim_sansTraffic]

/-! ## Repetitions and failures (R406, R407) -/

variable {v : Variant} {counts : Bool} {pick : Outstanding → Bool}

theorem Dev.resend_again (ho : (d.nim (streamKey r)).outstanding = [o]) (hs : o.sent = true) (hpick : pick o = true)
    (ht : counts = true → o.tries < 7) : (d.resend v r counts pick).sansTraffic =
      (d.onNim (streamKey r) fun x => { x with outstanding := [if counts then { o with tries := o.tries + 1 } else o] }).sansTraffic := by
  have hfind : ([o].filter fun o => o.sent && pick o).find? (fun o => counts && decide (7 ≤ o.tries)) = none := by
    cases counts with
    | false => simp
    | true => simp [hs, hpick, ht rfl]
  unfold Dev.resend
  rw [ho]
  dsimp only
  rw [hfind]
  have hsent := Dev.foldl_sansTraffic (f := fun (d : Dev) o => d.sendReq v r o true) (fun _ _ => Dev.sendReq_sansTraffic ..)
    ([o].filter fun o => o.sent && pick o) d
  refine Dev.onNim_sansTraffic_congr hsent ((congrArg (fun x : NimStream => { x with outstanding := x.outstanding.map (retried counts pick) })
    (Dev.nim_of_sansTraffic hsent (streamKey r))).trans ?_)
  simp [NimStream.sansWay, ho, retried, hs, hpick]

theorem Dev.resend_fails (ho : (d.nim (streamKey r)).outstanding = [o]) (hs : o.sent = true) (hpick : pick o = true) (ht : 7 ≤ o.tries) :
    d.resend v r true pick = d.failStream v r o.psn := by
  simp [Dev.resend, ho, hs, hpick, ht]

/-- A request told its outcome, with the stream's requests gone. -/
theorem Dev.completed_of_sansTraffic {u : Dev} {st : W8} {data : List W8} (ht : o.tag ≠ 0)
    (hu : u.sansTraffic = ((d.answer o.tag st data).onNim (streamKey r) fun x => { x with outstanding := [] }).sansTraffic) :
    (u.nim (streamKey r)).outstanding = [] ∧ u.answered o.tag = some (st, data) := by
  refine ⟨?_, (Dev.answered_of_sansTraffic hu o.tag).trans (d.answered_answer ht st data)⟩
  rw [Dev.nimField_of_sansTraffic hu (·.outstanding), Dev.nim_onNim]

theorem Dev.outstanding_of_sansTraffic {u : Dev} {os : List Outstanding}
    (hu : u.sansTraffic = (d.onNim (streamKey r) fun x => { x with outstanding := os }).sansTraffic) :
    (u.nim (streamKey r)).outstanding = os := by
  rw [Dev.nimField_of_sansTraffic hu (·.outstanding), Dev.nim_onNim]

/-- With every request sent none goes out behind an answer. -/
theorem Dev.pump_settled {u : Dev} {os : List Outstanding}
    (hu : u.sansTraffic = (d.onNim (streamKey r) fun x => { x with outstanding := os }).sansTraffic) (hos : ∀ o ∈ os, o.sent = true) :
    (u.pump v r).sansTraffic = (d.onNim (streamKey r) fun x => { x with outstanding := os }).sansTraffic :=
  (Dev.pump_sent v (by rwa [Dev.outstanding_of_sansTraffic hu])).trans hu

@[simp] theorem Dev.portError_links (d : Dev) (p : Nat) : (d.portError p).links = d.links := by
  unfold Dev.portError
  split <;> exact Dev.count_links ..

theorem Dev.pump_resyncing (h : (d.nim (streamKey r)).resyncing = true) : d.pump v r = d := if_pos h

/-- A stream that fails tells its request so, and begins a handshake for the next epoch. -/
theorem Dev.failStream_alone (v : Variant) (ho : (d.nim (streamKey r)).outstanding = [o]) (ht : o.tag ≠ 0) (psn : W32) :
    ((d.failStream v r psn).nim (streamKey r)).outstanding = [] ∧ (d.failStream v r psn).answered o.tag = some (sRetryExhausted, []) ∧
      ((d.failStream v r psn).nim (streamKey r)).resyncing = true ∧
      ((d.failStream v r psn).nim (streamKey r)).reqEpoch = (d.nim (streamKey r)).reqEpoch + 1 := by
  unfold Dev.failStream
  extract_lets k told raised
  have hraised : raised.links = (d.answer o.tag sRetryExhausted []).links := by
    simp only [raised, told, Dev.raise_links, k, ho]
    rfl
  have hnim : raised.nim k = (d.answer o.tag sRetryExhausted []).nim k := by rw [Dev.nim, hraised]; rfl
  have hanswered : raised.answered o.tag = (d.answer o.tag sRetryExhausted []).answered o.tag := by rw [Dev.answered, hraised]; rfl
  have hsent := Dev.sendResync_sansTraffic v (raised.onNim k fun x =>
    { x with outstanding := [], reqEpoch := x.reqEpoch + 1, nextPsn := 0, resyncing := true }) r
  refine ⟨?_, ?_, ?_, ?_⟩
  · rw [Dev.nimField_of_sansTraffic hsent (·.outstanding), Dev.nim_onNim]
  · exact (Dev.answered_of_sansTraffic hsent o.tag).trans (hanswered.trans (d.answered_answer ht _ _))
  · rw [Dev.nimField_of_sansTraffic hsent (·.resyncing), Dev.nim_onNim]
  · rw [Dev.nimField_of_sansTraffic hsent (·.reqEpoch), Dev.nim_onNim, hnim, Dev.answer_nim]

end

end Sys2Proof.Machine
end

section
/-!
Requesters of Nimser streams (R404 to R408).
-/

namespace Sys2Proof.Proofs

open Sys2Proof.Machine Sys2Proof.Claims

section
variable {s : State} {p : Fin 17} {h : NimHdr} {r : StreamRef} (ha : arrives s.dev p h r)
include ha

theorem exec_nimserAck : exec (.nimserAck p h) s = .next (s.withDev (
    if h.epoch ≠ (s.dev.nim (streamKey r)).reqEpoch then s.dev
    else if (s.dev.nim (streamKey r)).resyncing then
      if h.ackPsn = 0xFFFFFFFF then (s.dev.onNim (streamKey r) fun y => { y with resyncing := false }).pump s.fuse.variant r else s.dev
    else (s.dev.acknowledge r h.ackPsn).pump s.fuse.variant r)) :=
  congrArg (fun d => Host.Outcome.next (s.withDev d)) (Dev.withStream_arrives s.fuse.variant ha 0x10 [] _)

theorem exec_nimserNak : exec (.nimserNak p h) s = .next (s.withDev (
    if h.epoch ≠ (s.dev.nim (streamKey r)).reqEpoch ∨ (s.dev.nim (streamKey r)).resyncing then s.dev
    else ((s.dev.acknowledge r h.ackPsn).resend s.fuse.variant r (decide (h.status ≠ 1)) fun o => !o.acked).pump s.fuse.variant r)) :=
  congrArg (fun d => Host.Outcome.next (s.withDev d)) (Dev.responseIn_arrives s.fuse.variant ha 0x11 [] _)

/-- The responses that bring an outcome: which requests each answers, and with what. -/
theorem exec_outcome {c : Instr} {pick : Outstanding → Bool} {st : W8} {bytes : List W8}
    (hc : (c = .readResp p h bytes ∧ pick = (fun o => o.op == 0x02) ∧ st = 0) ∨
      (∃ old : W64, c = .atomicResp p h old ∧ pick = (fun o => o.op == 0x03) ∧ st = 0 ∧ bytes = toLE 8 old.toNat) ∨
      (c = .errorResp p h ∧ pick = (fun _ => true) ∧ st = h.status ∧ bytes = [])) : exec c s = .next (s.withDev (
    if h.epoch ≠ (s.dev.nim (streamKey r)).reqEpoch ∨ (s.dev.nim (streamKey r)).resyncing then s.dev
    else ((s.dev.complete r h.ackPsn pick st bytes).acknowledge r h.ackPsn).pump s.fuse.variant r)) := by
  obtain ⟨rfl, rfl, rfl⟩ | ⟨old, rfl, rfl, rfl, rfl⟩ | ⟨rfl, rfl, rfl, rfl⟩ := hc <;>
    exact congrArg (fun d => Host.Outcome.next (s.withDev d)) (Dev.responseIn_arrives s.fuse.variant ha _ _ _)

end

theorem exec_nimserRtoExpiry {s : State} {r : StreamRef} {o : Outstanding} (hr : (s.dev.nim (streamKey r)).resyncing = false)
    (ho : (s.dev.nim (streamKey r)).outstanding = [o]) (hs : o.sent = true) : ∃ pick : Outstanding → Bool, pick o = true ∧
      exec (.nimserRtoExpiry ⟨r, o.psn⟩) s = .next (s.withDev (s.dev.resend s.fuse.variant r true pick)) := by
  have hexec : exec (.nimserRtoExpiry ⟨r, o.psn⟩) s = execNimserRtoExpiry ⟨r, o.psn⟩ s := rfl
  by_cases hacked : o.acked = true
  · refine ⟨fun y => y.psn == o.psn, by simp, ?_⟩
    simp [hexec, execNimserRtoExpiry, State.onDev_next, hr, ho, hs, hacked]
  · refine ⟨fun y => !y.acked, by simp [hacked], ?_⟩
    simp [hexec, execNimserRtoExpiry, State.onDev_next, hr, ho, hs, hacked]

theorem nimserRequesterCompletes : NimserRequesterCompletes := by
  intro p h r o data old psn s k x ha hr ho hs ht completes again
  have hr : (s.dev.nim (streamKey r)).resyncing = false := hr
  have ho : (s.dev.nim (streamKey r)).outstanding = [o] := ho
  have hin : h.epoch = x.reqEpoch → ¬ (h.epoch ≠ x.reqEpoch ∨ x.resyncing = true) := by
    rintro he (hne | hresync)
    · exact hne he
    · exact Bool.false_ne_true (hr.symm.trans hresync)
  have outcome : ∀ {c : Instr} {pick : Outstanding → Bool} {st : W8} {bytes : List W8}, h.epoch = x.reqEpoch → o.psn = h.ackPsn →
      pick o = true → exec c s = .next (s.withDev (if h.epoch ≠ x.reqEpoch ∨ x.resyncing then s.dev
        else ((s.dev.complete r h.ackPsn pick st bytes).acknowledge r h.ackPsn).pump s.fuse.variant r)) →
      completes (exec c s) st bytes := by
    intro c pick st bytes he hpsn hpick hc
    rw [if_neg (hin he)] at hc
    exact ⟨_, hc, Dev.completed_of_sansTraffic ht
      (Dev.pump_settled (Dev.complete_acknowledge ho hs hpsn hpick st bytes) (by simp))⟩
  refine ⟨fun he => ?otherEpoch, fun he => ⟨fun h2 h3 hpsn => ?ack, fun hop hpsn => ?awaits, fun hop hpsn => ?read, fun hop hpsn => ?atomic,
    fun hpsn => ?error, fun hacked hpsn => ⟨fun hst => ?nak, fun hst => ?notReady⟩⟩, ?rto, fun hne => ?otherPsn⟩
  case otherEpoch =>
    refine ⟨?_, ?_, ?_, ?_, ?_⟩
    · rw [exec_nimserAck ha, if_pos he, State.withDev_same]
    · rw [exec_nimserNak ha, if_pos (.inl he), State.withDev_same]
    · rw [exec_outcome ha (.inl ⟨rfl, rfl, rfl⟩), if_pos (.inl he), State.withDev_same]
    · rw [exec_outcome ha (.inr (.inl ⟨old, rfl, rfl, rfl, rfl⟩)), if_pos (.inl he), State.withDev_same]
    · rw [exec_outcome ha (.inr (.inr ⟨rfl, rfl, rfl, rfl⟩)), if_pos (.inl he), State.withDev_same]
  case ack =>
    have hw : o.wantsData = false := by rw [Outstanding.wantsData, beq_false_of_ne h2, beq_false_of_ne h3]; rfl
    have hack := Dev.acknowledge_completes ho (coversNim_up_to hs hpsn) hw
    refine ⟨_, by rw [exec_nimserAck ha, if_neg (not_not.2 he), if_neg (by rw [hr]; decide)], ?_⟩
    exact Dev.completed_of_sansTraffic ht (Dev.pump_settled (congrArg Dev.sansTraffic hack) (by simp))
  case awaits =>
    have hw : o.wantsData = true := by simpa [Outstanding.wantsData] using hop
    have hack := Dev.acknowledge_awaits ho (coversNim_up_to hs hpsn) hw
    refine ⟨_, by rw [exec_nimserAck ha, if_neg (not_not.2 he), if_neg (by rw [hr]; decide)], ?_⟩
    exact Dev.outstanding_of_sansTraffic (Dev.pump_settled (congrArg Dev.sansTraffic hack) (by simpa using hs))
  case read => exact outcome he hpsn (by simp [hop]) (exec_outcome ha (.inl ⟨rfl, rfl, rfl⟩))
  case atomic => exact outcome he hpsn (by simp [hop]) (exec_outcome ha (.inr (.inl ⟨old, rfl, rfl, rfl, rfl⟩)))
  case error => exact outcome he hpsn rfl (exec_outcome ha (.inr (.inr ⟨rfl, rfl, rfl, rfl⟩)))
  case nak =>
    have hback := Dev.acknowledge_before ho (coversNim_before hpsn)
    have hone : ((s.dev.acknowledge r h.ackPsn).nim (streamKey r)).outstanding = [o] := by rw [hback, Dev.nim_onNim]
    have hepoch : ((s.dev.acknowledge r h.ackPsn).nim (streamKey r)).reqEpoch = x.reqEpoch := by rw [hback, Dev.nim_onNim]
    have hexec := exec_nimserNak ha
    rw [if_neg (hin he), decide_eq_true hst] at hexec
    have hpick : (!o.acked) = true := by rw [hacked]; rfl
    refine ⟨fun hlt => ⟨_, hexec, ?_⟩, fun hge => ?_⟩
    · have hagain := Dev.resend_again (v := s.fuse.variant) (pick := fun o => !o.acked) hone hs hpick fun _ : true = true => hlt
      exact Dev.outstanding_of_sansTraffic (Dev.pump_settled hagain (by simpa using hs))
    · obtain ⟨hgone, htold, hresync, hnext⟩ := Dev.failStream_alone s.fuse.variant hone ht o.psn
      rw [Dev.resend_fails (pick := fun o => !o.acked) hone hs hpick hge, Dev.pump_resyncing hresync] at hexec
      exact ⟨_, hexec, hgone, htold, hresync, hnext.trans (congrArg (· + 1) hepoch)⟩
  case notReady =>
    have hback := Dev.acknowledge_before ho (coversNim_before hpsn)
    have hone : ((s.dev.acknowledge r h.ackPsn).nim (streamKey r)).outstanding = [o] := by rw [hback, Dev.nim_onNim]
    have hexec := exec_nimserNak ha
    rw [if_neg (hin he), decide_eq_false (not_not.2 hst)] at hexec
    have hagain := Dev.resend_again (v := s.fuse.variant) (counts := false) (pick := fun o => !o.acked) hone hs (by rw [hacked]; rfl) nofun
    exact ⟨_, hexec, Dev.outstanding_of_sansTraffic (Dev.pump_settled hagain (by simpa using hs))⟩
  case rto =>
    obtain ⟨pick, hpick, hexec⟩ := exec_nimserRtoExpiry hr ho hs
    refine ⟨fun hlt => ⟨_, hexec, ?_⟩, fun hge => ⟨_, by rw [hexec, Dev.resend_fails ho hs hpick hge], Dev.failStream_alone _ ho ht _⟩⟩
    exact Dev.outstanding_of_sansTraffic (Dev.resend_again ho hs hpick fun _ => hlt)
  case otherPsn =>
    have hfind : ¬ o.psn = psn := Ne.symm hne
    have hexec : exec (.nimserRtoExpiry ⟨r, psn⟩) s = execNimserRtoExpiry ⟨r, psn⟩ s := rfl
    simp [hexec, execNimserRtoExpiry, State.onDev_next, hr, ho, hfind]

theorem nimserHandshakes : NimserHandshakes := by
  intro p h r psn s k x hr
  have hr : (s.dev.nim (streamKey r)).resyncing = true := hr
  refine ⟨fun ha he hp => ?ends, fun ha hout => ?stays, ?again⟩
  case ends =>
    refine ⟨_, by rw [exec_nimserAck ha, if_neg (not_not.2 he), if_pos hr, if_pos hp], ?_, ?_⟩
    · rw [Dev.nimField_pump (·.resyncing), Dev.nim_onNim]
    · rw [Dev.nimField_pump (·.reqEpoch), Dev.nim_onNim]
  case stays =>
    rw [exec_nimserAck ha, if_pos hr]
    by_cases he : h.epoch = x.reqEpoch
    · rw [if_neg (not_not.2 he), if_neg (hout.resolve_left (not_not.2 he)), State.withDev_same]
    · rw [if_pos he, State.withDev_same]
  case again =>
    obtain ⟨d, hd, hexec⟩ : ∃ d : Dev, d.links = s.dev.links ∧
        exec (.nimserRtoExpiry ⟨r, psn⟩) s = .next (s.withDev (d.sendResync s.fuse.variant r)) := by
      refine ⟨_, ?_, congrArg (fun d => Host.Outcome.next (s.withDev d)) (if_pos hr)⟩
      split
      · rfl
      · exact Dev.portError_links ..
    have hnim : d.nim k = x := by rw [Dev.nim, hd]; rfl
    have hsent := Dev.sendResync_sansTraffic s.fuse.variant d r
    refine ⟨_, hexec, ?_, ?_, ?_⟩
    · rw [Dev.nimField_of_sansTraffic hsent (·.resyncing), hnim, hr]
    · rw [Dev.nimField_of_sansTraffic hsent (·.outstanding), hnim]
    · rw [Dev.nimField_of_sansTraffic hsent (·.reqEpoch), hnim]

/-- Settles O52: with the one request sent already, nothing goes out behind an answer, so the stream keeps just what the acknowledgement, the
response, the repetition or the failure leaves of it. -/
theorem nimserRequesters : Obligations.NimserRequesters := ⟨nimserRequesterCompletes, nimserHandshakes⟩

end Sys2Proof.Proofs
end

section
/-!
SUPPORT. RoCEv2 connections as requester (R400, R409): the connection that a queue pair number names, and what an acknowledgement, a repetition
and the error state leave of one request outstanding.
-/

namespace Sys2Proof.Machine

open Sys2Proof Sys2Proof.Claims

/-! ## Queue pairs (R395) -/

theorem connOfQp_localQp (i : W8) : connOfQp (localQp i.toNat) = some i := by
  have hi := i.isLt
  have hq : (localQp i.toNat).toNat = 0x100 + i.toNat := by simp only [localQp, BitVec.toNat_ofNat]; omega
  have hv : (localQp i.toNat).setWidth 8 = i := by
    apply BitVec.eq_of_toNat_eq
    rw [BitVec.toNat_setWidth, hq]
    omega
  rw [connOfQp, if_pos (by omega), hv]

theorem localQp_of_connOfQp {qp : BitVec 24} {i : W8} (h : connOfQp qp = some i) : qp = localQp i.toNat := by
  unfold connOfQp at h
  split at h
  · next hq =>
    obtain rfl : qp.setWidth 8 = i := Option.some.inj h
    apply BitVec.eq_of_toNat_eq
    simp only [localQp, BitVec.toNat_ofNat, BitVec.toNat_setWidth]
    omega
  · cases h

theorem Dev.onRoce_open {d : Dev} {i : W8} (h : roceOpen d i) (f : Nat → Dev → Dev) : d.onRoce i f = f i.toNat d := if_pos h

theorem Dev.onRoce_closed {d : Dev} {i : W8} (h : ¬ roceOpen d i) (f : Nat → Dev → Dev) : d.onRoce i f = d := if_neg h

theorem Dev.withRoce_open {d : Dev} {qp : BitVec 24} {i : W8} (hq : qp = localQp i.toNat) (h : roceOpen d i) (f : Nat → Dev → Dev) :
    d.withRoce qp f = f i.toNat d := by
  rw [Dev.withRoce, hq, connOfQp_localQp]
  exact Dev.onRoce_open h f

theorem Dev.withRoce_closed {d : Dev} {qp : BitVec 24} (h : ∀ i : W8, qp = localQp i.toNat → ¬ roceOpen d i) (f : Nat → Dev → Dev) :
    d.withRoce qp f = d := by
  unfold Dev.withRoce
  split
  · next i hi => exact Dev.onRoce_closed (h i (localQp_of_connOfQp hi)) f
  · rfl

/-! ## Requests that wait (R400) -/

/-- Where every request of a connection is sent none goes out. -/
theorem Dev.rocePump_sent {d : Dev} {i : Nat} (h : ∀ o ∈ (d.conn i).outstanding, o.sent = true) :
    (d.rocePump i).sansTraffic = d.sansTraffic := by
  have hgo : ∀ (os : List Outstanding) (r : List Outstanding × Nat), (∀ o ∈ os, o.sent = true) →
      os.foldl (fun (r : List Outstanding × Nat) o =>
        if o.sent then r else if o.op == 0x02 then (if r.2 < 16 then (r.1 ++ [o], r.2 + 1) else r) else (r.1 ++ [o], r.2)) r = r := by
    intro os
    induction os with
    | nil => exact fun _ _ => rfl
    | cons o os ih =>
      intro r hos
      rw [List.foldl_cons, if_pos (hos o List.mem_cons_self)]
      exact ih r fun x hx => hos x (List.mem_cons_of_mem o hx)
  unfold Dev.rocePump
  dsimp only
  rw [hgo _ _ h]
  exact d.onConn_sansTraffic i (by simp)

/-- Whether an acknowledgement of a PSN completes a request: it is covered and waits for no data. -/
def doneRoce (psn : W32) (o : Outstanding) : Bool := coversRoce psn o && o.op != 0x02

theorem Dev.roceAcked_eq (d : Dev) (i : Nat) (psn : W32) : d.roceAcked i psn =
    (((((d.conn i).outstanding.filter (doneRoce psn)).foldl (fun (d : Dev) o => d.answer o.tag 0 []) d).onConn i fun c =>
      { c with outstanding := (d.conn i).outstanding.filter (fun o => !doneRoce psn o),
               tries := if (d.conn i).outstanding.any (doneRoce psn) then 0 else c.tries }).rocePump i) := rfl

section
variable {d : Dev} {i : Nat} {o : Outstanding} {psn : W32}

theorem Dev.rocePump_settled {u : Dev} {c : Conn} (hu : u.sansTraffic = (d.onConn i fun _ => c).sansTraffic)
    (hc : ∀ o ∈ c.outstanding, o.sent = true) : (u.rocePump i).sansTraffic = (d.onConn i fun _ => c).sansTraffic :=
  (Dev.rocePump_sent (by rwa [Dev.conn_of_sansTraffic hu, Dev.conn_onConn])).trans hu

/-! ## Acknowledgements (R400) -/

/-- An acknowledged write completes, and the count of retries starts again. -/
theorem Dev.roceAcked_completes (ho : (d.conn i).outstanding = [o]) (hd : doneRoce psn o = true) :
    (d.roceAcked i psn).sansTraffic =
      ((d.answer o.tag 0 []).onConn i fun _ => { d.conn i with outstanding := [], tries := 0 }).sansTraffic := by
  rw [Dev.roceAcked_eq]
  refine Dev.rocePump_settled (Dev.onConn_sansTraffic_congr ?_ ?_) (by simp) <;> simp [ho, hd]

/-- What an acknowledgement does not complete stays as it is. -/
theorem Dev.roceAcked_stays (hs : ∀ o ∈ (d.conn i).outstanding, o.sent = true) (hd : ∀ o ∈ (d.conn i).outstanding, doneRoce psn o = false) :
    (d.roceAcked i psn).sansTraffic = d.sansTraffic := by
  have hdone : (d.conn i).outstanding.filter (doneRoce psn) = [] := List.filter_eq_nil_iff.2 fun o ho => by simp [hd o ho]
  have hrest : (d.conn i).outstanding.filter (fun o => !doneRoce psn o) = (d.conn i).outstanding :=
    List.filter_eq_self.2 fun o ho => by simp [hd o ho]
  have hany : (d.conn i).outstanding.any (doneRoce psn) = false := List.any_eq_false.2 fun o ho => by simp [hd o ho]
  rw [Dev.roceAcked_eq, hdone, hrest, hany]
  exact (Dev.rocePump_settled (c := d.conn i) (Dev.onConn_sansTraffic_congr rfl rfl) hs).trans (d.onConn_sansTraffic i rfl)

/-! ## Repetitions and the error state (R400) -/

variable {counts : Bool}

theorem Dev.roceRetry_again (ho : (d.conn i).outstanding = [o]) (hs : o.sent = true) (ht : counts = true → (d.conn i).tries < 7) :
    (d.roceRetry i counts fun _ => true).sansTraffic =
      (d.onConn i fun c => { c with tries := if counts then (d.conn i).tries + 1 else (d.conn i).tries }).sansTraffic := by
  have hc : (counts && decide (7 ≤ (d.conn i).tries)) = false := by
    cases counts with
    | false => rfl
    | true => exact decide_eq_false (not_le.2 (ht rfl))
  unfold Dev.roceRetry
  simp only [ho, hs, Bool.and_true, List.filter_cons_of_pos, List.filter_nil, hc, Bool.false_eq_true, if_false, List.foldl_cons, List.foldl_nil]
  exact Dev.onConn_sansTraffic_congr (Dev.sendRoce_sansTraffic ..) rfl

/-- The error state tells the request that it failed. -/
theorem Dev.roceError_alone (ho : (d.conn i).outstanding = [o]) (ht : o.tag ≠ 0) :
    ((d.roceError i).conn i).outstanding = [] ∧ (d.roceError i).answered o.tag = some (sRetryExhausted, []) := by
  unfold Dev.roceError
  rw [ho, Dev.conn_onConn]
  exact ⟨rfl, d.answered_answer ht sRetryExhausted []⟩

/-- After seven retries the connection is in the error state. -/
theorem Dev.roceRetry_fails (ho : (d.conn i).outstanding = [o]) (hs : o.sent = true) (hn : 7 ≤ (d.conn i).tries) (ht : o.tag ≠ 0) :
    ((d.roceRetry i true fun _ => true).conn i).outstanding = [] ∧
      (d.roceRetry i true fun _ => true).answered o.tag = some (sRetryExhausted, []) := by
  unfold Dev.roceRetry
  simp only [ho, hs, Bool.and_true, List.filter_cons_of_pos, List.filter_nil, decide_eq_true hn, if_true]
  rw [Dev.conn, Dev.answered, Dev.raise_links]
  exact Dev.roceError_alone ho ht

end

end Sys2Proof.Machine
end

section
/-!
The device's own requests on RoCEv2 connections (R400, R409).
-/

namespace Sys2Proof.Proofs

open Sys2Proof.Machine Sys2Proof.Claims

/-- A packet to the queue pair of an open connection. -/
theorem exec_roceAck {s : State} {h : RoceHdr} {i : W8} (hq : h.qp = localQp i.toNat) (hopen : roceOpen s.dev i) :
    exec (.roceAck h) s = .next (s.withDev (s.dev.roceAcked i.toNat h.psn)) :=
  congrArg (fun d => Host.Outcome.next (s.withDev d)) (Dev.withRoce_open hq hopen _)

theorem exec_roceNak {s : State} {h : RoceHdr} {i : W8} (hq : h.qp = localQp i.toNat) (hopen : roceOpen s.dev i) (syndrome : W8) :
    exec (.roceNak h syndrome) s = .next (s.withDev (
      let before := s.dev.roceAcked i.toNat (psn24 (h.psn - 1))
      if syndrome = 0x60 then before.roceRetry i.toNat true fun _ => true
      else if syndrome.toNat / 32 = 1 then before.roceRetry i.toNat false fun _ => true
      else before.roceError i.toNat)) :=
  congrArg (fun d => Host.Outcome.next (s.withDev d)) (Dev.withRoce_open hq hopen _)

theorem exec_roceReadResponse {s : State} {h : RoceHdr} {i : W8} (hq : h.qp = localQp i.toNat) (hopen : roceOpen s.dev i)
    (data : List W8) : exec (.roceReadResponse h data) s = .next (s.withDev (
      match (s.dev.conn i.toNat).outstanding.find? (fun o => o.sent && o.psn == h.psn && o.op == 0x02) with
      | none => s.dev
      | some o => ((s.dev.answer o.tag 0 data).onConn i.toNat fun c =>
          { c with outstanding := c.outstanding.filter (fun y => y.psn != h.psn), tries := 0 }).roceAcked i.toNat h.psn)) :=
  (congrArg (fun d => Host.Outcome.next (s.withDev d)) (Dev.withRoce_open hq hopen _)).trans rfl

theorem exec_roceRetryTimeout {s : State} {i : W8} (hopen : roceOpen s.dev i) :
    exec (.roceRetryTimeout i) s = .next (s.withDev (s.dev.roceRetry i.toNat true fun _ => true)) :=
  congrArg (fun d => Host.Outcome.next (s.withDev d)) (Dev.onRoce_open hopen _)

theorem exec_cnp {s : State} {i : W8} (hopen : roceOpen s.dev i) (now : Nat) : exec (.cnp i now) s = .next (s.withDev (
    if s.dev.bit (At.host 0x000) 8 && dueAgain (s.dev.conn i.toNat).lastSlow now then
      s.dev.onConn i.toNat fun c => { c with rate := max (c.rate / 2) rateLeast, lastSlow := some now, slowed := true }
    else s.dev)) :=
  congrArg (fun d => Host.Outcome.next (s.withDev d)) (Dev.onRoce_open hopen _)

theorem exec_roceRequester_closed {s : State} {i : W8} (hclosed : ¬ roceOpen s.dev i) (now : Nat) :
    exec (.roceRetryTimeout i) s = .next s ∧ exec (.cnp i now) s = .next s :=
  ⟨congrArg (fun d => Host.Outcome.next (s.withDev d)) (Dev.onRoce_closed hclosed _),
    congrArg (fun d => Host.Outcome.next (s.withDev d)) (Dev.onRoce_closed hclosed _)⟩

/-- Settles O50: with the one request sent already, nothing goes out behind an answer, and a connection keeps just what the acknowledgement, the
repetition or the error state leaves of it. -/
theorem roceRequesterCompletes : Obligations.RoceRequesterCompletes := by
  refine ⟨?requests, ?notified, fun i now s hclosed => exec_roceRequester_closed hclosed now⟩
  case requests =>
    intro h i o data syndrome s hq n c hopen ho hs ht completes again
    have ho : (s.dev.conn i.toNat).outstanding = [o] := ho
    have told : ∀ {u : Dev} {st : W8} {y : List W8} {c' : Conn}, c'.outstanding = [] →
        u.sansTraffic = ((s.dev.answer o.tag st y).onConn n fun _ => c').sansTraffic →
        (u.conn n).outstanding = [] ∧ u.answered o.tag = some (st, y) := fun hc hu =>
      ⟨by rw [Dev.conn_of_sansTraffic hu, Dev.conn_onConn, hc], (Dev.answered_of_sansTraffic hu o.tag).trans (Dev.answered_answer _ ht ..)⟩
    have kept : ∀ {u : Dev}, u.sansTraffic = s.dev.sansTraffic → (u.conn n).outstanding = [o] ∧ (u.conn n).tries = c.tries := fun hu => by
      rw [Dev.conn_of_sansTraffic hu]
      exact ⟨ho, rfl⟩
    have retried : ∀ {d : Dev} (counts : Bool), (d.conn n).outstanding = [o] → (counts = true → (d.conn n).tries < 7) →
        ((d.roceRetry n counts fun _ => true).conn n).outstanding = [o] ∧
          ((d.roceRetry n counts fun _ => true).conn n).tries = if counts then (d.conn n).tries + 1 else (d.conn n).tries := by
      intro d counts hd hlt
      rw [Dev.conn_of_sansTraffic (Dev.roceRetry_again hd hs hlt), Dev.conn_onConn]
      exact ⟨hd, rfl⟩
    have undone : ∀ {psn : W32}, doneRoce psn o = false → (s.dev.roceAcked n psn).sansTraffic = s.dev.sansTraffic := fun hd =>
      Dev.roceAcked_stays (by simpa [n, ho] using hs) (by simpa [n, ho] using hd)
    refine ⟨fun hop hpsn => ?ack, fun hout => ?early, fun hop hpsn => ?read, fun hout => ?otherRead, fun hlt => ?timeout, fun hge => ?exhausted,
      fun hpsn => ?nak⟩
    case ack =>
      have hd : doneRoce h.psn o = true := by rw [doneRoce, coversRoce, hs, decide_eq_true hpsn, bne_iff_ne.2 hop]; rfl
      exact ⟨_, exec_roceAck hq hopen, told rfl (Dev.roceAcked_completes ho hd)⟩
    case early =>
      have hd : doneRoce h.psn o = false := by
        rw [doneRoce, coversRoce, Bool.and_eq_false_iff]
        rcases hout with hop | hpsn
        · exact .inr (by rw [hop]; rfl)
        · exact .inl (by rw [decide_eq_false (not_lt.2 hpsn), Bool.and_false])
      exact ⟨_, exec_roceAck hq hopen, kept (undone hd)⟩
    case read =>
      have hexec := exec_roceReadResponse hq hopen data
      rw [ho, List.find?_cons_of_pos (by rw [hs, hpsn, hop]; simp)] at hexec
      refine ⟨_, hexec, ?_⟩
      have hnone : (((s.dev.answer o.tag 0 data).onConn i.toNat fun c =>
          { c with outstanding := c.outstanding.filter (fun y => y.psn != h.psn), tries := 0 }).conn i.toNat).outstanding = [] := by
        rw [Dev.conn_onConn, Dev.answer_conn, ho]
        simp [hpsn]
      refine told (c' := { c with outstanding := [], tries := 0 }) rfl ((Dev.roceAcked_stays (by rw [hnone]; nofun) (by rw [hnone]; nofun)).trans ?_)
      refine Dev.onConn_sansTraffic_congr rfl ?_
      rw [Dev.answer_conn, ho]
      simp [hpsn, c, n]
    case otherRead =>
      have hexec := exec_roceReadResponse hq hopen data
      rw [ho, List.find?_cons_of_neg (by
        simp only [hs, Bool.true_and, Bool.and_eq_true, beq_iff_eq]
        exact fun hb => hout.elim (· hb.2) (· hb.1))] at hexec
      exact hexec
    case timeout => exact ⟨_, exec_roceRetryTimeout hopen, retried true ho fun _ => hlt⟩
    case exhausted => exact ⟨_, exec_roceRetryTimeout hopen, Dev.roceRetry_fails ho hs hge ht⟩
    case nak =>
      have hd : doneRoce (psn24 (h.psn - 1)) o = false := by
        rw [doneRoce, coversRoce, decide_eq_false (not_lt.2 hpsn), Bool.and_false, Bool.false_and]
      obtain ⟨hone, htries⟩ := kept (undone hd)
      have hexec := exec_roceNak hq hopen syndrome
      refine ⟨fun hrnr => ?_, fun hseq hlt => ?_, fun hout => ?_⟩
      · have hne : syndrome ≠ 0x60 := by rintro rfl; exact absurd hrnr (by decide)
        rw [if_neg hne, if_pos hrnr] at hexec
        obtain ⟨hone', htries'⟩ := retried false hone nofun
        exact ⟨_, hexec, hone', htries'.trans htries⟩
      · rw [if_pos hseq] at hexec
        obtain ⟨hone', htries'⟩ := retried true hone fun _ => htries.trans_lt hlt
        exact ⟨_, hexec, hone', htries'.trans (congrArg (· + 1) htries)⟩
      · obtain ⟨hseq, hge⟩ | ⟨hseq, hrnr⟩ := hout
        · rw [if_pos hseq] at hexec
          exact ⟨_, hexec, Dev.roceRetry_fails hone hs (hge.trans_eq htries.symm) ht⟩
        · rw [if_neg hseq, if_neg hrnr] at hexec
          exact ⟨_, hexec, Dev.roceError_alone hone ht⟩
  case notified =>
    intro i now s hopen c
    rw [exec_cnp hopen]
    refine ⟨fun hout => ?_, fun hon hdue => ⟨_, by rw [if_pos (by rw [hon, dueAgain_eq_true.2 hdue]; rfl)], Dev.conn_onConn ..⟩⟩
    rw [if_neg, State.withDev_same]
    rw [Bool.and_eq_true]
    rintro ⟨hon, hdue⟩
    rcases hout with hoff | hearly
    · exact Bool.false_ne_true (hoff.symm.trans hon)
    · exact Bool.false_ne_true ((dueAgain_eq_false.2 hearly).symm.trans hdue)

end Sys2Proof.Proofs
end

section
/-!
SUPPORT. Messages only grow in number (R395, R401): an access from outside to memory and what it sends on leave every message sent or held
back before, and the path MTU of every connection.
-/

namespace Sys2Proof.Machine

open Sys2Proof Sys2Proof.Claims

/-- Every message sent or held back before comes first among those after, and every connection keeps its path MTU. -/
structure Dev.Grows (d e : Dev) : Prop where
  outbox : d.outbox <+: e.outbox
  held : d.links.heldOut <+: e.links.heldOut
  pmtu : ∀ i, (e.conn i).pmtu = (d.conn i).pmtu

namespace Dev.Grows

theorem refl (d : Dev) : Grows d d := ⟨List.prefix_rfl, List.prefix_rfl, fun _ => rfl⟩

theorem trans {a b c : Dev} (h : Grows a b) (h' : Grows b c) : Grows a c :=
  ⟨h.outbox.trans h'.outbox, h.held.trans h'.held, fun i => (h'.pmtu i).trans (h.pmtu i)⟩

/-- Where the links stand only what is sent counts. -/
theorem of_outbox {d e : Dev} (ho : d.outbox <+: e.outbox) (hl : e.links = d.links) : Grows d e :=
  ⟨ho, by rw [hl], fun i => by simp only [Dev.conn, hl]⟩

/-- Where no connection changes. -/
theorem of_conns {d e : Dev} (ho : d.outbox <+: e.outbox) (hh : d.links.heldOut <+: e.links.heldOut)
    (hc : e.links.conns = d.links.conns) : Grows d e := ⟨ho, hh, fun i => by simp only [Dev.conn, hc]⟩

/-- A change of ports or streams. -/
theorem of_same {d e : Dev} (ho : e.outbox = d.outbox) (hl : e.links.heldOut = d.links.heldOut) (hc : e.links.conns = d.links.conns) :
    Grows d e := of_conns (by rw [ho]) (by rw [hl]) hc

theorem onConn (d : Dev) (i : Nat) (f : Conn → Conn) (h : ∀ c, (f c).pmtu = c.pmtu) : Grows d (d.onConn i f) := by
  refine ⟨List.prefix_rfl, List.prefix_rfl, fun j => ?_⟩
  by_cases hj : j = i
  · rw [hj, Dev.conn_onConn, h]
  · rw [Dev.conn_onConn_ne _ _ hj]

theorem foldl {α : Type} {f : Dev → α → Dev} (h : ∀ d a, Grows d (f d a)) (as : List α) (d : Dev) : Grows d (as.foldl f d) := by
  induction as generalizing d with
  | nil => exact refl d
  | cons a as ih => exact (h d a).trans (ih _)

theorem send (d : Dev) (m : OutMsg) : Grows d (d.send m) := of_outbox (List.prefix_append ..) rfl

theorem count (d : Dev) (l : CsrLoc) (lo w n : Nat) : Grows d (d.count l lo w n) := of_outbox (by simp) (by simp)

/-! ## Packets leave -/

theorem sendFlits (p n : Nat) (d : Dev) : Grows d (Dev.sendFlits p n d) := by
  induction n generalizing d with
  | zero => exact refl d
  | succ n ih =>
    simp only [Dev.sendFlits]
    split
    · exact refl d
    · split
      · exact refl d
      · refine trans (trans ?_ (send ..)) (ih _)
        exact of_same rfl rfl rfl

theorem transmit (d : Dev) (p : Nat) (m : Packet) : Grows d (d.transmit p m) := by
  unfold Dev.transmit
  split
  · split
    · refine trans ?_ (sendFlits ..)
      exact of_same rfl rfl rfl
    · exact send ..
    · exact refl d
  · split
    · exact of_conns List.prefix_rfl (List.prefix_append ..) rfl
    · exact send ..

theorem pickWay (v : Variant) (d : Dev) (src dst : W16) (vc : Nat) : Grows d (d.pickWay v src dst vc).2 := by
  have keep : ∀ (b : Prop) [Decidable b] (k : Nat) (f : NimStream → NimStream), Grows d (if b then d.onNim k f else d) := by
    intro b _ k f
    split
    · exact of_same rfl rfl rfl
    · exact refl d
  simp only [Dev.pickWay]
  split
  · exact refl d
  · split
    · split
      · exact refl d
      · exact keep ..
    · exact keep ..

theorem sendReq (v : Variant) (d : Dev) (r : StreamRef) (o : Outstanding) (again : Bool) : Grows d (d.sendReq v r o again) := by
  cases r with
  | conn i => simp only [Dev.sendReq]; exact transmit ..
  | peer dev vc =>
    simp only [Dev.sendReq]
    split
    · exact pickWay ..
    · exact (pickWay ..).trans (transmit ..)

theorem pump (v : Variant) (d : Dev) (r : StreamRef) : Grows d (d.pump v r) := by
  simp only [Dev.pump]
  split
  · exact refl d
  · exact (foldl (fun d o => sendReq v d r o false) _ d).trans (of_same rfl rfl rfl)

theorem nimRequest (v : Variant) (d : Dev) (r : StreamRef) (op : W8) (addr aux : W64) (data : List W8) (tag : Nat) :
    Grows d (d.nimRequest v r op addr aux data tag).2 := by
  cases r with
  | conn i =>
    simp only [Dev.nimRequest]
    split
    · exact refl d
    · refine trans ?_ (pump ..)
      exact of_same rfl rfl rfl
  | peer dev vc =>
    simp only [Dev.nimRequest]
    split
    · dsimp only
      exact count ..
    · refine trans ?_ (pump ..)
      exact of_same rfl rfl rfl

theorem rocePump (d : Dev) (i : Nat) : Grows d (d.rocePump i) := (foldl (fun _ _ => transmit ..) _ d).trans (onConn _ _ _ fun _ => rfl)

theorem roceRequest (d : Dev) (i : Nat) (op : W8) (addr : W64) (len : Nat) (data : List W8) (tag : Nat) :
    Grows d (d.roceRequest i op addr len data tag).2 := by
  simp only [Dev.roceRequest]
  split
  · exact refl d
  · refine trans ?_ (rocePump ..)
    exact onConn _ _ _ fun _ => rfl

theorem hostRequest (v : Variant) (d : Dev) (i : Nat) (op : W8) (addr : W64) (len : Nat) (data : List W8) (tag : Nat) :
    Grows d (d.hostRequest v i op addr len data tag).2 := by
  simp only [Dev.hostRequest]
  split
  · exact refl d
  · split
    · exact roceRequest ..
    · exact nimRequest ..

end Dev.Grows

/-! ## Lines of a stack and its cache -/

@[simp] theorem Dev.raise_outbox (d : Dev) (c : Nat) (i : EventInfo) : (d.raise c i).outbox = d.outbox := by rw [Dev.raise_frame]

@[simp] theorem Dev.fillGroup_outbox (d : Dev) (n c g : Nat) : (d.fillGroup n c g).outbox = d.outbox :=
  Dev.outbox_of_sansCaches (Dev.fillGroup_sansCaches ..)

@[simp] theorem Dev.cachePut_outbox (d : Dev) (n line : Nat) (data : List W8) (dirty : Bool) :
    (d.cachePut n line data dirty).outbox = d.outbox := Dev.outbox_of_sansCaches (Dev.cachePut_sansCaches ..)

@[simp] theorem Dev.setReg64_outbox (d : Dev) (l : CsrLoc) (w : W64) : (d.setReg64 l w).outbox = d.outbox := by simp [Dev.setReg64]
@[simp] theorem Dev.storeRaw_outbox (d : Dev) (n line : Nat) (data chk : List W8) : (d.storeRaw n line data chk).outbox = d.outbox := rfl
@[simp] theorem Dev.storeLine_outbox (d : Dev) (n line : Nat) (data : List W8) : (d.storeLine n line data).outbox = d.outbox :=
  Dev.storeRaw_outbox ..
@[simp] theorem Dev.poisonLine_outbox (d : Dev) (n line : Nat) : (d.poisonLine n line).outbox = d.outbox := Dev.storeRaw_outbox ..

@[simp] theorem Dev.readStored_outbox (d : Dev) (n line : Nat) : (d.readStored n line).d.outbox = d.outbox := by
  unfold Dev.readStored
  split
  · simp
  · split <;> simp

@[simp] theorem Dev.refetch_outbox (d : Dev) (n line : Nat) : (d.refetch n line).d.outbox = d.outbox := by
  unfold Dev.refetch; dsimp only; split <;> simp

@[simp] theorem Dev.cachedRead_outbox (d : Dev) (n line : Nat) (c : CacheLine) : (d.cachedRead n line c).d.outbox = d.outbox := by
  unfold Dev.cachedRead
  split
  · simp
  · split
    · simp
    · split <;> simp

@[simp] theorem Dev.lineRead_outbox (d : Dev) (n line : Nat) : (d.lineRead n line).d.outbox = d.outbox := by
  unfold Dev.lineRead
  dsimp only
  split
  · rfl
  · split <;> simp

@[simp] theorem Dev.lineWrite_outbox (d : Dev) (n line off : Nat) (bytes : List W8) : (d.lineWrite n line off bytes).d.outbox = d.outbox := by
  unfold Dev.lineWrite; dsimp only; split_ifs <;> simp

/-- A request served at a slice is answered, behind what was sent before. -/
theorem Dev.serveLine_outbox (d : Dev) (n line : Nat) (j : SliceJob) : d.outbox <+: (d.serveLine n line j).outbox := by
  unfold Dev.serveLine
  dsimp only
  split
  · simp [Dev.reply]
  · simp [Dev.reply]
  · split_ifs <;> simp [Dev.reply]

theorem Dev.drain_outbox (n line : Nat) (st : W8) (js : List SliceJob) (d : Dev) : d.outbox <+: (Dev.drain n line st js d).outbox := by
  induction js generalizing d with
  | nil => exact List.prefix_rfl
  | cons j js ih =>
    simp only [Dev.drain]
    split
    · exact (Dev.serveLine_outbox ..).trans (ih _)
    · exact (List.prefix_append d.outbox _).trans (ih (d.reply j st []))

theorem Dev.endLineFill_outbox (d : Dev) (n line : Nat) (f : Fill) (st : W8) (data : List W8) :
    d.outbox <+: (d.endLineFill n line f st data).outbox := by
  unfold Dev.endLineFill
  dsimp only
  refine List.IsPrefix.trans ?_ (Dev.drain_outbox ..)
  split <;> simp

theorem Dev.settleFill_outbox (d : Dev) (n line : Nat) : d.outbox <+: (d.settleFill n line).outbox := by
  unfold Dev.settleFill
  split
  · exact List.prefix_rfl
  · split
    · exact Dev.endLineFill_outbox ..
    · split
      · exact Dev.endLineFill_outbox ..
      · refine List.IsPrefix.trans ?_ (Dev.endLineFill_outbox ..)
        simp

theorem Dev.quireRead_outbox (d : Dev) (n line : Nat) : d.outbox <+: (d.quireRead n line).d.outbox := by
  simp only [Dev.quireRead, Dev.lineRead_outbox]
  exact Dev.settleFill_outbox ..

@[simp] theorem Dev.scratchRead_outbox (d : Dev) (n off : Nat) : (d.scratchRead n off).d.outbox = d.outbox := by
  simp only [Dev.scratchRead]; split_ifs <;> simp

theorem Dev.localRead_outbox (v : Variant) (d : Dev) (a : Nat) : d.outbox <+: (d.localRead v a).d.outbox := by
  unfold Dev.localRead
  split
  · split_ifs
    · exact List.prefix_rfl
    · exact Dev.quireRead_outbox ..
    · exact List.prefix_rfl
  · split_ifs
    · exact List.prefix_rfl
    · rw [Dev.scratchRead_outbox]
    · exact List.prefix_rfl
  · split_ifs <;> exact List.prefix_rfl
  · exact List.prefix_rfl
  · exact List.prefix_rfl
  · exact List.prefix_rfl

namespace Dev.Grows

/-! ## Physical and virtual addresses -/

theorem localRead (v : Variant) (d : Dev) (a : Nat) : Grows d (d.localRead v a).d := of_outbox (Dev.localRead_outbox ..) (by simp)

theorem physBytes (v : Variant) (d : Dev) (a len : Nat) : Grows d (d.physBytes v a len).d := by
  refine readPieces_keeps (R := Grows) refl (fun h h' => h.trans h') (fun d a n => ?_) (pieces a len) d
  exact localRead v d a

theorem walkFrom (v : Variant) (k : Nat) (d : Dev) (tbl va : Nat) : Grows d (Dev.walkFrom v k d tbl va).2.2 := by
  induction k generalizing d tbl with
  | zero => simp only [Dev.walkFrom]; split_ifs <;> exact physBytes ..
  | succ k ih =>
    simp only [Dev.walkFrom]
    split_ifs
    · exact physBytes ..
    · exact (physBytes ..).trans (ih _ _)
    · exact physBytes ..

theorem walk (v : Variant) (d : Dev) (u : XlUnit) (ctx va : Nat) : Grows d (d.walk v u ctx va).2.2 := by
  have kept : ∀ x : W8 × W64 × Dev, Grows d x.2.2 → Grows d (if x.1 = 0 ∧ u.caches = true then
      (0, x.2.1, { x.2.2 with xlCache := (u, ctx, va / 2 ^ 21, x.2.1) :: x.2.2.xlCache }) else x).2.2 := by
    intro x hx
    split
    · exact hx.trans (of_same rfl rfl rfl)
    · exact hx
  unfold Dev.walk
  split
  · exact refl d
  · dsimp only
    split
    · exact physBytes ..
    · split
      · exact physBytes ..
      · exact kept _ ((physBytes ..).trans (walkFrom ..))

theorem translate (v : Variant) (d : Dev) (u : XlUnit) (ctx va : Nat) (wr ev : Bool) : Grows d (d.translate v u ctx va wr ev).2.2 := by
  unfold Dev.translate
  dsimp only
  split
  · exact refl d
  · split
    · exact walk ..
    · split
      · exact walk ..
      · split
        · exact walk ..
        · exact walk ..
        · exact (walk ..).trans (of_outbox (by rw [(Dev.SameCaches.touch ..).outbox]) (by simp))

theorem windowTarget (v : Variant) (d : Dev) (a : Nat) : Grows d (d.windowTarget v a).2.2.2 := by
  unfold Dev.windowTarget
  split
  · dsimp only
    split_ifs <;> exact physBytes ..
  · exact refl d

theorem windowRead (v : Variant) (src : Option Nat) (d : Dev) (a len tag : Nat) : Grows d (d.windowRead v src a len tag).2 := by
  have charged : ∀ cls : Nat, Grows d ((d.windowTarget v a).2.2.2.chargeFor src false false cls a len) := fun cls =>
    (windowTarget v d a).trans (of_outbox (by rw [(Dev.SameCaches.chargeFor ..).outbox]) (by simp))
  simp only [Dev.windowRead]
  split
  · exact windowTarget ..
  · split
    · exact (charged _).trans (nimRequest ..)
    · exact (charged _).trans (hostRequest ..)

theorem physRead (v : Variant) (src : Option Nat) (d : Dev) (a len : Nat) : Grows d (d.physRead v src a len).d := by
  simp only [Dev.physRead]
  split
  · split
    · exact windowRead ..
    · exact (windowRead v src d a len 0).trans (of_same rfl rfl rfl)
  · refine trans (of_outbox ?_ (Dev.chargeFor_links d src false false 0 a len)) (localRead v _ a)
    rw [(Dev.SameCaches.chargeFor ..).outbox]

/-! ## Accesses from outside (R397) -/

theorem readOut (v : Variant) (d : Dev) (ps : List (Nat × Nat)) : Grows d (d.readOut v ps).d :=
  readPieces_keeps refl trans (fun d a n => physRead v none d a n) ps d

theorem backed (v : Variant) (d : Dev) (a : Nat) (write : Bool) : Grows d (d.backed v a write).2 := by
  unfold Dev.backed
  dsimp only
  split
  · exact refl d
  · exact refl d
  · exact refl d
  · exact windowTarget ..
  · exact refl d
  · exact refl d

/-- One piece of `Dev.resolve` with its address translated (`t`): it is looked up, or the access fails with TRANSLATION. -/
def placePiece (v : Variant) (write : Bool) (r : W8 × List (Nat × Nat) × Dev) (p : Nat × Nat) (t : W8 × Nat × Dev) :
    W8 × List (Nat × Nat) × Dev :=
  if t.1 ≠ 0 then (sTranslation, r.2.1, t.2.2)
  else
    (if r.1 = sTranslation ∨ (t.2.2.backed v t.2.1 write).1 = sTranslation then sTranslation
      else if r.1 ≠ 0 then r.1 else (t.2.2.backed v t.2.1 write).1,
      r.2.1 ++ [(t.2.1, p.2)], (t.2.2.backed v t.2.1 write).2)

theorem placePiece_grows (v : Variant) (write : Bool) (r : W8 × List (Nat × Nat) × Dev) (p : Nat × Nat) (t : W8 × Nat × Dev) :
    Grows t.2.2 (placePiece v write r p t).2.2 := by
  unfold placePiece
  split
  · exact refl _
  · exact backed ..

theorem resolve_eq (v : Variant) (phys : Bool) (ctx : Nat) (write : Bool) (ps : List (Nat × Nat)) (d : Dev) :
    d.resolve v phys ctx write ps = ps.foldl (fun r p =>
      placePiece v write r p (if phys then (0, p.1, r.2.2) else r.2.2.translate v .outside ctx p.1 write false)) (0, [], d) := rfl

theorem resolve (v : Variant) (phys : Bool) (ctx : Nat) (write : Bool) (ps : List (Nat × Nat)) (d : Dev) :
    Grows d (d.resolve v phys ctx write ps).2.2 := by
  have translated : ∀ (e : Dev) (a : Nat),
      Grows e (if phys then ((0 : W8), a, e) else e.translate v .outside ctx a write false : W8 × Nat × Dev).2.2 := by
    intro e a
    split
    · exact refl e
    · exact translate ..
  rw [resolve_eq]
  generalize hr : ((0 : W8), ([] : List (Nat × Nat)), d) = r
  have hd : Grows d r.2.2 := hr ▸ refl d
  clear hr
  induction ps generalizing r with
  | nil => exact hd
  | cons p ps ih => exact ih _ ((hd.trans (translated r.2.2 p.1)).trans (placePiece_grows ..))

theorem admitHost (v : Variant) (d : Dev) (conn : Nat) (key : W32) (a len : Nat) (rd wr : Bool) :
    Grows d (d.admitHost v conn key a len rd wr).2.2 := by
  have hgrant : Grows d (d.grant v key).2 := physBytes ..
  unfold Dev.admitHost
  dsimp only
  generalize hr : (if (d.grant v key).1.admits key conn a len rd wr then (d.grant v key).2.resolve v
    (decide ((d.grant v key).1.perm / 4 % 2 = 1)) (d.grant v key).1.ctx wr (pieces a len) else (sTranslation, [], (d.grant v key).2)) = r
  have hgrow : Grows d r.2.2 := by
    rw [← hr]
    split
    · exact hgrant.trans (resolve ..)
    · exact hgrant
  by_cases h0 : r.1 = 0
  · rw [if_pos h0]
    exact hgrow
  · rw [if_neg h0]
    exact hgrow.trans (count ..)

end Dev.Grows

/-! ## Packets among what is sent -/

theorem mem_drop_of_earlier {α : Type} {x : α} {as bs cs : List α} (h : as <+: bs) (hx : x ∈ cs.drop bs.length) : x ∈ cs.drop as.length := by
  obtain ⟨k, hk⟩ := Nat.exists_eq_add_of_le h.length_le
  rw [hk, ← List.drop_drop] at hx
  exact List.mem_of_mem_drop hx

/-- A packet that has left is still among what is sent when more has gone out before and after. -/
theorem framed_mono {d e u w : Dev} {p : Nat} {m : Packet} (hd : d.Grows e) (hu : u.Grows w) (h : framed e u p m) : framed d w p m := by
  rcases h with ⟨x, h⟩ | h
  · exact .inl ⟨x, mem_drop_of_prefix hu.outbox (mem_drop_of_earlier hd.outbox h)⟩
  · exact .inr (mem_drop_of_prefix hu.held (mem_drop_of_earlier hd.held h))

/-- The host port sends every packet in a frame, or holds it. -/
theorem framed_transmit (d : Dev) (m : Packet) : framed d (d.transmit 16 m) 16 m := by
  have hd : d.transmit 16 m = if d.stopped 16 m then d.onLinks fun l => { l with heldOut := l.heldOut ++ [(16, m)] }
      else d.send (.frame 16 (d.envelope 16 m) m) := rfl
  rw [hd]
  split
  · exact .inr (by simp)
  · exact .inl ⟨d.envelope 16 m, by simp⟩

end Sys2Proof.Machine
end

section
/-!
SUPPORT. RoCEv2 connections as responder (R396 to R399, R409): the judgement of a request by its PSN, and what each request leaves when it is in
its turn.
-/

namespace Sys2Proof.Machine

open Sys2Proof Sys2Proof.Claims

/-! ## Notifications (R409) -/

theorem Dev.roceNotify_due {d : Dev} {n now : Nat} (hon : d.bit (At.host 0x000) 8 = true) (hdue : dueAgain (d.conn n).lastNotify now = true) :
    d.roceNotify n (some now) = (d.onConn n fun c => { c with lastNotify := some now }).roceSay n 0x81 0 0 [] :=
  if_pos (by rw [hon, hdue]; rfl)

theorem Dev.roceNotify_early {d : Dev} {n now : Nat} (hdue : dueAgain (d.conn n).lastNotify now = false) :
    d.roceNotify n (some now) = d := if_neg (by simp [hdue])

/-- A notification leaves the expected PSN. -/
theorem Dev.roceNotify_expected (d : Dev) (n : Nat) (ce : Option Nat) : ((d.roceNotify n ce).conn n).expected = (d.conn n).expected := by
  cases ce with
  | none => rfl
  | some now =>
    simp only [Dev.roceNotify]
    split
    · rw [Dev.conn_of_sansTraffic (Dev.roceSay_sansTraffic ..), Dev.conn_onConn]
    · rfl

/-! ## The judgement by PSN (R396, R398) -/

section
variable {d : Dev} {h : RoceHdr} {i : W8} {run again : Nat → Dev → Dev} (hq : h.qp = localQp i.toNat) (hopen : roceOpen d i)
include hq hopen

theorem Dev.judgeRoce_inTurn (hpsn : psn24 (h.psn - (d.conn i.toNat).expected) = 0) :
    d.judgeRoce h run again = run i.toNat (d.roceNotify i.toNat h.ce) :=
  (Dev.withRoce_open hq hopen _).trans (if_pos (by rw [Dev.roceNotify_expected]; exact hpsn))

theorem Dev.judgeRoce_ahead (hpos : 0 < (psn24 (h.psn - (d.conn i.toNat).expected)).toNat)
    (hnear : (psn24 (h.psn - (d.conn i.toNat).expected)).toNat < 2 ^ 23) :
    d.judgeRoce h run again =
      let e := d.roceNotify i.toNat h.ce
      e.roceSay i.toNat 0x11 (e.conn i.toNat).expected nakSequence [] := by
  refine (Dev.withRoce_open hq hopen _).trans ((if_neg ?_).trans (if_pos ?_)) <;> rw [Dev.roceNotify_expected]
  · intro h0
    rw [h0] at hpos
    exact absurd hpos (by decide)
  · exact hnear

theorem Dev.judgeRoce_behind (hfar : 2 ^ 23 ≤ (psn24 (h.psn - (d.conn i.toNat).expected)).toNat) :
    d.judgeRoce h run again = again i.toNat (d.roceNotify i.toNat h.ce) := by
  refine (Dev.withRoce_open hq hopen _).trans ((if_neg ?_).trans (if_neg ?_)) <;> rw [Dev.roceNotify_expected]
  · intro h0
    rw [h0] at hfar
    exact absurd hfar (by decide)
  · exact not_lt.2 hfar

end

/-! ## A packet executed or refused (R397, R398) -/

theorem Dev.roceDone_sansTraffic (d : Dev) (i : Nat) (psn : W32) :
    (d.roceDone i psn).sansTraffic = (d.onConn i fun c => { c with expected := psn24 (psn + 1) }).sansTraffic := Dev.roceSay_sansTraffic ..

theorem Dev.conn_roceDone (d : Dev) (i : Nat) (psn : W32) : (d.roceDone i psn).conn i = { d.conn i with expected := psn24 (psn + 1) } := by
  rw [Dev.conn_of_sansTraffic (Dev.roceDone_sansTraffic ..), Dev.conn_onConn]

@[simp] theorem Dev.hostWords_onConn (d : Dev) (i q : Nat) (f : Conn → Conn) : (d.onConn i f).hostWords q = d.hostWords q := rfl
@[simp] theorem Dev.quire_onConn (d : Dev) (i : Nat) (f : Conn → Conn) : (d.onConn i f).quire = d.quire := rfl
@[simp] theorem Dev.hubs_onConn (d : Dev) (i : Nat) (f : Conn → Conn) : (d.onConn i f).hubs = d.hubs := rfl

theorem Dev.roceRefuse_state (d : Dev) (i : Nat) (psn : W32) (syndrome : W8) : ((d.roceRefuse i psn syndrome).conn i).state = 2 := by
  rw [Dev.roceRefuse, Dev.roceError, Dev.conn_onConn]

theorem Dev.roceRefuse_quire (d : Dev) (i : Nat) (psn : W32) (syndrome : W8) : (d.roceRefuse i psn syndrome).quire = d.quire := by
  have hanswer : ∀ (e : Dev) (o : Outstanding), (e.answer o.tag sRetryExhausted []).quire = e.quire := fun e o => by
    unfold Dev.answer
    split <;> rfl
  exact (foldl_keeps Dev.quire _ hanswer _ _).trans (Dev.quire_of_sansTraffic (Dev.roceSay_sansTraffic ..))

/-! ## SEND (R399) -/

/-- A SEND in its turn. -/
def Dev.roceSendTurn (h : RoceHdr) (data : List W8) (i : Nat) (d : Dev) : Dev :=
  let c := d.conn i
  let msg := (if h.first then [] else c.message) ++ data
  if messageMax < msg.length then d.roceRefuse i h.psn nakInvalid
  else if !h.last then (d.onConn i fun c => { c with message := msg }).roceDone i h.psn
  else
    let r := d.takeMessage c.queue msg
    if r.1 then (r.2.onConn i fun c => { c with message := [] }).roceDone i h.psn else d.roceSay i 0x11 h.psn nakNotReady []

theorem execRoceSend_judged (h : RoceHdr) (data : List W8) (s : State) :
    exec (.roceSend h data) s = .next (s.withDev (s.dev.judgeRoce h (Dev.roceSendTurn h data) Dev.roceAgain)) := rfl

theorem Dev.takeMessage_taken {d : Dev} {q : W16} {bytes : List W8} (h : (d.takeMessage q bytes).1 = true) :
    (d.takeMessage q bytes).2.hostWords q.toNat = d.hostWords q.toNat ++ messageWords bytes := by
  unfold Dev.takeMessage at h ⊢
  dsimp only at h ⊢
  split at h
  · cases h
  · next hroom => rw [if_neg hroom, Dev.hostWords_setHostWords]

/-! ## RDMA WRITE (R397, R398) -/

/-- An RDMA WRITE in its turn whose first packet, where it is that one, has been admitted whole (`whole`): its part is written. -/
def Dev.roceWritePart (v : Variant) (h : RoceHdr) (data : List W8) (i : Nat) (c : Conn) (d : Dev) : Dev :=
  let key := if h.first then h.rkey else c.writeKey
  let a := if h.first then h.addr else c.writeAt
  if data.isEmpty then d.roceDone i h.psn
  else
    let p := d.admitHost v i key a.toNat data.length false true
    if p.1 ≠ 0 then p.2.2.roceRefuse i h.psn nakAccess
    else
      let w := p.2.2.writeIn v p.2.2.tick.step p.2.1 data
      if w.st ≠ 0 then w.d.roceRefuse i h.psn nakOperation
      else (w.d.onConn i fun c => { c with writeAt := a + BitVec.ofNat 64 data.length, writeKey := key }).roceDone i h.psn

/-- An RDMA WRITE in its turn. -/
def Dev.roceWriteTurn (v : Variant) (h : RoceHdr) (data : List W8) (i : Nat) (d : Dev) : Dev :=
  let whole := if h.first ∧ 0 < h.len then d.admitHost v i h.rkey h.addr.toNat h.len false true else (0, [], d)
  if whole.1 ≠ 0 then whole.2.2.roceRefuse i h.psn nakAccess else whole.2.2.roceWritePart v h data i (d.conn i)

theorem execRoceRdmaWrite_judged (h : RoceHdr) (data : List W8) (s : State) :
    exec (.roceRdmaWrite h data) s =
      .next (s.withDev (s.dev.judgeRoce h (Dev.roceWriteTurn s.fuse.variant h data) Dev.roceAgain)) := rfl

/-! ## RDMA READ (R393, R397, R398) -/

theorem execRoceRdmaRead_judged (h : RoceHdr) (s : State) :
    exec (.roceRdmaRead h) s =
      .next (s.withDev (s.dev.judgeRoce h (Dev.roceRead s.fuse.variant h true) (Dev.roceRead s.fuse.variant h false))) := rfl

/-- The opcode of the k-th of n packets of a read response. -/
def readOpcode (n k : Nat) : W8 := if n = 1 then 0x10 else if k = 0 then 0x0D else if k + 1 = n then 0x0F else 0x0E

theorem framed_roceSay (d : Dev) (i : Nat) (op : W8) (psn : W32) (syndrome : W8) (data : List W8) :
    framed d (d.roceSay i op psn syndrome data) 16 (.roce i op psn 0 0 0 syndrome data) := framed_transmit ..

/-- The packets of a read response leave one after another: each is in a frame, or held. -/
theorem framed_foldl_roceSay {i n : Nat} {psn : W32} {ps : List (List W8 × Nat)} {p : List W8 × Nat} (hp : p ∈ ps) (d : Dev) :
    framed d (ps.foldl (fun (d : Dev) p => d.roceSay i (readOpcode n p.2) (psn24 (psn + BitVec.ofNat 32 p.2)) 0 p.1) d) 16
      (.roce i (readOpcode n p.2) (psn24 (psn + BitVec.ofNat 32 p.2)) 0 0 0 0 p.1) := by
  have hsay : ∀ (d : Dev) (p : List W8 × Nat),
      d.Grows (d.roceSay i (readOpcode n p.2) (psn24 (psn + BitVec.ofNat 32 p.2)) 0 p.1) := fun _ _ => Dev.Grows.transmit ..
  induction ps generalizing d with
  | nil => cases hp
  | cons q ps ih =>
    rcases List.mem_cons.1 hp with rfl | hp
    · exact framed_mono (Dev.Grows.refl d) (Dev.Grows.foldl hsay ps _) (framed_roceSay ..)
    · exact framed_mono (hsay d q) (Dev.Grows.refl _) (ih hp _)

/-- The parts that a path MTU cuts a read response into. -/
def readParts (mtu : Nat) (data : List W8) : List (List W8) := if data = [] then [[]] else chunks mtu data

theorem Dev.readPackets_eq (d : Dev) (i : Nat) (psn : W32) (data : List W8) :
    d.readPackets i psn data =
      let parts := readParts (d.conn i).mtu data
      parts.zipIdx.foldl (fun (d : Dev) p => d.roceSay i (readOpcode parts.length p.2) (psn24 (psn + BitVec.ofNat 32 p.2)) 0 p.1) d := by
  unfold Dev.readPackets readParts
  simp only [List.isEmpty_iff]
  rfl

theorem framed_readPackets {d : Dev} {i k : Nat} {psn : W32} {data x : List W8} (hx : (readParts (d.conn i).mtu data)[k]? = some x) :
    framed d (d.readPackets i psn data) 16
      (.roce i (readOpcode (readParts (d.conn i).mtu data).length k) (psn24 (psn + BitVec.ofNat 32 k)) 0 0 0 0 x) := by
  rw [Dev.readPackets_eq]
  exact framed_foldl_roceSay (p := (x, k)) (List.mem_zipIdx_iff_getElem?.2 hx) d

theorem Dev.readPackets_sansTraffic (d : Dev) (i : Nat) (psn : W32) (data : List W8) : (d.readPackets i psn data).sansTraffic = d.sansTraffic := by
  rw [Dev.readPackets_eq]
  exact Dev.foldl_sansTraffic (fun _ _ => Dev.roceSay_sansTraffic ..) _ d

theorem Conn.mtu_eq {c c' : Conn} (h : c.pmtu = c'.pmtu) : c.mtu = c'.mtu := by rw [Conn.mtu, Conn.mtu, h]

end Sys2Proof.Machine

namespace Sys2Proof.Proofs

open Sys2Proof.Machine Sys2Proof.Claims

theorem roceSendsInTurn (h : RoceHdr) (i : Nat) (data : List W8) (d : Dev) :
    let u := d.roceSendTurn h data i
    let c := d.conn i
    let msg := (if h.first then [] else c.message) ++ data
    (2 ^ 20 < msg.length → (u.conn i).state = 2) ∧
    (msg.length ≤ 2 ^ 20 → h.last = false → (u.conn i).message = msg ∧ (u.conn i).expected = psn24 (h.psn + 1)) ∧
    (msg.length ≤ 2 ^ 20 → h.last = true → (d.takeMessage c.queue msg).1 = true →
      (u.conn i).expected = psn24 (h.psn + 1) ∧ u.hostWords c.queue.toNat = d.hostWords c.queue.toNat ++ messageWords msg) ∧
    (msg.length ≤ 2 ^ 20 → h.last = true → (d.takeMessage c.queue msg).1 = false →
      u = d.transmit 16 (.roce i 0x11 h.psn 0 0 0 0x21 [])) := by
  intro u c msg
  have hu : u = if messageMax < msg.length then d.roceRefuse i h.psn nakInvalid
      else if !h.last then (d.onConn i fun c => { c with message := msg }).roceDone i h.psn
      else if (d.takeMessage c.queue msg).1 then ((d.takeMessage c.queue msg).2.onConn i fun c => { c with message := [] }).roceDone i h.psn
      else d.roceSay i 0x11 h.psn nakNotReady [] := rfl
  have fits : msg.length ≤ 2 ^ 20 → ¬ messageMax < msg.length := fun hfits => not_lt.2 hfits
  refine ⟨fun hlong => ?tooLong, fun hfits hmore => ?part, fun hfits hlast htaken => ?taken, fun hfits hlast hfull => ?noRoom⟩
  case tooLong =>
    rw [if_pos (show messageMax < msg.length from hlong)] at hu
    rw [hu]
    exact Dev.roceRefuse_state ..
  case part =>
    rw [if_neg (fits hfits), hmore, Bool.not_false, if_pos rfl] at hu
    rw [hu, Dev.conn_roceDone, Dev.conn_onConn]
    exact ⟨rfl, rfl⟩
  case taken =>
    rw [if_neg (fits hfits), hlast, Bool.not_true, if_neg Bool.false_ne_true, if_pos htaken] at hu
    rw [hu, Dev.conn_roceDone, Dev.hostWords_of_sansTraffic (Dev.roceDone_sansTraffic ..), Dev.hostWords_onConn]
    exact ⟨rfl, Dev.takeMessage_taken htaken⟩
  case noRoom =>
    rw [if_neg (fits hfits), hlast, Bool.not_true, if_neg Bool.false_ne_true, hfull, if_neg Bool.false_ne_true] at hu
    exact hu

theorem roceWritesInTurn (v : Variant) (h : RoceHdr) (i : Nat) (data : List W8) (d : Dev) :
    let u := d.roceWriteTurn v h data i
    let c := d.conn i
    let key := if h.first then h.rkey else c.writeKey
    let a := if h.first then h.addr else c.writeAt
    let whole := if h.first ∧ 0 < h.len then d.admitHost v i h.rkey h.addr.toNat h.len false true else (0, [], d)
    let p := whole.2.2.admitHost v i key a.toNat data.length false true
    let w := p.2.2.writeIn v p.2.2.tick.step p.2.1 data
    (whole.1 = 0 → data = [] → (u.conn i).expected = psn24 (h.psn + 1)) ∧
    (whole.1 = 0 → data ≠ [] → p.1 = 0 → w.st = 0 → (u.conn i).expected = psn24 (h.psn + 1) ∧
      (u.conn i).writeAt = a + BitVec.ofNat 64 data.length ∧ (u.conn i).writeKey = key ∧ u.quire = w.d.quire ∧ u.hubs = w.d.hubs) ∧
    (whole.1 ≠ 0 → (u.conn i).state = 2 ∧ u.quire = whole.2.2.quire) ∧
    (whole.1 = 0 → data ≠ [] → p.1 ≠ 0 ∨ w.st ≠ 0 → (u.conn i).state = 2) := by
  intro u c key a whole p w
  have hu : u = if whole.1 ≠ 0 then whole.2.2.roceRefuse i h.psn nakAccess
      else if data.isEmpty then whole.2.2.roceDone i h.psn
      else if p.1 ≠ 0 then p.2.2.roceRefuse i h.psn nakAccess
      else if w.st ≠ 0 then w.d.roceRefuse i h.psn nakOperation
      else (w.d.onConn i fun c => { c with writeAt := a + BitVec.ofNat 64 data.length, writeKey := key }).roceDone i h.psn := rfl
  have nonempty : data ≠ [] → ¬ data.isEmpty = true := fun hne => by simpa using hne
  refine ⟨fun hw hempty => ?nothing, fun hw hne hp hst => ?written, fun hw => ?refused, fun hw hne hfail => ?failed⟩
  case nothing =>
    rw [if_neg (not_not.2 hw), if_pos (by rw [hempty]; rfl)] at hu
    rw [hu, Dev.conn_roceDone]
  case written =>
    rw [if_neg (not_not.2 hw), if_neg (nonempty hne), if_neg (not_not.2 hp), if_neg (not_not.2 hst)] at hu
    rw [hu, Dev.conn_roceDone, Dev.conn_onConn, Dev.quire_of_sansTraffic (Dev.roceDone_sansTraffic ..),
      Dev.hubs_of_sansTraffic (Dev.roceDone_sansTraffic ..), Dev.quire_onConn, Dev.hubs_onConn]
    exact ⟨rfl, rfl, rfl, rfl, rfl⟩
  case refused =>
    rw [if_pos hw] at hu
    rw [hu]
    exact ⟨Dev.roceRefuse_state .., Dev.roceRefuse_quire ..⟩
  case failed =>
    rw [if_neg (not_not.2 hw), if_neg (nonempty hne)] at hu
    by_cases hp : p.1 = 0
    · rw [if_neg (not_not.2 hp), if_pos (hfail.resolve_left (not_not.2 hp))] at hu
      rw [hu]
      exact Dev.roceRefuse_state ..
    · rw [if_pos hp] at hu
      rw [hu]
      exact Dev.roceRefuse_state ..

theorem roceReadsInTurn (v : Variant) (h : RoceHdr) (n : Nat) (d : Dev) :
    let u := d.roceRead v h true n
    let p := if h.len = 0 then (0, [], d) else d.admitHost v n h.rkey h.addr.toNat h.len true false
    let r := p.2.2.readOut v p.2.1
    let mtu := (r.d.conn n).mtu
    let parts := if r.data = [] then [[]] else chunks mtu r.data
    let op := fun (k : Nat) => if parts.length = 1 then (0x10 : W8) else if k = 0 then 0x0D else if k + 1 = parts.length then 0x0F else 0x0E
    (p.1 = 0 → r.st = 0 →
      (u.conn n).expected = psn24 (h.psn + BitVec.ofNat 32 (max 1 ((h.len + mtu - 1) / mtu))) ∧
      ∀ (k : Nat) (x : List W8), parts[k]? = some x → framed d u 16 (.roce n (op k) (psn24 (h.psn + BitVec.ofNat 32 k)) 0 0 0 0 x)) ∧
    (p.1 ≠ 0 ∨ r.st ≠ 0 → (u.conn n).state = 2) := by
  intro u p r mtu parts op
  have hadmit : d.Grows p.2.2 := by
    simp only [p]
    split
    · exact Dev.Grows.refl d
    · exact Dev.Grows.admitHost ..
  let e := r.d.onConn n fun c => { c with expected := psn24 (h.psn + BitVec.ofNat 32 (max 1 ((h.len + mtu - 1) / mtu))) }
  have hu : u = if p.1 ≠ 0 then p.2.2.roceRefuse n h.psn nakAccess
      else if r.st ≠ 0 then r.d.roceRefuse n h.psn nakOperation
      else (r.d.onConn n fun c =>
        { c with expected := psn24 (h.psn + BitVec.ofNat 32 (max 1 ((h.len + (d.conn n).mtu - 1) / (d.conn n).mtu))) }).readPackets n h.psn
          r.data := rfl
  have hgrow : d.Grows r.d := hadmit.trans (Dev.Grows.readOut ..)
  refine ⟨fun hp hst => ?answered, fun hfail => ?failed⟩
  case answered =>
    have hmtu : (d.conn n).mtu = mtu := (Conn.mtu_eq (hgrow.pmtu n)).symm
    rw [if_neg (not_not.2 hp), if_neg (not_not.2 hst), hmtu] at hu
    have hcut : readParts (e.conn n).mtu r.data = parts := by
      rw [Dev.conn_onConn]
      rfl
    rw [hu]
    refine ⟨by rw [Dev.conn_of_sansTraffic (Dev.readPackets_sansTraffic ..), Dev.conn_onConn], fun k x hx => ?_⟩
    have hleft := framed_readPackets (d := e) (psn := h.psn) ((congrArg (·[k]?) hcut).trans hx)
    rw [hcut] at hleft
    exact framed_mono (e := e) (hgrow.trans (Dev.Grows.onConn _ _ _ fun _ => rfl)) (Dev.Grows.refl _) hleft
  case failed =>
    by_cases hp : p.1 = 0
    · rw [if_neg (not_not.2 hp), if_pos (hfail.resolve_left (not_not.2 hp))] at hu
      rw [hu]
      exact Dev.roceRefuse_state ..
    · rw [if_pos hp] at hu
      rw [hu]
      exact Dev.roceRefuse_state ..

theorem roceRequestsInTurn : RoceRequestsInTurn := by
  intro h i data s hq hopen hpsn v n d c
  have judged : ∀ run again : Nat → Dev → Dev, s.dev.judgeRoce h run again = run n d := fun _ _ => Dev.judgeRoce_inTurn hq hopen hpsn
  have hsend : exec (.roceSend h data) s = .next (s.withDev (d.roceSendTurn h data n)) := by rw [execRoceSend_judged, judged]
  have hwrite : exec (.roceRdmaWrite h data) s = .next (s.withDev (d.roceWriteTurn v h data n)) := by rw [execRoceRdmaWrite_judged, judged]
  have hread : exec (.roceRdmaRead h) s = .next (s.withDev (d.roceRead v h true n)) := by rw [execRoceRdmaRead_judged, judged]
  refine ⟨?sends, ?writes, ?reads⟩
  case sends =>
    obtain ⟨hlong, hpart, htaken, hfull⟩ := roceSendsInTurn h n data d
    exact ⟨fun h1 => ⟨_, hsend, hlong h1⟩, fun h1 h2 => ⟨_, hsend, hpart h1 h2⟩, fun h1 h2 h3 => ⟨_, hsend, htaken h1 h2 h3⟩,
      fun h1 h2 h3 => hsend.trans (by rw [hfull h1 h2 h3])⟩
  case writes =>
    obtain ⟨hnothing, hwritten, hrefused, hfailed⟩ := roceWritesInTurn v h n data d
    exact ⟨fun h1 h2 => ⟨_, hwrite, hnothing h1 h2⟩, fun h1 h2 h3 h4 => ⟨_, hwrite, hwritten h1 h2 h3 h4⟩,
      fun h1 => ⟨_, hwrite, hrefused h1⟩, fun h1 h2 h3 => ⟨_, hwrite, hfailed h1 h2 h3⟩⟩
  case reads =>
    obtain ⟨hanswered, hfailed⟩ := roceReadsInTurn v h n d
    exact ⟨fun h1 h2 => ⟨_, hread, hanswered h1 h2⟩, fun h1 => ⟨_, hread, hfailed h1⟩⟩

theorem roceRequestsOutOfTurn : RoceRequestsOutOfTurn := by
  refine ⟨?judged, ?notified, ?closed⟩
  case judged =>
    intro h i data c s hq hopen hc n d ahead last
    have hsend := execRoceSend_judged h data s
    have hwrite := execRoceRdmaWrite_judged h data s
    have hread := execRoceRdmaRead_judged h s
    refine ⟨fun hpos hnear => ?_, fun hfar hother => ?_⟩
    · have judged : ∀ run again : Nat → Dev → Dev, s.dev.judgeRoce h run again = d.transmit 16 (.roce n 0x11 last 0 0 0 0x60 []) :=
        fun _ _ => Dev.judgeRoce_ahead hq hopen hpos hnear
      rcases hc with rfl | rfl | rfl
      · rw [hsend, judged]
      · rw [hwrite, judged]
      · rw [hread, judged]
    · have judged : ∀ run : Nat → Dev → Dev,
          s.dev.judgeRoce h run Dev.roceAgain = d.transmit 16 (.roce n 0x11 (psn24 (last - 1)) 0 0 0 0 []) :=
        fun _ => Dev.judgeRoce_behind hq hopen hfar
      rcases hc with rfl | rfl | rfl
      · rw [hsend, judged]
      · rw [hwrite, judged]
      · exact absurd rfl hother
  case notified =>
    intro d n now
    refine ⟨rfl, fun hearly => Dev.roceNotify_early (dueAgain_eq_false.2 hearly), fun hon hdue => ?_⟩
    rw [Dev.roceNotify_due hon (dueAgain_eq_true.2 hdue), Dev.conn_of_sansTraffic (Dev.roceSay_sansTraffic ..), Dev.conn_onConn]
    exact ⟨rfl, framed_mono (Dev.Grows.onConn d n (fun c => { c with lastNotify := some now }) fun _ => rfl) (Dev.Grows.refl _)
      (framed_roceSay ..)⟩
  case closed =>
    intro h data x c s hclosed hc
    have stands : ∀ f : Nat → Dev → Dev, s.withDev (s.dev.withRoce h.qp f) = s := fun f => by
      rw [Dev.withRoce_closed hclosed, State.withDev_same]
    rcases hc with rfl | rfl | rfl | rfl | rfl | rfl
    · exact (execRoceSend_judged h data s).trans (congrArg Host.Outcome.next (stands _))
    · exact (execRoceRdmaWrite_judged h data s).trans (congrArg Host.Outcome.next (stands _))
    · exact (execRoceRdmaRead_judged h s).trans (congrArg Host.Outcome.next (stands _))
    · exact congrArg Host.Outcome.next (stands _)
    · exact congrArg Host.Outcome.next (stands _)
    · exact congrArg Host.Outcome.next (stands _)

/-- Settles O49: the expected PSN of the open connection decides which requests take their turn, and each of these does what its own kind
of request does; an answer is a packet that leaves at once, and neither an admission nor a read takes a packet back. -/
theorem roceRequests : Obligations.RoceRequests := ⟨roceRequestsInTurn, roceRequestsOutOfTurn⟩

end Sys2Proof.Proofs
end

section
/-!
SUPPORT. Direct mode (R410 to R414): a port that trains again, and what the control fields of a flit, replays and acknowledgements do on a port.
-/

namespace Sys2Proof.Machine

open Sys2Proof Sys2Proof.Claims

/-! ## A port trains again (R392) -/

theorem Dev.port_of_ports {d e : Dev} (h : e.links.ports = d.links.ports) (q : Nat) : e.port q = d.port q := by
  simp only [Dev.port, h]

/-- A port that trains again, before the rest of the device takes note of it. -/
theorem Dev.retrain_port (v : Variant) (d : Dev) (p q : Nat) : (d.retrain v p).port q =
    ((if (d.beginEnable v (isPort p)).portOn v p
      then (d.beginEnable v (isPort p)).onPort p fun x => { x with up := false, lanes := 0, used := 0, paused := 0 }
      else (d.beginEnable v (isPort p)).onPort p (·.cleared)).port q) := by
  have hforget : ∀ e : Dev, ((e.forgetPort p).takeIdentity p).links.ports = e.links.ports := by
    intro e
    simp only [Dev.forgetPort]
    split <;> rfl
  have hstate : ∀ (b : Bool) (e : Dev), (if b then e.portState p else e).links.ports = e.links.ports := by
    intro b e
    split
    · exact congrArg Links.ports (Dev.raise_links ..)
    · rfl
  exact Dev.port_of_ports ((hstate (d.port p).up _).trans (hforget _)) q

theorem Dev.port_beginEnable (v : Variant) (d : Dev) (mine : BitVec 16 → Bool) (q : Nat) : (d.beginEnable v mine).port q = d.port q :=
  Dev.port_of_ports (by rw [Dev.beginEnable_links]) q

theorem Dev.retrain_down (v : Variant) (d : Dev) (p : Nat) :
    ((d.retrain v p).port p).up = false ∧ ((d.retrain v p).port p).lanes = 0 := by
  rw [Dev.retrain_port]
  split <;> rw [Dev.port_onPort] <;> exact ⟨rfl, rfl⟩

theorem Dev.port_retrain_ne (v : Variant) (d : Dev) {p q : Nat} (h : q ≠ p) : (d.retrain v p).port q = d.port q := by
  rw [Dev.retrain_port]
  split <;> rw [Dev.port_onPort_ne _ _ h, Dev.port_beginEnable]

/-! ## Sending (R412, R414) -/

theorem Dev.sendFlits_down {d : Dev} {p : Nat} (h : (d.port p).up = false) (n : Nat) : Dev.sendFlits p n d = d := by
  cases n with
  | zero => rfl
  | succ n => simp [Dev.sendFlits, h]

theorem Dev.sendFlits_idle {d : Dev} {p : Nat} (h : (d.port p).txQueue = []) : Dev.sendFlits p (d.port p).queuedFlits d = d := by
  rw [Port.queuedFlits, h]
  rfl

@[simp] theorem Dev.port_send (d : Dev) (m : OutMsg) (q : Nat) : (d.send m).port q = d.port q := rfl

theorem Dev.port_count (d : Dev) (l : CsrLoc) (lo w n q : Nat) : (d.count l lo w n).port q = d.port q :=
  Dev.port_of_ports (by rw [Dev.count_links]) q

/-- An IDLE flit of a port: acknowledgement of what has come in order, and the credits it returns. -/
def Port.idleFlit (x : Port) (nak : Bool) (vc : BitVec 2) (credits : Nat) : Flit := flitSealed true
  { seq := 0, ack := x.rxSeq - 1, ackValid := true, nak := nak, vc := 0, sop := false, eop := false, used := 0, crvc := vc,
    credits := BitVec.ofNat 6 credits, payload := [], crc := 0 }

theorem Dev.port_sendIdle (d : Dev) (p : Nat) (nak : Bool) (vc : BitVec 2) (credits : Nat) :
    (d.sendIdle p nak vc credits).port p = { d.port p with rxUnacked := 0 } := Dev.port_onPort ..

theorem Dev.outbox_sendIdle (d : Dev) (p : Nat) (nak : Bool) (vc : BitVec 2) (credits : Nat) :
    (d.sendIdle p nak vc credits).outbox = d.outbox ++ [.flit p true ((d.port p).idleFlit nak vc credits)] := rfl

/-! ## Replays (R414) -/

section
variable {v : Variant} {d : Dev} {p : Nat}

theorem Dev.replayFlits_empty (h : (d.port p).replayBuf = []) : d.replayFlits v p = d := if_pos (by rw [h]; rfl)

theorem Dev.replayFlits_retrains (h : (d.port p).replayBuf ≠ []) (hn : 8 ≤ (d.port p).replays) : d.replayFlits v p = d.retrain v p :=
  (if_neg (by simpa using h)).trans (if_pos hn)

theorem Dev.sendAll_outbox (fs : List Flit) (d : Dev) :
    (fs.foldl (fun (d : Dev) f => d.send (.flit p false f)) d).outbox = d.outbox ++ fs.map (fun g => .flit p false g) := by
  induction fs generalizing d with
  | nil => simp
  | cons f fs ih => rw [List.foldl_cons, ih]; simp [Dev.send]

theorem Dev.sendAll_port (fs : List Flit) (d : Dev) (q : Nat) :
    (fs.foldl (fun (d : Dev) f => d.send (.flit p false f)) d).port q = d.port q :=
  foldl_keeps (fun d => d.port q) _ (fun d f => Dev.port_send d (.flit p false f) q) fs d

theorem Dev.replayFlits_again (h : (d.port p).replayBuf ≠ []) (hn : (d.port p).replays < 8) :
    (d.replayFlits v p).port p = { d.port p with replays := (d.port p).replays + 1 } ∧
      (d.replayFlits v p).outbox = d.outbox ++ (d.port p).replayBuf.map (fun g => .flit p false g) := by
  have hrun : d.replayFlits v p = (d.port p).replayBuf.foldl (fun (d : Dev) f => d.send (.flit p false f))
      ((d.onPort p fun x => { x with replays := x.replays + 1 }).count (At.port p 8) 16 16 (d.port p).replayBuf.length) :=
    (if_neg (by simpa using h)).trans (if_neg (not_le.2 hn))
  rw [hrun, Dev.sendAll_port, Dev.sendAll_outbox, Dev.port_count, Dev.port_onPort, Dev.count_outbox]
  exact ⟨rfl, rfl⟩

/-- Replays leave nothing more to send on a port that had nothing waiting. -/
theorem Dev.sendFlits_replayFlits (h : (d.port p).txQueue = []) :
    Dev.sendFlits p ((d.replayFlits v p).port p).queuedFlits (d.replayFlits v p) = d.replayFlits v p := by
  by_cases hbuf : (d.port p).replayBuf = []
  · rw [Dev.replayFlits_empty hbuf]
    exact Dev.sendFlits_idle h
  · by_cases hn : 8 ≤ (d.port p).replays
    · rw [Dev.replayFlits_retrains hbuf hn]
      exact Dev.sendFlits_down (Dev.retrain_down ..).1 _
    · refine Dev.sendFlits_idle ?_
      rw [(Dev.replayFlits_again hbuf (not_le.1 hn)).1]
      exact h

end

/-! ## Control fields (R411, R412, R414) -/

/-- What the ACK and the CREDITS of a flit do on a port. -/
def Port.controlled (x : Port) (f : Flit) : Port :=
  let y := if f.ackValid then x.ackedBy f.ack else x
  if 0 < f.credits.toNat then y.credited f.crvc f.credits.toNat else y

/-- What a port knows of the flits it has received. -/
def Port.received (x : Port) : BitVec 12 × Bool × Nat × Tab (List W8 × Nat) := (x.rxSeq, x.rxNak, x.rxUnacked, x.assembling)

theorem Port.received_of_sansSent {x y : Port} (h : y.sansSent = x.sansSent) : y.received = x.received :=
  show y.sansSent.received = x.sansSent.received by rw [h]

theorem Port.ackedBy_received (x : Port) (ack : BitVec 12) : (x.ackedBy ack).received = x.received ∧ (x.ackedBy ack).txQueue = x.txQueue ∧
    (x.ackedBy ack).spent = x.spent := by
  unfold Port.ackedBy
  split <;> exact ⟨rfl, rfl, rfl⟩

theorem Port.ackedBy_names {x : Port} {pre post : List Flit} {g : Flit} (h : x.replayBuf = pre ++ g :: post) (hpre : ∀ y ∈ pre, y.seq ≠ g.seq) :
    x.ackedBy g.seq = { x with replayBuf := post, replays := 0 } := by
  have hfind : x.replayBuf.findIdx? (fun f => f.seq == g.seq) = some pre.length := by
    rw [h, List.findIdx?_append, List.findIdx?_eq_none_iff.2 fun y hy => by simpa using hpre y hy]
    simp [List.findIdx?_cons]
  have hdrop : x.replayBuf.drop (pre.length + 1) = post := by
    rw [h, List.append_cons]
    exact List.drop_left' (by simp)
  simp only [Port.ackedBy, hfind, hdrop]

theorem Port.controlled_received (x : Port) (f : Flit) : (x.controlled f).received = x.received ∧ (x.controlled f).txQueue = x.txQueue := by
  have hack : (if f.ackValid then x.ackedBy f.ack else x : Port).received = x.received ∧
      (if f.ackValid then x.ackedBy f.ack else x : Port).txQueue = x.txQueue := by
    split
    · exact ⟨(x.ackedBy_received f.ack).1, (x.ackedBy_received f.ack).2.1⟩
    · exact ⟨rfl, rfl⟩
  unfold Port.controlled
  dsimp only
  split <;> exact hack

theorem Port.controlled_spent (x : Port) (f : Flit) :
    Tab.look 0 (x.controlled f).spent f.crvc.toNat = Tab.look 0 x.spent f.crvc.toNat - f.credits.toNat := by
  have hack : (if f.ackValid then x.ackedBy f.ack else x : Port).spent = x.spent := by
    split
    · exact (x.ackedBy_received f.ack).2.2
    · rfl
  unfold Port.controlled
  dsimp only
  split
  · rw [Port.credited, hack, Tab.look_alter, if_pos rfl]
  · next h => rw [hack, Nat.eq_zero_of_not_pos h, Nat.sub_zero]

/-- The buffer of a port is as the ACK leaves it, whatever credits come with it. -/
theorem Port.controlled_buffer (x : Port) (f : Flit) :
    (x.controlled f).replayBuf = (if f.ackValid then x.ackedBy f.ack else x : Port).replayBuf ∧
      (x.controlled f).replays = (if f.ackValid then x.ackedBy f.ack else x : Port).replays := by
  unfold Port.controlled
  dsimp only
  split <;> exact ⟨rfl, rfl⟩

/-- A flit without NAK: its ACK and credits are taken, and what they let go is sent. -/
theorem Dev.flitControl_eq {v : Variant} {d : Dev} {p : Nat} {f : Flit} (hn : f.nak = false) : ∃ e : Dev,
    d.flitControl v p f = Dev.sendFlits p (e.port p).queuedFlits e ∧ e.port p = (d.port p).controlled f := by
  refine ⟨_, rfl, ?_⟩
  rw [hn, if_neg Bool.false_ne_true]
  have hack : (if f.ackValid then d.onPort p (·.ackedBy f.ack) else d : Dev).port p = if f.ackValid then (d.port p).ackedBy f.ack else d.port p := by
    split
    · exact Dev.port_onPort ..
    · rfl
  unfold Port.controlled
  dsimp only
  split
  · rw [Dev.port_onPort, hack]
  · exact hack

theorem Dev.flitControl_received {v : Variant} {d : Dev} {p : Nat} {f : Flit} (hn : f.nak = false) :
    ((d.flitControl v p f).port p).received = (d.port p).received := by
  obtain ⟨e, he, hport⟩ := Dev.flitControl_eq (v := v) (d := d) (p := p) hn
  have hsent : ((Dev.sendFlits p (e.port p).queuedFlits e).port p).sansSent = (e.port p).sansSent :=
    Dev.port_of_sansTraffic (Dev.sendFlits_sansTraffic ..) p
  rw [he, ← ((d.port p).controlled_received f).1, ← hport]
  exact Port.received_of_sansSent hsent

theorem Dev.flitControl_port {v : Variant} {d : Dev} {p : Nat} {f : Flit} (hn : f.nak = false) (hq : (d.port p).txQueue = []) :
    (d.flitControl v p f).port p = (d.port p).controlled f := by
  obtain ⟨e, he, hport⟩ := Dev.flitControl_eq (v := v) (d := d) (p := p) hn
  rw [he, Dev.sendFlits_idle (by rw [hport, ((d.port p).controlled_received f).2, hq]), hport]

/-- A NAK alone asks for the replay. -/
theorem Dev.flitControl_nak {v : Variant} {d : Dev} {p : Nat} {f : Flit} (hn : f.nak = true) (ha : f.ackValid = false) (hc : f.credits = 0)
    (hq : (d.port p).txQueue = []) : d.flitControl v p f = d.replayFlits v p := by
  have hcredits : ¬ 0 < f.credits.toNat := by rw [hc]; decide
  unfold Dev.flitControl
  dsimp only
  rw [ha, if_neg Bool.false_ne_true, if_neg hcredits, hn, if_pos rfl]
  exact Dev.sendFlits_replayFlits hq

/-! ## DATA flits (R411, R412) -/

/-- A DATA flit in its place that does not end its packet, on a port as it counts and joins it. -/
def Port.joined (x : Port) (f : Flit) : Port :=
  let was := Tab.look ([], 0) x.assembling f.vc.toNat
  { x with rxSeq := x.rxSeq + 1, rxNak := false, rxUnacked := x.rxUnacked + 1,
           assembling := Tab.put ([], 0) x.assembling f.vc.toNat
             (if f.sop then (Flit.bytesOf f, was.2 + 1) else (was.1 ++ Flit.bytesOf f, was.2 + 1)) }

theorem Dev.acceptFlit_received {fu : Fuses} {d : Dev} {p : Fin 16} {f : Flit} (heop : f.eop = false) (hn : f.nak = false)
    (hfew : (d.port p.val).rxUnacked < 255) :
    ((d.acceptFlit fu p f).port p.val).received = ((d.port p.val).joined f).received := by
  have hjoin : ∀ g h : Port → Port, (((d.onPort p.val g).onPort p.val h).port p.val) = h (g (d.port p.val)) := fun g h => by
    rw [Dev.port_onPort, Dev.port_onPort]
  unfold Dev.acceptFlit
  dsimp only
  rw [heop, if_neg Bool.false_ne_true, if_neg Bool.false_ne_true, if_neg (by rw [hjoin]; exact not_le.2 (Nat.succ_lt_succ hfew)),
    Dev.flitControl_received hn, hjoin, Dev.port_onPort]
  rfl

/-! ## The commands -/

section
variable {s : State} {p : Fin 16} {f : Flit}

theorem exec_flits_elsewhere (h : (s.dev.port p.val).up = false ∨ (s.dev.port p.val).mode ≠ 1) :
    exec (.flitData p f) s = .next s ∧ exec (.flitIdle p f) s = .next s ∧
      exec (.flitReplayTimeout p) s = .next s ∧ exec (.flitAckTimer p) s = .next s := by
  have hoff : (!(s.dev.port p.val).up || decide ((s.dev.port p.val).mode ≠ 1)) = true := by
    rcases h with h | h
    · rw [h]; rfl
    · rw [decide_eq_true h, Bool.or_true]
  have hnot : ¬ ((s.dev.port p.val).up && decide ((s.dev.port p.val).mode = 1)) = true := by
    rcases h with h | h
    · rw [h]; exact Bool.false_ne_true
    · rw [decide_eq_false h, Bool.and_false]; exact Bool.false_ne_true
  refine ⟨?_, ?_, ?_, ?_⟩
  · exact congrArg (fun d => Host.Outcome.next (s.withDev d)) (if_pos hoff)
  · exact congrArg (fun d => Host.Outcome.next (s.withDev d)) (if_pos hoff)
  · exact congrArg (fun d => Host.Outcome.next (s.withDev d)) (if_neg hnot)
  · exact congrArg (fun d => Host.Outcome.next (s.withDev d)) (if_neg fun hall => hnot (Bool.and_eq_true_iff.1 hall).1)

variable (hup : (s.dev.port p.val).up = true) (hmode : (s.dev.port p.val).mode = 1)
include hup hmode

theorem onDirect : ¬ (!(s.dev.port p.val).up || decide ((s.dev.port p.val).mode ≠ 1)) = true := by simp [hup, hmode]

theorem exec_flitData_inTurn (hgood : flitGood false f = true) (hseq : f.seq = (s.dev.port p.val).rxSeq) :
    exec (.flitData p f) s = .next (s.withDev (s.dev.acceptFlit s.fuse p f)) :=
  congrArg (fun d => Host.Outcome.next (s.withDev d)) ((if_neg (onDirect hup hmode)).trans (if_pos (by simp [hgood, hseq])))

/-- A flit that is not taken, once a corrupt one is counted. -/
def Dev.flitCounted (d : Dev) (p : Nat) (f : Flit) : Dev := if flitGood false f then d else d.count (At.port p 8) 0 16 1

theorem exec_flitData_refused (h : flitGood false f = false ∨ f.seq ≠ (s.dev.port p.val).rxSeq) :
    exec (.flitData p f) s = .next (s.withDev (
      if (s.dev.port p.val).rxNak then s.dev.flitCounted p.val f
      else ((s.dev.flitCounted p.val f).onPort p.val fun y => { y with rxNak := true }).sendIdle p.val true 0 0)) :=
  congrArg (fun d => Host.Outcome.next (s.withDev d)) ((if_neg (onDirect hup hmode)).trans (if_neg (by
    rcases h with h | h <;> simp [h])))

theorem exec_flitIdle_good (hgood : flitGood true f = true) :
    exec (.flitIdle p f) s = .next (s.withDev (s.dev.flitControl s.fuse.variant p.val f)) :=
  congrArg (fun d => Host.Outcome.next (s.withDev d)) ((if_neg (onDirect hup hmode)).trans (if_pos hgood))

theorem exec_flitIdle_corrupt (hbad : flitGood true f = false) :
    exec (.flitIdle p f) s = .next (s.withDev (s.dev.count (At.port p.val 8) 0 16 1)) :=
  congrArg (fun d => Host.Outcome.next (s.withDev d)) ((if_neg (onDirect hup hmode)).trans (if_neg (by simp [hbad])))

theorem exec_flitReplayTimeout_direct :
    exec (.flitReplayTimeout p) s = .next (s.withDev (s.dev.replayFlits s.fuse.variant p.val)) :=
  congrArg (fun d => Host.Outcome.next (s.withDev d)) (if_pos (by simp [hup, hmode]))

theorem exec_flitAckTimer_due (h : 0 < (s.dev.port p.val).rxUnacked) :
    exec (.flitAckTimer p) s = .next (s.withDev (s.dev.sendIdle p.val false 0 0)) :=
  congrArg (fun d => Host.Outcome.next (s.withDev d)) (if_pos (by simp [hup, hmode, h]))

end

theorem exec_flitAckTimer_none {s : State} {p : Fin 16} (h : (s.dev.port p.val).rxUnacked = 0) : exec (.flitAckTimer p) s = .next s :=
  congrArg (fun d => Host.Outcome.next (s.withDev d)) (if_neg (by simp [h]))

theorem Dev.flitCounted_port (d : Dev) (p : Nat) (f : Flit) (q : Nat) : (d.flitCounted p f).port q = d.port q := by
  unfold Dev.flitCounted
  split
  · rfl
  · exact Dev.port_count ..

theorem Dev.flitCounted_outbox (d : Dev) (p : Nat) (f : Flit) : (d.flitCounted p f).outbox = d.outbox := by
  unfold Dev.flitCounted
  split
  · rfl
  · exact Dev.count_outbox ..

end Sys2Proof.Machine

namespace Sys2Proof.Proofs

open Sys2Proof.Machine Sys2Proof.Claims

theorem flitsAreAcknowledgedAndReplayed : FlitsAreAcknowledgedAndReplayed := by
  intro p f s x
  refine ⟨exec_flits_elsewhere, fun hup hmode => ⟨?taken, ?refused, ?corrupt, ?idle, ?nak, ?empty, ?again, ?fails, ?none, ?timer⟩⟩
  case taken =>
    intro hgood hseq heop hn hfew was
    refine ⟨_, exec_flitData_inTurn hup hmode hgood hseq, ?_⟩
    obtain ⟨h1, h2, h3, h4⟩ : _ ∧ _ ∧ _ ∧ _ := by
      have h := Dev.acceptFlit_received (fu := s.fuse) heop hn hfew
      simp only [Port.received, Prod.mk.injEq] at h
      exact h
    refine ⟨h1, h2, h3, ?_⟩
    rw [h4, Port.joined, Tab.look_put_self]
    have hbytes : Flit.bytesOf f = f.payload.take 244 := by rw [Flit.bytesOf, heop, if_neg Bool.false_ne_true]; rfl
    rw [hbytes]
    split <;> rfl
  case refused =>
    intro hbad
    refine ⟨_, exec_flitData_refused hup hmode hbad, ?_⟩
    split
    · next hnak =>
      rw [Dev.flitCounted_port, Dev.flitCounted_outbox]
      exact ⟨rfl, hnak, rfl, fun _ => rfl, fun h => absurd hnak (by rw [h]; decide)⟩
    · next hnak =>
      rw [Dev.port_sendIdle, Dev.outbox_sendIdle, Dev.port_onPort, Dev.flitCounted_port]
      exact ⟨rfl, rfl, rfl, fun h => absurd h hnak, fun _ => ⟨_, congrArg (· ++ _) (s.dev.flitCounted_outbox p.val f), rfl, rfl⟩⟩
  case corrupt =>
    intro hbad
    exact ⟨_, (exec_flitIdle_corrupt hup hmode hbad).trans (by rw [Dev.count_frame])⟩
  case idle =>
    intro hgood hn hq
    refine ⟨_, exec_flitIdle_good hup hmode hgood, ?_⟩
    rw [Dev.flitControl_port hn hq]
    refine ⟨Port.controlled_spent .., fun ha => ?_, fun pre g post hbuf hpre ha hack => ?_⟩
    · rw [(Port.controlled_buffer ..).1, ha, if_neg Bool.false_ne_true]
    · rw [(Port.controlled_buffer ..).1, (Port.controlled_buffer ..).2, ha, if_pos rfl, hack, Port.ackedBy_names hbuf hpre]
      exact ⟨rfl, rfl⟩
  case nak =>
    intro hgood hn ha hc hq
    rw [exec_flitIdle_good hup hmode hgood, exec_flitReplayTimeout_direct hup hmode, Dev.flitControl_nak hn ha hc hq]
  case empty =>
    intro hbuf
    rw [exec_flitReplayTimeout_direct hup hmode, Dev.replayFlits_empty hbuf, State.withDev_same]
  case again =>
    intro hbuf hlt
    obtain ⟨hport, hout⟩ := Dev.replayFlits_again (v := s.fuse.variant) hbuf hlt
    exact ⟨_, exec_flitReplayTimeout_direct hup hmode, by rw [hport], hout⟩
  case fails =>
    intro hbuf hge
    refine ⟨_, exec_flitReplayTimeout_direct hup hmode, ?_⟩
    rw [Dev.replayFlits_retrains hbuf hge]
    exact (Dev.retrain_down ..).1
  case none => exact exec_flitAckTimer_none
  case timer =>
    intro hpos
    refine ⟨_, exec_flitAckTimer_due hup hmode hpos, by rw [Dev.port_sendIdle], _, Dev.outbox_sendIdle .., rfl, rfl, rfl⟩

end Sys2Proof.Proofs
end

section
/-!
SUPPORT. Packets as bytes (R402, R403): the fields of a header read back, and what a packet that flits have brought does.
-/

namespace Sys2Proof.Machine

open Sys2Proof Sys2Proof.Claims

/-! ## Fields behind one another (R8) -/

theorem recNat_append_right {xs : List W8} {off : Nat} (ys : List W8) (n : Nat) (h : xs.length ≤ off) :
    recNat (xs ++ ys) off n = recNat ys (off - xs.length) n := by
  rw [recNat, recNat, List.drop_append, List.drop_of_length_le h, List.nil_append]

/-- A field behind others of `k` bytes in all. -/
theorem recNat_toLE_append {n v : Nat} (ys : List W8) (hv : v < 256 ^ n) : recNat (toLE n v ++ ys) 0 n = v := by
  rw [recNat, List.drop_zero, List.take_left' (toLE_length n v), leNat_toLE n v hv]

theorem recNat_cons (b : W8) (ys : List W8) : recNat (b :: ys) 0 1 = b.toNat := by
  simp [recNat, leNat]

theorem recNat_cons_skip {off : Nat} (b : W8) (ys : List W8) (n : Nat) (h : 1 ≤ off) : recNat (b :: ys) off n = recNat ys (off - 1) n :=
  recNat_append_right (xs := [b]) ys n h

theorem recNat_toLE_skip {k off : Nat} (v : Nat) (ys : List W8) (n : Nat) (h : k ≤ off) :
    recNat (toLE k v ++ ys) off n = recNat ys (off - k) n := by
  rw [recNat_append_right ys n (by rwa [toLE_length]), toLE_length]

/-- A word spelt in its bytes reads back. -/
theorem ofNat_recNat_toLE {w k : Nat} (x : BitVec w) (ys : List W8) (hw : 2 ^ w ≤ 256 ^ k) :
    BitVec.ofNat w (recNat (toLE k x.toNat ++ ys) 0 k) = x := by
  rw [recNat_toLE_append ys (x.isLt.trans_le hw), BitVec.ofNat_toNat, BitVec.setWidth_eq]

/-! ## Headers (R402) -/

theorem version_epoch : ∀ epoch : BitVec 4, ((1 : BitVec 4) ++ epoch : W8).setWidth 4 = epoch := by decide
theorem channel_byte : ∀ vc : BitVec 2, (vc.setWidth 8 : W8).setWidth 2 = vc := by decide
theorem flags_retx : ∀ retx host : Bool, ((if retx then 1 else 0) + (if host then 2 else 0) : W8).toNat.testBit 0 = retx := by decide
theorem flags_host : ∀ retx host : Bool, ((if retx then 1 else 0) + (if host then 2 else 0) : W8).toNat.testBit 1 = host := by decide

theorem headerBytes_length (op : W8) (h : NimHdr) : (headerBytes op h).length = 40 := by
  simp [headerBytes]

/-- The bytes of a packet, one field behind the other. -/
theorem headerBytes_append (op : W8) (h : NimHdr) (bytes : List W8) : headerBytes op h ++ bytes =
    @List.cons W8 ((1 : BitVec 4) ++ h.epoch) (op :: ((if h.retx then 1 else 0) + (if h.host then 2 else 0)) :: h.hops ::
      (toLE 2 h.src.toNat ++ (toLE 2 h.dst.toNat ++ (toLE 2 h.stream.toNat ++ h.vc.setWidth 8 :: h.ctx ::
        (toLE 4 h.psn.toNat ++ (toLE 4 h.ackPsn.toNat ++ (toLE 2 h.length.toNat ++ h.status :: h.queue ::
          (toLE 8 h.addr.toNat ++ (toLE 8 h.aux.toNat ++ bytes))))))))) := by
  simp only [headerBytes, List.cons_append, List.nil_append, List.append_assoc]

theorem headerOf_headerBytes (op : W8) {h : NimHdr} (bytes : List W8) (hce : h.ce = none) : headerOf (headerBytes op h ++ bytes) = h := by
  rw [headerBytes_append, headerOf]
  simp (disch := decide) only [recNat_cons_skip, recNat_toLE_skip, Nat.reduceSub, ofNat_recNat_toLE, recNat_cons, version_epoch,
    channel_byte, flags_retx, flags_host, BitVec.ofNat_toNat, BitVec.setWidth_eq]
  rw [← hce]

theorem headerBytes_version (op : W8) (h : NimHdr) (bytes : List W8) : recNat (headerBytes op h ++ bytes) 0 1 / 16 = 1 := by
  have hversion : ∀ epoch : BitVec 4, ((1 : BitVec 4) ++ epoch : W8).toNat / 16 = 1 := by decide
  rw [headerBytes_append, recNat_cons]
  exact hversion h.epoch

theorem headerBytes_op (op : W8) (h : NimHdr) (bytes : List W8) : recNat (headerBytes op h ++ bytes) 1 1 = op.toNat := by
  rw [headerBytes_append, recNat_cons_skip _ _ _ le_rfl]
  exact recNat_cons ..

/-! ## Packets that flits have brought (R402, R403) -/

/-- A command that only changes the device, whatever waits in the queue, does the same where another takes it over. -/
theorem eq_via {s : State} {m : State → Host.Outcome State Fault Refusal} {u : Dev} (h : m s = .next (s.withDev u))
    (hqueue : m { fuse := s.fuse, dev := s.dev } = .next { fuse := s.fuse, dev := u }) :
    m s = .next (s.withDev (s.dev.via s.fuse m)) := by
  rw [Dev.via, hqueue, h]

/-- The operation and operands of an ATOMIC read back from its payload. -/
theorem atomicBytes_fields (k : W8) (w : Bool) (x e : W64) : (atomicBytes k w x e).getD 0 0 = k ∧
    decide ((atomicBytes k w x e).getD 1 0 ≠ 0) = w ∧ BitVec.ofNat 64 (recNat (atomicBytes k w x e) 8 8) = x ∧
      BitVec.ofNat 64 (recNat (atomicBytes k w x e) 16 8) = e := by
  refine ⟨rfl, by cases w <;> rfl, ?_, ?_⟩
  · rw [atomicBytes, List.append_assoc, recNat_append_right _ _ (by simp)]
    exact ofNat_recNat_toLE _ _ (by decide)
  · rw [atomicBytes, recNat_append_right _ _ (by simp), ← List.append_nil (toLE 8 e.toNat)]
    simpa using ofNat_recNat_toLE e [] (by decide : 2 ^ 64 ≤ 256 ^ 8)

end Sys2Proof.Machine

namespace Sys2Proof.Proofs

open Sys2Proof.Machine Sys2Proof.Claims

theorem flitsCarryCommands : FlitsCarryCommands := by
  intro p h c q op bytes s hce hlen hc
  have hwhole : ¬ ((headerBytes op h ++ bytes).length < 40 + h.length.toNat ∨ recNat (headerBytes op h ++ bytes) 0 1 / 16 ≠ 1) := by
    rw [List.length_append, headerBytes_length, hlen, headerBytes_version]
    simp
  have hdata : ((headerBytes op h ++ bytes).drop 40).take h.length.toNat = bytes := by
    rw [List.drop_left' (headerBytes_length op h), List.take_of_length_le hlen.le]
  unfold Dev.packetIn
  dsimp only
  rw [headerOf_headerBytes op bytes hce, hdata, if_neg hwhole, headerBytes_op]
  rcases hc with hc | ⟨hc, hop⟩
  · obtain ⟨rfl, rfl, rfl⟩ | ⟨rfl, rfl, rfl, rfl⟩ | ⟨k, w, x, e, rfl, rfl, rfl, rfl⟩ | ⟨rfl, rfl, rfl⟩ | ⟨rfl, rfl, rfl⟩ := hc
    · exact eq_via (m := execWrite p h bytes) rfl rfl
    · exact eq_via (m := execReadReq p h) rfl rfl
    · obtain ⟨hk, hw, hx, he⟩ := atomicBytes_fields k w x e
      rw [hk, hw, hx, he]
      exact eq_via (m := execAtomic p h k w x e) rfl rfl
    · exact eq_via (m := execRedWrite p h bytes) rfl rfl
    · exact eq_via (m := execPush p h bytes) rfl rfl
  · obtain ⟨rfl, rfl, rfl⟩ | ⟨rfl, rfl, rfl⟩ | ⟨rfl, rfl⟩ | ⟨old, rfl, rfl, rfl⟩ | ⟨rfl, rfl, rfl⟩ | ⟨now, rfl, rfl, rfl⟩ |
      ⟨rfl, rfl, rfl⟩ := hc
    · exact eq_via (m := execNimserAck p h) rfl rfl
    · exact eq_via (m := execNimserNak p h) rfl rfl
    · exact eq_via (m := execReadResp p h bytes) rfl rfl
    · have hold : BitVec.ofNat 64 (recNat (toLE 8 old.toNat) 0 8) = old := by
        simpa using ofNat_recNat_toLE old [] (by decide : 2 ^ 64 ≤ 256 ^ 8)
      rw [hold]
      exact eq_via (m := execAtomicResp p h old) rfl rfl
    · exact eq_via (m := execErrorResp p h) rfl rfl
    · exact absurd rfl hop
    · exact eq_via (m := execResync p h) rfl rfl

/-- Settles O53: a port takes what the flits tell it one field after the other, a port with nothing waiting sends nothing on account of it,
and the header of a packet reads back from its bytes. -/
theorem directMode : Obligations.DirectMode := ⟨flitsAreAcknowledgedAndReplayed, flitsCarryCommands⟩

end Sys2Proof.Proofs
end

section
/-!
SUPPORT. Frames at Ethernet ports (R393 to R395, R401, R416, R417): error counters, priorities that a port stops, the messages of the PTP time
receiver, and the frame around a packet.
-/

namespace Sys2Proof.Machine

open Sys2Proof Sys2Proof.Claims

/-! ## A counter field (R431) -/

/-- A field reads back the value that was put there. -/
theorem setField_toNat (w : W32) {lo width v : Nat} (hfits : lo + width ≤ 32) (hv : v < 2 ^ width) :
    (setField w lo width v).toNat / 2 ^ lo % 2 ^ width = v := by
  have hword : ((setField w lo width v).extractLsb' lo width) = BitVec.ofNat width v := by
    refine BitVec.eq_of_getLsbD_eq fun i hi => ?_
    have hin : lo + i < 32 := by omega
    have hshifted : ∀ n : Nat, (BitVec.ofNat 32 (n * 2 ^ lo)).getLsbD (lo + i) = n.testBit i := fun n => by
      rw [BitVec.getLsbD_ofNat, decide_eq_true hin, Bool.true_and, Nat.testBit_mul_two_pow]
      simp
    simp only [setField, BitVec.getLsbD_extractLsb', BitVec.getLsbD_or, BitVec.getLsbD_and, BitVec.getLsbD_not, hshifted,
      Nat.testBit_two_pow_sub_one, BitVec.getLsbD_ofNat, hi, hin, decide_true, Bool.true_and, Bool.not_true, Bool.and_false, Bool.false_or,
      Bool.and_true]
  have hnat := congrArg BitVec.toNat hword
  rwa [BitVec.extractLsb'_toNat, BitVec.toNat_ofNat, Nat.mod_eq_of_lt hv, Nat.shiftRight_eq_div_pow] at hnat

/-- A counter of a register that is there saturates. -/
theorem Dev.fld_count (d : Dev) {l : CsrLoc} {lo width : Nat} (k : Nat) (h : l.desc.isSome = true) (hfits : lo + width ≤ 32) :
    (d.count l lo width k).fld l lo width = min (d.fld l lo width + k) (2 ^ width - 1) := by
  have hmin : min (d.fld l lo width + k) (2 ^ width - 1) < 2 ^ width := (min_le_right ..).trans_lt (by have := Nat.two_pow_pos width; omega)
  rw [Dev.fld, Dev.count, Dev.setFld, Dev.reg_setReg _ _ _ h, setField_toNat _ hfits hmin]

theorem hostErr_desc : (At.host 0x044).desc.isSome = true := by
  have h : ((Block.regs .host).find? fun x => x.covers 0x044).isSome = true := by decide
  exact h

theorem portErr_desc (p : Nat) : (At.port p 0x008).desc.isSome = true := by
  have h : ∀ k : Fin 8, ((Block.regs .link).find? fun x => x.covers (0x20 * k.val + 0x008)).isSome = true := by decide
  exact h ⟨p % 8, Nat.mod_lt _ (by decide)⟩

/-! ## Priorities that a port stops (R417) -/

theorem Dev.releaseHeld_sansTraffic (d : Dev) : d.releaseHeld.sansTraffic = d.sansTraffic :=
  Dev.foldl_sansTraffic (fun _ _ => Dev.transmit_sansTraffic ..) _ (d.onLinks fun l => { l with heldOut := [] })

/-- The mask of priorities with one stopped or released. -/
def pauseMask (was : W8) (k : Nat) (stop : Bool) : W8 :=
  if stop then was ||| BitVec.ofNat 8 (2 ^ k) else was &&& ~~~BitVec.ofNat 8 (2 ^ k)

theorem pauseMask_bit (was : W8) (k j : Fin 8) (stop : Bool) :
    (pauseMask was k.val stop).getLsbD j.val = if j = k then stop else was.getLsbD j.val := by
  have hone : (BitVec.ofNat 8 (2 ^ k.val)).getLsbD j.val = decide (j = k) := by
    rw [BitVec.getLsbD_ofNat, decide_eq_true j.isLt, Bool.true_and, Nat.testBit_two_pow]
    simp only [Fin.ext_iff, eq_comm]
  cases stop with
  | false =>
    rw [pauseMask, if_neg Bool.false_ne_true, BitVec.getLsbD_and, BitVec.getLsbD_not, hone, decide_eq_true j.isLt, Bool.true_and]
    split <;> simp [*]
  | true =>
    rw [pauseMask, if_pos rfl, BitVec.getLsbD_or, hone]
    split <;> simp [*]

theorem exec_pfcFrame {p : Fin 17} {k : Fin 8} {stop : Bool} {s : State} (hframes : s.dev.frames p.val = true)
    (hon : (if p.val = 16 then s.dev.bit (At.host 0x000) 9 else s.dev.bit (At.port p.val 0) 7) = true) :
    exec (.pfcFrame p k stop) s = .next (s.withDev (
      let d := s.dev.onPort p.val fun x => { x with paused := pauseMask x.paused k.val stop }
      if stop then d else d.releaseHeld)) :=
  congrArg (fun d => Host.Outcome.next (s.withDev d)) (if_pos (by rw [hframes, hon]; rfl))

theorem exec_pfcFrame_off {p : Fin 17} {k : Fin 8} {stop : Bool} {s : State} (h : s.dev.frames p.val = false ∨
    (if p.val = 16 then s.dev.bit (At.host 0x000) 9 else s.dev.bit (At.port p.val 0) 7) = false) : exec (.pfcFrame p k stop) s = .next s :=
  congrArg (fun d => Host.Outcome.next (s.withDev d)) (if_neg (by
    rcases h with h | h <;> rw [h]
    · exact Bool.false_ne_true
    · rw [Bool.and_false]; exact Bool.false_ne_true))

/-! ## The PTP time receiver (R393) -/

/-- PTP runs on the port, and nothing else stands in the way. -/
theorem Dev.ptpOn_iff (d : Dev) (p : Nat) : d.ptpOn p = true ↔ p = d.links.ptpPort ∧ d.frames p = true := by
  rw [Dev.ptpOn, Bool.and_eq_true, decide_eq_true_eq]

/-! ## The frame around a packet (R395, R401, R409, R416) -/

section
variable (e : Envelope) (body : List W8) (code : W32)

theorem sealed_code : (sealed e body code).code = code := rfl
theorem sealed_ecn : (sealed e body code).ecn = e.ecn := rfl
theorem sealed_smac : (sealed e body code).smac = e.smac := rfl
theorem sealed_dmac : (sealed e body code).dmac = e.dmac := rfl
theorem sealed_sport : (sealed e body code).sport = e.sport := rfl
theorem sealed_v4 : (sealed e body code).v4 = e.v4 := rfl
theorem sealed_sip : (sealed e body code).sip = e.sip := rfl
theorem sealed_dip : (sealed e body code).dip = e.dip := rfl

end

/-- To a peer: the addresses of its port, whatever UDP port it goes to. -/
theorem Dev.envelope_peer (d : Dev) {p : Nat} (hp : p ≠ 16) (op : W8) (h : NimHdr) (data : List W8) : ∃ dport : W16,
    d.envelope p (.nimser op h data) = sealed (d.peerEnvelope p h.src h.dst h.vc (channelOfPacket op h.vc) dport)
      (headerBytes op h ++ data) (crc32c (headerBytes op h ++ data)) := by
  unfold Dev.envelope
  dsimp only
  rw [if_neg hp]
  exact ⟨_, rfl⟩

/-- To a host: what the connection names, but for the VLAN and priority of a management stream. -/
theorem Dev.envelope_host (d : Dev) (op : W8) (h : NimHdr) (data : List W8) : ∃ x : Envelope,
    d.envelope 16 (.nimser op h data) = sealed x (headerBytes op h ++ data) (crc32c (headerBytes op h ++ data)) ∧ x.ecn = 0b10 ∧
      x.smac = d.links.hostMac ∧ x.dmac = (d.conn h.stream.toNat).dmac ∧ x.dip = (d.conn h.stream.toNat).dip ∧
      x.sport = (d.conn h.stream.toNat).udpSrc ∧ x.v4 = decide ((d.conn h.stream.toNat).ipv = 4) := by
  unfold Dev.envelope
  dsimp only
  rw [if_pos rfl]
  refine ⟨_, rfl, ?_⟩
  split <;> exact ⟨rfl, rfl, rfl, rfl, rfl, rfl⟩

end Sys2Proof.Machine

namespace Sys2Proof.Proofs

open Sys2Proof.Machine Sys2Proof.Claims

/-- A count at a register that is there changes the CSR file alone. -/
theorem counts_field (s : State) {l : CsrLoc} {lo : Nat} (h : l.desc.isSome = true) (hfits : lo + 16 ≤ 32) : ∃ t : Tab W32,
    (Host.Outcome.next (s.withDev (s.dev.count l lo 16 1)) : Host.Outcome State Fault Refusal) = .next (s.withDev { s.dev with csr := t }) ∧
      ({ s.dev with csr := t } : Dev).fld l lo 16 = min (s.dev.fld l lo 16 + 1) 0xFFFF :=
  ⟨(s.dev.count l lo 16 1).csr, by rw [← Dev.count_frame], by rw [← Dev.count_frame]; exact s.dev.fld_count 1 h hfits⟩

theorem framesAtPorts : FramesAtPorts := by
  refine ⟨?counted, ?arp, ?nd, ?pfc⟩
  case counted =>
    intro p s l counts
    have counted : ∀ (o : Host.Outcome State Fault Refusal) (lo lo' : Nat), lo + 16 ≤ 32 → lo' + 16 ≤ 32 →
        o = .next (s.withDev (if p.val = 16 then s.dev.count (At.host 0x044) lo 16 1 else s.dev.count (At.port p.val 0x008) lo' 16 1)) →
        counts o (if p.val = 16 then lo else lo') := by
      intro o lo lo' hlo hlo' ho
      subst ho
      by_cases hp : p.val = 16
      · simp only [counts, l, if_pos hp]
        exact counts_field s hostErr_desc hlo
      · simp only [counts, l, if_neg hp]
        exact counts_field s (portErr_desc p.val) hlo'
    refine ⟨fun hoff => ⟨?_, ?_⟩, fun hon => ⟨?_, ?_⟩⟩
    · exact congrArg (fun d => Host.Outcome.next (s.withDev d)) (if_neg (by rw [hoff]; exact Bool.false_ne_true))
    · exact congrArg (fun d => Host.Outcome.next (s.withDev d)) (if_neg (by rw [hoff]; exact Bool.false_ne_true))
    · exact counted (exec (.unsupportedFrame p) s) 0 16 (by decide) (by decide)
        (congrArg (fun d => Host.Outcome.next (s.withDev d)) (if_pos hon))
    · exact counted (exec (.frameFcsError p) s) 16 0 (by decide) (by decide)
        (congrArg (fun d => Host.Outcome.next (s.withDev d)) (if_pos hon))
  case arp =>
    intro ip mac from_ s
    exact congrArg Host.Outcome.next (apply_ite s.withDev ..)
  case nd =>
    intro ip mac from_ s
    exact congrArg Host.Outcome.next (apply_ite s.withDev ..)
  case pfc =>
    intro p k stop s on
    refine ⟨exec_pfcFrame_off, fun hframes hon => ⟨_, exec_pfcFrame hframes hon, fun j => ?_⟩⟩
    have hport : ∀ d : Dev, ((if stop then d else d.releaseHeld).port p.val).paused = (d.port p.val).paused := by
      intro d
      split
      · rfl
      · show (d.releaseHeld.port p.val).sansSent.paused = (d.port p.val).sansSent.paused
        rw [Dev.port_of_sansTraffic d.releaseHeld_sansTraffic]
    rw [hport, Dev.port_onPort]
    exact pauseMask_bit ..

theorem ptpFollowsItsMaster : PtpFollowsItsMaster := by
  intro p s ptp here onPtp synced
  have hiff : s.dev.ptpOn p.val = true ↔ here := s.dev.ptpOn_iff p.val
  have taken : ∀ e : Dev, s.withDev (if s.dev.ptpOn p.val && ptp.master.isSome then e else s.dev) =
      if here ∧ ptp.master.isSome = true then s.withDev e else s := by
    intro e
    have hboth : (s.dev.ptpOn p.val && ptp.master.isSome) = true ↔ here ∧ ptp.master.isSome = true := by rw [Bool.and_eq_true, hiff]
    by_cases h : here ∧ ptp.master.isSome = true
    · rw [if_pos h, if_pos (hboth.2 h)]
    · rw [if_neg h, if_neg (mt hboth.1 h), State.withDev_same]
  refine ⟨fun clock rank => ?announce, fun origin arrival => ⟨?sync, ?twoStep⟩, fun origin => ?followUp, fun sent received => ?delayResp⟩
  case announce =>
    have hexec : exec (.ptpAnnounce p clock rank) s = .next (s.withDev (
      if s.dev.ptpOn p.val then
        match ptp.master with
        | none => s.dev.onPtp fun x => { x with master := some (clock, rank) }
        | some (c, r) =>
          if c = clock then s.dev.onPtp fun x => { x with master := some (clock, rank) }
          else if rank < r ∨ (rank = r ∧ clock.toNat < c.toNat) then s.dev.onPtp fun _ => { master := some (clock, rank) }
          else s.dev
      else s.dev)) := rfl
    rw [hexec]
    by_cases h : here
    · rw [if_pos (hiff.2 h)]
      rcases ptp.master with _ | ⟨c, r⟩
      · simp only [if_pos h]
        rfl
      · simp only [h, true_and, eq_comm (a := clock)]
        split
        · rfl
        · split <;> rfl
    · rw [if_neg (mt hiff.1 h)]
      rcases ptp.master with _ | ⟨c, r⟩
      · simp only [if_neg h]
        rfl
      · simp only [h, false_and, if_false]
        rfl
  case sync => exact congrArg Host.Outcome.next (taken _)
  case twoStep => exact congrArg Host.Outcome.next (taken _)
  case followUp =>
    have hexec : exec (.ptpFollowUp p origin) s = .next (s.withDev (
      match s.dev.ptpOn p.val, ptp.awaiting with
      | true, some arrival => s.dev.synced p.val origin arrival
      | _, _ => s.dev)) := rfl
    rw [hexec]
    by_cases h : here
    · rw [hiff.2 h]
      rcases ptp.awaiting with _ | arrival
      · rfl
      · simp only [if_pos h]
        rfl
    · rw [Bool.eq_false_iff.2 (mt hiff.1 h)]
      rcases ptp.awaiting with _ | arrival
      · rfl
      · simp only [if_neg h]
        rfl
  case delayResp =>
    have hexec : exec (.ptpDelayResp p sent received) s = .next (s.withDev (
      match s.dev.ptpOn p.val, ptp.syncAt with
      | true, some (t1, t2) =>
        let delay := ((((t2 : Int) - t1) + ((received : Int) - sent)) / 2).toNat
        s.dev.onPtp fun x => { x with delay := delay, offset := (t2 : Int) - t1 - delay, locked := true }
      | _, _ => s.dev)) := rfl
    rw [hexec]
    by_cases h : here
    · rw [hiff.2 h]
      rcases hs : ptp.syncAt with _ | ⟨t1, t2⟩
      · rfl
      · simp only [if_pos h]
        rw [← hs]
        rfl
    · rw [Bool.eq_false_iff.2 (mt hiff.1 h)]
      rcases ptp.syncAt with _ | ⟨t1, t2⟩
      · rfl
      · simp only [if_neg h]
        rfl

theorem packetsLeaveInFrames : PacketsLeaveInFrames := by
  intro d p m
  refine ⟨fun hframes => ?leaves, fun op h data hm => ?carries⟩
  case leaves =>
    have hdirect : ¬ (decide (p ≠ 16) && decide ((d.port p).mode = 1)) = true := by
      rw [Bool.and_eq_true, decide_eq_true_eq, decide_eq_true_eq]
      exact fun hd => hframes.elim hd.1 (fun hmode => hmode hd.2)
    exact if_neg hdirect
  case carries =>
    subst hm
    intro e c fleet
    by_cases hp : p = 16
    · subst hp
      obtain ⟨x, he, hecn, hrest⟩ := d.envelope_host op h data
      simp only [e, he, sealed_ecn, sealed_code, sealed_smac, sealed_dmac, sealed_sport, sealed_v4, sealed_dip]
      exact ⟨hecn, trivial, fun h => absurd rfl h, fun _ => hrest⟩
    · obtain ⟨dport, he⟩ := d.envelope_peer hp op h data
      simp only [e, he, sealed_ecn, sealed_code, sealed_smac, sealed_dmac, sealed_sport, sealed_v4, sealed_sip, sealed_dip]
      exact ⟨rfl, trivial, fun _ => ⟨rfl, rfl, rfl, rfl, rfl, rfl⟩, fun h => absurd h hp⟩

/-- Settles O47: a count that saturates changes the CSR file alone, one bit of the mask tells whether a port sends a priority, and what a frame
carries does not depend on what else the device holds back. -/
theorem framesAndPtp : Obligations.FramesAndPtp := ⟨framesAtPorts, ptpFollowsItsMaster, packetsLeaveInFrames⟩

end Sys2Proof.Proofs
end

section
/-!
SUPPORT. Ports as their training leaves them (R390 to R392, R428), host connections (R395, R396) and the routing table (R421).
-/

namespace Sys2Proof.Machine

open Sys2Proof Sys2Proof.Claims

/-! ## Registers of other blocks (R543) -/

/-- Outside the sectors a register stands in the file at its offset within the space of some block. -/
theorem CsrLoc.home_mod {l : CsrLoc} (h : l.block ≠ .sect) (scope : Nat) : l.home scope % 0x100000 = l.off % 0x100000 := by
  have hbase : ∀ n, Block.base l.block n % 0x100000 = 0 := by
    intro n
    cases hb : l.block <;> simp [Block.base, Nat.add_mod, Nat.mul_mod_left]
  have hhome : ∃ n, l.home scope = Block.base l.block n + l.off := by
    obtain ⟨b, n, t, off⟩ := l
    cases b with
    | sect => exact absurd rfl h
    | _ => cases scope <;> exact ⟨_, rfl⟩
  obtain ⟨n, hn⟩ := hhome
  rw [hn, Nat.add_mod, hbase, Nat.zero_add, Nat.mod_mod]

/-- A write to a register leaves those at other offsets. -/
theorem Dev.reg_setReg_apart (d : Dev) {l l' : CsrLoc} (v : W32) (h : l.block ≠ .sect) (h' : l'.block ≠ .sect)
    (hoff : l'.off % 0x100000 ≠ l.off % 0x100000) : (d.setReg l v).reg l' = d.reg l' := by
  cases hx : l.desc with
  | none => rw [Dev.setReg, hx]
  | some x =>
    cases hx' : l'.desc with
    | none => rw [Dev.reg, Dev.reg, hx']
    | some x' =>
      refine Dev.reg_setReg_ne d v hx hx' fun he => hoff ?_
      rw [← CsrLoc.home_mod h' x'.scope, he, CsrLoc.home_mod h]

/-! ## Bad lanes are spared (R428) -/

/-- A port but for the lanes that have been spared. -/
def Port.sansSpared (x : Port) : Port := { x with spared := 0 }

/-- A device with the settings of its ports, and the ports but for the lanes spared. -/
structure Dev.SameSettings (d e : Dev) : Prop where
  reg : ∀ l : CsrLoc, l.block ≠ .sect → l.off % 0x100000 < 0x100 → e.reg l = d.reg l
  port : ∀ q, (e.port q).sansSpared = (d.port q).sansSpared

namespace Dev.SameSettings

theorem refl (d : Dev) : SameSettings d d := ⟨fun _ _ _ => rfl, fun _ => rfl⟩

theorem trans {a b c : Dev} (h : SameSettings a b) (h' : SameSettings b c) : SameSettings a c :=
  ⟨fun l hb hoff => (h'.reg l hb hoff).trans (h.reg l hb hoff), fun q => (h'.port q).trans (h.port q)⟩

theorem foldl {α : Type} {f : Dev → α → Dev} (h : ∀ d a, SameSettings d (f d a)) (as : List α) (d : Dev) :
    SameSettings d (as.foldl f d) := by
  induction as generalizing d with
  | nil => exact refl d
  | cons a as ih => exact (h d a).trans (ih _)

theorem of_same {d e : Dev} (hc : e.csr = d.csr) (hl : e.links = d.links) : SameSettings d e :=
  ⟨fun l _ _ => Dev.reg_congr hc l, fun q => congrArg Port.sansSpared (Dev.port_of_ports (congrArg Links.ports hl) q)⟩

/-- Registers from offset 0x100 on set no port. -/
theorem setFld (d : Dev) {l : CsrLoc} (lo width v : Nat) (hb : l.block ≠ .sect) (hoff : 0x100 ≤ l.off % 0x100000) :
    SameSettings d (d.setFld l lo width v) :=
  ⟨fun _ hb' hoff' => Dev.reg_setReg_apart d _ hb hb' (hoff'.trans_le hoff).ne,
    fun q => congrArg Port.sansSpared (Dev.port_of_ports (congrArg Links.ports (Dev.setReg_links ..)) q)⟩

theorem raise (d : Dev) (c : Nat) (i : EventInfo) : SameSettings d (d.raise c i) := by
  unfold Dev.raise
  split
  · exact refl d
  · dsimp only
    have hevents : SameSettings d { d with events := (d.events.add (d.record c i)).1 } := of_same rfl rfl
    split
    · exact hevents.trans (setFld _ _ _ _ (by decide) (by decide))
    · exact hevents

theorem moveUnit (v : Variant) (d : Dev) (u : BitVec 16) (st : BitVec 4) : SameSettings d (d.moveUnit v u st) := by
  unfold Dev.moveUnit
  dsimp only
  split
  · split
    · exact (of_same rfl rfl : SameSettings d (d.setEntry v u _)).trans (raise ..)
    · exact of_same rfl rfl
  · exact refl d

theorem spareLane (v : Variant) (p : Nat) (d : Dev) (i : Nat) : SameSettings d (d.spareLane v p i) := by
  have spared : ∀ (e : Dev) (m : W8), SameSettings e (e.onPort p fun x => { x with spared := x.spared ||| m }) := by
    intro e m
    refine ⟨fun _ _ _ => rfl, fun q => ?_⟩
    by_cases hq : q = p
    · rw [hq, Dev.port_onPort]
      rfl
    · rw [Dev.port_onPort_ne _ _ hq]
  have engaged : ∀ (e : Dev) (u : BitVec 16) (from_ to_ : Nat), SameSettings e (e.engage u 7 from_ to_) := fun e u from_ to_ =>
    (of_same rfl rfl : SameSettings e (e.onRetain _)).trans (raise ..)
  unfold Dev.spareLane
  dsimp only
  split
  · exact refl d
  · exact (((((setFld d _ _ _ (show Block.link ≠ .sect by decide) (show 0x100 ≤ 0x100 % 0x100000 by decide)).trans (spared ..)).trans
      (moveUnit ..)).trans (moveUnit ..)).trans (moveUnit ..)).trans (engaged ..)

end Dev.SameSettings

/-! ## The end of training (R392) -/

/-- A port of a width as a report brings it up in a mode with some lanes, where some are bad. -/
def Port.trainedUp (x : Port) (r : TrainReport) (mode : BitVec 2) (width lanes : Nat) (bad : List Nat) : Port :=
  let y := if mode = 1 ∧ x.mode = 1 then x else x.cleared
  { y with up := true, lanes := lanes, mode := mode, latency := if mode = 1 then r.latencyNs else 0,
           peer := if mode = 1 then r.peer else 0, peerPort := if mode = 1 then r.peerPort else 0,
           eq := r.eq.or y.eq, due := 0, replays := 0, rxNak := false,
           used := lanesUsed width lanes (bad.filter (fun i => !y.spared.getLsbD i)) }

/-- Equalisation that a report brings is stored, and what is stored stays where it brings none. -/
theorem Port.trainedUp_eq (x : Port) (r : TrainReport) (mode : BitVec 2) (width lanes : Nat) (bad : List Nat) :
    (x.trainedUp r mode width lanes bad).eq = r.eq.or x.eq := by
  unfold Port.trainedUp
  dsimp only
  split <;> rfl

/-- What follows on the device when port `p` has come up. -/
def Dev.afterTraining (v : Variant) (p : Nat) (mode : BitVec 2) (fresh : Bool) (d : Dev) : Dev :=
  let d := (d.port p).replayBuf.foldl (fun (d : Dev) f => d.send (.flit p false f)) (d.portState p)
  let d := Dev.sendFlits p (d.port p).queuedFlits d
  let d := d.endEnable v (isPort p)
  let d := if p ≠ 16 ∧ fresh then d.startStreams v p else d
  if p = d.links.ptpPort ∧ mode = 2 then d.send (.mld p d.tickGroup ectZero) else d

theorem Dev.port_raise (d : Dev) (c : Nat) (i : EventInfo) (q : Nat) : (d.raise c i).port q = d.port q :=
  Dev.port_of_ports (congrArg Links.ports (Dev.raise_links ..)) q

theorem Dev.port_endEnable (v : Variant) (d : Dev) (mine : BitVec 16 → Bool) (q : Nat) : (d.endEnable v mine).port q = d.port q := by
  refine Dev.port_of_ports (congrArg Links.ports ?_) q
  unfold Dev.endEnable
  split
  · rfl
  · split
    · exact (Dev.raise_links ..).trans (Dev.moveUnit_links ..)
    · rfl

theorem Dev.port_startStreams (v : Variant) (d : Dev) (p q : Nat) : ((d.startStreams v p).port q).sansSent = (d.port q).sansSent :=
  foldl_keeps (fun d => (d.port q).sansSent) _ (fun d k => (Dev.pump_port v (d.onNim k (·.restart)) _ q).trans
    (congrArg Port.sansSent (Dev.port_of_ports rfl q))) _ d

theorem Dev.afterTraining_port (v : Variant) (p : Nat) (mode : BitVec 2) (fresh : Bool) (d : Dev) :
    ((d.afterTraining v p mode fresh).port p).sansSent = (d.port p).sansSent := by
  have hstreams : ∀ e : Dev, ((if p ≠ 16 ∧ fresh then e.startStreams v p else e : Dev).port p).sansSent = (e.port p).sansSent := by
    intro e
    split
    · exact Dev.port_startStreams ..
    · rfl
  have hmld : ∀ e : Dev, ((if p = e.links.ptpPort ∧ mode = 2 then e.send (.mld p e.tickGroup ectZero) else e : Dev).port p) = e.port p := by
    intro e
    split <;> rfl
  unfold Dev.afterTraining
  dsimp only
  rw [hmld, hstreams, Dev.port_endEnable, Dev.port_of_sansTraffic (Dev.sendFlits_sansTraffic ..), Dev.sendAll_port]
  exact congrArg Port.sansSent (Dev.port_raise ..)

/-- The bad lanes of a report and those due from before, within the width of the port. -/
def Dev.badLanes (d : Dev) (p : Nat) (r : TrainReport) : List Nat :=
  (List.range (if p = 16 then 8 else 4)).filter fun i => r.badLanes.any (fun k => k.val == i) || (d.port p).due.getLsbD i

/-- A device with the bad lanes of a report spared. -/
def Dev.lanesSpared (v : Variant) (d : Dev) (p : Nat) (r : TrainReport) : Dev := (d.badLanes p r).foldl (fun d i => d.spareLane v p i) d

/-- The mode of a port by its setting. -/
def Dev.modeSet (d : Dev) (p : Nat) : BitVec 2 := if p = 16 then 2 else BitVec.ofNat 2 (d.fld (At.port p 0) 0 2)

/-- The width at which a report lets a port come up. -/
def Dev.lanesFor (d : Dev) (p : Nat) (r : TrainReport) : Nat :=
  if d.modeSet p = 1 then legalLanes (min (d.lanesSet p) r.lanes) else d.lanesSet p

/-- Whether a report lets a port come up. -/
def Dev.trainsWell (d : Dev) (p : Nat) (r : TrainReport) : Bool :=
  r.up && decide (0 < d.lanesFor p r) && (decide (d.modeSet p = 1) || decide (d.lanesSet p ≤ r.lanes))

theorem Dev.trained_stays {v : Variant} {d : Dev} {p : Nat} (r : TrainReport) (h : ¬ (d.portOn v p = true ∧ (d.port p).up = false)) :
    d.trained v p r = d := if_pos (by
  cases hon : d.portOn v p
  · rfl
  · rw [Bool.not_true, Bool.false_or, ← Bool.not_eq_false]
    exact fun hup => h ⟨hon, hup⟩)

theorem Dev.trained_eq {v : Variant} {d : Dev} {p : Nat} (r : TrainReport) (hon : d.portOn v p = true) (hup : (d.port p).up = false) :
    d.trained v p r =
      let e := d.lanesSpared v p r
      if e.trainsWell p r then
        let e' := if r.eq.isSome then e.onRetain fun x => { x with changed := true } else e
        (e'.onPort p fun x => x.trainedUp r (e.modeSet p) (if p = 16 then 8 else 4) (e.lanesFor p r) (d.badLanes p r)).afterTraining v p
          (e.modeSet p) (decide ((e.port p).mode ≠ e.modeSet p))
      else e.onPort p (·.cleared) := by
  unfold Dev.trained
  rw [if_neg (by simp [hon, hup])]
  rfl

/-- Sparing lanes leaves the mode and the width that a report allows. -/
theorem Dev.SameSettings.allows {d e : Dev} (h : d.SameSettings e) {p : Nat} (r : TrainReport) :
    e.modeSet p = d.modeSet p ∧ e.lanesFor p r = d.lanesFor p r ∧ e.trainsWell p r = d.trainsWell p r := by
  have hport : ∀ lo w, e.fld (At.port p 0) lo w = d.fld (At.port p 0) lo w := fun lo w => by
    have hoff : (At.port p 0).off % 0x100000 < 0x100 := by
      show (0x20 * (p % 8) + 0) % 0x100000 < 0x100
      omega
    rw [Dev.fld, Dev.fld, h.reg _ (show Block.link ≠ .sect by decide) hoff]
  have hhost : ∀ lo w, e.fld (At.host 0) lo w = d.fld (At.host 0) lo w := fun lo w => by
    rw [Dev.fld, Dev.fld, h.reg _ (by decide) (by decide)]
  have hmode : e.modeSet p = d.modeSet p := by rw [Dev.modeSet, Dev.modeSet, hport]
  have hset : e.lanesSet p = d.lanesSet p := by rw [Dev.lanesSet, Dev.lanesSet, hport, hhost]
  have hlanes : e.lanesFor p r = d.lanesFor p r := by rw [Dev.lanesFor, Dev.lanesFor, hmode, hset]
  exact ⟨hmode, hlanes, by rw [Dev.trainsWell, Dev.trainsWell, hmode, hset, hlanes]⟩

theorem Dev.lanesSpared_settings (v : Variant) (d : Dev) (p : Nat) (r : TrainReport) : d.SameSettings (d.lanesSpared v p r) :=
  Dev.SameSettings.foldl (fun _ _ => Dev.SameSettings.spareLane ..) _ d

/-- A report that lets the port come up: it is up in its mode at its width. -/
theorem Dev.trained_good {v : Variant} {d : Dev} {p : Nat} {r : TrainReport} (hon : d.portOn v p = true) (hup : (d.port p).up = false)
    (hgood : d.trainsWell p r = true) : ∃ x : Port, x.sansSpared = (d.port p).sansSpared ∧ ((d.trained v p r).port p).sansSent =
      (x.trainedUp r (d.modeSet p) (if p = 16 then 8 else 4) (d.lanesFor p r) (d.badLanes p r)).sansSent := by
  have hsame := d.lanesSpared_settings v p r
  obtain ⟨hmode, hlanes, hwell⟩ := hsame.allows (p := p) r
  have hretain : ∀ e : Dev, (if r.eq.isSome then e.onRetain fun x => { x with changed := true } else e : Dev).port p = e.port p := by
    intro e
    split <;> rfl
  refine ⟨(d.lanesSpared v p r).port p, hsame.port p, ?_⟩
  rw [Dev.trained_eq r hon hup]
  dsimp only
  rw [hwell, if_pos hgood, Dev.afterTraining_port, Dev.port_onPort, hretain, hmode, hlanes]

theorem Dev.trained_bad {v : Variant} {d : Dev} {p : Nat} {r : TrainReport} (hon : d.portOn v p = true) (hup : (d.port p).up = false)
    (hbad : ¬ d.trainsWell p r = true) : ∃ x : Port, (d.trained v p r).port p = x.cleared := by
  refine ⟨(d.lanesSpared v p r).port p, ?_⟩
  rw [Dev.trained_eq r hon hup]
  dsimp only
  rw [((d.lanesSpared_settings v p r).allows (p := p) r).2.2, if_neg hbad, Dev.port_onPort]

theorem Dev.modeSet_toNat (d : Dev) (p : Nat) : (d.modeSet p).toNat = if p = 16 then 2 else d.fld (At.port p 0) 0 2 := by
  unfold Dev.modeSet
  split
  · rfl
  · exact (BitVec.toNat_ofNat ..).trans (Nat.mod_eq_of_lt (Nat.mod_lt _ (by decide)))

theorem Dev.modeSet_eq_one (d : Dev) (p : Nat) : d.modeSet p = 1 ↔ (if p = 16 then 2 else d.fld (At.port p 0) 0 2) = 1 := by
  rw [← Dev.modeSet_toNat, ← BitVec.toNat_inj]
  rfl

/-! ## Host connections (R395, R396) -/

theorem recNat_first (b : List W8) : recNat b 0 1 = (b.getD 0 0).toNat := by
  cases b with
  | nil => rfl
  | cons x xs => exact recNat_cons x xs

/-- A field of a record fits in a word of its width. -/
theorem recNat_toNat (b : List W8) (off n : Nat) {w : Nat} (hw : 256 ^ n ≤ 2 ^ w) : (BitVec.ofNat w (recNat b off n)).toNat = recNat b off n :=
  (BitVec.toNat_ofNat ..).trans (Nat.mod_eq_of_lt ((recNat_lt ..).trans_le hw))

/-- Whether an entry of the connection table, as it was read, opens its connection. -/
def entryOpens (r : Acc) : Prop := r.st = 0 ∧ (recNat r.data 0 1 = 1 ∨ recNat r.data 0 1 = 2)

theorem entryOpens_iff (r : Acc) : ¬ (r.st ≠ 0 ∨ (r.data.getD 0 0 ≠ 1 ∧ r.data.getD 0 0 ≠ 2)) ↔ entryOpens r := by
  have hkind : ∀ k : W8, k = 1 ↔ k.toNat = 1 := fun k => by rw [← BitVec.toNat_inj]; rfl
  have hkind' : ∀ k : W8, k = 2 ↔ k.toNat = 2 := fun k => by rw [← BitVec.toNat_inj]; rfl
  rw [entryOpens, recNat_first, ← hkind, ← hkind']
  tauto

theorem Dev.readRoutes_links (v : Variant) (base : Nat) (d : Dev) : (d.readRoutes v base).2.links = d.links := by
  unfold Dev.readRoutes
  dsimp only
  exact foldl_keeps (fun r : List (Tab W32) × Dev => r.2.links) _ (fun r i => Dev.localRead_links v r.2 (base + 64 * i)) _ ([], d)

/-- The image of a table that has been read waits for the next edge. -/
def Dev.holdRoutes (d : Dev) (image : Tab W32) : Dev := d.onLinks fun l => { l with routeImage := image, routeWaiting := true }

theorem Dev.holdRoutes_links (d : Dev) (image : Tab W32) :
    (d.holdRoutes image).links.routeWaiting = true ∧ (d.holdRoutes image).links.routes = d.links.routes := ⟨rfl, rfl⟩

theorem exec_routeLoadCopied {s : State} (h : s.dev.links.routeLoading = true) : exec .routeLoadCopied s = .next (s.withDev (
    let r := s.dev.readRoutes s.fuse.variant (s.dev.reg64 (At.link 0 0x220)).toNat
    r.2.holdRoutes r.1)) := congrArg (fun d => Host.Outcome.next (s.withDev d)) (if_pos h)

/-- A connection as its entry describes it (R395). -/
def Conn.ofEntry (b : List W8) : Conn :=
  let nat := fun (o n : Nat) => recNat b o n
  let wire := fun (o n : Nat) => leNat ((b.drop o).take n).reverse
  { state := 1, kind := b.getD 0 0, prio := BitVec.ofNat 8 (nat 1 1 % 8), vlan := BitVec.ofNat 16 (nat 2 2 % 4096),
    queue := BitVec.ofNat 16 (nat 4 2), udpSrc := BitVec.ofNat 16 (nat 6 2), dmac := BitVec.ofNat 48 (wire 8 6),
    ipv := BitVec.ofNat 8 (nat 0x0E 1), dip := BitVec.ofNat 128 (if nat 0x0E 1 = 4 then wire 0x1C 4 else wire 0x10 16),
    pmtu := BitVec.ofNat 8 (nat 0x0F 1), rqpn := BitVec.ofNat 32 (nat 0x20 4),
    rkey := BitVec.ofNat 32 (nat 0x2C 4), nextPsn := psn24 (BitVec.ofNat 32 (nat 0x24 4)),
    expected := psn24 (BitVec.ofNat 32 (nat 0x28 4)) }

theorem Conn.ofEntry_fields (b : List W8) : (Conn.ofEntry b).state = 1 ∧ (Conn.ofEntry b).kind.toNat = recNat b 0 1 ∧
    (Conn.ofEntry b).queue.toNat = recNat b 4 2 ∧ (Conn.ofEntry b).udpSrc.toNat = recNat b 6 2 ∧
    (Conn.ofEntry b).rqpn.toNat = recNat b 0x20 4 ∧ (Conn.ofEntry b).rkey.toNat = recNat b 0x2C 4 ∧ (Conn.ofEntry b).outstanding = [] :=
  ⟨rfl, (recNat_first b).symm, recNat_toNat b 4 2 (by decide), recNat_toNat b 6 2 (by decide), recNat_toNat b 0x20 4 (by decide),
    recNat_toNat b 0x2C 4 (by decide), rfl⟩

/-- A connection set anew with its stream at its start. -/
def Dev.renewed (d : Dev) (i : Nat) (c : Conn) : Dev := (d.onConn i fun _ => c).onNim (streamKey (.conn (BitVec.ofNat 8 i))) fun _ => {}

theorem Dev.conn_renewed (d : Dev) (i j : Nat) (c : Conn) : (d.renewed i c).conn j = (d.onConn i fun _ => c).conn j := rfl

theorem Dev.renewed_links (d : Dev) (i : W8) (c : Conn) : (d.renewed i.toNat c).conn i.toNat = c ∧
    (d.renewed i.toNat c).nim (streamKey (.conn i)) = {} ∧ ∀ j, j ≠ i.toNat → (d.renewed i.toNat c).conn j = d.conn j := by
  refine ⟨by rw [Dev.conn_renewed, Dev.conn_onConn], ?_, fun j hj => by rw [Dev.conn_renewed, Dev.conn_onConn_ne _ _ hj]⟩
  rw [Dev.renewed, BitVec.ofNat_toNat, BitVec.setWidth_eq, Dev.nim_onNim]

section
variable {v : Variant} {d : Dev} {i : Nat}

theorem Dev.openConn_busy (h : (d.conn i).state ≠ 0) : d.openConn v i = d := if_pos h

theorem Dev.openConn_refused (h : (d.conn i).state = 0) (hbad : ¬ entryOpens (d.physBytes v (d.connAddr i) 64)) :
    d.openConn v i = (d.physBytes v (d.connAddr i) 64).d :=
  (if_neg (not_not.2 h)).trans (if_pos (not_not.1 (mt (entryOpens_iff _).1 hbad)))

theorem Dev.openConn_opens (h : (d.conn i).state = 0) (hgood : entryOpens (d.physBytes v (d.connAddr i) 64)) :
    d.openConn v i = (d.physBytes v (d.connAddr i) 64).d.renewed i (Conn.ofEntry (d.physBytes v (d.connAddr i) 64).data) :=
  (if_neg (not_not.2 h)).trans (if_neg ((entryOpens_iff _).2 hgood))

end

end Sys2Proof.Machine

namespace Sys2Proof.Proofs

open Sys2Proof.Machine Sys2Proof.Claims

theorem portsTrain : PortsTrain := by
  refine ⟨?retrained, ?alreadyDown, ?lacking, ?trained⟩
  case retrained =>
    intro p c s hc
    have hexec : exec c s = .next (s.withDev (s.dev.retrain s.fuse.variant p.val)) := by
      obtain ⟨rfl, hup⟩ | ⟨hp, rfl⟩ | ⟨q, rfl, hq, hthere⟩ := hc
      · exact congrArg (fun d => Host.Outcome.next (s.withDev d)) (if_pos hup)
      · rw [hp]
        rfl
      · rw [← hq]
        exact congrArg (fun d => Host.Outcome.next (s.withDev d)) (if_pos hthere)
    obtain ⟨hdown, hlanes⟩ := s.dev.retrain_down s.fuse.variant p.val
    exact ⟨_, hexec, hdown, hlanes, fun q hq => Dev.port_retrain_ne _ _ hq⟩
  case alreadyDown =>
    intro p s hdown
    exact congrArg (fun d => Host.Outcome.next (s.withDev d)) (if_neg (by rw [hdown]; exact Bool.false_ne_true))
  case lacking =>
    intro p s hlacks
    exact congrArg (fun d => Host.Outcome.next (s.withDev d)) (if_neg (not_lt.2 hlacks))
  case trained =>
    intro p r s d may mode want w lanes good
    have hexec : exec (.portTrainingDone p r) s = .next (s.withDev (d.trained s.fuse.variant p.val r)) := rfl
    have hone : d.modeSet p.val = 1 ↔ mode = 1 := d.modeSet_eq_one p.val
    have hwidth : d.lanesFor p.val r = lanes := by
      unfold Dev.lanesFor
      simp only [hone]
      rfl
    have hgood : d.trainsWell p.val r = true ↔ good := by
      unfold Dev.trainsWell
      rw [hwidth]
      simp only [hone, Bool.and_eq_true, Bool.or_eq_true, decide_eq_true_eq, and_assoc]
      exact Iff.rfl
    refine ⟨fun hmay => ?_, fun hmay => ⟨_, hexec, fun hg => ?_, fun hg => ?_⟩⟩
    · rw [hexec, Dev.trained_stays r hmay]
      rfl
    · obtain ⟨x, hx, hport⟩ := Dev.trained_good hmay.1 hmay.2 (hgood.2 hg)
      have told : ∀ {α : Type} (f : Port → α), (∀ y : Port, f y.sansSent = f y) → f ((d.trained s.fuse.variant p.val r).port p.val) =
          f (x.trainedUp r (d.modeSet p.val) (if p.val = 16 then 8 else 4) (d.lanesFor p.val r) (d.badLanes p.val r)) := fun f hf => by
        rw [← hf, hport, hf]
      have heq : x.eq = (d.port p.val).eq := show x.sansSpared.eq = (d.port p.val).sansSpared.eq by rw [hx]
      refine ⟨told (·.up) fun _ => rfl, (told (·.lanes) fun _ => rfl).trans hwidth, ?_, told (·.due) fun _ => rfl, ?_, fun hm => ⟨?_, ?_, ?_⟩⟩
      · exact (congrArg BitVec.toNat (told (·.mode) fun _ => rfl)).trans (d.modeSet_toNat p.val)
      · rw [told (·.eq) fun _ => rfl, ← heq]
        exact x.trainedUp_eq ..
      · exact (told (·.peer) fun _ => rfl).trans (if_pos (hone.2 hm))
      · exact (told (·.peerPort) fun _ => rfl).trans (if_pos (hone.2 hm))
      · exact (told (·.latency) fun _ => rfl).trans (if_pos (hone.2 hm))
    · obtain ⟨x, hport⟩ := Dev.trained_bad hmay.1 hmay.2 (mt hgood.1 hg)
      rw [hport]
      exact ⟨rfl, rfl⟩

theorem connectionsAndRoutes : ConnectionsAndRoutes := by
  refine ⟨?opens, ?closes, fun s => rfl, fun s => ⟨fun hidle => ?idle, fun hloading => ?loaded⟩⟩
  case opens =>
    intro i s d r good
    have hexec : exec (.connOpen i) s = .next (s.withDev (d.openConn s.fuse.variant i.toNat)) := rfl
    have hstate : (d.conn i.toNat).state = (s.dev.conn i.toNat).state := by rw [Dev.conn, Dev.setFld_links]; rfl
    rw [hexec, ← hstate]
    refine ⟨fun hbusy => ?_, fun hclosed hbad => ?_, fun hclosed hgood => ?_⟩
    · rw [Dev.openConn_busy hbusy]
    · rw [Dev.openConn_refused hclosed hbad]
    · refine ⟨_, rfl, ?_⟩
      rw [Dev.openConn_opens hclosed hgood]
      obtain ⟨hconn, hnim, hothers⟩ := r.d.renewed_links i (Conn.ofEntry r.data)
      obtain ⟨hopen, hkind, hqueue, hudp, hqpn, hkey, hnone⟩ := Conn.ofEntry_fields r.data
      rw [hconn]
      exact ⟨hopen, hkind, hqueue, hudp, hqpn, hkey, hnone, hnim, hothers⟩
  case closes =>
    intro i s
    let e := s.dev.setFld (At.host 0x040) 0 8 i.toNat
    let e' := (e.failRequests (e.conn i.toNat).outstanding).failRequests (e.nim (streamKey (.conn (BitVec.ofNat 8 i.toNat)))).outstanding
    obtain ⟨hconn, hnim, hothers⟩ := e'.renewed_links i {}
    refine ⟨e'.renewed i.toNat {}, rfl, hconn, hnim, fun j hj => (hothers j hj).trans ?_⟩
    rw [Dev.failRequests_conn, Dev.failRequests_conn, Dev.conn, Dev.setFld_links]
    rfl
  case idle => exact congrArg (fun d => Host.Outcome.next (s.withDev d)) (if_neg (by rw [hidle]; exact Bool.false_ne_true))
  case loaded =>
    obtain ⟨hwaits, hroutes⟩ := Dev.holdRoutes_links (s.dev.readRoutes s.fuse.variant (s.dev.reg64 (At.link 0 0x220)).toNat).2
      (s.dev.readRoutes s.fuse.variant (s.dev.reg64 (At.link 0 0x220)).toNat).1
    exact ⟨_, exec_routeLoadCopied hloading, hwaits, hroutes.trans (congrArg Links.routes (Dev.readRoutes_links ..))⟩

/-- Settles O48: a report is judged by settings that sparing lanes leaves alone, and the port then comes up as the report brings it; an entry
read in the device's memory opens its connection alone. -/
theorem portsConnectionsAndRoutes : Obligations.PortsConnectionsAndRoutes := ⟨portsTrain, connectionsAndRoutes⟩

end Sys2Proof.Proofs
end

section
/-!
SUPPORT. Hung units and parity errors of control state (R67, R68, R436, R437, R444, R449): a unit's first level, the partitions held for the
owner, and what a parity error begins.
-/

namespace Sys2Proof.Machine

open Sys2Proof Sys2Proof.Claims

/-! ## Partitions held for the owner (R437) -/

/-- What one step of a fold sets of an element of the list, and every step keeps, holds once the fold is done. -/
theorem foldl_sets {α β : Type} {P : β → Prop} {f : β → α → β} {a : α} (sets : ∀ b, P (f b a)) (keeps : ∀ b x, P b → P (f b x))
    {as : List α} (h : a ∈ as) (b : β) : P (as.foldl f b) := by
  obtain ⟨xs, ys, rfl⟩ := List.append_of_mem h
  rw [List.foldl_append, List.foldl_cons]
  exact List.foldlRecOn ys f (sets _) fun b hb x _ => keeps b x hb

/-- A partition fenced and held for the owner because of a unit. -/
def Dev.holdPart (v : Variant) (u : BitVec 16) (d : Dev) (n : Nat) : Dev :=
  (d.fence v n).onGander fun g => { g with held := Tab.ins n u (Tab.drop n g.held) }

theorem Dev.hold_eq (v : Variant) (d : Dev) (m : BitVec 12) (u : BitVec 16) :
    d.hold v m u = (partsOf (m &&& v.parts)).foldl (Dev.holdPart v u) ((d.hangEvent u 4).noteSuspects u) := rfl

theorem Dev.held_of_steady {d e : Dev} (h : e.steady = d.steady) : e.gander.held = d.gander.held := congrArg (fun x => x.gander.held) h

theorem Dev.fence_held (v : Variant) (d : Dev) (n : Nat) : (d.fence v n).gander.held = d.gander.held :=
  (Dev.held_of_steady (Dev.fence_steady v d n)).trans rfl

theorem Dev.hub_onGander (d : Dev) (f : Gander → Gander) (n : Nat) : (d.onGander f).hub n = d.hub n := rfl

theorem Dev.holdPart_holds (v : Variant) (u : BitVec 16) (d : Dev) (n k : Nat) :
    (d.holdPart v u n).gander.holds k = true ↔ n = k ∨ d.gander.holds k = true := by
  have hheld : (d.holdPart v u n).gander.held = Tab.ins n u (Tab.drop n d.gander.held) := by
    rw [Dev.holdPart, Dev.onGander_gander, Dev.fence_held]
  simp only [Gander.holds, hheld, List.any_eq_true, Tab.mem_ins, Tab.drop, List.mem_filter, bne_iff_ne, beq_iff_eq]
  constructor
  · rintro ⟨e, rfl | ⟨he, -⟩, hk⟩
    · exact .inl hk
    · exact .inr ⟨e, he, hk⟩
  · intro h
    by_cases hn : n = k
    · exact ⟨(n, u), .inl rfl, hn⟩
    · obtain ⟨e, he, hk⟩ := h.resolve_left hn
      exact ⟨e, .inr ⟨he, fun hen => hn (hen.symm.trans hk)⟩, hk⟩

theorem Dev.holdPart_fenced (v : Variant) (u : BitVec 16) (d : Dev) (n k : Nat) :
    ((d.holdPart v u n).hub k).fenced = (decide (k = n) || (d.hub k).fenced) := by
  rw [Dev.holdPart, Dev.hub_onGander, Dev.fence_fenced]

theorem Dev.holdPart_recoveries (v : Variant) (u : BitVec 16) (d : Dev) (n : Nat) :
    (d.holdPart v u n).gander.recoveries = d.gander.recoveries := by
  rw [Dev.holdPart, Dev.onGander_gander, Dev.fence_recoveries]

/-- A hang's event touches the event records and the count of those lost. -/
theorem Dev.hangEvent_frame (d : Dev) (u : BitVec 16) (level : Nat) :
    d.hangEvent u level = { d with events := (d.hangEvent u level).events, csr := (d.hangEvent u level).csr } := Dev.raise_frame ..

theorem Dev.hangEvent_gander (d : Dev) (u : BitVec 16) (level : Nat) : (d.hangEvent u level).gander = d.gander := by
  rw [Dev.hangEvent_frame]

theorem Dev.hangEvent_seq (d : Dev) (u : BitVec 16) (level : Nat) : (d.hangEvent u level).seq = d.seq := by rw [Dev.hangEvent_frame]

theorem Dev.hangEvent_dev (d : Dev) (u : BitVec 16) (level : Nat) : (d.hangEvent u level).dev = d.dev := by rw [Dev.hangEvent_frame]

theorem Dev.hangEvent_activeCore (d : Dev) (u : BitVec 16) (level : Nat) : (d.hangEvent u level).activeCore = d.activeCore := by
  rw [Dev.activeCore, Dev.hangEvent_seq]; rfl

/-- Holding partitions begins no recovery. -/
theorem Dev.hold_recoveries (v : Variant) (d : Dev) (m : BitVec 12) (u : BitVec 16) :
    (d.hold v m u).gander.recoveries = d.gander.recoveries :=
  calc (d.hold v m u).gander.recoveries
      = ((d.hangEvent u 4).noteSuspects u).gander.recoveries := by
        rw [Dev.hold_eq]
        exact foldl_keeps (fun d : Dev => d.gander.recoveries) _ (Dev.holdPart_recoveries v u) _ _
    _ = d.gander.recoveries := by rw [Dev.noteSuspects_recoveries, Dev.hangEvent_gander]

/-- Every present partition of the mask is fenced and held. -/
theorem Dev.hold_holds (v : Variant) (d : Dev) (u : BitVec 16) {m : BitVec 12} {n : Nat} (hn : n < v.sectors) (hm : m.getLsbD n = true) :
    ((d.hold v m u).hub n).fenced = true ∧ (d.hold v m u).gander.holds n = true := by
  have hmem : n ∈ partsOf (m &&& v.parts) := mem_partsOf (by simp [hm, Variant.parts_getLsbD v hn])
  rw [Dev.hold_eq]
  refine foldl_sets (P := fun d : Dev => (d.hub n).fenced = true ∧ d.gander.holds n = true) (fun d => ⟨?_, ?_⟩) (fun d k h => ⟨?_, ?_⟩) hmem _
  · simp [Dev.holdPart_fenced]
  · exact (Dev.holdPart_holds ..).2 (.inl rfl)
  · simp [Dev.holdPart_fenced, h.1]
  · exact (Dev.holdPart_holds ..).2 (.inr h.2)

/-! ## The first level of a hung unit (R437) -/

section
variable {d : Dev} {u : BitVec 16} (v : Variant)

theorem Dev.hang_local {l : LevelRef} (h : d.firstLevel u = .local_ l) :
    ∃ level, d.hang v u = if d.bit (At.gander 0x000) 4 then (d.hangEvent u level).localReset v l (d.hangCause u)
      else d.hold v (partBit ((unitPart u).getD 0)) u :=
  ⟨_, by simp only [Dev.hang, h]; rfl⟩

theorem Dev.hang_parts {m : BitVec 12} (h : d.firstLevel u = .parts m) :
    d.hang v u = if d.bit (At.gander 0x000) 4 then (d.hangEvent u 2).recover v m (d.hangCause u) u false else d.hold v m u := by
  simp only [Dev.hang, h]

theorem Dev.hang_warm (h : d.firstLevel u = .warm) :
    d.hang v u = if d.bit (At.gander 0x000) 4 then (d.hangEvent u 3).warmReset v (d.hangCause u) u false else d.hold v v.parts u := by
  simp only [Dev.hang, h]

theorem Dev.hang_core {k : Nat} (h : d.firstLevel u = .core k) : d.hang v u = (d.hangEvent u 0xFF).coreFault v k := by
  simp only [Dev.hang, h]

end

/-- Every level of a unit but a sequencer core's holds its partitions where AUTO_RECOVER is clear. -/
theorem Dev.hang_holds {d : Dev} {u : BitVec 16} (v : Variant) (hauto : d.bit (At.gander 0x000) 4 = false) {m : BitVec 12}
    (h : (∃ l, d.firstLevel u = .local_ l ∧ m = partBit ((unitPart u).getD 0)) ∨ d.firstLevel u = .parts m ∨
      (d.firstLevel u = .warm ∧ m = v.parts)) : d.hang v u = d.hold v m u := by
  have hclear : ¬ d.bit (At.gander 0x000) 4 = true := by simp [hauto]
  rcases h with ⟨l, hl, rfl⟩ | hm | ⟨hw, rfl⟩
  · obtain ⟨level, hhang⟩ := Dev.hang_local v hl
    rw [hhang, if_neg hclear]
  · rw [Dev.hang_parts v hm, if_neg hclear]
  · rw [Dev.hang_warm v hw, if_neg hclear]

/-! ## HANG (R436, R444) -/

/-- A unit whose treatment is under way: the device is in a warm reset, or its partition is cut off (R444). -/
def Dev.treated (d : Dev) (u : BitVec 16) : Prop := d.dev.inWarm = true ∨ ∃ n, unitPart u = some n ∧ d.cutOff n = true

/-- A unit that the last sample shows hung, or a tile whose slice has overrun (R436). -/
def Dev.foundHung (d : Dev) (u : BitVec 16) : Prop :=
  d.fld (At.gander 0x000) 0 4 + 1 ≤ (d.sampled u).2 ∨ ∃ t, d.firstLevel u = .local_ (.tile t) ∧ d.overrun t = true

/-- A unit's record of samples cleared. -/
def Dev.unsample (d : Dev) (u : BitVec 16) : Dev := d.onGander fun g => { g with samples := Tab.put (0, 0) g.samples u.toNat (0, 0) }

section
variable {u : BitVec 16} {s : State}

/-- Whether the command leaves the device as it is. -/
def Dev.hangIdle (d : Dev) (u : BitVec 16) : Bool :=
  (d.dev.inWarm || ((unitPart u).map (fun n => d.cutOff n)).getD false) || !(d.isHung u || match d.firstLevel u with
    | .local_ (.tile t) => d.overrun t
    | _ => false)

theorem Dev.hangIdle_iff {d : Dev} : d.hangIdle u = true ↔ d.treated u ∨ ¬ d.foundHung u := by
  have htreated : (d.dev.inWarm || ((unitPart u).map (fun n => d.cutOff n)).getD false) = true ↔ d.treated u := by
    cases hp : unitPart u <;> simp [Dev.treated, hp]
  have hlate : (match d.firstLevel u with
      | .local_ (.tile t) => d.overrun t
      | _ => false) = true ↔ ∃ t, d.firstLevel u = .local_ (.tile t) ∧ d.overrun t = true := by
    split
    next t ht => simp [ht]
    next hne => exact iff_of_false Bool.false_ne_true fun ⟨t, ht, _⟩ => hne t ht
  rw [Dev.hangIdle, Bool.or_eq_true, htreated, Bool.not_eq_true', ← Bool.not_eq_true, Bool.or_eq_true, hlate, Dev.isHung, decide_eq_true_eq]
  rfl

theorem exec_hang_same (h : s.dev.treated u ∨ ¬ s.dev.foundHung u) : exec (.hang u) s = .next s :=
  congrArg (fun d => Host.Outcome.next (s.withDev d)) (if_pos (Dev.hangIdle_iff.2 h))

theorem exec_hang_acts (ht : ¬ s.dev.treated u) (hh : s.dev.foundHung u) :
    exec (.hang u) s = .next (s.withDev ((s.dev.hang s.fuse.variant u).unsample u)) :=
  congrArg (fun d => Host.Outcome.next (s.withDev d)) (if_neg (mt Dev.hangIdle_iff.1 (not_or.2 ⟨ht, not_not.2 hh⟩)))

end

end Sys2Proof.Machine

namespace Sys2Proof.Proofs

open Sys2Proof.Machine Sys2Proof.Claims

/-- A recovery begun beside what a record of samples or an event shows. -/
theorem recoveryBegins_of_recover {o : Host.Outcome State Fault Refusal} {s : State} {m : BitVec 12} {cause : W8} {u : BitVec 16} {d x : Dev}
    (hd : d.gander.recoveries = s.dev.gander.recoveries) (ho : o = .next (s.withDev x))
    (hhub : x.hubs = (d.recover s.fuse.variant m cause u false).hubs)
    (hrec : x.gander.recoveries = (d.recover s.fuse.variant m cause u false).gander.recoveries) : recoveryBegins o s m cause u := by
  refine ⟨x, ho, fun n hn hm hfree => ?_⟩
  have hfree' : d.gander.recovery n = none := by rw [Gander.recovery, hd]; exact hfree
  have hbegins := Dev.recover_begins (v := s.fuse.variant) cause u false hn hm hfree'
  rwa [Dev.hub, Gander.recovery, ← hhub, ← hrec] at hbegins

theorem hungUnitsAreTreated : HungUnitsAreTreated := by
  intro u s d v cause treated hung
  refine ⟨exec_hang_same, fun ht hh hauto => ⟨fun l hl => ?reset, fun m hm => ?recovery, fun hw => ?warm⟩,
    fun ht hh hauto m hm => ?held, fun ht hh k hk => ⟨fun hstandby => ?standby, fun hactive hready hckpt => ?active⟩⟩
  case reset =>
    obtain ⟨level, hhang⟩ := Dev.hang_local v hl
    refine ⟨_, exec_hang_acts ht hh, ?_⟩
    rw [hhang, if_pos hauto]
    rfl
  case recovery =>
    refine recoveryBegins_of_recover (d := d.hangEvent u 2) (by rw [Dev.hangEvent_gander]) (exec_hang_acts ht hh) ?_ ?_ <;>
      rw [Dev.hang_parts v hm, if_pos hauto] <;> rfl
  case warm =>
    have hcold : (d.hangEvent u 3).dev.inWarm = false := by
      rw [Dev.hangEvent_dev]
      exact Bool.eq_false_iff.2 fun h => ht (.inl h)
    refine ⟨_, exec_hang_acts ht hh, ?_⟩
    rw [Dev.hang_warm v hw, if_pos hauto]
    exact Dev.warmReset_begins v cause u false hcold
  case held =>
    refine ⟨_, exec_hang_acts ht hh, ?_⟩
    rw [Dev.hang_holds v hauto hm]
    exact ⟨Dev.hold_recoveries v d m u, fun n hn hmn => Dev.hold_holds v d u hn hmn⟩
  case standby =>
    refine ⟨_, exec_hang_acts ht hh, ?_⟩
    have hother : k ≠ (d.hangEvent u 0xFF).activeCore := by rwa [Dev.hangEvent_activeCore]
    rw [Dev.hang_core v hk, Dev.coreFault, if_neg hother, ← d.hangEvent_seq u 0xFF]
    rfl
  case active =>
    obtain ⟨c, hc⟩ := Option.isSome_iff_exists.1 hckpt
    have hseq := d.hangEvent_seq u 0xFF
    obtain ⟨-, htakes⟩ := Dev.takeover_standby (d := d.hangEvent u 0xFF) v (hseq ▸ hready) (hseq ▸ hc)
    refine ⟨_, exec_hang_acts ht hh, ?_⟩
    rw [Dev.hang_core v hk, Dev.coreFault, if_pos (by rwa [Dev.hangEvent_activeCore]), ← hseq]
    exact ⟨congrArg Seq.active htakes, congrArg Seq.failedCore htakes⟩

section
variable {u : BitVec 16} {s : State}

/-- In a recovery's first two steps the error is part of the dump; afterwards it waits for the return (R444). -/
theorem exec_parityError_recovering {n k : Nat} {r : Recovery} (hu : unitPart u = some n) (hr : s.dev.gander.recovery n = some (k, r)) :
    exec (.controlStateParityError u) s = .next (s.withDev (if r.warm = true ∨ r.step = .fence ∨ r.step = .snapshot then s.dev
      else s.dev.onGander fun g => { g with later := g.later.filter (· != u) ++ [u] })) := by
  show execControlStateParityError u s = _
  simp only [execControlStateParityError, State.onDev_next, hu, hr]

theorem exec_parityError_part {n : Nat} (hu : unitPart u = some n) (hr : s.dev.gander.recovery n = none) :
    exec (.controlStateParityError u) s = .next (s.withDev (s.dev.recover s.fuse.variant (partBit n) 0x05 u false)) := by
  show execControlStateParityError u s = _
  simp only [execControlStateParityError, State.onDev_next, hu, hr]

/-- The error of a unit of no partition goes by its kind (R67, R449). -/
theorem exec_parityError_shared (hu : unitPart u = none) :
    exec (.controlStateParityError u) s = .next (s.withDev (
      if unitKind u = 0x14 then s.dev.coreFault s.fuse.variant (unitIndex u)
      else if unitKind u = 0x0F then s.dev.recover s.fuse.variant
        (partBit (3 * unitIndex u) ||| partBit (3 * unitIndex u + 1) ||| partBit (3 * unitIndex u + 2)) 0x05 u false
      else s.dev.warmReset s.fuse.variant 0x05 u false)) := by
  show execControlStateParityError u s = _
  simp only [execControlStateParityError, State.onDev_next, hu]

end

theorem parityErrorsAreTreated : ParityErrorsAreTreated := by
  intro u s d o
  refine ⟨fun n hu => ⟨fun hfree => ?begins, fun k r hr => ⟨fun hearly => ?dumped, fun hwarm hlate => ?later⟩⟩,
    fun hu => ⟨fun hk hi => ?active, fun hk hi => ?standby, fun hk => ?crossbar, fun hk hk' => ⟨fun hwarm => ?again, fun hcold => ?warm⟩⟩⟩
  case begins => exact recoveryBegins_of_recover rfl (exec_parityError_part hu hfree) rfl rfl
  case dumped => exact (exec_parityError_recovering hu hr).trans (by rw [if_pos hearly]; rfl)
  case later =>
    have hpast : ¬ (r.warm = true ∨ r.step = .fence ∨ r.step = .snapshot) := by rcases hlate with h | h <;> simp [hwarm, h]
    have hne : (fun x : BitVec 16 => decide (x ≠ u)) = fun x => x != u := by
      funext x
      by_cases hx : x = u <;> simp [hx]
    refine (exec_parityError_recovering hu hr).trans ?_
    rw [if_neg hpast, hne]
    rfl
  case active =>
    refine (exec_parityError_shared hu).trans ?_
    rw [if_pos hk, Dev.coreFault, if_pos hi]
    rfl
  case standby =>
    refine (exec_parityError_shared hu).trans ?_
    rw [if_pos hk, Dev.coreFault, if_neg hi]
    rfl
  case crossbar =>
    have hcore : unitKind u ≠ 0x14 := by rw [hk]; decide
    refine recoveryBegins_of_recover rfl ((exec_parityError_shared hu).trans ?_) rfl rfl
    rw [if_neg hcore, if_pos hk]
  case again =>
    refine (exec_parityError_shared hu).trans ?_
    rw [if_neg hk, if_neg hk', Dev.warmReset_again _ _ _ _ hwarm]
    rfl
  case warm =>
    refine ⟨_, (exec_parityError_shared hu).trans (by rw [if_neg hk, if_neg hk']), ?_⟩
    exact Dev.warmReset_begins _ _ _ _ hcold

/-- Settles O38: a hang acts where the unit is found hung and not treated already, and its first level decides what begins; what a fence
does makes each recovery and each hold cover its partitions. -/
theorem hungPartitionsAreFenced : Obligations.HungPartitionsAreFenced := ⟨hungUnitsAreTreated, parityErrorsAreTreated⟩

end Sys2Proof.Proofs
end

section
/-!
SUPPORT. Cold resets and the boot after one (R447, R481, R494, R495, R506 to R515): what the pins begin, and what restoring the settings
record leaves alone.
-/

namespace Sys2Proof.Machine

open Sys2Proof Sys2Proof.Claims

/-! ## What a restore leaves alone (R514, R520, R521) -/

/-- What the boot chain alone sets: READY and the reset, the pins, the custody die's state and the count of boots. -/
structure BootState where
  dev : DevSt
  pins : Pins
  sec : Sec
  bootId : W16

def Dev.bootState (d : Dev) : BootState := ⟨d.dev, d.pins, d.sec, d.retain.bootId⟩

section
variable {d : Dev} {y : BootState} (h : d.bootState = y)
include h

theorem Dev.dev_of_bootState : d.dev = y.dev := congrArg BootState.dev h
theorem Dev.pins_of_bootState : d.pins = y.pins := congrArg BootState.pins h
theorem Dev.sec_of_bootState : d.sec = y.sec := congrArg BootState.sec h
theorem Dev.bootId_of_bootState : d.retain.bootId = y.bootId := congrArg BootState.bootId h

end

@[simp] theorem Dev.setTile_bootState (d : Dev) (t : TileRef) (x : Tile) : (d.setTile t x).bootState = d.bootState := rfl
@[simp] theorem Dev.onTile_bootState (d : Dev) (t : TileRef) (f : Tile → Tile) : (d.onTile t f).bootState = d.bootState := rfl
@[simp] theorem Dev.onHub_bootState (d : Dev) (n : Nat) (f : Hub → Hub) : (d.onHub n f).bootState = d.bootState := rfl
@[simp] theorem Dev.onSector_bootState (d : Dev) (n : Nat) (f : Sector → Sector) : (d.onSector n f).bootState = d.bootState := rfl
@[simp] theorem Dev.onLinks_bootState (d : Dev) (f : Links → Links) : (d.onLinks f).bootState = d.bootState := rfl
@[simp] theorem Dev.onPort_bootState (d : Dev) (p : Nat) (f : Port → Port) : (d.onPort p f).bootState = d.bootState := rfl
@[simp] theorem Dev.onTick_bootState (d : Dev) (f : Tick → Tick) : (d.onTick f).bootState = d.bootState := rfl
@[simp] theorem Dev.onSeq_bootState (d : Dev) (f : Seq → Seq) : (d.onSeq f).bootState = d.bootState := rfl
@[simp] theorem Dev.onPower_bootState (d : Dev) (f : Power → Power) : (d.onPower f).bootState = d.bootState := rfl
@[simp] theorem Dev.setEntry_bootState (v : Variant) (d : Dev) (u : BitVec 16) (e : LedgerEntry) :
    (d.setEntry v u e).bootState = d.bootState := rfl

/-- A change of the settings record that keeps the count of boots. -/
theorem Dev.onRetain_bootState (d : Dev) {f : Retain → Retain} (h : (f d.retain).bootId = d.retain.bootId) :
    (d.onRetain f).bootState = d.bootState := congrArg (BootState.mk d.dev d.pins d.sec) h

@[simp] theorem Dev.setReg_bootState (d : Dev) (l : CsrLoc) (w : W32) : (d.setReg l w).bootState = d.bootState := by
  rw [Dev.setReg_frame]; rfl
@[simp] theorem Dev.setFld_bootState (d : Dev) (l : CsrLoc) (lo width w : Nat) : (d.setFld l lo width w).bootState = d.bootState :=
  Dev.setReg_bootState ..
@[simp] theorem Dev.count_bootState (d : Dev) (l : CsrLoc) (lo width n : Nat) : (d.count l lo width n).bootState = d.bootState :=
  Dev.setReg_bootState ..
@[simp] theorem Dev.raise_bootState (d : Dev) (c : Nat) (i : EventInfo) : (d.raise c i).bootState = d.bootState := by
  rw [Dev.raise_frame]; rfl

@[simp] theorem Dev.moveUnit_bootState (v : Variant) (d : Dev) (u : BitVec 16) (st : BitVec 4) :
    (d.moveUnit v u st).bootState = d.bootState := by
  unfold Dev.moveUnit; dsimp only; split_ifs <;> simp

@[simp] theorem Dev.engage_bootState (d : Dev) (u : BitVec 16) (kind a b : Nat) : (d.engage u kind a b).bootState = d.bootState := by
  rw [Dev.engage, Dev.raise_bootState]; exact d.onRetain_bootState rfl

/-- A fold whose every step leaves the boot's state alone does so as a whole. -/
theorem Dev.foldl_bootState {α : Type} {f : Dev → α → Dev} (h : ∀ d a, (f d a).bootState = d.bootState) (as : List α) (d : Dev) :
    (as.foldl f d).bootState = d.bootState := foldl_keeps Dev.bootState f h as d

/-! Repairs and tests of units. -/

@[simp] theorem Dev.forceUnit_bootState (v : Variant) (d : Dev) (u : BitVec 16) (st : BitVec 4) :
    (d.forceUnit v u st).bootState = d.bootState := rfl

@[simp] theorem Dev.putSpare_bootState (v : Variant) (d : Dev) (u spare : BitVec 16) : (d.putSpare v u spare).bootState = d.bootState := rfl

@[simp] theorem Dev.spareFor_bootState (v : Variant) (d : Dev) (u spare : BitVec 16) : (d.spareFor v u spare).bootState = d.bootState := by
  simp [Dev.spareFor]

/-- A unit and its spare as a pair. -/
theorem Dev.putSparePair_bootState (v : Variant) (d : Dev) (x : BitVec 16 × BitVec 16) : (d.putSpare v x.1 x.2).bootState = d.bootState :=
  Dev.putSpare_bootState ..

theorem Dev.spareForPair_bootState (v : Variant) (d : Dev) (x : BitVec 16 × BitVec 16) : (d.spareFor v x.1 x.2).bootState = d.bootState :=
  Dev.spareFor_bootState ..

@[simp] theorem Dev.mapChannel_bootState (v : Variant) (d : Dev) (n c p : Nat) : (d.mapChannel v n c p).bootState = d.bootState := by
  simp [Dev.mapChannel]

@[simp] theorem Dev.applyRepair_bootState (v : Variant) (d : Dev) (e : BitVec 16 × Nat × Nat × Nat) :
    (d.applyRepair v e).bootState = d.bootState := by
  unfold Dev.applyRepair
  extract_lets u i to_ e1 e2 h die lane e3 p e4
  have h2 : e2.bootState = e1.bootState := Dev.foldl_bootState (Dev.putSparePair_bootState v) _ e1
  have h1 : e1.bootState = d.bootState := Dev.putSpare_bootState ..
  have h3 : e3.bootState = d.bootState := (Dev.putSpare_bootState ..).trans (Dev.setFld_bootState ..)
  clear_value e1 e2 e3
  split
  · split <;> simp
  · split <;> simp
  · split <;> simp [h2, h1]
  · split <;> simp
  · simp
  · simp [h3]
  · simp
  · split
    · rfl
    · rfl
  · rfl

@[simp] theorem Dev.failTest_bootState (v : Variant) (bad : List (BitVec 16)) (d : Dev) (u : BitVec 16) :
    (d.failTest v bad u).bootState = d.bootState := by
  unfold Dev.failTest
  extract_lets i faulted n spare e1 e2 n' n''
  have hfaulted : (faulted d).bootState = d.bootState := by
    simp only [faulted]
    split_ifs <;> simp
  have h2 : e2.bootState = e1.bootState := Dev.foldl_bootState (Dev.spareForPair_bootState v) _ e1
  have h1 : e1.bootState = d.bootState := Dev.spareFor_bootState ..
  clear_value faulted e1 e2
  split
  · split
    · exact hfaulted
    · split
      · simp [h2, h1]
      · exact hfaulted
  · split
    · exact hfaulted
    · split
      · simp
      · extract_lets e3
        split <;> simp [e3]
  · split
    · split
      · simp
      · exact hfaulted
    · exact hfaulted
  · exact hfaulted

/-! The settings record. -/

@[simp] theorem Dev.restorePair_bootState (d : Dev) (e : Nat × W32) : (d.restorePair e).2.bootState = d.bootState := by
  unfold Dev.restorePair
  split
  · split <;> rfl
  · split
    · rfl
    · split
      · rfl
      · split
        · rfl
        · simp

@[simp] theorem Dev.takeIdentity_bootState (d : Dev) (p : Nat) : (d.takeIdentity p).bootState = d.bootState := rfl

@[simp] theorem Dev.applyConfig_bootState (v : Variant) (d : Dev) : (d.applyConfig v).bootState = d.bootState := by
  unfold Dev.applyConfig
  dsimp only
  rw [Dev.onLinks_bootState, Dev.takeIdentity_bootState, Dev.takeIdentity_bootState, Dev.onPower_bootState]
  refine Dev.foldl_bootState (fun d n => ?_) _ d
  rfl

@[simp] theorem Dev.restoreSettings_bootState (f : Fuses) (d : Dev) (b : BootReport) :
    (d.restoreSettings f b).bootState = d.bootState := by
  unfold Dev.restoreSettings
  extract_lets v r chosen newer first reps d1 d2 d3 d4
  have h1 : d1.bootState = d.bootState := Dev.foldl_bootState (fun d e => Dev.applyRepair_bootState v d e) _ d
  have h2 : d2.bootState = d.bootState := by
    refine (Dev.foldl_bootState (fun d e => ?_) _ _).trans ((d1.onRetain_bootState rfl).trans h1)
    rw [Dev.engage_bootState, Dev.applyRepair_bootState]
  have h3 : d3.bootState = d.bootState := (Dev.foldl_bootState (fun d u => Dev.failTest_bootState v b.failedUnits d u) _ d2).trans h2
  have h4 : d4.bootState = d.bootState := (d3.onRetain_bootState rfl).trans h3
  clear_value d1 d2 d3 d4 reps first chosen
  split
  next => exact (Dev.applyConfig_bootState v d4).trans h4
  next k =>
    extract_lets x p rs skipped d5 d6 d7 d8
    have hp : p.2.bootState = d4.bootState :=
      foldl_keeps (fun s : Nat × Dev => s.2.bootState) _ (fun s e => Dev.restorePair_bootState s.2 e) _ _
    have h5 : d5.bootState = p.2.bootState := by
      refine Dev.foldl_bootState (fun d e => ?_) _ _
      exact Dev.onHub_bootState ..
    have h6 : d6.bootState = d5.bootState := by
      refine Dev.foldl_bootState (fun d e => ?_) _ _
      exact Dev.onPort_bootState ..
    have h8 : d8.bootState = d6.bootState := rfl
    rw [Dev.applyConfig_bootState, Dev.onRetain_bootState _ rfl, h8, h6, h5, hp, h4]

@[simp] theorem Dev.characterised_bootState (d : Dev) (f : CharFit) : (d.characterised f).bootState = d.bootState := by
  simp only [Dev.characterised]
  exact (Dev.raise_bootState ..).trans rfl

@[simp] theorem Dev.startWrite_bootState (f : Fuses) (d : Dev) : (d.startWrite f).bootState = d.bootState := by
  unfold Dev.startWrite
  extract_lets r k x
  refine (Dev.onRetain_bootState _ ?_).trans rfl
  cases k <;> rfl

@[simp] theorem Dev.endWrite_bootState (d : Dev) : d.endWrite.bootState = d.bootState := by
  unfold Dev.endWrite
  split
  · rfl
  next k x _ =>
    rw [Dev.count_bootState]
    refine Dev.onRetain_bootState _ ?_
    cases k <;> rfl

@[simp] theorem Dev.firstWrite_bootState (f : Fuses) (d : Dev) (b : BootReport) : (d.firstWrite f b).bootState = d.bootState := by
  unfold Dev.firstWrite
  split
  · rfl
  · exact (Dev.onRetain_bootState _ rfl).trans (by simp)

@[simp] theorem Dev.settleLedger_bootState (d : Dev) : d.settleLedger.bootState = d.bootState := rfl

/-! ## The boot chain (R494, R495, R514, R515) -/

/-- READY, out of reset and with FAULT_N high, at the last step of R494. -/
def BootState.readied (y : BootState) : BootState :=
  { y with dev := { y.dev with ready := true, inReset := false }, pins := { y.pins with faultN := true }, sec := { y.sec with bootStep := 8 } }

/-- In recovery for a reason (R495). -/
def BootState.inRecovery (y : BootState) (reason : BitVec 3) : BootState :=
  { y with dev := { y.dev with inReset := false },
           sec := { y.sec with recovery := true, bootStep := 4, bootReason := reason.setWidth 4 } }

/-- The device at the end of its bring-up, its clocks on. -/
def Dev.readied (d : Dev) : Dev :=
  { d with dev := { d.dev with ready := true, inReset := false }, pins := { d.pins with faultN := true }, sec := { d.sec with bootStep := 8 },
           power := { d.power with clocksOn := true }, seq := { d.seq with reconf := true } }

theorem Dev.bringUp_eq (f : Fuses) (d : Dev) (b : BootReport) :
    ∃ i, d.bringUp f b = (((d.restoreSettings f b).firstWrite f b).settleLedger).readied.raise 0x1A i := ⟨_, rfl⟩

/-- Bring-up makes the device READY, and moves nothing else of what the boot chain sets. -/
theorem Dev.bringUp_sets (f : Fuses) (d : Dev) (b : BootReport) :
    (d.bringUp f b).bootState = d.bootState.readied ∧ (d.bringUp f b).power.clocksOn = true := by
  have hkept : ((d.restoreSettings f b).firstWrite f b).settleLedger.bootState = d.bootState := by simp
  obtain ⟨i, hi⟩ := d.bringUp_eq f b
  rw [hi]
  generalize ((d.restoreSettings f b).firstWrite f b).settleLedger = e at hkept
  constructor
  · rw [Dev.raise_bootState, ← hkept]
    rfl
  · rw [Dev.raise_frame]
    rfl

/-- Recovery takes the device out of reset, with FAULT_N as it was. -/
theorem Dev.bootRecovery_sets (f : Fuses) (d : Dev) (b : BootReport) (reason : BitVec 3) :
    (d.bootRecovery f b reason).bootState = d.bootState.inRecovery reason := by
  have hkept : (d.restoreSettings f b).settleLedger.bootState = d.bootState := by simp
  rw [← hkept]
  rfl

/-- The device as step 2 of R494 begins, TEST_MODE sampled. -/
def Dev.sampleTest (d : Dev) (b : BootReport) : Dev := let d := d.bootStart b; { d with pins := { d.pins with testMode := b.testMode } }

theorem Sec.bank_congr {x y : Sec} (ha : x.bankA = y.bankA) (hb : x.bankB = y.bankB) (k : Bool) : x.bank k = y.bank k := by
  rw [Sec.bank, Sec.bank, ha, hb]

theorem Dev.sampleTest_keeps (d : Dev) (b : BootReport) : (d.sampleTest b).dev.ready = d.dev.ready ∧
    (d.sampleTest b).pins.faultN = d.pins.faultN ∧ (∀ k, (d.sampleTest b).sec.bank k = d.sec.bank k) ∧
    (d.sampleTest b).sec.preferred = d.sec.preferred ∧ (d.sampleTest b).sec.recovery = d.sec.recovery ∧
    (d.sampleTest b).retain.bootId = d.retain.bootId + 1 := by
  refine ⟨?_, ?_, Sec.bank_congr ?_ ?_, ?_, ?_, ?_⟩ <;> simp only [Dev.sampleTest, Dev.bootStart, Dev.drawBytes_dev]

/-- The device once its boot has begun, with what step 2 of R494 erases gone (R483). -/
def Dev.bootBegun (f : Fuses) (d : Dev) (b : BootReport) : Dev :=
  let d := d.sampleTest b
  if (f.state = lcReturned ∨ f.state = lcScrapped) ∧ !d.sec.erased then d.erase else d

/-- The device as it runs an image, before the side path is tried (R494 steps 3 to 7). -/
def Dev.runImage (f : Fuses) (d : Dev) (run : Bool) (c : BitVec 3) : Dev :=
  d.onSec fun s => { s with running := run, svnRun := imgSvn (d.sec.bank run), fellBack := decide (c ≠ 1),
                            bootReason := if c = 1 then 0 else c.setWidth 4, ownerSlot := f.ownerOf (d.sec.bank run), bootStep := 7 }

theorem Dev.runImage_sec (f : Fuses) (d : Dev) (run : Bool) (c : BitVec 3) : (d.runImage f run c).sec.recovery = d.sec.recovery ∧
    (d.runImage f run c).sec.running = run := by
  simp only [Dev.runImage, Dev.onSec_sec, and_self]

/-- Out of reset without READY. -/
def Dev.stopBoot (d : Dev) : Dev := { d with dev := { d.dev with inReset := false } }

section
variable {f : Fuses} {d : Dev} {b : BootReport}

/-- What the start of a boot keeps of all that decides its end, and that it counts the boot. -/
theorem Dev.bootBegun_keeps : (d.bootBegun f b).dev.ready = d.dev.ready ∧ (d.bootBegun f b).pins.faultN = d.pins.faultN ∧
    (∀ k, (d.bootBegun f b).sec.bank k = d.sec.bank k) ∧ (d.bootBegun f b).sec.preferred = d.sec.preferred ∧
    (d.bootBegun f b).sec.recovery = d.sec.recovery ∧ (d.bootBegun f b).retain.bootId = d.retain.bootId + 1 := by
  have herase : ∀ x : Dev, x.erase.dev = x.dev ∧ x.erase.pins = x.pins ∧ x.erase.sec = { x.sec with erased := true } ∧
      x.erase.retain.bootId = x.retain.bootId := fun x => ⟨rfl, rfl, rfl, rfl⟩
  unfold Dev.bootBegun
  extract_lets y
  have hy : y.dev.ready = d.dev.ready ∧ y.pins.faultN = d.pins.faultN ∧ (∀ k, y.sec.bank k = d.sec.bank k) ∧
      y.sec.preferred = d.sec.preferred ∧ y.sec.recovery = d.sec.recovery ∧ y.retain.bootId = d.retain.bootId + 1 :=
    d.sampleTest_keeps b
  clear_value y
  split
  · obtain ⟨hdev, hpins, hsec, hid⟩ := herase y
    rw [hdev, hpins, hsec, hid]
    exact hy
  · exact hy

theorem Dev.boot_testMode (h : b.testMode = true ∧ f.state ≠ lcBlank) :
    d.boot f b = (d.bootStart b).onSec fun s => { s with bootReason := 8 } := if_pos h

theorem Dev.boot_scrapped (h : ¬ (b.testMode = true ∧ f.state ≠ lcBlank)) (hs : f.state = lcScrapped) :
    d.boot f b = (d.bootBegun f b).stopBoot := (if_neg h).trans (if_pos hs)

/-- The bank that a boot runs: the preferred one where it is acceptable, else the other. -/
def Dev.bootBank (f : Fuses) (d : Dev) : Bool :=
  if f.imageCheck (d.sec.bank d.sec.preferred) = 1 then d.sec.preferred else !d.sec.preferred

theorem Dev.boot_noImage (h : ¬ (b.testMode = true ∧ f.state ≠ lcBlank)) (hs : f.state ≠ lcScrapped)
    (hnone : ∀ k, f.imageCheck ((d.bootBegun f b).sec.bank k) ≠ 1) :
    ∃ reason, d.boot f b = (d.bootBegun f b).bootRecovery f b reason :=
  ⟨_, (if_neg h).trans ((if_neg hs).trans (if_pos ⟨hnone _, hnone _⟩))⟩

theorem Dev.boot_image (h : ¬ (b.testMode = true ∧ f.state ≠ lcBlank)) (hs : f.state ≠ lcScrapped) {k : Bool}
    (hk : f.imageCheck ((d.bootBegun f b).sec.bank k) = 1) :
    ∃ c, d.boot f b = if b.sidePathOk then ((d.bootBegun f b).runImage f ((d.bootBegun f b).bootBank f) c).bringUp f b
      else ((d.bootBegun f b).runImage f ((d.bootBegun f b).bootBank f) c).stopBoot := by
  have hany : ¬ (f.imageCheck ((d.bootBegun f b).sec.bank (d.bootBegun f b).sec.preferred) ≠ 1 ∧
      f.imageCheck ((d.bootBegun f b).sec.bank (!(d.bootBegun f b).sec.preferred)) ≠ 1) := by
    rintro ⟨hp, ho⟩
    rcases Bool.eq_or_eq_not k (d.bootBegun f b).sec.preferred with rfl | rfl
    · exact hp hk
    · exact ho hk
  exact ⟨_, (if_neg h).trans ((if_neg hs).trans (if_neg hany))⟩

end

/-! ## Cold resets (R447, R507 to R509) -/

theorem Dev.enterCold_leaves (v : Variant) (d : Dev) (ended : W8) : coldAfter v d (d.enterCold v ended) ended :=
  ⟨rfl, rfl, rfl, rfl, rfl, rfl, rfl, rfl, rfl, rfl, rfl, rfl, rfl, rfl, rfl, rfl, rfl, rfl, rfl, rfl, rfl, rfl⟩

end Sys2Proof.Machine

namespace Sys2Proof.Proofs

open Sys2Proof.Machine Sys2Proof.Claims

theorem pinsStartColdResets : PinsStartColdResets := by
  refine ⟨fun ns s => ⟨fun h => ?short, fun hns hp => ⟨fun h => ?putOff, fun h => ⟨_, ?lowers, Dev.enterCold_leaves .., rfl⟩⟩⟩,
    fun s => ⟨fun h => ?powerOff, fun h => ⟨_, ?falls, Dev.enterCold_leaves .., rfl⟩⟩,
    fun b s => ⟨fun h => ?noReset, fun h hp => ?waits⟩, fun s h => ?power⟩
  case short => exact congrArg (fun d => Host.Outcome.next (s.withDev d)) (if_pos (by simpa using h))
  case putOff =>
    exact congrArg (fun d => Host.Outcome.next (s.withDev d)) ((if_neg (by simp [hp, hns])).trans (if_pos h))
  case lowers =>
    exact congrArg (fun d => Host.Outcome.next (s.withDev d)) ((if_neg (by simp [hp, hns])).trans (if_neg (by simp [h])))
  case powerOff => exact congrArg (fun d => Host.Outcome.next (s.withDev d)) (if_pos h)
  case falls => exact congrArg (fun d => Host.Outcome.next (s.withDev d)) (if_neg (by simp [h]))
  case noReset => exact congrArg (fun d => Host.Outcome.next (s.withDev d)) (if_pos (by simp [h]))
  case waits =>
    exact congrArg (fun d => Host.Outcome.next (s.withDev d)) ((if_neg (by simp [h])).trans (if_neg (by simp [hp])))
  case power =>
    show execPwrOkAssert s = _
    simp only [execPwrOkAssert, State.onDev_next]
    split
    next => rfl
    next b hb =>
      rw [if_neg]
      rintro ⟨hr, hn⟩
      rcases h with h | h | h
      · exact nomatch hb.symm.trans h
      · exact nomatch hr.symm.trans h
      · exact nomatch hn.symm.trans h

/-- Where the boot of a device that was in reset ends (R481, R487, R494, R495, R514, R515). -/
def bootEnds (f : Fuses) (b : BootReport) (d u : Dev) : Prop :=
  let ok := fun (k : Bool) => decide (f.imageCheck (d.sec.bank k) = 1)
  let any := ok true || ok false
  u.retain.bootId = d.retain.bootId + 1 ∧
    (b.testMode = true → f.state ≠ lcBlank → u.dev.inReset = true ∧ u.dev.ready = false ∧ u.sec.bootReason = 8) ∧
    (b.testMode = false ∨ f.state = lcBlank → u.dev.inReset = false ∧
      (f.state = lcScrapped → u.dev.ready = false ∧ u.pins.faultN = false) ∧
      (f.state ≠ lcScrapped → any = true ∧ b.sidePathOk = false → u.dev.ready = false ∧ u.sec.bootStep = 7) ∧
      (f.state ≠ lcScrapped → any = false ∨ b.sidePathOk = true → u.dev.ready = any ∧ u.pins.faultN = any ∧ u.sec.recovery = !any ∧
        (any = true → u.power.clocksOn = true ∧ u.sec.bootStep = 8 ∧
          u.sec.running = (if ok d.sec.preferred then d.sec.preferred else !d.sec.preferred))))

section
variable {f : Fuses} {b : BootReport} {d : Dev} (hready : d.dev.ready = false) (hfault : d.pins.faultN = false)
  (hrec : d.sec.recovery = false) (hgoes : ¬ (b.testMode = true ∧ f.state ≠ lcBlank))
include hready

/-- With TEST_MODE high outside BLANK a boot does not start. -/
theorem boot_ends_testMode (htest : b.testMode = true ∧ f.state ≠ lcBlank) (hreset : d.dev.inReset = true) : bootEnds f b d (d.boot f b) := by
  have hno : ¬ (b.testMode = false ∨ f.state = lcBlank) := by simp [htest.1, htest.2]
  rw [Dev.boot_testMode htest]
  exact ⟨rfl, fun _ _ => ⟨hreset, hready, rfl⟩, fun h => absurd h hno⟩

include hfault hgoes

theorem boot_ends_scrapped (hs : f.state = lcScrapped) : bootEnds f b d (d.boot f b) := by
  obtain ⟨hready', hfault', -, -, -, hid⟩ := d.bootBegun_keeps (f := f) (b := b)
  rw [Dev.boot_scrapped hgoes hs]
  exact ⟨hid, fun ht hb => absurd ⟨ht, hb⟩ hgoes, fun _ => ⟨rfl, fun _ => ⟨hready'.trans hready, hfault'.trans hfault⟩,
    fun h => absurd hs h, fun h => absurd hs h⟩⟩

/-- Without an acceptable image a boot ends in recovery. -/
theorem boot_ends_recovery (hs : f.state ≠ lcScrapped) (hnone : ∀ k, f.imageCheck (d.sec.bank k) ≠ 1) :
    bootEnds f b d (d.boot f b) := by
  obtain ⟨hready', hfault', hbank, -, -, hid⟩ := d.bootBegun_keeps (f := f) (b := b)
  have hany : (decide (f.imageCheck (d.sec.bank true) = 1) || decide (f.imageCheck (d.sec.bank false) = 1)) = false := by
    rw [decide_eq_false (hnone true), decide_eq_false (hnone false), Bool.or_false]
  obtain ⟨reason, hboot⟩ := Dev.boot_noImage (d := d) (b := b) hgoes hs fun k => by rw [hbank]; exact hnone k
  have hset := (d.bootBegun f b).bootRecovery_sets f b reason
  rw [hboot]
  generalize (d.bootBegun f b).bootRecovery f b reason = u at hset ⊢
  have hdev := Dev.dev_of_bootState hset
  refine ⟨(Dev.bootId_of_bootState hset).trans hid, fun ht hb => absurd ⟨ht, hb⟩ hgoes, fun _ => ⟨by rw [hdev]; rfl, fun h => absurd h hs,
    fun _ h => absurd (hany.symm.trans h.1) Bool.false_ne_true, fun _ _ => ?_⟩⟩
  rw [hany, hdev, Dev.pins_of_bootState hset, Dev.sec_of_bootState hset]
  exact ⟨hready'.trans hready, hfault'.trans hfault, rfl, fun h => absurd h Bool.false_ne_true⟩

omit hfault
include hrec

/-- With an acceptable image a boot ends READY where the side path works. -/
theorem boot_ends_image (hs : f.state ≠ lcScrapped) {k : Bool} (hk : f.imageCheck (d.sec.bank k) = 1) : bootEnds f b d (d.boot f b) := by
  obtain ⟨hready', -, hbank, hpref, hrec', hid⟩ := d.bootBegun_keeps (f := f) (b := b)
  have hany : (decide (f.imageCheck (d.sec.bank true) = 1) || decide (f.imageCheck (d.sec.bank false) = 1)) = true := by
    cases k <;> simp [hk]
  have hgo : ∀ {p : Prop}, b.testMode = true → f.state ≠ lcBlank → p := fun ht hb => absurd ⟨ht, hb⟩ hgoes
  obtain ⟨c, hboot⟩ := Dev.boot_image hgoes hs (k := k) (by rw [hbank, hk])
  have hrun : (d.bootBegun f b).bootBank f =
      if decide (f.imageCheck (d.sec.bank d.sec.preferred) = 1) then d.sec.preferred else !d.sec.preferred := by
    simp only [Dev.bootBank, hpref, hbank, decide_eq_true_eq]
  generalize d.bootBegun f b = e at *
  obtain ⟨hkept, hruns⟩ := e.runImage_sec f (e.bootBank f) c
  by_cases hside : b.sidePathOk = true
  · rw [hboot, if_pos hside]
    obtain ⟨hset, hclocks⟩ := (e.runImage f (e.bootBank f) c).bringUp_sets f b
    generalize (e.runImage f (e.bootBank f) c).bringUp f b = u at hset hclocks ⊢
    have hdev := Dev.dev_of_bootState hset
    refine ⟨(Dev.bootId_of_bootState hset).trans hid, hgo, fun _ => ⟨by rw [hdev]; rfl, fun h => absurd h hs,
      fun _ h => absurd hside (by simp [h.2]), fun _ _ => ?_⟩⟩
    rw [hany, hdev, Dev.pins_of_bootState hset, Dev.sec_of_bootState hset]
    generalize e.runImage f (e.bootBank f) c = x at hkept hruns ⊢
    exact ⟨rfl, rfl, hkept.trans (hrec'.trans hrec), fun _ => ⟨hclocks, rfl, hruns.trans hrun⟩⟩
  · rw [hboot, if_neg hside]
    refine ⟨hid, hgo, fun _ => ⟨rfl, fun h => absurd h hs, fun _ _ => ⟨hready'.trans hready, rfl⟩, fun _ h => ?_⟩⟩
    rw [hany] at h
    exact absurd h (by simp [hside])

end

theorem boot_ends {f : Fuses} {b : BootReport} {d : Dev} (hreset : d.dev.inReset = true) (hready : d.dev.ready = false)
    (hfault : d.pins.faultN = false) (hrec : d.sec.recovery = false) : bootEnds f b d (d.boot f b) := by
  by_cases htest : b.testMode = true ∧ f.state ≠ lcBlank
  · exact boot_ends_testMode hready htest hreset
  by_cases hs : f.state = lcScrapped
  · exact boot_ends_scrapped hready hfault htest hs
  by_cases hany : ∃ k, f.imageCheck (d.sec.bank k) = 1
  · obtain ⟨k, hk⟩ := hany
    exact boot_ends_image hready hrec htest hs hk
  · exact boot_ends_recovery hready hfault htest hs fun k hk => hany ⟨k, hk⟩

theorem bootsToReadyOrRecovery : BootsToReadyOrRecovery := by
  intro b c s d ok any hc hreset hready hfault hrec
  rcases hc with ⟨rfl, hp⟩ | ⟨rfl, hb, hn⟩
  · have hexec : exec (.resetNRelease b) s = .next (s.withDev (({ d with pins := { d.pins with resetN := true } } : Dev).boot s.fuse b)) :=
      congrArg (fun d => Host.Outcome.next (s.withDev d)) ((if_neg (by simpa using hreset)).trans (if_pos hp))
    exact ⟨_, hexec, boot_ends (d := { d with pins := { d.pins with resetN := true } }) hreset hready hfault hrec⟩
  · have hexec : exec .pwrOkAssert s = .next (s.withDev (({ d with pins := { d.pins with pwrOk := true } } : Dev).boot s.fuse b)) := by
      show execPwrOkAssert s = _
      simp only [execPwrOkAssert, State.onDev_next]
      split
      next hnone => exact nomatch hb.symm.trans hnone
      next b' hb' =>
        obtain rfl : b = b' := Option.some.inj (hb.symm.trans hb')
        rw [if_pos ⟨hreset, hn⟩]
    exact ⟨_, hexec, boot_ends (d := { d with pins := { d.pins with pwrOk := true } }) hreset hready hfault hrec⟩

/-- Settles O44: a cold reset keeps what it is declared to keep; a restore of the settings leaves alone what the boot chain sets, so its
branches say where a boot ends. -/
theorem coldResetsAndBoots : Obligations.ColdResetsAndBoots := ⟨pinsStartColdResets, bootsToReadyOrRecovery⟩

end Sys2Proof.Proofs
end

section
/-!
SUPPORT. Characterisation, forecasts of the clock and ageing refits (R460, R467, R468, R470, R474 to R477): what the end of a
characterisation, a forecast below the floor and the repairs of a refit do to the power controller's state.
-/

namespace Sys2Proof.Machine

open Sys2Proof Sys2Proof.Claims

/-! ## Characterisation (R467, R468, R470) -/

theorem Dev.askChar_eq (d : Dev) :
    d.askChar = if d.power.charPhase = 0 then { d with power := { d.power with charArmed := true } } else d := by
  by_cases h : d.power.charPhase = 0
  · rw [if_pos h]; exact congrArg (fun p => { d with power := p }) (if_pos h)
  · rw [if_neg h]; exact congrArg (fun p => { d with power := p }) (if_neg h)

section
variable (p : Power) (f : CharFit)

theorem Power.takeFit_outcome :
    (p.takeFit f).charResult = (if goodFit f then 1 else 2) ∧ (p.takeFit f).sustain = f.sustain.toNat := by
  unfold Power.takeFit
  split <;> exact ⟨rfl, rfl⟩

theorem Power.takeFit_poles :
    ((p.takeFit f).thetaF, (p.takeFit f).tauF, (p.takeFit f).thetaS, (p.takeFit f).tauS) =
      if goodFit f then (f.thetaF, f.tauF, f.thetaS, f.tauS) else (0x3CA3D70A, 0x3CA3D70A, 0x3E19999A, 0x42700000) := by
  unfold Power.takeFit
  split <;> rfl

end

theorem Dev.characterised_power (d : Dev) (f : CharFit) : (d.characterised f).power = { d.power.takeFit f with charPhase := 0 } := by
  rw [Dev.characterised, Dev.raise_frame]; rfl

theorem Dev.characterised_seq (d : Dev) (f : CharFit) : (d.characterised f).seq = { d.seq with charHold := false } := by
  rw [Dev.characterised, Dev.raise_frame]; rfl

/-! ## Forecasts (R460, R64) -/

theorem Dev.power_of_sansMemory {d u : Dev} (h : u.sansMemory = d.sansMemory) : u.power = d.power := congrArg (fun x => x.1.power) h

theorem Dev.transmit_power (d : Dev) (p : Nat) (m : Packet) : (d.transmit p m).power = d.power :=
  congrArg (fun x => x.1.power) (d.transmit_sansTraffic p m)

theorem Dev.plannedCycles_power (v : Variant) (d : Dev) (n : Nat) : (d.plannedCycles v n).2.power = d.power :=
  foldl_keeps (fun r : Nat × Dev => r.2.power) _ (fun _ _ => Dev.power_of_sansMemory (Dev.virtLoad_sansMemory ..)) _ _

/-- A stretch request is noted at the root or sent towards it; neither touches the power controller or the floor's warning. -/
theorem Dev.requestStretch_keeps (d : Dev) (n : W64) (us : Nat) :
    (d.requestStretch n us).power = d.power ∧ (d.requestStretch n us).tick.floorWarn = d.tick.floorWarn := by
  unfold Dev.requestStretch
  split
  case isTrue => exact ⟨rfl, rfl⟩
  case isFalse =>
    split
    case isTrue => split <;> exact ⟨rfl, rfl⟩
    case isFalse =>
      split
      case h_1 => exact ⟨rfl, rfl⟩
      case h_2 => exact ⟨Dev.transmit_power .., congrArg Tick.floorWarn (Dev.tick_of_steady (Dev.transmit_steady ..))⟩

/-- The floor's warning of a forecast: FLOOR_WARN, FLOOR_WARNING and, where cycles are missing, the request for them (R460, R64). -/
def Dev.warnFloor (d : Dev) (i : EventInfo) (n : W64) (want : Nat) : Dev :=
  let w := (d.onTick fun t => { t with floorWarn := true }).raise 0x04 i
  if want = 0 then w else w.requestStretch n want

theorem Dev.warnFloor_sets (d : Dev) (i : EventInfo) (n : W64) (want : Nat) :
    (d.warnFloor i n want).tick.floorWarn = true ∧ (d.warnFloor i n want).power = d.power := by
  unfold Dev.warnFloor
  extract_lets w
  have hw : w.tick.floorWarn = true ∧ w.power = d.power := by
    rw [show w = _ from Dev.raise_frame ..]
    exact ⟨rfl, rfl⟩
  obtain ⟨hwarn, hpower⟩ := hw
  split
  case isTrue => exact ⟨hwarn, hpower⟩
  case isFalse =>
    obtain ⟨hp, hf⟩ := w.requestStretch_keeps n want
    exact ⟨hf.trans hwarn, hp.trans hpower⟩

/-- The clock that a forecast of the tick to come foresees (R459, R460). -/
def State.forecast (s : State) (tel : Telemetry) : Nat :=
  (s.dev.power.choose s.fuse.variant tel (s.dev.periodOf (s.dev.tick.number.toNat + 1)) s.dev.power.timingTop
    (s.dev.stillTripped s.fuse.variant tel)).1

section
variable {s : State} {tel : Telemetry}

theorem exec_clockForecast_same (h : s.dev.tick.begun = false ∨ s.dev.power.floorMhz ≤ s.forecast tel) :
    exec (.clockForecast tel) s = .next s :=
  congrArg (fun d => Host.Outcome.next (s.withDev d)) (if_pos (by simpa [State.forecast] using h))

theorem exec_clockForecast_warns (hb : s.dev.tick.begun = true) (hf : s.forecast tel < s.dev.power.floorMhz) :
    ∃ i n want, exec (.clockForecast tel) s =
      .next (s.withDev ((s.dev.plannedCycles s.fuse.variant (s.dev.tick.number.toNat + 1)).2.warnFloor i n want)) := by
  have hacts : ¬ (!s.dev.tick.begun || decide (s.dev.power.floorMhz ≤ s.forecast tel)) = true := by simpa [hb] using hf
  exact ⟨_, _, _, congrArg (fun d => Host.Outcome.next (s.withDev d)) (if_neg hacts)⟩

end

/-! ## Ageing refits (R474 to R477) -/

theorem Dev.markForSpare_power (d : Dev) (t : TileRef) : (d.markForSpare t).power = d.power := by
  rw [Dev.markForSpare, Dev.setFld, Dev.setReg_frame]

theorem le_of_mem_clockSteps {f : Nat} (h : f ∈ clockSteps) : 950 ≤ f := (by decide : ∀ f ∈ clockSteps, 950 ≤ f) f h

/-- A ceiling lowered in steps of 50 MHz, to 950 MHz where no step suffices (R475). -/
theorem loweredCeiling_mem {top : Nat} (h : 950 ≤ top) (enough : Nat → Bool) :
    ((clockSteps.filter (· < top)).find? enough).getD 950 ∈ Set.Icc 950 top := by
  cases hf : (clockSteps.filter (· < top)).find? enough with
  | none => exact ⟨le_refl 950, h⟩
  | some f =>
    obtain ⟨hstep, hlt⟩ := List.mem_filter.1 (List.mem_of_find?_eq_some hf)
    exact ⟨le_of_mem_clockSteps hstep, (of_decide_eq_true hlt).le⟩

/-- None of the three actions of R475 raises the ceiling, nor does any lower it below 950 MHz. -/
theorem Dev.mendSector_ceiling {d : Dev} (h : 950 ≤ d.power.fAge) (v : Variant) (n : Nat) (fit : AgeFit) :
    (d.mendSector v n fit).power.fAge ∈ Set.Icc 950 d.power.fAge := by
  have kept : d.power.fAge ∈ Set.Icc 950 d.power.fAge := ⟨h, le_refl _⟩
  unfold Dev.mendSector
  dsimp only
  split
  case isTrue notShort => exact kept
  case isFalse short =>
    split
    case h_1 raisedGuard => exact kept
    case h_2 noGuard =>
      split
      case h_1 worst =>
        split
        case isTrue spare => rw [Dev.markForSpare_power]; exact kept
        case isFalse noSpare => exact loweredCeiling_mem h _
      case h_2 spread => exact loweredCeiling_mem h _

theorem Dev.mendSectors_ceiling {d : Dev} (h : 950 ≤ d.power.fAge) (v : Variant) (es : List (AgeFit × Nat)) :
    (es.foldl (fun (d : Dev) e => d.mendSector v e.2 e.1) d).power.fAge ∈ Set.Icc 950 d.power.fAge := by
  refine List.foldlRecOn es _ (motive := fun u : Dev => u.power.fAge ∈ Set.Icc 950 d.power.fAge) ⟨h, le_refl _⟩ fun u hu e _ => ?_
  obtain ⟨hlow, hhigh⟩ := hu
  exact Set.Icc_subset_Icc_right hhigh (Dev.mendSector_ceiling hlow v e.2 e.1)

theorem Dev.sramModel_ceiling (v : Variant) (d : Dev) (fits : List AgeFit) : (d.sramModel v fits).power.fAge = d.power.fAge := by
  unfold Dev.sramModel
  dsimp only
  split
  case h_1 => rfl
  case h_2 =>
    split
    case isTrue => rw [Dev.markForSpare_power]; rfl
    case isFalse => rfl

/-- A lane is marked for its port's next retrain (R477, R428). -/
def Dev.flagLane (d : Dev) (e : Fin 17 × Fin 8) : Dev := d.onPort e.1.val fun p => { p with due := p.due ||| BitVec.twoPow 8 e.2.val }

def Dev.laneDue (d : Dev) (e : Fin 17 × Fin 8) : Prop := (d.port e.1.val).due.getLsbD e.2.val = true

theorem Dev.laneDue_flagLane (d : Dev) (e : Fin 17 × Fin 8) : (d.flagLane e).laneDue e := by
  simp [Dev.laneDue, Dev.flagLane]

theorem Dev.laneDue.flagLane {d : Dev} {e : Fin 17 × Fin 8} (h : d.laneDue e) (e' : Fin 17 × Fin 8) : (d.flagLane e').laneDue e := by
  unfold Dev.laneDue Dev.flagLane at *
  by_cases hp : e.1.val = e'.1.val
  · rw [hp, Dev.port_onPort, BitVec.getLsbD_or, ← hp, h, Bool.true_or]
  · rwa [Dev.port_onPort_ne _ _ hp]

theorem Dev.laneDue_flagLanes {lanes : List (Fin 17 × Fin 8)} {e : Fin 17 × Fin 8} (h : e ∈ lanes) (d : Dev) :
    (lanes.foldl Dev.flagLane d).laneDue e :=
  foldl_sets (P := fun d : Dev => d.laneDue e) (fun d => d.laneDue_flagLane e) (fun _ e' hd => hd.flagLane e') h d

section
variable {s : State} (fits : List AgeFit) (lanes : List (Fin 17 × Fin 8))

theorem exec_ageingRefit_same (h : s.dev.power.maintCount % 1024 ≠ 0) : exec (.ageingRefit fits lanes) s = .next s :=
  congrArg (fun d => Host.Outcome.next (s.withDev d)) (if_pos h)

/-- A refit that acts repairs the sectors, shows their margins, runs the SRAM model, marks the lanes and lets the record be written. -/
theorem exec_ageingRefit_acts (h : s.dev.power.maintCount % 1024 = 0) :
    ∃ (es : List (AgeFit × Nat)) (margins : Power → Vector W32 12), exec (.ageingRefit fits lanes) s = .next (s.withDev
      ((lanes.foldl Dev.flagLane (((es.foldl (fun (d : Dev) e => d.mendSector s.fuse.variant e.2 e.1) s.dev).onPower fun p =>
        { p with margins := margins p }).sramModel s.fuse.variant fits)).onRetain fun r => { r with changed := true })) :=
  ⟨_, _, congrArg (fun d => Host.Outcome.next (s.withDev d)) (if_neg (not_not.2 h))⟩

end

end Sys2Proof.Machine

namespace Sys2Proof.Proofs

open Sys2Proof.Machine Sys2Proof.Claims

theorem characterisationRuns : CharacterisationRuns := by
  refine ⟨fun s => ?starts, fun f s => ⟨fun h => ?idle, fun h => ?heats, fun h => ?none, fun h => ?fits⟩⟩
  case starts =>
    show Host.Outcome.next (s.withDev s.dev.askChar) = _
    rw [Dev.askChar_eq]
    split <;> rfl
  case idle =>
    show execCharPhaseEnd f s = _
    simp only [execCharPhaseEnd, State.onDev_next, h]
    rfl
  case heats =>
    show execCharPhaseEnd f s = _
    rcases h with h | h <;> simp only [execCharPhaseEnd, State.onDev_next, h] <;> rfl
  case none =>
    show execCharPhaseEnd f s = _
    simp only [execCharPhaseEnd, State.onDev_next, h]
    rfl
  case fits =>
    obtain ⟨k, hk⟩ := Nat.exists_eq_add_of_le' h
    have hexec : exec (.charPhaseEnd f) s = .next (s.withDev (s.dev.characterised f)) := by
      show execCharPhaseEnd f s = _
      simp only [execCharPhaseEnd, State.onDev_next, hk]
    obtain ⟨hresult, hsustain⟩ := s.dev.power.takeFit_outcome f
    refine ⟨_, hexec, ?_⟩
    rw [Dev.characterised_power, Dev.characterised_seq]
    exact ⟨rfl, rfl, hresult, hsustain, s.dev.power.takeFit_poles f⟩

theorem forecastsAndRefits : ForecastsAndRefits := by
  refine ⟨fun tel s => ⟨exec_clockForecast_same, fun hb hf => ?warns⟩,
    fun fits lanes s => ⟨exec_ageingRefit_same fits lanes, fun h hlow => ?refits⟩⟩
  case warns =>
    obtain ⟨i, n, want, hexec⟩ := exec_clockForecast_warns hb hf
    obtain ⟨hwarn, hpower⟩ := Dev.warnFloor_sets _ i n want
    exact ⟨_, hexec, hwarn, hpower.trans (Dev.plannedCycles_power ..)⟩
  case refits =>
    obtain ⟨es, margins, hexec⟩ := exec_ageingRefit_acts fits lanes h
    refine ⟨_, hexec, rfl, fun e he => Dev.laneDue_flagLanes he _, ?ceiling⟩
    have hlanes := foldl_keeps (fun d : Dev => d.power) Dev.flagLane (fun _ _ => rfl) lanes
    rw [Dev.onRetain_power, hlanes, Dev.sramModel_ceiling]
    exact (Dev.mendSectors_ceiling hlow s.fuse.variant es).2

/-- Settles O43: a step of a characterisation ends by the phase it ends, a forecast warns only below the floor, and no action of a refit
raises the ceiling or unmarks a lane. -/
theorem characterisationAndRefits : Obligations.CharacterisationAndRefits := ⟨characterisationRuns, forecastsAndRefits⟩

end Sys2Proof.Proofs
end

section
/-!
SUPPORT. Commands and what lies around the device (R481, R484, R496): every command but the completion of a security command changes the
device alone, and a completion only ever blows fuses.
-/

namespace Sys2Proof.Machine

open Sys2Proof

/-! ## What a command changes -/

/-- But for the completion of a security command, which also blows fuses, a command changes the device alone. -/
theorem exec_changes_device {c : Instr} (hc : c ≠ .securityCommandDone) (s : State) : ∃ u : Dev, exec c s = .next (s.withDev u) := by
  cases c
  case securityCommandDone => exact absurd rfl hc
  all_goals exact ⟨_, rfl⟩

/-- The fuses and the device once a security command in progress has completed. -/
def SecCmd.complete (c : SecCmd) (a : Option Asker) (f : Fuses) (d : Dev) : Fuses × Dev :=
  match c with
  | .token t => completeToken t a f d
  | .firmware b v a k => completeFirmware b v a k f d
  | .toVendor u h => completeVendor u h f d

section
variable {s : State}

theorem exec_securityCommandDone_idle (h : s.dev.sec.busy = none) : exec .securityCommandDone s = .next s := by
  show execSecurityCommandDone s = _
  rw [execSecurityCommandDone, State.onAll_next, h]

theorem exec_securityCommandDone_busy {c : SecCmd} {a : Option Asker} (h : s.dev.sec.busy = some (c, a)) :
    exec .securityCommandDone s =
      let r := c.complete a s.fuse (s.dev.onSec fun x => { x with busy := none })
      .next { s with fuse := r.1, dev := r.2 } := by
  show execSecurityCommandDone s = _
  rw [execSecurityCommandDone, State.onAll_next, h]
  cases c <;> rfl

end

/-- Every command answers a next state with the queue as it was. -/
theorem exec_keeps_pending (c : Instr) (s : State) : ∃ u : State, exec c s = .next u ∧ u.pending = s.pending := by
  by_cases hc : c = .securityCommandDone
  · subst hc; exact ⟨_, rfl, rfl⟩
  · obtain ⟨u, hu⟩ := exec_changes_device hc s
    exact ⟨_, hu, rfl⟩

/-! ## Fuses are only ever blown (R481, R485, R496) -/

/-- The five patterns of the life-cycle fuses (R481), each of which adds bits to the one before it. -/
def lcPatterns : List (BitVec 4) := [lcBlank, lcVendor, lcOwned, lcReturned, lcScrapped]

theorem Fuses.lifeCycleLegal_iff (f : Fuses) : f.lifeCycleLegal ↔ f.lc ∈ lcPatterns := by simp [lifeCycleLegal, lcPatterns]

theorem lcPatterns_or : ∀ a ∈ lcPatterns, ∀ b ∈ lcPatterns, a ||| b ∈ lcPatterns := by decide

/-- A key slot later in its life: a hash once fused stays fused, and a revocation stays. -/
def KeySlot.laterThan (new old : KeySlot) : Prop :=
  (old.revoked = true → new.revoked = true) ∧ (old.hash.isSome = true → new.hash.isSome = true)

theorem KeySlot.laterThan_self (k : KeySlot) : k.laterThan k := ⟨id, id⟩

theorem KeySlot.laterThan_of_fused (k : KeySlot) (h : BitVec 512) : KeySlot.laterThan { k with hash := some h } k := ⟨id, fun _ => rfl⟩

/-- Fuses later in their life: the bits of one of the five patterns have been added to those of the life cycle, and nothing else has been
taken back. -/
structure Fuses.LaterThan (g f : Fuses) : Prop where
  lc : ∃ to_ ∈ lcPatterns, g.lc = f.lc ||| to_
  counter : f.counter ≤ g.counter
  ownerSigReq : f.ownerSigReq = true → g.ownerSigReq = true
  variant : g.variant = f.variant
  stepping : g.stepping = f.stepping
  vendor : ∀ i : Fin 4, g.vendor[i].laterThan f.vendor[i]
  owner : ∀ i : Fin 4, g.owner[i].laterThan f.owner[i]

theorem Fuses.lc_advance (f : Fuses) (to_ : BitVec 4) : (f.advance to_).lc = f.lc ||| to_ := by
  simp only [Fuses.lc, Fuses.advance]
  rw [BitVec.or_assoc, ← BitVec.or_assoc to_, BitVec.or_comm to_ f.lcTwins, BitVec.or_assoc f.lcTwins, BitVec.or_self, BitVec.or_assoc]

namespace Fuses.LaterThan

protected theorem refl (f : Fuses) : LaterThan f f where
  lc := ⟨lcBlank, by decide, BitVec.or_zero.symm⟩
  counter := le_rfl
  ownerSigReq := id
  variant := rfl
  stepping := rfl
  vendor i := f.vendor[i].laterThan_self
  owner i := f.owner[i].laterThan_self

protected theorem advance (f : Fuses) {to_ : BitVec 4} (h : to_ ∈ lcPatterns) : LaterThan (f.advance to_) f :=
  { LaterThan.refl f with lc := ⟨to_, h, f.lc_advance to_⟩ }

theorem lc_kept {f g : Fuses} (h : LaterThan g f) : f.lc &&& g.lc = f.lc := by
  obtain ⟨to_, -, hlc⟩ := h.lc
  rw [hlc]
  ext i
  simpa using fun hi => .inl hi

/-- The life cycle stays within its five patterns. -/
theorem lifeCycleLegal {f g : Fuses} (h : LaterThan g f) (hf : f.lifeCycleLegal) : g.lifeCycleLegal := by
  obtain ⟨to_, hto, hlc⟩ := h.lc
  rw [Fuses.lifeCycleLegal_iff] at hf ⊢
  exact hlc ▸ lcPatterns_or _ hf _ hto

end Fuses.LaterThan

/-- The owner slots after an OWNER_KEY token: its hash in the slot it names, and the revocations it asks for. -/
theorem ownerAfter_get (f : Fuses) (t : Token) (i : Fin 4) :
    (ownerAfter f t)[i].revoked = (f.owner[i].revoked || t.revoke.getLsbD i.val) ∧
      (ownerAfter f t)[i].hash = if t.newSlot.toNat = i.val then some t.keyHash else f.owner[i].hash := by
  simp only [ownerAfter, Fin.getElem_fin, Vector.getElem_ofFn]
  constructor <;> split_ifs <;> simp_all

theorem ownerAfter_laterThan (f : Fuses) (t : Token) (i : Fin 4) : (ownerAfter f t)[i].laterThan f.owner[i] := by
  obtain ⟨hrevoked, hhash⟩ := ownerAfter_get f t i
  refine ⟨fun h => by rw [hrevoked, h, Bool.true_or], fun h => ?_⟩
  rw [hhash]
  split
  · rfl
  · exact h

/-! ## What the completion of a command does to the fuses (R482, R489, R490, R496, R497) -/

section
variable (f : Fuses) (d : Dev)

theorem tokenEffect_laterThan (t : Token) : (tokenEffect t f d).1.LaterThan f := by
  unfold tokenEffect
  split
  case h_3 ownership =>
    refine { Fuses.LaterThan.advance f (to_ := lcOwned) (by decide) with owner := fun i => ?_ }
    show (f.owner.set 0 { f.owner[0] with hash := some t.keyHash })[i.val].laterThan f.owner[i.val]
    rw [Vector.getElem_set]
    split
    case isTrue h => simp only [← h]; exact KeySlot.laterThan_of_fused ..
    case isFalse h => exact KeySlot.laterThan_self _
  case h_4 ownerKey =>
    exact { Fuses.LaterThan.refl f with ownerSigReq := fun h => by simp [h], owner := ownerAfter_laterThan f t }
  case h_6 returnVendor => exact .advance f (by decide)
  case h_7 scrap => exact .advance f (by decide)
  all_goals exact .refl f

theorem completeToken_fuses (t : Token) (a : Option Asker) :
    (completeToken t a f d).1 = f ∨ ∃ d' : Dev, (completeToken t a f d).1 = (tokenEffect t f d').1 := by
  unfold completeToken
  dsimp only
  split
  · exact .inr ⟨_, rfl⟩
  · exact .inl rfl

theorem completeFirmware_fuses (bank verify activate commit : Bool) :
    (completeFirmware bank verify activate commit f d).1 = f ∨
      ∃ svn, (completeFirmware bank verify activate commit f d).1 = { f with counter := max f.counter svn } := by
  cases commit
  · exact .inl rfl
  · exact .inr ⟨_, rfl⟩

theorem completeVendor_laterThan (uid : BitVec 128) (hashes : List (BitVec 512)) : (completeVendor uid hashes f d).1.LaterThan f := by
  refine { Fuses.LaterThan.advance f (to_ := lcVendor) (by decide) with vendor := fun i => ?_ }
  simp only [completeVendor, Fin.getElem_fin, Vector.getElem_ofFn]
  split
  · exact KeySlot.laterThan_of_fused ..
  · exact KeySlot.laterThan_self _

theorem SecCmd.complete_laterThan (c : SecCmd) (a : Option Asker) : (c.complete a f d).1.LaterThan f := by
  cases c with
  | token t =>
    obtain h | ⟨d', h⟩ := completeToken_fuses f d t a
    · rw [SecCmd.complete, h]; exact .refl f
    · rw [SecCmd.complete, h]; exact tokenEffect_laterThan f d' t
  | firmware b v a' k =>
    obtain h | ⟨svn, h⟩ := completeFirmware_fuses f d b v a' k
    · rw [SecCmd.complete, h]; exact .refl f
    · rw [SecCmd.complete, h]; exact { Fuses.LaterThan.refl f with counter := le_max_left .. }
  | toVendor uid hashes => exact completeVendor_laterThan f d uid hashes

end

/-! ## A step and the fuses -/

/-- A step leaves the fuses, or completes a security command that is in progress and takes them further in their life. -/
theorem step_fuses {s u : State} (h : step s = .next u) :
    u.fuse = s.fuse ∨
      ((∃ rest, s.pending = .securityCommandDone :: rest) ∧ s.dev.sec.busy.isSome = true) ∧ u.fuse.LaterThan s.fuse := by
  cases hp : s.pending with
  | nil =>
    rw [step_idle s hp] at h
    cases h
    exact .inl rfl
  | cons c rest =>
    rw [step_front s c rest hp] at h
    by_cases hc : c = .securityCommandDone
    · subst hc
      cases hb : s.dev.sec.busy with
      | none =>
        rw [exec_securityCommandDone_idle (s := { s with pending := rest }) hb] at h
        cases h
        exact .inl rfl
      | some x =>
        rw [exec_securityCommandDone_busy (s := { s with pending := rest }) hb] at h
        cases h
        exact .inr ⟨⟨⟨rest, rfl⟩, rfl⟩, x.1.complete_laterThan s.fuse _ x.2⟩
    · obtain ⟨d, hd⟩ := exec_changes_device hc { s with pending := rest }
      rw [hd] at h
      cases h
      exact .inl rfl

theorem step_fuses_laterThan {s u : State} (h : step s = .next u) : u.fuse.LaterThan s.fuse := by
  obtain hsame | ⟨-, hlater⟩ := step_fuses h
  · exact hsame ▸ .refl _
  · exact hlater

end Sys2Proof.Machine

namespace Sys2Proof.Proofs

open Sys2Proof.Machine

/-- Settles O1: the two branches of a step. -/
theorem stepTakesFrontOrIdles : Obligations.StepTakesFrontOrIdles := ⟨fun c rest s => step_front s c rest, step_idle⟩

/-- Settles O2: every command changes at most the device and the fuses. -/
theorem commandsKeepQueue : Obligations.CommandsKeepQueue := exec_keeps_pending

/-- Settles O3: only a completion reaches the fuses, and each of its effects adds to them. -/
theorem fusesAreOneWay : Obligations.FusesAreOneWay := by
  intro s u h
  have hlater := step_fuses_laterThan h
  refine ⟨fun hne => ((step_fuses h).resolve_left hne).1, hlater.lc_kept, hlater.counter, hlater.ownerSigReq, hlater.variant,
    hlater.stepping, fun i => ?_⟩
  obtain ⟨hvendorRevoked, hvendorHash⟩ := hlater.vendor i
  obtain ⟨hownerRevoked, hownerHash⟩ := hlater.owner i
  exact ⟨hvendorRevoked, hownerRevoked, hvendorHash, hownerHash⟩

/-- Settles O4: a step adds the bits of a legal pattern to a legal pattern, and the five patterns are closed under that. -/
theorem lifeCycleStaysLegal : Obligations.LifeCycleStaysLegal := fun _ _ hf h => (step_fuses_laterThan h).lifeCycleLegal hf

end Sys2Proof.Proofs
end

section
/-!
SUPPORT. The I3C sideband (R512, R533, R534) and the TAP (R486): when the target takes an address and serves its map, and what the device
is after each instruction of the TAP.
-/

namespace Sys2Proof.Machine

open Sys2Proof

section
variable {s : State}

/-! ## The sideband -/

theorem Dev.sideband_iff (d : Dev) : d.sideband = true ↔ 2 ≤ d.sec.bootStep.toNat := decide_eq_true_iff

/-- The target can take a dynamic address. -/
def Dev.i3cFree (d : Dev) : Prop := 2 ≤ d.sec.bootStep.toNat ∧ d.pins.i3cAddr = none

/-- The target has a dynamic address and answers under it. -/
def Dev.i3cAddressed (d : Dev) : Prop := 2 ≤ d.sec.bootStep.toNat ∧ d.pins.i3cAddr.isSome = true

theorem Dev.i3cFree_iff (d : Dev) : (d.sideband && d.pins.i3cAddr.isNone) = true ↔ d.i3cFree := by
  rw [Bool.and_eq_true, Dev.sideband_iff, Option.isNone_iff_eq_none, Dev.i3cFree]

theorem Dev.i3cAddressed_iff (d : Dev) : (d.sideband && d.pins.i3cAddr.isSome) = true ↔ d.i3cAddressed := by
  rw [Bool.and_eq_true, Dev.sideband_iff, Dev.i3cAddressed]

theorem Dev.takeAddress_free {d : Dev} (h : d.i3cFree) (a : BitVec 7) :
    d.takeAddress a = { d with pins := { d.pins with i3cAddr := some a } } := if_pos (d.i3cFree_iff.2 h)

theorem Dev.takeAddress_same {d : Dev} (h : ¬ d.i3cFree) (a : BitVec 7) : d.takeAddress a = d := if_neg (mt d.i3cFree_iff.1 h)

theorem exec_setdasa (a : BitVec 7) : exec (.setdasa a) s = .next (s.withDev (s.dev.takeAddress a)) := rfl

theorem exec_entdaa_free (h : s.dev.i3cFree) (a : BitVec 7) : exec (.entdaa a) s =
    .next (s.withDev ((s.dev.takeAddress a).send (.i3c ((toLE 16 s.fuse.uid.toNat).take 6)))) :=
  congrArg (fun d => Host.Outcome.next (s.withDev d)) (if_pos (s.dev.i3cFree_iff.2 h))

theorem exec_entdaa_same (h : ¬ s.dev.i3cFree) (a : BitVec 7) : exec (.entdaa a) s = .next s :=
  congrArg (fun d => Host.Outcome.next (s.withDev d)) (if_neg (mt s.dev.i3cFree_iff.1 h))

theorem exec_i3cPrivateWrite_addressed (h : s.dev.i3cAddressed) (p : W8) :
    exec (.i3cPrivateWrite p) s = .next (s.withDev { s.dev with pins := { s.dev.pins with i3cPtr := p } }) :=
  congrArg (fun d => Host.Outcome.next (s.withDev d)) (if_pos (s.dev.i3cAddressed_iff.2 h))

theorem exec_i3cPrivateWrite_same (h : ¬ s.dev.i3cAddressed) (p : W8) : exec (.i3cPrivateWrite p) s = .next s :=
  congrArg (fun d => Host.Outcome.next (s.withDev d)) (if_neg (mt s.dev.i3cAddressed_iff.1 h))

/-- A read under the target's address gives bytes of the map from the pointer on, which moves past them. -/
theorem exec_i3cPrivateRead_addressed (h : s.dev.i3cAddressed) (n : Nat) : exec (.i3cPrivateRead n) s =
    .next (s.withDev { s.dev.send (.i3c ((List.range n).map fun i =>
        s.dev.sidebandByte s.fuse ((s.dev.pins.i3cPtr.toNat + i) % 256))) with
      pins := { s.dev.pins with i3cPtr := s.dev.pins.i3cPtr + BitVec.ofNat 8 n } }) :=
  congrArg (fun d => Host.Outcome.next (s.withDev d)) (if_pos (s.dev.i3cAddressed_iff.2 h))

theorem exec_i3cPrivateRead_same (h : ¬ s.dev.i3cAddressed) (n : Nat) : exec (.i3cPrivateRead n) s = .next s :=
  congrArg (fun d => Host.Outcome.next (s.withDev d)) (if_neg (mt s.dev.i3cAddressed_iff.1 h))

/-- The first 16 bytes of the map are DEVICE_UID. -/
theorem Dev.sidebandByte_uid (f : Fuses) (d : Dev) {k : Nat} (hk : k < 16) : d.sidebandByte f k = (toLE 16 f.uid.toNat).getD k 0 := by
  have hseen : ¬ (f.state = lcScrapped ∧ 0x20 ≤ k) := by omega
  rw [Dev.sidebandByte, if_neg hseen, if_pos hk]

/-- In SCRAPPED the map holds nothing from byte 0x20 on. -/
theorem Dev.sidebandByte_scrapped {f : Fuses} (hf : f.state = lcScrapped) (d : Dev) {k : Nat} (hk : 0x20 ≤ k) : d.sidebandByte f k = 0 :=
  if_pos ⟨hf, hk⟩

/-! ## The TAP -/

theorem exec_jtagBypass (b : Bool) :
    exec (.jtagBypass b) s = .next (s.withDev ((s.dev.jtagSelect jtagBypassCode).send (.jtag [false, b]))) := rfl

/-- An instruction whose bits the manual leaves open: it is selected, and that many bits are shifted out. -/
def Dev.jtagShift (d : Dev) (code : W8) (n : Nat) : Dev := ((d.drawBits n).2.jtagSelect code).send (.jtag (d.drawBits n).1)

theorem Dev.jtagShift_outbox (d : Dev) (code : W8) (n : Nat) : (d.jtagShift code n).outbox = d.outbox ++ [.jtag (d.drawBits n).1] := rfl

theorem Dev.jtagShift_pins (d : Dev) (code : W8) (n : Nat) : (d.jtagShift code n).pins = { d.pins with jtagInstr := code } := rfl

theorem Dev.drawBits_length (d : Dev) (n : Nat) : (d.drawBits n).1.length = n := by rw [Dev.drawBits, List.length_map, List.length_range]

theorem exec_jtagIdcode : exec .jtagIdcode s = .next (s.withDev (s.dev.jtagShift jtagIdcodeCode 32)) := rfl

theorem exec_jtagSamplePreload (bits : List Bool) : ∃ u : Dev, exec (.jtagSamplePreload bits) s = .next (s.withDev u) ∧
    u.outbox = (s.dev.jtagShift jtagSampleCode bits.length).outbox ∧
    u.pins = { s.dev.pins with jtagInstr := jtagSampleCode, boundary := bits } := ⟨_, rfl, rfl, rfl⟩

theorem exec_jtagExtest : exec .jtagExtest s = .next (s.withDev (s.dev.jtagSelect jtagExtestCode)) := rfl

/-- Whether scan dumps are allowed (R486, R490): in BLANK always. -/
theorem Dev.two_le_debugOpen (d : Dev) (lc : BitVec 4) : 2 ≤ d.debugOpen lc ↔ lc = 0 ∨ 2 ≤ d.sec.debugLevel.toNat := by
  by_cases h : lc = 0
  · simp [Dev.debugOpen, h]
  · simp only [Dev.debugOpen, h, if_false, false_or]

theorem exec_jtagScanDump_open (h : s.fuse.lc = 0 ∨ 2 ≤ s.dev.sec.debugLevel.toNat) :
    exec .jtagScanDump s = .next (s.withDev (s.dev.jtagShift jtagScanCode 64)) :=
  congrArg (fun d => Host.Outcome.next (s.withDev d)) (if_pos ((Dev.two_le_debugOpen ..).2 h))

theorem exec_jtagScanDump_shut (h : ¬ (s.fuse.lc = 0 ∨ 2 ≤ s.dev.sec.debugLevel.toNat)) :
    exec .jtagScanDump s = .next (s.withDev ((s.dev.jtagSelect jtagBypassCode).send (.jtag [false]))) :=
  congrArg (fun d => Host.Outcome.next (s.withDev d)) (if_neg (mt (Dev.two_le_debugOpen ..).1 h))

end

end Sys2Proof.Machine

namespace Sys2Proof.Proofs

open Sys2Proof.Machine

/-- Settles O57: each command of the sideband acts or leaves the device by its one condition, and each instruction of the TAP selects
itself and shifts. -/
theorem sidebandAndTap : Obligations.SidebandAndTap := by
  intro s pins q free addressed
  refine ⟨fun a => ⟨fun h => ?taken, fun h => ?kept⟩, fun p n => ⟨fun h => ?deaf, fun h => ?served⟩,
    fun k hk => Dev.sidebandByte_uid s.fuse s.dev hk, fun k hk hf => Dev.sidebandByte_scrapped hf s.dev hk, exec_jtagBypass,
    ⟨_, _, exec_jtagIdcode, Dev.jtagShift_outbox .., Dev.drawBits_length .., Dev.jtagShift_pins ..⟩, fun bits => ?preload,
    exec_jtagExtest, fun hlc hlevel => exec_jtagScanDump_shut (not_or.2 ⟨hlc, not_le.2 hlevel⟩),
    fun h => ⟨_, _, exec_jtagScanDump_open h, Dev.jtagShift_outbox .., Dev.jtagShift_pins ..⟩⟩
  case taken => exact ⟨by rw [exec_setdasa, Dev.takeAddress_free h], by rw [exec_entdaa_free h, Dev.takeAddress_free h]; rfl⟩
  case kept => exact ⟨by rw [exec_setdasa, Dev.takeAddress_same h, State.withDev_same], exec_entdaa_same h a⟩
  case deaf => exact ⟨exec_i3cPrivateWrite_same h p, exec_i3cPrivateRead_same h n⟩
  case served => exact ⟨exec_i3cPrivateWrite_addressed h p, exec_i3cPrivateRead_addressed h n⟩
  case preload =>
    obtain ⟨u, hexec, hout, hpins⟩ := exec_jtagSamplePreload (s := s) bits
    exact ⟨u, _, hexec, hpins, hout.trans (Dev.jtagShift_outbox ..), Dev.drawBits_length ..⟩

end Sys2Proof.Proofs
end

section
/-!
SUPPORT. The settings record's two copies (R516, R522, R523): what a write leaves in the copy it goes to, and in the other.
-/

namespace Sys2Proof.Machine

open Sys2Proof

/-! ## The two copies -/

@[simp] theorem Retain.copy_setCopy (r : Retain) (k : Bool) (x : Record) : (r.setCopy k x).copy k = x := by cases k <;> rfl

@[simp] theorem Retain.copy_setCopy_other (r : Retain) (k : Bool) (x : Record) : (r.setCopy k x).copy (!k) = r.copy (!k) := by
  cases k <;> rfl

@[simp] theorem Retain.setCopy_writing (r : Retain) (k : Bool) (x : Record) : (r.setCopy k x).writing = r.writing := by cases k <;> rfl
@[simp] theorem Retain.setCopy_changed (r : Retain) (k : Bool) (x : Record) : (r.setCopy k x).changed = r.changed := by cases k <;> rfl

@[simp] theorem Retain.setCopy_writeAsked (r : Retain) (k : Bool) (x : Record) : (r.setCopy k x).writeAsked = r.writeAsked := by
  cases k <;> rfl

/-! ## A write begins, and ends (R522) -/

/-- The copy that a write of the record brings. -/
def Dev.nextRecord (f : Fuses) (d : Dev) : Record := (d.newRecord f ((d.retain.copy (!d.retain.target)).seq + 1)).1

/-- The settings store once a write of a copy has begun. -/
def Retain.begun (r : Retain) (x : Record) : Retain :=
  { r with changed := false, writeAsked := false, writing := some (r.target, x) }.setCopy r.target
    { r.copy r.target with valid := false, reason := 7 }

theorem Dev.startWrite_retain (f : Fuses) (d : Dev) : (d.startWrite f).retain = d.retain.begun (d.nextRecord f) := rfl

/-- The settings store once a write of a copy has ended. -/
def Retain.ended (r : Retain) (k : Bool) (x : Record) : Retain := { r with writing := none, lastDigest := x.digest }.setCopy k x

theorem Dev.endWrite_idle {d : Dev} (h : d.retain.writing = none) : d.endWrite = d := by simp only [Dev.endWrite, h]

theorem Dev.endWrite_retain {d : Dev} {k : Bool} {x : Record} (h : d.retain.writing = some (k, x)) :
    d.endWrite.retain = d.retain.ended k x := by
  simp only [Dev.endWrite, h]
  rw [Dev.count_frame]
  rfl

section
variable {s : State}

/-- A write can begin: one is due, none is in progress, and the device is in no reset. -/
theorem settingsWrite_due_iff (d : Dev) : (d.retain.changed && d.retain.writing.isNone && !d.dev.inReset) = true ↔
    d.retain.changed = true ∧ d.retain.writing = none ∧ d.dev.inReset = false := by
  simp [and_assoc]

theorem exec_settingsWrite_begins (h : s.dev.retain.changed = true ∧ s.dev.retain.writing = none ∧ s.dev.dev.inReset = false) :
    exec .settingsWrite s = .next (s.withDev (s.dev.startWrite s.fuse)) :=
  congrArg (fun d => Host.Outcome.next (s.withDev d)) (if_pos ((settingsWrite_due_iff s.dev).2 h))

theorem exec_settingsWrite_same (h : ¬ (s.dev.retain.changed = true ∧ s.dev.retain.writing = none ∧ s.dev.dev.inReset = false)) :
    exec .settingsWrite s = .next s :=
  congrArg (fun d => Host.Outcome.next (s.withDev d)) (if_neg (mt (settingsWrite_due_iff s.dev).1 h))

theorem exec_settingsWriteDone : exec .settingsWriteDone s = .next (s.withDev s.dev.endWrite) := rfl

end

end Sys2Proof.Machine

namespace Sys2Proof.Proofs

open Sys2Proof.Machine

/-- Settles O45: a write begins and ends as `Retain.begun` and `Retain.ended` say, which touch one copy alone. -/
theorem settingsAreWrittenCopyByCopy : Obligations.SettingsAreWrittenCopyByCopy := by
  refine ⟨fun s => ⟨fun h => exec_settingsWrite_same ?notDue, fun hchanged hidle hreset => ?begins⟩,
    fun s => ⟨fun h => ?idle, fun k x h => ?ends⟩, fun s => ⟨rfl, rfl⟩⟩
  case notDue =>
    rintro ⟨hchanged, hidle, hreset⟩
    simp [hchanged, hidle, hreset] at h
  case begins =>
    refine ⟨_, s.dev.nextRecord s.fuse, exec_settingsWrite_begins ⟨hchanged, hidle, hreset⟩, ?_⟩
    rw [Dev.startWrite_retain]
    refine ⟨Retain.setCopy_writing .., Retain.setCopy_changed .., Retain.setCopy_writeAsked .., rfl, rfl, rfl, rfl, rfl, rfl, ?_,
      Retain.copy_setCopy_other ..⟩
    rw [Retain.begun, Retain.copy_setCopy]
  case idle => rw [exec_settingsWriteDone, Dev.endWrite_idle h, State.withDev_same]
  case ends =>
    refine ⟨_, exec_settingsWriteDone, ?_⟩
    rw [Dev.endWrite_retain h]
    exact ⟨Retain.setCopy_writing .., Retain.copy_setCopy .., Retain.copy_setCopy_other ..⟩

end Sys2Proof.Proofs
end

section
/-!
The SPDM responder (R499 to R501, R532): what the gate of a request makes of it in its turn, and the response of each request.
-/

namespace Sys2Proof.Proofs

open Sys2Proof.Machine Sys2Proof.Claims

/-! ## The gate (R500, R532) -/

section
variable {s : State} {q : MgmtReq} {c : Instr} {code : W8} {op : Asker → Dev → Dev}

theorem not_inWarm_of_open {d : Dev} (h : d.mgmtFenced = false) : d.dev.inWarm = false := by
  simp only [Dev.mgmtFenced, Bool.or_eq_false_iff] at h
  exact h.1.2

theorem spdmGate_open {d : Dev} (h : d.mgmtFenced = false) (v : Variant) (measure : Bool) (op : Asker → Dev → Dev) (a : Asker) :
    Dev.spdmGate v measure op a d = op a d := by
  simp [Dev.spdmGate, h, not_inWarm_of_open h]

theorem spdmGate_fenced {d : Dev} (h : d.mgmtFenced = true) (v : Variant) (op : Asker → Dev → Dev) (a : Asker) :
    Dev.spdmGate v false op a d = d.mgmtReply v a sFenced [] := by
  simp [Dev.spdmGate, h]

theorem spdmGate_warm {d : Dev} (hw : d.dev.inWarm = true) (hr : d.dev.inReset = false) (v : Variant) (op : Asker → Dev → Dev)
    (a : Asker) : Dev.spdmGate v true op a d = d.spdmFail v a errBusy 0 := by
  simp [Dev.spdmGate, hw, hr]

/-- A request in its turn whose gate makes an answer of it is answered so. -/
theorem onSpdm_replies (h : asksInTurn s q) (hc : exec c s = .next (s.withDev (s.dev.onSpdm s.fuse q code op))) {u : Dev}
    (hu : Dev.SameStreams (requestTaken s q) u) {st : W8} {data : List W8}
    (hgate : Dev.spdmGate s.fuse.variant (decide (code = 0xE0)) op ⟨askedOn q, q.hdr.psn⟩ (requestTaken s q) =
      u.mgmtReply s.fuse.variant ⟨askedOn q, q.hdr.psn⟩ st data) : repliesTo q (exec c s) s u st data := by
  rw [repliesTo, hc, onSpdm_here s.fuse code op (arrives_here h.2.1), Dev.onRequest_inTurn _ _ _ h, hgate]
  rw [hgate]
  exact Dev.mgmtReply_unacked _ _ _ (.inl (hu.reaches (requestTaken_reaches h)))

/-- The first bytes of a response: its version and its code (R499). -/
def spdmMessage (code : W8) (body : List W8) : List W8 := (if code = 0x04 then 0x10 else 0x12) :: code :: body

/-- Outside a reset a request in its turn is answered by its operation's response. -/
theorem onSpdm_says (h : asksInTurn s q) (hf : s.dev.mgmtFenced = false)
    (hc : exec c s = .next (s.withDev (s.dev.onSpdm s.fuse q code op))) {u : Dev} (hu : Dev.SameStreams (requestTaken s q) u)
    {answer : W8} {body : List W8}
    (hop : op ⟨askedOn q, q.hdr.psn⟩ (requestTaken s q) = u.spdmSay s.fuse.variant ⟨askedOn q, q.hdr.psn⟩ answer body) :
    repliesTo q (exec c s) s u 0 (spdmMessage answer body) :=
  onSpdm_replies h hc hu ((spdmGate_open (d := requestTaken s q) hf ..).trans hop)

/-- In a reset a request that asks no measurement is answered FENCED. -/
theorem onSpdm_fenced (h : asksInTurn s q) (hf : s.dev.mgmtFenced = true)
    (hc : exec c s = .next (s.withDev (s.dev.onSpdm s.fuse q code op))) (hcode : code ≠ 0xE0) :
    repliesTo q (exec c s) s (requestTaken s q) sFenced [] :=
  onSpdm_replies h hc (.refl _) (decide_eq_false hcode ▸ spdmGate_fenced (d := requestTaken s q) hf ..)

theorem sameStreams_drawn (d : Dev) (n : Nat) : Dev.SameStreams d { d with free := d.free + n } := .of_links rfl

end

/-- Settles O56: a request in its turn meets the gate, and behind it its own response. -/
theorem spdmAnswers : Obligations.SpdmAnswers := by
  intro q s h d tells tells'
  refine ⟨fun i n hw hr => ?warm, fun hf c hc => ?fenced, fun hf => ?answers⟩
  case warm => exact onSpdm_replies h rfl (.refl d) (spdmGate_warm (d := d) hw hr ..)
  case fenced =>
    obtain rfl | rfl | rfl | ⟨a, b, rfl⟩ | ⟨a, b, l, rfl⟩ | ⟨a, b, rfl⟩ | ⟨a, ha, rfl⟩ := hc
    case inr.inr.inr.inr.inr.inr => exact onSpdm_fenced h hf rfl ha
    all_goals exact onSpdm_fenced h hf rfl (by decide)
  case answers =>
    refine ⟨onSpdm_says h hf rfl (.refl d) rfl, ⟨9, _, onSpdm_says h hf rfl (sameStreams_drawn d 9) rfl⟩, fun asym hash => ?negotiate,
      onSpdm_says h hf rfl (.refl d) rfl, fun slot off len => ?certificate, fun slot n => ?challenge, fun i n => ?measure,
      fun code => onSpdm_says h hf rfl (.refl d) rfl⟩
    case negotiate =>
      split
      case isTrue hboth => exact ⟨0, _, onSpdm_says h hf rfl (sameStreams_drawn d 0) (if_pos hboth)⟩
      case isFalse hnot => exact onSpdm_says h hf rfl (.refl d) (if_neg hnot)
    case certificate =>
      intro chain part
      split
      case isTrue hout => exact onSpdm_says h hf rfl (.refl d) (if_pos hout)
      case isFalse hin => exact onSpdm_says h hf rfl (.refl d) (if_neg hin)
    case challenge =>
      split
      case isTrue hslot => exact ⟨32, _, onSpdm_says h hf rfl (sameStreams_drawn d 32) (if_neg (not_not.2 hslot))⟩
      case isFalse hslot => exact onSpdm_says h hf rfl (.refl d) (if_pos hslot)
    case measure =>
      split
      case isTrue hindex =>
        have hin : ¬ (9 < i.toNat ∧ i ≠ 0xFF) := fun ⟨hlt, hne⟩ => hindex.elim (not_le.2 hlt) hne
        exact ⟨32, _, onSpdm_says h hf rfl (sameStreams_drawn d 32) (if_neg hin)⟩
      case isFalse hindex =>
        obtain ⟨hlt, hne⟩ := not_or.1 hindex
        exact onSpdm_says h hf rfl (.refl d) (if_pos ⟨not_le.1 hlt, hne⟩)

end Sys2Proof.Proofs
end

section
/-!
SUPPORT. Tokens as they arrive (R484, R489, R531): what an answer and an acknowledgement leave of the security state, and what a token in its
turn does.
-/

namespace Sys2Proof.Machine

open Sys2Proof Sys2Proof.Claims

/-! ## Answers leave the security state alone -/

theorem Dev.sec_of_sansTraffic {d e : Dev} (h : e.sansTraffic = d.sansTraffic) : e.sec = d.sec := congrArg (fun x => x.1.sec) h

@[simp] theorem Dev.sendAck_sec (v : Variant) (d : Dev) (r : StreamRef) : (d.sendAck v r).sec = d.sec :=
  Dev.sec_of_sansTraffic (d := d.onNim (streamKey r) fun y => { y with unacked := 0 }) (Dev.respond_sansTraffic ..)

@[simp] theorem Dev.sendAck_expected (v : Variant) (d : Dev) (r : StreamRef) :
    ((d.sendAck v r).nim (streamKey r)).expected = (d.nim (streamKey r)).expected := by
  rw [Dev.sendAck, Dev.nimField_of_sansTraffic (Dev.respond_sansTraffic ..) NimStream.expected, Dev.nim_onNim]

@[simp] theorem Dev.mgmtSay_sec (v : Variant) (d : Dev) (a : Asker) (op st : W8) (data : List W8) :
    (d.mgmtSay v a op st data).sec = d.sec := by
  by_cases hd : d.reaches a.ref
  · rw [Dev.mgmtSay_reaches v op st data hd, Dev.sec_of_sansTraffic (Dev.respond_sansTraffic ..)]
    rfl
  · rw [Dev.mgmtSay_lost v op st data hd]

@[simp] theorem Dev.mgmtReply_sec (v : Variant) (d : Dev) (a : Asker) (st : W8) (data : List W8) : (d.mgmtReply v a st data).sec = d.sec := by
  unfold Dev.mgmtReply
  split <;> exact Dev.mgmtSay_sec ..

@[simp] theorem Dev.answerToken_sec (v : Variant) (d : Dev) (a : Asker) : (d.answerToken v a).sec = d.sec := Dev.mgmtReply_sec ..

/-! ## The result of a token -/

/-- A result is stored, and a refusal counted. -/
@[simp] theorem Dev.tokenResult_sec (d : Dev) (t : Token) (r : BitVec 4) :
    (d.tokenResult t r).sec = { d.sec with tokenKind := t.kind, tokenResult := r } := by
  unfold Dev.tokenResult
  dsimp only
  split
  · rfl
  · rw [Dev.count_frame]; rfl

theorem Dev.tokenResult_links (d : Dev) (t : Token) (r : BitVec 4) : (d.tokenResult t r).links = d.links := by
  unfold Dev.tokenResult
  dsimp only
  split
  · rfl
  · rw [Dev.count_frame]; rfl

/-! ## A token in its turn -/

section
variable {d : Dev} (v : Variant) (t : Token) (a : Asker)

theorem Dev.takeToken_fenced (h : d.mgmtFenced = true) : d.takeToken v t a = d.mgmtReply v a sFenced [] := if_pos h

theorem Dev.takeToken_busy (h : d.mgmtFenced = false) (hb : d.sec.busy.isSome = true) :
    d.takeToken v t a = (d.tokenResult t 7).answerToken v a := by
  rw [Dev.takeToken, if_neg (by rw [h]; decide), if_pos hb]

theorem Dev.takeToken_idle (h : d.mgmtFenced = false) (hb : d.sec.busy = none) :
    d.takeToken v t a = d.onSec fun s => { s with busy := some (.token t, some a) } := by
  rw [Dev.takeToken, if_neg (by rw [h]; decide), if_neg (by rw [hb]; decide)]

end

section
variable {s : State} {q : MgmtReq}

/-- Where the run of a request in its turn gives no answer, an ACK is sent where one is due; the security state is as the run left it. -/
theorem Dev.onRequest_silent (h : asksInTurn s q) (op : W8) (bytes : List W8) {run : Asker → Dev → Dev} {f : Sec → Sec}
    (hrun : run ⟨askedOn q, q.hdr.psn⟩ (requestTaken s q) = (requestTaken s q).onSec f) :
    (s.dev.onRequest s.fuse q op bytes run).sec = f s.dev.sec ∧
      ((s.dev.onRequest s.fuse q op bytes run).nim (streamKey (askedOn q))).expected = q.hdr.psn + 1 := by
  obtain ⟨hs, ha, hm, he, hp, hce⟩ := h
  have hturn : s.dev.onRequest s.fuse q op bytes run =
      let d := (requestTaken s q).onSec f
      if 16 ≤ (d.nim (streamKey (askedOn q))).unacked then d.sendAck s.fuse.variant (askedOn q) else d := by
    rw [Dev.onRequest_expected op bytes run hs ha he hp, hce, ← hrun]
    simp only [Dev.notify, Dev.mgmtTurn, hm, if_true, Bool.or_true]
    rfl
  have hnext : ((requestTaken s q).nim (streamKey (askedOn q))).expected = q.hdr.psn + 1 := by
    rw [requestTaken, Dev.nim_onNim, hp]
  rw [hturn]
  dsimp only
  split
  · exact ⟨Dev.sendAck_sec .., (Dev.sendAck_expected ..).trans hnext⟩
  · exact ⟨rfl, hnext⟩

end

end Sys2Proof.Machine

namespace Sys2Proof.Proofs

open Sys2Proof.Machine Sys2Proof.Claims

theorem exec_tokenRow {e : MgmtReq → Token → Instr} (he : tokenRow e) (q : MgmtReq) (t : Token) (s : State) :
    exec (e q t) s = .next (s.withDev (s.dev.tokenIn s.fuse q t)) := by
  obtain rfl | rfl | rfl | rfl | rfl | rfl | rfl := he <;> rfl

/-- A token in its turn that is answered at once is answered by its run. -/
theorem tokenIn_answered {s : State} {q : MgmtReq} (h : asksInTurn s q) {t : Token} {u : Dev} {st : W8} {data : List W8}
    (hu : u.links = (requestTaken s q).links)
    (hrun : (requestTaken s q).takeToken s.fuse.variant t ⟨askedOn q, q.hdr.psn⟩ =
      u.mgmtReply s.fuse.variant ⟨askedOn q, q.hdr.psn⟩ st data) :
    s.dev.tokenIn s.fuse q t = u.mgmtReply s.fuse.variant ⟨askedOn q, q.hdr.psn⟩ st data := by
  have hgate : Dev.takeToken s.fuse.variant t ⟨askedOn q, q.hdr.psn⟩ (requestTaken s q) =
      u.mgmtReply s.fuse.variant ⟨askedOn q, q.hdr.psn⟩ st data := hrun
  rw [Dev.tokenIn, Dev.onRequest_inTurn _ _ _ h, hgate]
  rw [hgate]
  exact Dev.mgmtReply_unacked _ _ _ (.inl ((Dev.SameStreams.of_links hu).reaches (requestTaken_reaches h)))

theorem tokensArriveOneAtATime : TokensArriveOneAtATime := by
  intro e q t s he
  refine ⟨fun hs => ?scrapped, fun h => ⟨fun hf => ?fenced, fun hf hb => ?taken, fun hf hb => ⟨?busy, Dev.tokenResult_sec ..⟩⟩⟩
  case scrapped => rw [exec_tokenRow he, Dev.tokenIn, Dev.onRequest_scrapped hs, State.withDev_same]
  case fenced => rw [repliesTo, exec_tokenRow he, tokenIn_answered h rfl (Dev.takeToken_fenced _ t _ hf)]
  case taken => exact ⟨_, exec_tokenRow he q t s, Dev.onRequest_silent h _ _ (Dev.takeToken_idle (d := requestTaken s q) _ t _ hf hb)⟩
  case busy =>
    rw [repliesTo, exec_tokenRow he, tokenIn_answered h (Dev.tokenResult_links ..) (Dev.takeToken_busy _ t _ hf hb)]

end Sys2Proof.Proofs
end

section
/-!
SUPPORT. The completion of a token (R482, R483, R489, R490): its result, and what each kind of token does once it is accepted.
-/

namespace Sys2Proof.Machine

open Sys2Proof

/-! ## The result -/

@[simp] theorem Dev.newNonce_sec (d : Dev) : d.newNonce.sec = { d.sec with nonce := BitVec.ofNat 256 (leNat (d.drawBytes 32).1) } := rfl

@[simp] theorem Dev.tokenEvent_sec (d : Dev) (t : Token) : (d.tokenEvent t).sec = d.sec := by rw [Dev.tokenEvent, Dev.raise_frame]

/-- The security state once a token has been judged: its result, and a new nonce (R489). -/
def Sec.judged (s : Sec) (t : Token) (r : BitVec 4) (nonce : BitVec 256) : Sec :=
  { s with tokenKind := t.kind, tokenResult := r, nonce := nonce }

theorem Dev.judged_sec (d : Dev) (t : Token) (r : BitVec 4) :
    ∃ nonce : BitVec 256, (d.tokenResult t r).newNonce.sec = d.sec.judged t r nonce :=
  ⟨_, by rw [Dev.newNonce_sec, Dev.tokenResult_sec]; rfl⟩

section
variable (t : Token) (a : Option Asker) (f : Fuses) {d : Dev}

theorem completeToken_refused (h : tokenCheck t f d.sec.nonce d.sec.armed ≠ 0) : ∃ (u : Dev) (nonce : BitVec 256),
    completeToken t a f d = (f, u) ∧ u.sec = d.sec.judged t (tokenCheck t f d.sec.nonce d.sec.armed) nonce := by
  obtain ⟨nonce, hsec⟩ := d.judged_sec t (tokenCheck t f d.sec.nonce d.sec.armed)
  cases a with
  | none => exact ⟨_, nonce, if_neg h, hsec⟩
  | some a => exact ⟨_, nonce, if_neg h, (Dev.answerToken_sec ..).trans hsec⟩

theorem completeToken_accepted (h : tokenCheck t f d.sec.nonce d.sec.armed = 0) : ∃ (u : Dev) (nonce : BitVec 256),
    completeToken t a f d = tokenEffect t f u ∧ u.sec = d.sec.judged t 0 nonce := by
  obtain ⟨nonce, hsec⟩ := d.judged_sec t (tokenCheck t f d.sec.nonce d.sec.armed)
  rw [h] at hsec
  cases a with
  | none => exact ⟨_, nonce, if_pos h, by rw [Dev.tokenEvent_sec, h, hsec]⟩
  | some a => exact ⟨_, nonce, if_pos h, by rw [Dev.tokenEvent_sec, Dev.answerToken_sec, h, hsec]⟩

end

/-! ## A transition's cold reset (R482, R541) -/

@[simp] theorem Dev.transitionReset_inReset (v : Variant) (d : Dev) : (d.transitionReset v).dev.inReset = true := rfl
@[simp] theorem Dev.transitionReset_ending (v : Variant) (d : Dev) : (d.transitionReset v).retain.ending = 6 := rfl
@[simp] theorem Dev.transitionReset_busy (v : Variant) (d : Dev) : (d.transitionReset v).sec.busy = none := rfl
@[simp] theorem Dev.transitionReset_erased (v : Variant) (d : Dev) : (d.transitionReset v).sec.erased = d.sec.erased := rfl
@[simp] theorem Dev.transitionReset_identity (v : Variant) (d : Dev) : (d.transitionReset v).sec.identity = d.sec.identity := rfl

/-! ## What an accepted token does, by its kind -/

section
variable {t : Token} (f : Fuses) (d : Dev)

theorem tokenEffect_debug (h : t.kind = 1 ∨ t.kind = 2) :
    tokenEffect t f d = (f, d.onSec fun s => { s with debugLevel := t.level.setWidth 2, ticksLeft := t.validTicks.toNat }) := by
  rw [tokenEffect]
  rcases h with h | h <;> rw [h] <;> rfl

theorem tokenEffect_ownership (h : t.kind = 3) :
    tokenEffect t f d =
      ({ f.advance lcOwned with owner := f.owner.set 0 { f.owner[0] with hash := some t.keyHash } }, d.transitionReset f.variant) := by
  rw [tokenEffect, h]; rfl

theorem tokenEffect_ownerKey (h : t.kind = 4) :
    tokenEffect t f d = ({ f with owner := ownerAfter f t, ownerSigReq := f.ownerSigReq || t.policy.getLsbD 0 }, d) := by
  rw [tokenEffect, h]; rfl

theorem tokenEffect_returnAuth (h : t.kind = 5) :
    tokenEffect t f d = (f, d.onSec fun s => { s with armed := true, armedLeft := t.validTicks.toNat }) := by
  rw [tokenEffect, h]; rfl

theorem tokenEffect_returnVendor (h : t.kind = 6) :
    tokenEffect t f d = (f.advance lcReturned, d.erase.transitionReset f.variant) := by
  rw [tokenEffect, h]; rfl

/-- The identity key is erased, in OWNED with the owner's secrets, and the part is SCRAPPED after a cold reset. -/
theorem tokenEffect_scrap (h : t.kind = 7) : ∃ e : Dev, tokenEffect t f d = (f.advance lcScrapped, e.transitionReset f.variant) ∧
    e.sec.identity = false := by
  rw [tokenEffect, h]
  refine ⟨_, rfl, ?_⟩
  split <;> rfl

/-- No token leaves a command in progress. -/
theorem tokenEffect_busy (t : Token) (h : d.sec.busy = none) : (tokenEffect t f d).2.sec.busy = none := by
  unfold tokenEffect
  split
  case h_3 => exact Dev.transitionReset_busy ..
  case h_6 => exact Dev.transitionReset_busy ..
  case h_7 => exact Dev.transitionReset_busy ..
  all_goals exact h

end

end Sys2Proof.Machine

namespace Sys2Proof.Proofs

open Sys2Proof.Machine Sys2Proof.Claims

theorem tokensTakeEffect : TokensTakeEffect := by
  refine ⟨fun s h => exec_securityCommandDone_idle h, fun t a s hbusy => ?_⟩
  intro r
  have hexec := exec_securityCommandDone_busy hbusy
  simp only [SecCmd.complete] at hexec
  by_cases hr : r = 0
  · obtain ⟨u, nonce, heq, hsec⟩ := completeToken_accepted t a s.fuse (d := s.dev.onSec fun x => { x with busy := none }) hr
    rw [heq] at hexec
    have hidle : u.sec.busy = none := by rw [hsec]; rfl
    refine ⟨_, _, hexec, tokenEffect_busy s.fuse u t hidle, fun hne => absurd hr hne, fun _ hk => ?debug, fun _ hk => ?ownership,
      fun _ hk => ?ownerKey, fun _ hk => ?returnAuth, fun _ hk => ?returnVendor, fun _ hk => ?scrap⟩
    case debug =>
      rw [tokenEffect_debug _ _ hk]
      exact ⟨rfl, by rw [Dev.onSec_sec, hsec]; rfl, rfl, rfl⟩
    case ownership =>
      rw [tokenEffect_ownership _ _ hk]
      exact ⟨Fuses.lc_advance .., by simp, Dev.transitionReset_inReset .., Dev.transitionReset_ending ..⟩
    case ownerKey =>
      rw [tokenEffect_ownerKey _ _ hk]
      exact ⟨rfl, ownerAfter_get s.fuse t⟩
    case returnAuth =>
      rw [tokenEffect_returnAuth _ _ hk]
      exact ⟨rfl, rfl, rfl⟩
    case returnVendor =>
      rw [tokenEffect_returnVendor _ _ hk]
      exact ⟨Fuses.lc_advance .., Dev.transitionReset_inReset .., Dev.transitionReset_ending .., Dev.transitionReset_erased ..⟩
    case scrap =>
      obtain ⟨e, hscrap, hidentity⟩ := tokenEffect_scrap s.fuse u hk
      rw [hscrap]
      exact ⟨Fuses.lc_advance .., Dev.transitionReset_inReset .., Dev.transitionReset_ending ..,
        (Dev.transitionReset_identity ..).trans hidentity⟩
  · obtain ⟨u, nonce, heq, hsec⟩ := completeToken_refused t a s.fuse (d := s.dev.onSec fun x => { x with busy := none }) hr
    rw [heq] at hexec
    have refused {p : Prop} (h : r = 0) : p := absurd h hr
    refine ⟨_, _, hexec, ?_⟩
    dsimp only
    rw [hsec]
    exact ⟨rfl, fun _ => ⟨rfl, rfl, rfl, rfl, rfl, rfl⟩, refused, refused, refused, refused, refused, refused⟩

end Sys2Proof.Proofs
end

section
/-!
SUPPORT. Firmware control (R484, R493, R496), the times of debug levels and armed returns (R490), and manufacturing's transition (R482).
-/

namespace Sys2Proof.Machine

open Sys2Proof

/-! ## Banks (R491) -/

@[simp] theorem Sec.bank_setBank (s : Sec) (b : Bool) (m : Mem) : (s.setBank b m).bank b = m := by cases b <;> rfl
@[simp] theorem Sec.bank_setBank_other (s : Sec) (b : Bool) (m : Mem) : (s.setBank b m).bank (!b) = s.bank (!b) := by cases b <;> rfl
@[simp] theorem Sec.setBank_busy (s : Sec) (b : Bool) (m : Mem) : (s.setBank b m).busy = s.busy := by cases b <;> rfl
@[simp] theorem Sec.setBank_fwResult (s : Sec) (b : Bool) (m : Mem) : (s.setBank b m).fwResult = s.fwResult := by cases b <;> rfl
@[simp] theorem Sec.setBank_preferred (s : Sec) (b : Bool) (m : Mem) : (s.setBank b m).preferred = s.preferred := by cases b <;> rfl

/-! ## COMMIT (R496) -/

/-- A bank once its header has been cleared, if its SVN lies below the counter. -/
def clearedBelow (counter : Nat) (m : Mem) : Mem := if imgSvn m < counter then m.store 0 (List.replicate 1024 0) else m

section
variable (counter : Nat) (s : Sec) (b : Bool)

theorem Sec.invalidate_cases : s.invalidate counter b = s ∨ ∃ m, s.invalidate counter b = s.setBank b m := by
  unfold Sec.invalidate
  split
  · exact .inr ⟨_, rfl⟩
  · exact .inl rfl

theorem Sec.invalidate_bank : (s.invalidate counter b).bank b = clearedBelow counter (s.bank b) := by
  unfold Sec.invalidate clearedBelow
  split
  · exact Sec.bank_setBank ..
  · rfl

theorem Sec.invalidate_bank_other : (s.invalidate counter b).bank (!b) = s.bank (!b) := by
  obtain h | ⟨m, h⟩ := s.invalidate_cases counter b
  · rw [h]
  · rw [h, Sec.bank_setBank_other]

/-- COMMIT clears the header of each bank below the counter. -/
def Sec.clearBanks : Sec := (s.invalidate counter false).invalidate counter true

theorem Sec.clearBanks_bank : (s.clearBanks counter).bank b = clearedBelow counter (s.bank b) := by
  cases b with
  | false => exact (Sec.invalidate_bank_other counter _ true).trans (Sec.invalidate_bank ..)
  | true => exact (Sec.invalidate_bank ..).trans (congrArg (clearedBelow counter) (Sec.invalidate_bank_other counter s false))

theorem Sec.invalidate_keeps : (s.invalidate counter b).busy = s.busy ∧ (s.invalidate counter b).fwResult = s.fwResult ∧
    (s.invalidate counter b).preferred = s.preferred := by
  obtain h | ⟨m, h⟩ := s.invalidate_cases counter b <;> simp [h]

theorem Sec.clearBanks_keeps : (s.clearBanks counter).busy = s.busy ∧ (s.clearBanks counter).fwResult = s.fwResult ∧
    (s.clearBanks counter).preferred = s.preferred := by
  obtain ⟨hbusy, hresult, hpreferred⟩ := (s.invalidate counter false).invalidate_keeps counter true
  obtain ⟨hbusy', hresult', hpreferred'⟩ := s.invalidate_keeps counter false
  exact ⟨hbusy.trans hbusy', hresult.trans hresult', hpreferred.trans hpreferred'⟩

end

/-! ## A write to SEC.FW_CTRL completes (R493, R496) -/

/-- RESULT after VERIFY, where it is asked. -/
def Sec.verdict (f : Fuses) (s : Sec) (bank verify : Bool) : BitVec 3 := if verify then f.imageCheck (s.bank bank) else s.fwResult

/-- The security state after VERIFY and ACTIVATE, where each is asked. -/
def Sec.chosen (f : Fuses) (s : Sec) (bank verify activate : Bool) : Sec :=
  { s with fwResult := s.verdict f bank verify,
           preferred := if activate && decide (s.verdict f bank verify = 1) then bank else s.preferred }

theorem Sec.chosen_bank (f : Fuses) (s : Sec) (bank verify activate b : Bool) : (s.chosen f bank verify activate).bank b = s.bank b := by
  cases b <;> rfl

theorem Sec.verify_activate (f : Fuses) (s : Sec) (bank verify activate : Bool) :
    (if activate then (if verify then s.verify f bank else s).activate bank else if verify then s.verify f bank else s) =
      s.chosen f bank verify activate := by
  have hverify : (if verify then s.verify f bank else s) = { s with fwResult := s.verdict f bank verify } := by cases verify <;> rfl
  rw [hverify]
  cases activate with
  | false => rfl
  | true =>
    simp only [Sec.activate, Sec.chosen, if_true, Bool.true_and, decide_eq_true_eq]
    split <;> rfl

theorem completeFirmware_eq (f : Fuses) (d : Dev) (bank verify activate commit : Bool) :
    completeFirmware bank verify activate commit f d =
      let s := d.sec.chosen f bank verify activate
      let counter := if commit then max f.counter d.sec.svnRun else f.counter
      ({ f with counter := counter }, { d with sec := if commit then s.clearBanks counter else s }) := by
  rw [completeFirmware, Sec.verify_activate]
  cases commit <;> rfl

/-! ## Commands of firmware control and of manufacturing -/

theorem Dev.setFld_sec (d : Dev) (l : CsrLoc) (lo w n : Nat) : (d.setFld l lo w n).sec = d.sec := by rw [Dev.setFld, Dev.setReg_frame]

section
variable {f : Fuses} {d : Dev} (bank v a k : Bool)

theorem Dev.fwCommand_refused (h : d.takesCommands f = false) : d.fwCommand f bank v a k = d := by
  rw [Dev.fwCommand, h]; rfl

theorem Dev.fwCommand_busy (h : d.takesCommands f = true) (hb : d.sec.busy.isSome = true) :
    d.fwCommand f bank v a k = d.onSec fun s => { s with fwResult := 6 } := by
  rw [Dev.fwCommand, h, if_pos hb]; rfl

theorem Dev.fwCommand_taken (h : d.takesCommands f = true) (hb : d.sec.busy = none) :
    (d.fwCommand f bank v a k).sec = { d.sec with busy := some (.firmware bank v a k, none) } := by
  rw [Dev.fwCommand, h, hb]
  show (Dev.onSec _ _).sec = _
  rw [Dev.onSec_sec, Dev.setFld_sec]

end

/-- BLANK can become VENDOR: in manufacturing test, with no security command in progress and outside a reset. -/
def State.mayFuse (s : State) : Prop :=
  s.fuse.state = lcBlank ∧ s.dev.pins.testMode = true ∧ s.dev.sec.busy = none ∧ s.dev.dev.inReset = false

section
variable {s : State} (uid : BitVec 128) (hashes : List (BitVec 512))

theorem State.mayFuse_iff :
    (s.fuse.state = lcBlank ∧ s.dev.pins.testMode ∧ s.dev.sec.busy.isNone ∧ s.dev.dev.inReset = false) ↔ s.mayFuse := by
  rw [State.mayFuse, Option.isNone_iff_eq_none]

theorem exec_blankToVendor_taken (h : s.mayFuse) : exec (.blankToVendor uid hashes) s =
    .next (s.withDev { s.dev with sec := { s.dev.sec with busy := some (.toVendor uid hashes, none) } }) :=
  congrArg (fun d => Host.Outcome.next (s.withDev d)) (if_pos (State.mayFuse_iff.2 h))

theorem exec_blankToVendor_same (h : ¬ s.mayFuse) : exec (.blankToVendor uid hashes) s = .next s :=
  congrArg (fun d => Host.Outcome.next (s.withDev d)) (if_neg (mt State.mayFuse_iff.1 h))

theorem completeVendor_hash (f : Fuses) (d : Dev) (i : Fin 4) (h : i.val < hashes.length) :
    (completeVendor uid hashes f d).1.vendor[i].hash = hashes[i.val]? := by
  simp only [completeVendor, Fin.getElem_fin, Vector.getElem_ofFn, List.getElem?_eq_getElem h]

/-! ## Times (R490) -/

theorem exec_debugLevelExpiry : exec .debugLevelExpiry s = .next (if s.dev.sec.ticksLeft = 0
    then s.withDev { s.dev with sec := { s.dev.sec with debugLevel := 0 } } else s) := by
  show Host.Outcome.next (s.withDev s.dev.expireDebug) = _
  rw [Dev.expireDebug, Dev.onSec]
  split <;> rfl

theorem exec_returnArmedExpiry : exec .returnArmedExpiry s = .next (if s.dev.sec.armedLeft = 0
    then s.withDev { s.dev with sec := { s.dev.sec with armed := false } } else s) := by
  show Host.Outcome.next (s.withDev s.dev.expireReturn) = _
  rw [Dev.expireReturn, Dev.onSec]
  split <;> rfl

theorem exec_debugClose : exec .debugClose s = .next (if s.dev.mgmtFenced then s
    else s.withDev { s.dev with sec := { s.dev.sec with debugLevel := 0, ticksLeft := 0 } }) := by
  show Host.Outcome.next (s.withDev (if s.dev.mgmtFenced then s.dev else s.dev.closeDebug)) = _
  split <;> rfl

end

end Sys2Proof.Machine

namespace Sys2Proof.Proofs

open Sys2Proof.Machine Sys2Proof.Claims

/-- The three commands of firmware control are one write to SEC.FW_CTRL with its own bit set (R496). -/
theorem exec_fwCommand {c : Instr} {v a k : Bool} (hc : (c = .fwVerify ∧ (v, a, k) = (true, false, false)) ∨
    (c = .fwActivate ∧ (v, a, k) = (false, true, false)) ∨ (c = .fwCommit ∧ (v, a, k) = (false, false, true))) (s : State) :
    exec c s = .next (s.withDev (s.dev.fwCommand s.fuse (s.dev.bit (At.sec 0x00C) 3) v a k)) := by
  obtain ⟨rfl, h⟩ | ⟨rfl, h⟩ | ⟨rfl, h⟩ := hc <;> cases h <;> rfl

theorem firmwareControlAndExpiries : FirmwareControlAndExpiries := by
  refine ⟨fun c v a k s hc => ?commands, fun bank v a k x s hbusy => ?firmware,
    fun s => ⟨exec_debugLevelExpiry, exec_returnArmedExpiry, exec_debugClose⟩,
    fun uid hs s => ⟨exec_blankToVendor_taken uid hs, exec_blankToVendor_same uid hs⟩, fun uid hs x s hbusy => ?vendor⟩
  case commands =>
    rw [exec_fwCommand hc s]
    refine ⟨fun h => ?_, fun h hb => ?_, fun h hb => ⟨_, rfl, Dev.fwCommand_taken _ v a k h hb⟩⟩
    · rw [Dev.fwCommand_refused _ v a k h, State.withDev_same]
    · rw [Dev.fwCommand_busy _ v a k h hb, Dev.onSec]
  case firmware =>
    intro result counter
    have hexec := exec_securityCommandDone_busy hbusy
    simp only [SecCmd.complete, completeFirmware_eq] at hexec
    refine ⟨_, hexec, ?_⟩
    cases k with
    | false =>
      exact ⟨rfl, rfl, rfl, fun b => (Sec.chosen_bank ..).trans (if_neg fun h => Bool.false_ne_true h.1).symm⟩
    | true =>
      have hbank := Sec.clearBanks_bank counter (Sec.chosen s.fuse { s.dev.sec with busy := none } bank v a)
      obtain ⟨hidle, hresult, hpreferred⟩ := Sec.clearBanks_keeps counter (Sec.chosen s.fuse { s.dev.sec with busy := none } bank v a)
      refine ⟨hidle, hresult, hpreferred, fun b => (hbank b).trans ?_⟩
      rw [Sec.chosen_bank, clearedBelow]
      simp only [true_and]
      rfl
  case vendor =>
    have hexec := exec_securityCommandDone_busy hbusy
    exact ⟨_, _, hexec, Fuses.lc_advance .., rfl, completeVendor_hash uid hs s.fuse _, Dev.transitionReset_identity ..,
      Dev.transitionReset_inReset .., Dev.transitionReset_ending ..⟩

/-- Settles O46: a token is taken or answered as its gate says, a completion does what its command's kind says, and each time ends by its
own count. -/
theorem securityCommands : Obligations.SecurityCommands := ⟨tokensArriveOneAtATime, tokensTakeEffect, firmwareControlAndExpiries⟩

end Sys2Proof.Proofs
end

section
/-!
SUPPORT. What leaves the ledger's count of mismatches alone (R540): all that a recovery, a device warm reset, a takeover and a retrain do.
-/

namespace Sys2Proof.Machine

open Sys2Proof

/-! ## Shared operations -/

theorem Dev.mismatches_of_sansMemory {d e : Dev} (h : e.sansMemory = d.sansMemory) : e.ledgerMismatches = d.ledgerMismatches :=
  congrArg (fun x => x.1.ledgerMismatches) h

/-- A fold whose every step leaves the count alone does so as a whole. -/
theorem Dev.foldl_mismatches {α : Type} {f : Dev → α → Dev} (h : ∀ d a, (f d a).ledgerMismatches = d.ledgerMismatches) (as : List α)
    (d : Dev) : (as.foldl f d).ledgerMismatches = d.ledgerMismatches := foldl_keeps Dev.ledgerMismatches f h as d

@[simp] theorem Dev.setReg_mismatches (d : Dev) (l : CsrLoc) (w : W32) : (d.setReg l w).ledgerMismatches = d.ledgerMismatches := by
  rw [Dev.setReg_frame]
@[simp] theorem Dev.count_mismatches (d : Dev) (l : CsrLoc) (lo w n : Nat) : (d.count l lo w n).ledgerMismatches = d.ledgerMismatches :=
  Dev.setReg_mismatches ..
@[simp] theorem Dev.raise_mismatches (d : Dev) (c : Nat) (i : EventInfo) : (d.raise c i).ledgerMismatches = d.ledgerMismatches := by
  rw [Dev.raise_frame]

@[simp] theorem Dev.moveUnit_mismatches (v : Variant) (d : Dev) (u : BitVec 16) (st : BitVec 4) :
    (d.moveUnit v u st).ledgerMismatches = d.ledgerMismatches := by
  unfold Dev.moveUnit
  dsimp only
  split
  · split
    · exact Dev.raise_mismatches ..
    · rfl
  · rfl

@[simp] theorem Dev.physStore_mismatches (v : Variant) (d : Dev) (a : Nat) (bytes : List W8) :
    (d.physStore v a bytes).d.ledgerMismatches = d.ledgerMismatches := Dev.mismatches_of_sansMemory (Dev.physStore_sansMemory ..)

/-! ## The journal and the end of an instruction (R97, R376) -/

@[simp] theorem Dev.jrnLose_mismatches (d : Dev) : d.jrnLose.ledgerMismatches = d.ledgerMismatches := Dev.count_mismatches ..

@[simp] theorem Dev.jrnPut_mismatches (v : Variant) (d : Dev) (bytes : List W8) :
    (d.jrnPut v bytes).ledgerMismatches = d.ledgerMismatches := by
  unfold Dev.jrnPut; dsimp only; split <;> simp

@[simp] theorem Dev.journal_mismatches (v : Variant) (d : Dev) (type units : Nat) (step : W64) (rep : Bool) (payload : List W8) :
    (d.journal v type units step rep payload).ledgerMismatches = d.ledgerMismatches := by
  unfold Dev.journal Dev.journaled
  dsimp only
  split_ifs <;> simp

@[simp] theorem Dev.trace_mismatches (v : Variant) (d : Dev) (t : TileRef) (engine opcode : Nat) (pc : W16) (st : W8) (detail : W32) :
    (d.trace v t engine opcode pc st detail).ledgerMismatches = d.ledgerMismatches := by
  unfold Dev.trace
  dsimp only
  split
  · exact Dev.journal_mismatches ..
  · rfl

theorem Dev.reachHead_mismatches (d : Dev) (t : TileRef) : (d.reachHead t).ledgerMismatches = d.ledgerMismatches := by
  unfold Dev.reachHead
  dsimp only
  split
  · rfl
  · split <;> rfl

@[simp] theorem Dev.finish_mismatches (d : Dev) (t : TileRef) (q : Queued) (o : Outcome) :
    (d.finish t q o).ledgerMismatches = d.ledgerMismatches := by
  unfold Dev.finish Dev.queueMoved
  dsimp only
  split
  · exact Dev.reachHead_mismatches ..
  · rfl

/-! ## Fences (R440) -/

theorem Dev.abandonWindows_mismatches (v : Variant) (d : Dev) (n : Nat) : (d.abandonWindows v n).ledgerMismatches = d.ledgerMismatches := by
  refine Dev.foldl_mismatches (fun x w => ?_) _ d
  split
  · rfl
  · exact (Dev.journal_mismatches ..).trans (Dev.count_mismatches ..)

theorem Dev.oxFinish_mismatches (v : Variant) (d : Dev) (n : Nat) (c : OxCmd) (st : W8) (detail : W32) (prior : W64) :
    (d.oxFinish v n c st detail prior).ledgerMismatches = d.ledgerMismatches := by
  have hcount : ∀ e : Dev, (e.oxCount n st).ledgerMismatches = e.ledgerMismatches := by
    intro e
    unfold Dev.oxCount
    dsimp only
    split_ifs <;> simp
  simp [Dev.oxFinish, hcount]

theorem Dev.stopOx_mismatches (v : Variant) (d : Dev) (n : Nat) (st : W8) : (d.stopOx v n st).ledgerMismatches = d.ledgerMismatches :=
  Dev.foldl_mismatches (fun d c => d.oxFinish_mismatches v n c st 0 0) _ _

theorem Dev.skipSector_mismatches (d : Dev) (n : Nat) : (d.skipSector n).ledgerMismatches = d.ledgerMismatches := by
  unfold Dev.skipSector
  dsimp only
  exact Dev.foldl_mismatches (fun d k => Dev.setTile_ledgerMismatches ..) _ d

theorem Dev.moveMembers_mismatches (v : Variant) (d : Dev) (n : Nat) (a b : BitVec 4) :
    (d.moveMembers v n a b).ledgerMismatches = d.ledgerMismatches := by
  refine Dev.foldl_mismatches (fun d u => ?_) _ d
  split
  · exact Dev.moveUnit_mismatches ..
  · rfl

theorem Dev.fence_mismatches (v : Variant) (d : Dev) (n : Nat) : (d.fence v n).ledgerMismatches = d.ledgerMismatches := by
  unfold Dev.fence
  dsimp only
  rw [Dev.moveMembers_mismatches, Dev.skipSector_mismatches, Dev.onSector_ledgerMismatches, Dev.stopOx_mismatches,
    Dev.abandonWindows_mismatches, Dev.onHub_ledgerMismatches]

theorem Dev.fences_mismatches (v : Variant) (ns : List Nat) (d : Dev) :
    (ns.foldl (fun d m => d.fence v m) d).ledgerMismatches = d.ledgerMismatches :=
  Dev.foldl_mismatches (fun d m => d.fence_mismatches v m) ns d

/-! ## What a reconciliation starts (R67, R392, R441, R446) -/

theorem Dev.noteSuspects_mismatches (d : Dev) (u : BitVec 16) : (d.noteSuspects u).ledgerMismatches = d.ledgerMismatches := by
  unfold Dev.noteSuspects; split <;> rfl

theorem Dev.recover_mismatches (v : Variant) (d : Dev) (parts : BitVec 12) (cause : W8) (u : BitVec 16) (esc : Bool) :
    (d.recover v parts cause u esc).ledgerMismatches = d.ledgerMismatches := by
  unfold Dev.recover
  dsimp only
  split
  · rfl
  · rw [Dev.fences_mismatches]
    exact d.noteSuspects_mismatches u

theorem Dev.warmReset_mismatches (v : Variant) (d : Dev) (cause : W8) (u : BitVec 16) (esc : Bool) :
    (d.warmReset v cause u esc).ledgerMismatches = d.ledgerMismatches := by
  unfold Dev.warmReset
  split
  · rfl
  · exact (Dev.fences_mismatches ..).trans (d.noteSuspects_mismatches u)

theorem Dev.readEntries_mismatches (v : Variant) (k i : Nat) (d : Dev) :
    (Dev.readEntries v k i d).2.ledgerMismatches = d.ledgerMismatches := by
  have hread : ∀ a, (d.physBytes v a 64).d.ledgerMismatches = d.ledgerMismatches := fun a =>
    Dev.mismatches_of_sansMemory (Dev.physBytes_sansMemory ..)
  induction k generalizing i d with
  | zero => rfl
  | succ k ih =>
    simp only [Dev.readEntries]
    split
    · exact hread _
    · exact (ih _ _ fun a => Dev.mismatches_of_sansMemory (Dev.physBytes_sansMemory ..)).trans (hread _)

theorem Dev.collect_mismatches (v : Variant) (d : Dev) : (d.collect v).ledgerMismatches = d.ledgerMismatches := by
  unfold Dev.collect
  extract_lets e q c ahead r
  have he : e.ledgerMismatches = d.ledgerMismatches := by
    simp only [e, Dev.renewRing]
    split <;> rfl
  have hc : c.2.2.ledgerMismatches = d.ledgerMismatches := (Dev.mismatches_of_sansMemory (Dev.physNat_sansMemory ..)).trans he
  have hr : r.2.ledgerMismatches = d.ledgerMismatches := (Dev.readEntries_mismatches ..).trans hc
  clear_value r c e
  split
  · exact he
  · split
    · exact hc
    · split
      · exact (Dev.raise_mismatches ..).trans hc
      · exact hr

theorem Dev.takeover_mismatches (v : Variant) (d : Dev) : (d.takeover v).ledgerMismatches = d.ledgerMismatches := by
  unfold Dev.takeover
  split
  · exact Dev.warmReset_mismatches ..
  · exact (Dev.collect_mismatches ..).trans (Dev.raise_mismatches ..)

theorem Dev.retrain_mismatches (v : Variant) (d : Dev) (p : Nat) : (d.retrain v p).ledgerMismatches = d.ledgerMismatches := by
  have henable : (d.beginEnable v (isPort p)).ledgerMismatches = d.ledgerMismatches := by
    unfold Dev.beginEnable
    split
    · rfl
    · split
      · exact Dev.moveUnit_mismatches ..
      · rfl
  have hport : ∀ e : Dev, (if e.portOn v p then e.onPort p fun x => { x with up := false, lanes := 0, used := 0, paused := 0 }
      else e.onPort p (·.cleared) : Dev).ledgerMismatches = e.ledgerMismatches := by
    intro e
    split <;> rfl
  have hforget : ∀ e : Dev, ((e.forgetPort p).takeIdentity p).ledgerMismatches = e.ledgerMismatches := by
    intro e
    simp only [Dev.forgetPort]
    split <;> rfl
  have hstate : ∀ (b : Bool) (e : Dev), (if b then e.portState p else e).ledgerMismatches = e.ledgerMismatches := by
    intro b e
    split
    · exact Dev.raise_mismatches ..
    · rfl
  unfold Dev.retrain
  dsimp only
  rw [hstate, hforget, hport, henable]

/-- No reconciliation counts a mismatch. -/
theorem Dev.reconcile_mismatches (v : Variant) (d : Dev) (us : List (BitVec 16)) :
    (d.reconcile v us).ledgerMismatches = d.ledgerMismatches := by
  unfold Dev.reconcile
  extract_lets of ports parts swap rest trigger whole d1 d2 d3 d4
  have h1 : d1.ledgerMismatches = d.ledgerMismatches := Dev.foldl_mismatches (fun d p => d.retrain_mismatches v p) ports d
  have h2 : d2.ledgerMismatches = d1.ledgerMismatches := by
    simp only [d2]
    split
    · exact Dev.takeover_mismatches ..
    · rfl
  have h3 : d3.ledgerMismatches = d2.ledgerMismatches := by
    simp only [d3]
    split <;> rfl
  have h4 : d4.ledgerMismatches = d3.ledgerMismatches := by
    simp only [d4]
    split
    · rfl
    · exact Dev.recover_mismatches ..
  have hcount := h4.trans (h3.trans (h2.trans h1))
  clear_value whole
  split
  · exact hcount
  · exact (Dev.warmReset_mismatches ..).trans hcount

end Sys2Proof.Machine
end

section
/-!
SUPPORT. The unit ledger (R538, R539): what an acknowledgement and a sweep leave in the entries, what a mismatch records, and the one action
that reconciles it.
-/

namespace Sys2Proof.Machine

open Sys2Proof

/-! ## Entries -/

theorem Dev.entry_setEntry_ne (v : Variant) (d : Dev) {u w : BitVec 16} (e : LedgerEntry) (h : w ≠ u) :
    (d.setEntry v u e).entry v w = d.entry v w := Tab.look_put_ne _ _ _ _ (mt BitVec.eq_of_toNat_eq h)

/-! ## A sweep's reads (R539) -/

/-- The SEEN state that a read leaves in the entry of its unit, which an absent unit does not have. -/
def Dev.noteRead (v : Variant) (d : Dev) (r : BitVec 16 × BitVec 4) : Dev :=
  if (d.entry v r.1).state = stAbsent then d else d.setEntry v r.1 { d.entry v r.1 with seen := r.2 }

/-- The reads that show a unit in another state than the ledger, of those that the ledger checks now. -/
def Dev.mismatched (v : Variant) (d : Dev) (reads : List (BitVec 16 × BitVec 4)) : List (BitVec 16 × BitVec 4) :=
  reads.filter fun r => d.checksUnit v r.1 && !(d.entry v r.1).pending && decide ((d.entry v r.1).state ≠ r.2)

theorem exec_ledgerSweep (s : State) (reads : List (BitVec 16 × BitVec 4)) : exec (.ledgerSweep reads) s =
    let v := s.fuse.variant
    let bad := s.dev.mismatched v reads
    .next (s.withDev ((bad.foldl (fun d r => d.noteMismatch v r.1 r.2) (reads.foldl (Dev.noteRead v) s.dev)).reconcile v (bad.map (·.1)))) :=
  rfl

section
variable (v : Variant) (d : Dev)

theorem Dev.noteRead_ne {r : BitVec 16 × BitVec 4} {w : BitVec 16} (h : w ≠ r.1) : (d.noteRead v r).entry v w = d.entry v w := by
  unfold Dev.noteRead
  split
  · rfl
  · exact d.entry_setEntry_ne v _ h

theorem Dev.noteRead_keeps (r : BitVec 16 × BitVec 4) (w : BitVec 16) : ((d.noteRead v r).entry v w).state = (d.entry v w).state ∧
    ((d.noteRead v r).entry v w).latch = (d.entry v w).latch := by
  by_cases hw : w = r.1
  · unfold Dev.noteRead
    split
    · exact ⟨rfl, rfl⟩
    · rw [hw, Dev.entry_setEntry]
      exact ⟨rfl, rfl⟩
  · rw [Dev.noteRead_ne v d hw]
    exact ⟨rfl, rfl⟩

theorem Dev.noteRead_seen {r : BitVec 16 × BitVec 4} (h : (d.entry v r.1).state ≠ stAbsent) :
    ((d.noteRead v r).entry v r.1).seen = r.2 := by
  rw [Dev.noteRead, if_neg h, Dev.entry_setEntry]

theorem Dev.noteRead_mismatches (r : BitVec 16 × BitVec 4) : (d.noteRead v r).ledgerMismatches = d.ledgerMismatches := by
  unfold Dev.noteRead
  split <;> rfl

variable (reads : List (BitVec 16 × BitVec 4))

theorem Dev.noteReads_state (w : BitVec 16) : ((reads.foldl (Dev.noteRead v) d).entry v w).state = (d.entry v w).state :=
  foldl_keeps (fun d : Dev => (d.entry v w).state) _ (fun d r => (d.noteRead_keeps v r w).1) reads d

theorem Dev.noteReads_latch (w : BitVec 16) : ((reads.foldl (Dev.noteRead v) d).entry v w).latch = (d.entry v w).latch :=
  foldl_keeps (fun d : Dev => (d.entry v w).latch) _ (fun d r => (d.noteRead_keeps v r w).2) reads d

theorem Dev.noteReads_mismatches : (reads.foldl (Dev.noteRead v) d).ledgerMismatches = d.ledgerMismatches :=
  Dev.foldl_mismatches (fun d r => d.noteRead_mismatches v r) reads d

theorem Dev.noteReads_ne {w : BitVec 16} (h : ∀ r ∈ reads, w ≠ r.1) : (reads.foldl (Dev.noteRead v) d).entry v w = d.entry v w := by
  induction reads generalizing d with
  | nil => rfl
  | cons r reads ih =>
    rw [List.foldl_cons, ih _ fun x hx => h x (List.mem_cons_of_mem r hx)]
    exact Dev.noteRead_ne v d (h r List.mem_cons_self)

/-- Of reads of different units, each leaves what it saw in the entry of its unit. -/
theorem Dev.noteReads_seen (hdistinct : reads.Pairwise (fun a b => a.1 ≠ b.1)) {r : BitVec 16 × BitVec 4} (hr : r ∈ reads)
    (hthere : (d.entry v r.1).state ≠ stAbsent) : ((reads.foldl (Dev.noteRead v) d).entry v r.1).seen = r.2 := by
  induction reads generalizing d with
  | nil => exact absurd hr List.not_mem_nil
  | cons a reads ih =>
    obtain ⟨hfirst, hrest⟩ := List.pairwise_cons.1 hdistinct
    rw [List.foldl_cons]
    rcases List.mem_cons.1 hr with rfl | hmem
    · rw [Dev.noteReads_ne v _ reads hfirst]
      exact Dev.noteRead_seen v d hthere
    · exact ih (d.noteRead v a) hrest hmem (by rwa [(d.noteRead_keeps v a r.1).1])

/-- Where every read shows what the ledger says, none is a mismatch. -/
theorem Dev.mismatched_nil (h : ∀ r ∈ reads, (d.entry v r.1).state = r.2) : d.mismatched v reads = [] := by
  refine List.filter_eq_nil_iff.2 fun r hr => ?_
  simp [h r hr]

theorem Dev.reconcile_nil : d.reconcile v [] = d := rfl

end

/-! ## A mismatch (R539, R540) -/

/-- The ledger checks a unit now: it is present, not the custody die, and in no partition that is recovering. -/
def Dev.Checked (v : Variant) (d : Dev) (u : BitVec 16) : Prop :=
  (d.entry v u).state ≠ stAbsent ∧ unitKind u ≠ 0x17 ∧ ∀ n, unitPart u = some n → d.gander.recovery n = none

theorem Dev.checksUnit_iff (v : Variant) (d : Dev) (u : BitVec 16) : d.checksUnit v u = true ↔ d.Checked v u := by
  unfold Dev.checksUnit Dev.Checked
  cases unitPart u <;> simp [and_assoc]

/-- One more mismatch, up to 0xFF (R540). -/
def counted (n : W8) : W8 := if n = 0xFF then 0xFF else n + 1

theorem Dev.raise_setReg_frame (d : Dev) (c : Nat) (i : EventInfo) (l : CsrLoc) (w : W32) :
    ∃ (ev : Events) (file : Tab W32), (d.raise c i).setReg l w = { d with events := ev, csr := file } :=
  ⟨_, _, (Dev.setReg_frame ..).trans (congrArg (fun x : Dev => { x with csr := ((d.raise c i).setReg l w).csr }) (Dev.raise_frame ..))⟩

/-- A mismatch is counted and reported, and the unit's latch set to the ledger's state. -/
theorem Dev.noteMismatch_frame (v : Variant) (d : Dev) (u : BitVec 16) (seen : BitVec 4) : ∃ (ev : Events) (file : Tab W32),
    d.noteMismatch v u seen = { d with events := ev, csr := file, ledgerMismatches := counted d.ledgerMismatches }.setEntry v u
      { d.entry v u with latch := (d.entry v u).state, pending := false } := by
  obtain ⟨ev, file, h⟩ := d.raise_setReg_frame 0x13
    { partition := (unitPart u).getD 0xFF, unit := u.toNat,
      arg := [(d.entry v u).state.setWidth 8, seen.setWidth 8, BitVec.ofNat 8 (d.actionFor u)] }
    (At.ledger 0x014) ((d.entry v u).state ++ seen ++ 0#8 ++ u)
  refine ⟨ev, file, ?_⟩
  unfold Dev.noteMismatch
  dsimp only
  rw [h]
  rfl

section
variable {s : State} {u : BitVec 16}

theorem exec_ledgerAckTimeout_same (h : (s.dev.entry s.fuse.variant u).pending = false ∨ ¬ s.dev.Checked s.fuse.variant u) :
    exec (.ledgerAckTimeout u) s = .next s := by
  refine congrArg (fun d => Host.Outcome.next (s.withDev d)) (if_neg ?_)
  rw [Bool.and_eq_true, Dev.checksUnit_iff]
  rintro ⟨hpending, hchecked⟩
  exact h.elim (fun hno => absurd (hno.symm.trans hpending) Bool.false_ne_true) fun hno => hno hchecked

theorem exec_ledgerAckTimeout_mismatch (hp : (s.dev.entry s.fuse.variant u).pending = true) (hc : s.dev.Checked s.fuse.variant u) :
    exec (.ledgerAckTimeout u) s =
      .next (s.withDev ((s.dev.noteMismatch s.fuse.variant u (s.dev.entry s.fuse.variant u).latch).reconcile s.fuse.variant [u])) :=
  congrArg (fun d => Host.Outcome.next (s.withDev d)) (if_pos (Bool.and_eq_true_iff.2 ⟨hp, (Dev.checksUnit_iff ..).2 hc⟩))

theorem exec_ledgerSweep_mismatch {seen : BitVec 4} (hp : (s.dev.entry s.fuse.variant u).pending = false)
    (hs : (s.dev.entry s.fuse.variant u).state ≠ seen) (hc : s.dev.Checked s.fuse.variant u) :
    exec (.ledgerSweep [(u, seen)]) s =
      .next (s.withDev (((s.dev.noteRead s.fuse.variant (u, seen)).noteMismatch s.fuse.variant u seen).reconcile s.fuse.variant [u])) := by
  have hbad : s.dev.mismatched s.fuse.variant [(u, seen)] = [(u, seen)] := by
    simp [Dev.mismatched, (Dev.checksUnit_iff ..).2 hc, hp, hs]
  rw [exec_ledgerSweep]
  dsimp only
  rw [hbad]
  rfl

/-- A device `e` as a mismatch of a unit leaves `d` before it is reconciled. -/
structure Dev.Noted (v : Variant) (u : BitVec 16) (d e : Dev) : Prop where
  gander : e.gander = d.gander
  seq : e.seq = d.seq
  dev : e.dev = d.dev
  count : e.ledgerMismatches = counted d.ledgerMismatches
  latch : (e.entry v u).latch = (d.entry v u).state
  pending : (e.entry v u).pending = false

theorem Dev.noteMismatch_noted (v : Variant) (d : Dev) (u : BitVec 16) (seen : BitVec 4) : Dev.Noted v u d (d.noteMismatch v u seen) := by
  obtain ⟨ev, file, h⟩ := d.noteMismatch_frame v u seen
  rw [h]
  exact ⟨rfl, rfl, rfl, rfl, by rw [Dev.entry_setEntry], by rw [Dev.entry_setEntry]⟩

/-- What a read leaves is no part of what a mismatch is told by. -/
theorem Dev.Noted.of_noteRead {v : Variant} {d e : Dev} {r : BitVec 16 × BitVec 4} (h : Dev.Noted v u (d.noteRead v r) e) :
    Dev.Noted v u d e := by
  have hsame : d.noteRead v r = { d with ledger := (d.noteRead v r).ledger } := by
    unfold Dev.noteRead
    split <;> rfl
  have hstate := (d.noteRead_keeps v r u).1
  obtain ⟨hgander, hseq, hdev, hcount, hlatch, hpending⟩ := h
  rw [hstate] at hlatch
  rw [hsame] at hgander hseq hdev hcount
  exact ⟨hgander, hseq, hdev, hcount, hlatch, hpending⟩

/-- A sweep that finds one unit in another state, and a timeout, note the mismatch and reconcile it. -/
theorem exec_mismatch {seen : BitVec 4} {c : Instr} (hc : s.dev.Checked s.fuse.variant u)
    (h : (c = .ledgerSweep [(u, seen)] ∧ (s.dev.entry s.fuse.variant u).pending = false ∧ (s.dev.entry s.fuse.variant u).state ≠ seen) ∨
      (c = .ledgerAckTimeout u ∧ (s.dev.entry s.fuse.variant u).pending = true)) :
    ∃ d : Dev, exec c s = .next (s.withDev (d.reconcile s.fuse.variant [u])) ∧ Dev.Noted s.fuse.variant u s.dev d := by
  obtain ⟨rfl, hp, hs⟩ | ⟨rfl, hp⟩ := h
  · exact ⟨_, exec_ledgerSweep_mismatch hp hs hc, (Dev.noteMismatch_noted ..).of_noteRead⟩
  · exact ⟨_, exec_ledgerAckTimeout_mismatch hp hc, Dev.noteMismatch_noted ..⟩

end

/-! ## The action of a mismatch (R539) -/

section
variable {v : Variant} {d : Dev} {u : BitVec 16}

theorem Dev.actionFor_part {n : Nat} (h : unitPart u = some n) : d.actionFor u = 0 := by simp only [Dev.actionFor, h]

theorem unitPart_sequencer (h : unitKind u = 0x14) : unitPart u = none := by simp only [unitPart, h]

theorem Dev.actionFor_port (h : unitKind u = 0x11 ∨ unitKind u = 0x13) : d.actionFor u = 1 := by
  rcases h with h | h <;> simp only [Dev.actionFor, unitPart, h]

theorem Dev.actionFor_active (h : unitKind u = 0x14) (hi : unitIndex u = d.activeCore) : d.actionFor u = 2 := by
  simp only [Dev.actionFor, unitPart_sequencer h, h, hi, if_true]

theorem Dev.actionFor_standby (h : unitKind u = 0x14) (hi : unitIndex u ≠ d.activeCore) : d.actionFor u = 3 := by
  simp only [Dev.actionFor, unitPart_sequencer h, h, hi, if_false]

theorem Dev.actionFor_other (hn : unitPart u = none) (hk : unitKind u ∉ [0x11, 0x12, 0x13, 0x14]) : d.actionFor u = 4 := by
  simp only [List.mem_cons, List.not_mem_nil, or_false, not_or] at hk
  obtain ⟨hport, hlane, hhost, hcore⟩ := hk
  simp only [Dev.actionFor, hn]

theorem Dev.reconcile_part {n : Nat} (h : unitPart u = some n) :
    d.reconcile v [u] = if partBit n = 0 then d else d.recover v (partBit n) 0x03 u false := by
  simp [Dev.reconcile, Dev.actionFor_part h, h]

theorem Dev.reconcile_port {p : Nat} (ha : d.actionFor u = 1) (hp : d.portOfUnit u = some p) : d.reconcile v [u] = d.retrain v p := by
  simp [Dev.reconcile, ha, hp]

theorem Dev.reconcile_active (ha : d.actionFor u = 2) : d.reconcile v [u] = d.takeover v := by simp [Dev.reconcile, ha]

theorem Dev.reconcile_standby (ha : d.actionFor u = 3) : d.reconcile v [u] = d.resetStandby := by simp [Dev.reconcile, ha]

theorem Dev.reconcile_other (ha : d.actionFor u = 4) : d.reconcile v [u] = d.warmReset v 0x03 u false := by simp [Dev.reconcile, ha]

end

end Sys2Proof.Machine

namespace Sys2Proof.Proofs

open Sys2Proof.Machine Sys2Proof.Claims

theorem ledgerAck_entries (u : BitVec 16) (s : State) :
    let e := s.dev.entry s.fuse.variant u
    (e.pending = false → exec (.ledgerAck u) s = .next s) ∧
    (e.pending = true → ∃ x : Dev, exec (.ledgerAck u) s = .next (s.withDev x) ∧
      x.entry s.fuse.variant u = { e with latch := e.state, pending := false } ∧
      ∀ v, v ≠ u → x.entry s.fuse.variant v = s.dev.entry s.fuse.variant v) := by
  intro e
  refine ⟨fun h => congrArg (fun d => Host.Outcome.next (s.withDev d)) (if_neg (by rw [h]; exact Bool.false_ne_true)), fun h => ?_⟩
  exact ⟨_, congrArg (fun d => Host.Outcome.next (s.withDev d)) (if_pos h), Dev.entry_setEntry ..,
    fun w hw => Dev.entry_setEntry_ne _ _ _ hw⟩

/-- A sweep in which every read shows what the ledger says. -/
theorem ledgerSweep_agrees (reads : List (BitVec 16 × BitVec 4)) (s : State)
    (hagree : ∀ r ∈ reads, (s.dev.entry s.fuse.variant r.1).state = r.2) (hdistinct : reads.Pairwise (fun a b => a.1 ≠ b.1)) :
    ∃ x : Dev, exec (.ledgerSweep reads) s = .next (s.withDev x) ∧ x.ledgerMismatches = s.dev.ledgerMismatches ∧
      ∀ v, (x.entry s.fuse.variant v).state = (s.dev.entry s.fuse.variant v).state ∧
        (x.entry s.fuse.variant v).latch = (s.dev.entry s.fuse.variant v).latch ∧
        (∀ r ∈ reads, r.1 = v → r.2 ≠ stAbsent → (x.entry s.fuse.variant v).seen = r.2) := by
  have hexec := exec_ledgerSweep s reads
  dsimp only at hexec
  rw [Dev.mismatched_nil _ _ _ hagree, List.foldl_nil, List.map_nil, Dev.reconcile_nil] at hexec
  refine ⟨_, hexec, Dev.noteReads_mismatches .., fun w => ⟨Dev.noteReads_state .., Dev.noteReads_latch .., ?_⟩⟩
  rintro r hr rfl hthere
  exact Dev.noteReads_seen _ _ _ hdistinct hr (by rwa [hagree r hr])

/-- Settles O58: a mismatch is noted on the ledger alone, and the one action for its unit begins what that action begins anywhere. -/
theorem ledgerMatchesTheUnits : Obligations.LedgerMatchesTheUnits := by
  refine ⟨ledgerAck_entries, ledgerSweep_agrees, fun u seen c s => ?_⟩
  intro e checked
  refine ⟨fun ⟨hc, hnone⟩ => hc ▸ exec_ledgerAckTimeout_same hnone, fun hfound hchecked => ?_⟩
  obtain ⟨d, hexec, hnoted⟩ := exec_mismatch hchecked hfound
  have hcore : d.activeCore = s.dev.activeCore := by rw [Dev.activeCore, hnoted.seq, Dev.activeCore]
  refine ⟨⟨_, hexec, (Dev.reconcile_mismatches ..).trans hnoted.count, fun hk hi => ?standby, fun hk hi hready hckpt => ?active,
    fun hk => ?port, fun hk => ?host⟩, fun n hn => ?part, fun hn hk hw => ?other⟩
  case standby =>
    rw [Dev.reconcile_standby (Dev.actionFor_standby hk (hcore ▸ hi))]
    exact ⟨rfl, hnoted.latch, hnoted.pending⟩
  case active =>
    rw [Dev.reconcile_active (Dev.actionFor_active hk (hi.trans hcore.symm))]
    obtain ⟨ckpt, hsome⟩ := Option.isSome_iff_exists.1 hckpt
    rw [← hnoted.seq] at hready hsome ⊢
    exact congrArg Seq.active (Dev.takeover_standby s.fuse.variant hready hsome).2
  case port =>
    rw [Dev.reconcile_port (p := unitIndex u) (Dev.actionFor_port (.inl hk)) (by simp only [Dev.portOfUnit, hk])]
    exact (Dev.retrain_down ..).1
  case host =>
    rw [Dev.reconcile_port (p := 16) (Dev.actionFor_port (.inr hk)) (by simp only [Dev.portOfUnit, hk])]
    exact (Dev.retrain_down ..).1
  case part =>
    refine ⟨_, hexec, fun k hk hbit hfree => ?_⟩
    have hsome : partBit n ≠ 0 := fun h0 => by simp [h0] at hbit
    rw [Dev.reconcile_part hn, if_neg hsome]
    exact Dev.recover_begins _ _ _ hk hbit (by rw [hnoted.gander, hfree])
  case other =>
    refine ⟨_, hexec, ?_⟩
    rw [Dev.reconcile_other (Dev.actionFor_other hn hk)]
    exact Dev.warmReset_begins _ _ _ _ (by rw [hnoted.dev, hw])

end Sys2Proof.Proofs
end
